-- ==== Sys2Proof/Word.lean ====
section
/-! DEFINITION. The machine's word, byte and address types (R2). -/

namespace Sys2Proof

/-- A byte, the smallest addressable unit. -/
abbrev Byte := BitVec 8

/-- A 64-bit register value. -/
abbrev Word := BitVec 64

end Sys2Proof
end

