-- ==== Sys2Proof/Config.lean ====
section
/-! DEFINITION. What an implementation fixes, and the free values: constants with no body, of which nothing can be proved. -/

namespace Sys2Proof.Config

/-- How many cycles more than the next one a strand waits after a long load, a blocking form or a wait that has been
served (R160, R187: typical figures are no limits). Applied to State.fresh. Assumption log 6. -/
opaque longLatency : Nat → Nat

/-- A 64-bit value the manual leaves open, one for each fresh number. Assumption log 6. -/
opaque freeWord : Nat → BitVec 64

/-- Bytes the manual leaves open (a signature, a certificate, a random number), one string for each fresh number and
length. Assumption log 6. -/
opaque freeBits : (n : Nat) → Nat → BitVec n

/-- Whether a fetch takes the bytes its core's instruction cache holds rather than those in memory, for a cycle of a core
and an address; R218 leaves it open. Assumption log 32. -/
opaque oldCode : Nat → Nat → Nat → Bool

/-- Whether a register branch with a taken hint was fetched before its register took its present value, one for each fresh
number; R34 does not say when it is fetched. Assumption log 33. -/
opaque fetchedEarly : Nat → Bool

/-- The physical addresses of the slabs that the management core grants a loft die; R305 leaves their number and place to
its configuration. Assumption log 21. -/
opaque grantedSlabs : Nat → List Nat

end Sys2Proof.Config
end

