-- ==== Sys2Proof/Forms.lean ====
section
/-! DEFINITION. The forms an instruction word is made of: suffixes, guard and hints, operand fields (R39 to R46), and the data that an event of the table of steps brings with it. -/

namespace Sys2Proof

/-- The width suffixes W4 of R49. -/
inductive Width where | w64 | w32 | w16 | w8
  deriving DecidableEq, Repr

/-- The integer suffixes S4 of R49: signed and unsigned, 64 and 32 bits. -/
inductive IForm where | i64 | n64 | i32 | n32
  deriving DecidableEq, Repr

/-- The suffix pair .64 and .32 (R50). -/
inductive Wide where | w64 | w32
  deriving DecidableEq, Repr

/-- The suffixes .32, .16 and .8 of the extending forms (R50, R219). -/
inductive Narrow where | w32 | w16 | w8
  deriving DecidableEq, Repr

/-- The lane widths of the packed forms (R95). -/
inductive Lane where | p8 | p16
  deriving DecidableEq, Repr

/-- Signed or unsigned reading of `amin` and `amax` (R227). -/
inductive Sgn where | i | n
  deriving DecidableEq, Repr

/-- The ord code of an atomic (R227). -/
inductive Ord where | plain | acq | rel | ar
  deriving DecidableEq, Repr

/-- The scopes of R41 and R208. -/
inductive Scope where | core | barn | yard | module | system
  deriving DecidableEq, Repr

/-- The engines and matrix paths that execute commands (R248, R271, R286). -/
inductive Engine where | vector | array | row | copy | selection
  deriving DecidableEq, Repr

/-- What is wrong with a word that is no instruction, with the detail code of ILL.FORM (R47). -/
inductive Illegal where
  | opc
  | prof
  | form (detail : Nat)
  deriving DecidableEq, Repr

/-- Why a word could not be fetched (R40, R182, R363). -/
inductive FetchCause where | hole | own | none | fmt | perm | noKey | poison
  deriving DecidableEq, Repr

/-- The guard and hint fields of a word (R39): bits 85 to 76. -/
structure Hdr where
  gsns : Bool
  gidx : Fin 8
  gap  : Fin 8
  sw   : Bool
  tkn  : Bool
  stay : Bool
  deriving DecidableEq, Repr

/-- The header a source line without guard and hints gets (R51). -/
def Hdr.plain : Hdr := ⟨false, 0, 0, false, false, false⟩

/-- An operand field by its kind (R42). -/
inductive Opd where
  | x (i : Fin 16)
  | o (i : Fin 8)
  | z (i : Fin 2)
  | imm (v : BitVec 21)
  | q (i : Fin 8)
  | v (i : Fin 16)
  | m (i : Fin 8)
  | t (i : Fin 4)
  | sr (n : Fin 24)
  | b (i : Fin 4)
  | g (i : Fin 8)
  deriving DecidableEq, Repr

/-- Every operand field of a word, read by its class (R41); a field with no use is x0, zero bits (R43). -/
structure Operands where
  hd  : Hdr
  d   : Opd := .x 0
  a   : Opd := .x 0
  b   : Opd := .x 0
  imm : BitVec 48 := 0
  sc  : Scope := .core
  off : BitVec 21 := 0
  deriving DecidableEq, Repr

/-- What reaches a hub for a collective (R399): a message of this module by its index in the fabric; a contribution of a
member on another device, as its context, device, descriptor and data; or the outcome that a home on another device gives
the member waiting in a slot: a status of R399, or 4 for COLL.STEP and 5 for COLL.DUP. -/
inductive CollInput where
  | here (m : Nat)
  | peer (ctx : BitVec 12) (dev : Nat) (desc : BitVec 512) (smp : Bool) (data : List (BitVec 8))
  | outcome (u k : Nat) (status : Nat) (token prob : BitVec 32) (data : List (BitVec 8))
  deriving DecidableEq, Repr

/-- An ABANDON that reaches a home hub (R399): a message of this module, or one from another device. -/
inductive CollAbandon where
  | here (m : Nat)
  | peer (ctx : BitVec 12) (dev : Nat) (cid : BitVec 16) (step : BitVec 32)
  deriving DecidableEq, Repr

/-- A checkpoint set as the management core lays it down for a context (R400): CKSZ, the bases of slots 0 and 1 in this
device's HBM, the other devices of the set, the buddy, and the bases of the slots reserved here for other devices. -/
structure CkSetup where
  size  : Nat
  slots : List Nat
  set   : List Nat
  buddy : Option Nat
  held  : List (Nat × List Nat) := []
  deriving DecidableEq, Repr

/-- What reaches the module from outside and no row of the table of steps names: the management core's settings, its
bring-up, the training of links, and errors of memory. -/
inductive Input where
  /-- The module goes on to the next stage of its bring-up (R409). -/
  | nextStage
  /-- A host link trained, or lost (R394, R409). -/
  | hostLink (i : Nat) (up : Bool)
  /-- Function `f` of a host link mapped to a context, or to none (R394). -/
  | function (i f : Nat) (ctx : Option (BitVec 12))
  /-- A function that the host puts in D3hot, or back in D0 (R394). -/
  | functionPower (i f : Nat) (d3hot : Bool)
  /-- A device link trained (R409). -/
  | deviceLink (i : Nat)
  /-- The device number, and the link to each other device (R397, R409). -/
  | deviceGroup (device : BitVec 8) (routes : List (Nat × Nat))
  /-- PLIM in milliwatts (R406). -/
  | powerLimit (milliwatts : Nat)
  /-- A page mapped for exchange with the host: the next of BAR4 (R395). -/
  | exchangePage (ctx : BitVec 12) (page : BitVec 64)
  /-- An uncorrectable error in the ECC unit at a place (R363). -/
  | uncorrectable (place : Nat)
  /-- An error that a read of a core's local memory or of HBM through a loft core has corrected, for a context (R363). -/
  | corrected (u : Nat) (ctx : BitVec 12)
  /-- Bytes of a checkpoint copy for a slot reserved here for another device, from an offset on (R400, R401). -/
  | checkpointCopy (ctx : BitVec 12) (dev k off : Nat) (bytes : List Byte)
  /-- This module, a spare, takes the number of a failed device and loads its shard: the ranges, and the data of the
  buddy's slot (R402). -/
  | spare (device : BitVec 8) (ctx : BitVec 12) (ranges : List (Nat × Nat)) (data : List Byte)
  /-- The translation caches of a unit take the page of an address, as they do when an access misses (R184). -/
  | cachePage (u : Nat) (ctx : BitVec 12) (a : BitVec 64)
  /-- A translation cache drops an entry: a core's, or its barn's (R184). -/
  | dropPage (barn : Bool) (u i : Nat)
  deriving DecidableEq, Repr

/-- What the management core gives a context when it creates it (R155, R395, R400, R403): the root of its page tables, its
queue numbers, its exchange pages in BAR4's order, the counter sets assigned to it, and its checkpoint set. -/
structure ContextSetup where
  troot    : BitVec 41
  queues   : List Nat
  exchange : List (BitVec 64) := []
  hubCounters : Bool := false
  loftCounters : List Nat := []
  ck       : Option CkSetup := none
  deriving DecidableEq, Repr

/-- What an event of the table of steps acts on: the message, core, slot, queue, context or outside value it names.
One constructor for each row of the table that is no instruction. -/
inductive Event where
  | migrantArrival (m : Nat)
  | stayRequestAtHome (m : Nat)
  | replyArrival (m : Nat)
  | forwardingEntryLapse (u i : Nat)
  | subbyteStoreAtHome (m : Nat)
  | pushGranuleWrite (m : Nat)
  | callatArrival (m : Nat)
  | sendArrival (m : Nat)
  | jarvArrival (m : Nat)
  | handlerLockLapse (ctx : BitVec 12) (idx : BitVec 8)
  | slotSelect (u k : Nat)
  | forcedSwitch (u k : Nat)
  | stealAttempt (u victim : Nat)
  | stealGrantArrival (m : Nat)
  | stealTimeout (u : Nat)
  | stealBackoffExpiry (u : Nat)
  | budgetExhausted (u k : Nat)
  | weightReturn (m : Nat)
  | serialNoticeArrival (m : Nat)
  | notify (q : Nat) (tail : BitVec 32)
  | queueMap (q : Nat)
  | launchStart (q : Nat) (buffers : List (Nat × Nat))
  | queueIdleUnmap (q : Nat)
  | queueEvict (q : Nat)
  | qctlCreate (ctx : BitVec 12) (q : Nat) (desc : BitVec 64)
  | qctlDisable (ctx : BitVec 12) (q : Nat)
  | qctlDestroy (ctx : BitVec 12) (q : Nat)
  | completionPost
  | clockNoticeSend (die : Nat)
  | clockNoticeArrival (m : Nat)
  | translationShootdown (ctx : BitVec 12) (troot : Option (BitVec 41)) (entries : List (Nat × BitVec 64))
  | ownershipChange (target : Nat) (owner : Option (BitVec 12))
  | engineCommandStart (u : Nat) (e : Engine)
  | engineCommandComplete (u : Nat) (e : Engine)
  | deferredFault (u k : Nat)
  | carderRegistration (u : Nat)
  | fullerCompaction (h : Nat) (page : Nat)
  | scrubCheck (h : Nat) (page : Nat)
  | rposNotice (m : Nat)
  | egressWrite (slot : Nat)
  | replyDoorbell (ctx : BitVec 12) (rptail : BitVec 32)
  | replyDeliver (ctx : BitVec 12)
  | handlerBudgetExpiry (u k : Nat)
  | launchClearComplete (ln : Nat)
  | collContributionArrival (what : CollInput)
  | collWatchdogExpiry (u k : Nat)
  | collAbandonArrival (what : CollAbandon)
  /-- The linked barrier of the save that waits in a slot: whether every device has issued it, or TOUT is over. -/
  | ckptBarrierTimeout (u k : Nat) (reached : Bool)
  /-- The failed device, and the step S that the host and the management core have found. -/
  | deviceRecovery (dev : Nat) (step : BitVec 32)
  | flitReplay (link : Nat) (good : Bool)
  | powerEstimate (milliwatts : Nat)
  | thermalThrottle (celsius : Int)
  | thermalStop (celsius : Int)
  | moduleReset
  | getVersion
  | getCapabilities
  | negotiateAlgorithms
  | getDigests
  | getCertificate
  | challenge (nonce : BitVec 256)
  | getMeasurements (nonce : BitVec 256)
  | keyExchange (ephemeral : BitVec 512)
  | finish (verified : Bool)
  | endSession
  | heartbeat
  | illegalInstruction (why : Illegal)
  | fetchFault (why : FetchCause) (byte : BitVec 64)
  | stealRequestAtVictim (m : Nat)
  | writeAcknowledgement (m : Nat)
  | hostWindowAccess (link fn : Nat) (off : Nat) (data : Option (List Byte))
  | contextCreate (ctx : BitVec 12) (setup : ContextSetup)
  | contextEnd (ctx : BitVec 12)
  | keyPairDelivery (ctx : BitVec 12) (key : BitVec 256)
  deriving DecidableEq, Repr

end Sys2Proof
end

