-- ==== Sys2Proof/Syntax.lean ====
section
/-! DEFINITION. The syntax: one constructor of Instr for each row of the table of steps.
A row's suffix (a width, a sign, an order) is an argument of its constructor.
The guard, the hints and the operand fields of a word stand beside it in an Operands record (Decoded), and what an
event acts on in an Event: Lean's compiler builds no value of a constructor past the 245th that has arguments, and
the table has 337 rows. -/

namespace Sys2Proof

/-- One constructor for each row of the table of steps: the instructions, the writes of state registers, and the events. -/
inductive Instr where
  /-- ADD (R81): Adds two integer sources modulo 2^W; the width suffix is a parameter. -/
  | add (w : Width)
  /-- SUB (R81): Subtracts two integer sources modulo 2^W. -/
  | sub (w : Width)
  /-- MUL (R81): Writes the low W bits of the product of two integer sources. -/
  | mul (w : Width)
  /-- MULH (R82): Writes the high W bits of the signed or unsigned product. -/
  | mulh (f : IForm)
  /-- DIV (R83): Writes the truncated quotient; division by zero gives all ones. -/
  | div (f : IForm)
  /-- REM (R83): Writes the remainder, which takes the sign of the dividend; division by zero gives the dividend. -/
  | rem (f : IForm)
  /-- MIN (R84): Writes the smaller source, or a when the two are equal. -/
  | min (f : IForm)
  /-- MAX (R84): Writes the larger source, or a when the two are equal. -/
  | max (f : IForm)
  /-- ADDS (R85): Adds with saturation to the range of the type. -/
  | adds (f : IForm)
  /-- SUBS (R85): Subtracts with saturation to the range of the type. -/
  | subs (f : IForm)
  /-- NEG (R86): Writes the two's complement negation modulo 2^W. -/
  | neg (w : Width)
  /-- SEXT (R86): Sign-extends the low W bits to 64 bits. -/
  | sext (w : Narrow)
  /-- CEQ (R87): Writes a guard true when the sources are equal. -/
  | ceq (w : Wide)
  /-- CNE (R87): Writes a guard true when the sources differ. -/
  | cne (w : Wide)
  /-- CLT (R87): Writes a guard true when a is less than b, signed or unsigned. -/
  | clt (f : IForm)
  /-- CLE (R87): Writes a guard true when a is at most b. -/
  | cle (f : IForm)
  /-- MOV_64_REG (R88): Moves a register, a short immediate or a state register (opcode 0x03C). -/
  | mov64Reg
  /-- MOV_64_LONG_IMM (R89): Loads a sign-extended 48-bit immediate (opcode 0x03D). -/
  | mov64LongImm
  /-- MOV_64_PC_REL (R89): Loads PC plus a signed 48-bit byte offset, modulo 2^56 (opcode 0x03F). -/
  | mov64PcRel
  /-- MOVH_64 (R90): Replaces bits 63:48 of d with a 16-bit immediate. -/
  | movh64
  /-- AND_64 (R91): Bitwise AND. -/
  | and64
  /-- OR_64 (R91): Bitwise OR. -/
  | or64
  /-- XOR_64 (R91): Bitwise XOR. -/
  | xor64
  /-- ANDN_64 (R91): Bitwise a AND NOT b. -/
  | andn64
  /-- NOT_64 (R91): Bitwise NOT. -/
  | not64
  /-- ZEXT (R91): Zero-extends the low W bits. -/
  | zext (w : Narrow)
  /-- SHL (R92): Shifts left; an amount of W or more gives 0. -/
  | shl (w : Width)
  /-- SHR (R92): Shifts right logically; an amount of W or more gives 0. -/
  | shr (w : Width)
  /-- SAR (R92): Shifts right arithmetically; an amount of W or more gives the sign fill. -/
  | sar (w : Width)
  /-- ROL (R92): Rotates left by the amount modulo W. -/
  | rol (w : Width)
  /-- ROR (R92): Rotates right by the amount modulo W. -/
  | ror (w : Width)
  /-- POPC (R93): Counts the set bits. -/
  | popc (w : Width)
  /-- CLZ (R93): Counts the leading zero bits. -/
  | clz (w : Width)
  /-- CTZ (R93): Counts the trailing zero bits. -/
  | ctz (w : Width)
  /-- BEXT_64 (R94): Extracts a bit field given by pos and len. -/
  | bext64
  /-- BINS_64 (R94): Inserts a bit field into d. -/
  | bins64
  /-- BSWAP_64 (R94): Reverses the byte order. -/
  | bswap64
  /-- BREV_64 (R94): Reverses the bit order. -/
  | brev64
  /-- PADD (R95): Adds packed 8-bit or 16-bit lanes. -/
  | padd (l : Lane)
  /-- PSUB (R95): Subtracts packed lanes. -/
  | psub (l : Lane)
  /-- PSHL (R95): Shifts packed lanes left. -/
  | pshl (l : Lane)
  /-- PSHR (R95): Shifts packed lanes right logically. -/
  | pshr (l : Lane)
  /-- PSAR (R95): Shifts packed lanes right arithmetically. -/
  | psar (l : Lane)
  /-- PMUL (R95): Multiplies packed lanes modulo the lane width. -/
  | pmul (l : Lane)
  /-- BR_OFFSET (R103): Branches by a word offset. -/
  | brOffset
  /-- BR_REGISTER (R103): Branches to a register target, checking its alignment. -/
  | brRegister
  /-- CALL_OFFSET (R104): Branches by a word offset and links x15. -/
  | callOffset
  /-- CALL_REGISTER (R104): Branches to a register target and links x15. -/
  | callRegister
  /-- RET (R105): Branches to x15. -/
  | ret
  /-- PBR_OFFSET (R106): Prepares a b-register with a PC-relative target. -/
  | pbrOffset
  /-- PBR_REGISTER (R106): Prepares a b-register from a register value. -/
  | pbrRegister
  /-- GSET (R99): Writes a guard true or false, whatever its state. -/
  | gset
  /-- GRES (R99): Resolves a pending guard, and faults GUARD.STATE when the guard is not pending. -/
  | gres
  /-- GAND (R100): Three-state AND of two guards. -/
  | gand
  /-- GOR (R100): Three-state OR of two guards. -/
  | gor
  /-- GXOR (R100): Three-state XOR of two guards. -/
  | gxor
  /-- GNOT (R100): Three-state NOT of a guard. -/
  | gnot
  /-- GPEND (R101): Makes a guard pending. -/
  | gpend
  /-- GGET (R102): Reads a guard's state as 0, 1 or 2. -/
  | gget
  /-- NOP (R108): Does nothing beyond its hints. -/
  | nop
  /-- ADD_F32 (R113): Adds in FP32 with one rounding. -/
  | addF32
  /-- SUB_F32 (R113): Subtracts in FP32. -/
  | subF32
  /-- MUL_F32 (R113): Multiplies in FP32. -/
  | mulF32
  /-- DIV_F32 (R113): Divides in FP32. -/
  | divF32
  /-- FMA_F32 (R114): Forms d plus a times b with one rounding. -/
  | fmaF32
  /-- FMS_F32 (R114): Forms d minus a times b with one rounding. -/
  | fmsF32
  /-- SQRT_F32 (R115): Writes the correctly rounded square root. -/
  | sqrtF32
  /-- RCP_F32 (R116): Writes the correctly rounded reciprocal. -/
  | rcpF32
  /-- RSQ_F32 (R116): Writes the correctly rounded reciprocal square root. -/
  | rsqF32
  /-- EXP2_F32 (R116): Writes the correctly rounded 2^a. -/
  | exp2F32
  /-- LOG2_F32 (R116): Writes the correctly rounded log2(a). -/
  | log2F32
  /-- MIN_F32 (R117): Writes the FP32 minimum, preferring a number over NaN. -/
  | minF32
  /-- MAX_F32 (R117): Writes the FP32 maximum, preferring a number over NaN. -/
  | maxF32
  /-- ABS_F32 (R118): Clears the sign bit. -/
  | absF32
  /-- NEG_F32 (R118): Inverts the sign bit. -/
  | negF32
  /-- CEQ_F32 (R119): Writes a guard true when the operands are ordered and equal. -/
  | ceqF32
  /-- CLT_F32 (R119): Writes a guard true when the operands are ordered and a is less than b. -/
  | cltF32
  /-- CLE_F32 (R119): Writes a guard true when the operands are ordered and a is at most b. -/
  | cleF32
  /-- CUN_F32 (R119): Writes a guard true when either operand is NaN. -/
  | cunF32
  /-- CLASS_F32 (R120): Writes a one-hot class of the FP32 operand. -/
  | classF32
  /-- CVT_F32_FROM_INT (R121): Converts an integer to FP32 with RoundNE. -/
  | cvtF32FromInt (f : IForm)
  /-- CVT_INT_FROM_F32 (R122): Converts FP32 to an integer toward zero, saturating. -/
  | cvtIntFromF32 (f : IForm)
  /-- CVT_F32_F16 (R123): Widens FP16 to FP32 exactly. -/
  | cvtF32F16
  /-- CVT_F16_F32 (R123): Narrows FP32 to FP16. -/
  | cvtF16F32
  /-- CVT_F32_BF16 (R123): Widens BF16 to FP32 exactly. -/
  | cvtF32Bf16
  /-- CVT_BF16_F32 (R123): Narrows FP32 to BF16. -/
  | cvtBf16F32
  /-- CVT_F32_B8 (R124): Widens a binary8 code to FP32. -/
  | cvtF32B8
  /-- CVT_B8_F32 (R124): Narrows FP32 to binary8 with Narrow8, with optional saturation. -/
  | cvtB8F32
  /-- LD (R221): Loads N raw bytes, zero-extended. -/
  | ld (w : Width)
  /-- LDS (R221): Loads N raw bytes, sign-extended. -/
  | lds (w : Narrow)
  /-- LDP_128 (R222): Loads a granule into a register pair. -/
  | ldp128
  /-- ST (R223): Stores the low N bytes of a source. -/
  | st (w : Width)
  /-- ST_4 (R224): Replaces one 4-bit field of a byte as an indivisible read-modify-write. -/
  | st4
  /-- ST_2 (R224): Replaces one 2-bit field of a byte as an indivisible read-modify-write. -/
  | st2
  /-- STP_128 (R222): Stores a register pair into a granule. -/
  | stp128
  /-- LDD (R225): Loads one element, decoded by its page or frame format, as FP32. -/
  | ldd
  /-- LD_ACQ (R226): Loads with acquire order in a scope. -/
  | ldAcq (w : Wide)
  /-- ST_REL (R226): Stores with release order in a scope. -/
  | stRel (w : Wide)
  /-- AMADD (R227): Atomic add at the home, returning the old value. -/
  | amadd (w : Wide) (od : Ord)
  /-- AMIN (R227): Atomic minimum at the home. -/
  | amin (sg : Sgn) (od : Ord)
  /-- AMAX (R227): Atomic maximum at the home. -/
  | amax (sg : Sgn) (od : Ord)
  /-- AAND (R227): Atomic AND at the home. -/
  | aand (od : Ord)
  /-- AOR (R227): Atomic OR at the home. -/
  | aor (od : Ord)
  /-- AXOR (R227): Atomic XOR at the home. -/
  | axor (od : Ord)
  /-- ASWAP (R227): Atomic swap at the home. -/
  | aswap (od : Ord)
  /-- ACAS (R228): Atomic compare-and-swap using a register pair. -/
  | acas (w : Wide) (od : Ord)
  /-- FENCE_ACQ (R229): Orders earlier reads in scope before every later access. -/
  | fenceAcq
  /-- FENCE_REL (R229): Waits until earlier accesses in scope are performed, before later writes. -/
  | fenceRel
  /-- FENCE (R229): Orders every earlier access in scope before every later one. -/
  | fence
  /-- FENCE_TOTAL (R229): Acts as fence and then takes its place in the total order of its scope instance. -/
  | fenceTotal
  /-- LDF_C (R230): Waits until a granule is full, reads it and empties it. -/
  | ldfC (w : Wide)
  /-- LDF_K (R230): Waits until a granule is full and reads it, leaving it full. -/
  | ldfK (w : Wide)
  /-- STF (R231): Stores into a granule and sets it full. -/
  | stf (w : Wide)
  /-- SETE (R231): Sets a granule empty. -/
  | sete
  /-- SETF (R231): Sets a granule full. -/
  | setf
  /-- TFE (R231): Tests whether a granule is full, without waiting. -/
  | tfe
  /-- BDECL (R233): Declares a double buffer on a free descriptor at the home. -/
  | bdecl
  /-- BSTAT (R234): Reads a buffer descriptor. -/
  | bstat
  /-- BFILL (R234): Opens the shadow of a buffer for filling. -/
  | bfill
  /-- BPUB (R234): Waits for accepted shadow writes and then flips SEL. -/
  | bpub
  /-- BDRAIN (R234): Closes the visible half of a buffer. -/
  | bdrain
  /-- BFREE (R234): Undeclares a buffer. -/
  | bfree
  /-- HRD (R236): Copies 64 bytes from HBM into the loft core's local memory. -/
  | hrd
  /-- HWR (R236): Writes 64 local bytes to HBM. -/
  | hwr
  /-- PUSH (R237): Pushes up to 4 KiB into granules, setting each one full. -/
  | push
  /-- PUSH_2D (R238): Pushes a rectangle of rows. -/
  | push2d
  /-- PUSH_FILL (R239): Pushes a repeated 64-bit pattern. -/
  | pushFill
  /-- HPF (R240): Hints a prefetch of a 4 KiB HBM frame. -/
  | hpf
  /-- KEYSEL (R241): Swaps the slot's push stamp register PFMT. -/
  | keysel
  /-- HFENCE (R242): Waits for the strand's pushes and HBM writes and counts the refused ones. -/
  | hfence
  /-- FORK (R162): Buffers a forked record with half the weight. -/
  | fork
  /-- DONE (R165): Ends the task, releases its buffered sends and returns its weight. -/
  | done
  /-- CALLAT (R163): Buffers a record bound for a named core. -/
  | callat
  /-- SEND (R164): Buffers a message for a handler index of a target core. -/
  | send
  /-- JINIT (R166): Arms a join cell at its home with a count and a record. -/
  | jinit
  /-- JARV (R167): Sends an arrival to a join cell without waiting. -/
  | jarv
  /-- WMINT (R168): Mints weight into ISSUED and WGT in one atomic step at the hub. -/
  | wmint
  /-- GFORM (R169): Forms a group of n members from a record. -/
  | gform
  /-- GLEAVE (R170): Takes the strand out of its group. -/
  | gleave
  /-- BAR_ARV (R172): Arrives at a barrier object at its home. -/
  | barArv
  /-- BAR_DROP (R172): Arrives at a barrier and leaves its membership. -/
  | barDrop
  /-- BAR_WAIT (R173): Waits until the barrier's phase differs from a given value. -/
  | barWait
  /-- BAR_QRY (R173): Reads the phase and the members still expected. -/
  | barQry
  /-- HSET (R174): Writes a handler table entry and invalidates every cached copy. -/
  | hset
  /-- HLOCK (R174): Locks a handler table entry. -/
  | hlock
  /-- HUNLOCK (R174): Unlocks a handler entry and dispatches its parked messages. -/
  | hunlock
  /-- SDOM (R175): Swaps the launch's stealing domain. -/
  | sdom
  /-- VADD (R257): Element-wise vector add. -/
  | vadd
  /-- VSUB (R257): Element-wise vector subtract. -/
  | vsub
  /-- VMUL (R257): Element-wise vector multiply. -/
  | vmul
  /-- VDIV (R257): Element-wise vector divide. -/
  | vdiv
  /-- VFMA (R257): Element-wise fused multiply-add into d. -/
  | vfma
  /-- VMIN (R257): Element-wise minimum. -/
  | vmin
  /-- VMAX (R257): Element-wise maximum. -/
  | vmax
  /-- VABS (R257): Element-wise absolute value. -/
  | vabs
  /-- VNEG (R257): Element-wise negation. -/
  | vneg
  /-- VRCP (R257): Element-wise reciprocal. -/
  | vrcp
  /-- VRSQ (R257): Element-wise reciprocal square root. -/
  | vrsq
  /-- VEXP2 (R257): Element-wise 2^x. -/
  | vexp2
  /-- VAND (R258): Element-wise AND. -/
  | vand
  /-- VOR (R258): Element-wise OR. -/
  | vor
  /-- VXOR (R258): Element-wise XOR. -/
  | vxor
  /-- VNOT (R258): Element-wise NOT. -/
  | vnot
  /-- VSHL (R258): Element-wise shift left. -/
  | vshl
  /-- VSHR (R258): Element-wise logical shift right. -/
  | vshr
  /-- VSAR (R258): Element-wise arithmetic shift right. -/
  | vsar
  /-- VCEQ (R259): Compares elements for equality into a mask. -/
  | vceq
  /-- VCNE (R259): Compares elements for inequality into a mask. -/
  | vcne
  /-- VCLT (R259): Compares elements for less-than into a mask. -/
  | vclt
  /-- VCLE (R259): Compares elements for at-most into a mask. -/
  | vcle
  /-- VSEL (R260): Selects elements by mask MSEL. -/
  | vsel
  /-- VMOV (R260): Copies a whole vector register. -/
  | vmov
  /-- VBCAST (R260): Broadcasts a scalar to every element. -/
  | vbcast
  /-- VCVT (R261): Converts elements from a source type to TYPE. -/
  | vcvt
  /-- VLD (R262): Loads a tile of raw bytes from barn memory. -/
  | vld
  /-- VST (R262): Stores a tile, optionally under a mask. -/
  | vst
  /-- VLDD (R263): Loads a tile of decoded elements by frame format. -/
  | vldd
  /-- VPUSH (R264): Appends one element to a queue after earlier vector writes. -/
  | vpush
  /-- VPOP (R264): Pops a queue entry into one element. -/
  | vpop
  /-- VRSUM (R265): Sums each row exactly with one rounding. -/
  | vrsum
  /-- VRMAX (R265): Takes the maximum of each row. -/
  | vrmax
  /-- VTRN (R266): Transposes a tile. -/
  | vtrn
  /-- VSHF (R266): Gathers elements by a 16-bit index vector. -/
  | vshf
  /-- MAND (R267): Mask AND. -/
  | mand
  /-- MOR (R267): Mask OR. -/
  | mor
  /-- MXOR (R267): Mask XOR. -/
  | mxor
  /-- MNOT (R267): Mask NOT. -/
  | mnot
  /-- MSET (R267): Sets the low k mask bits. -/
  | mset
  /-- MCLR (R267): Clears a mask. -/
  | mclr
  /-- MLD (R267): Loads a mask from memory. -/
  | mld
  /-- MST (R267): Stores a mask to memory. -/
  | mst
  /-- M_ANY (R268): Waits for earlier vector commands and reports whether any mask bit is set. -/
  | mAny
  /-- M_POPC (R268): Counts the set mask bits. -/
  | mPopc
  /-- M_FIRST (R268): Gives the index of the lowest set mask bit. -/
  | mFirst
  /-- MMA_B8 (R277): Accumulates a binary8 16x32 by 32x16 product into a tile. -/
  | mmaB8
  /-- MMA_F16 (R277): Accumulates an FP16 product into a tile. -/
  | mmaF16
  /-- MMA_BF16 (R277): Accumulates a BF16 product into a tile. -/
  | mmaBf16
  /-- MZERO (R278): Zeroes an accumulator tile. -/
  | mzero
  /-- ACLD (R279): Loads an accumulator tile from memory. -/
  | acld
  /-- ACST (R279): Stores an accumulator tile behind its watermark. -/
  | acst
  /-- ACMV (R280): Moves rows between an accumulator and a vector register. -/
  | acmv
  /-- RSTAT (R281): Writes per-row max, sum and sum of squares of a tile. -/
  | rstat
  /-- CPY (R283): Copies up to 4 KiB within the barn into a buffer shadow. -/
  | cpy
  /-- CPY_FILL (R283): Fills a shadow range with a pattern. -/
  | cpyFill
  /-- CPY_2D (R284): Copies a rectangle into a shadow. -/
  | cpy2d
  /-- CPY_GTH (R285): Gathers granules named by an index list. -/
  | cpyGth
  /-- CRD_OPEN (R292): Opens a Carder session over a column and writes the state area all LIVE. -/
  | crdOpen
  /-- CRD_DIG (R293): Counts the 4-bit digits of LIVE keys and reports the rank's digit. -/
  | crdDig
  /-- CRD_WDIG (R293): Counts digits weighted by a weight column. -/
  | crdWdig
  /-- CRD_PLANE (R293): Counts one bit plane of the LIVE keys. -/
  | crdPlane
  /-- CRD_ELIM (R294): Accepts or drops LIVE elements by their digit. -/
  | crdElim
  /-- CRD_RES (R295): Writes the indices of the first m candidates by state, key and index. -/
  | crdRes
  /-- CRD_WAIT (R296): Appends the LIVE and ACC counts to q5. -/
  | crdWait
  /-- CRD_CLOSE (R296): Closes a session. -/
  | crdClose
  /-- KV_NEW (R314): Makes a key-value handle on a FREE table slot. -/
  | kvNew
  /-- KV_DROP (R315): Frees a handle's slot and its pages. -/
  | kvDrop
  /-- KV_APP (R316): Appends a row to a plane, rescaling its page if needed. -/
  | kvApp
  /-- KV_LEN (R317): Reads CLEN and LEN. -/
  | kvLen
  /-- KV_REF (R318): Pushes a snapshot of page rows into a side-layout frame. -/
  | kvRef
  /-- KV_CUT (R319): Cuts LEN back, or commits CLEN. -/
  | kvCut
  /-- LF_ARM (R324): Arms a logit filter over a region. -/
  | lfArm
  /-- LF_TOP (R325): Writes the merged shortlist as a push. -/
  | lfTop
  /-- LF_SUM (R325): Returns the combined M and S. -/
  | lfSum
  /-- LF_END (R325): Disarms a filter. -/
  | lfEnd
  /-- STOP_SET (R326): Adds a token to a slot's stop set. -/
  | stopSet
  /-- STOP_CLR (R326): Empties a slot's stop set. -/
  | stopClr
  /-- TR_OPEN (R337): Opens a request slot, optionally bound to a handle. -/
  | trOpen
  /-- TR_CALL (R338): Opens a prediction level at the last put. -/
  | trCall
  /-- TR_PUT (R339): Puts a token, waiting for room under LIMIT, or completes STALE. -/
  | trPut
  /-- TR_CONF (R340): Confirms a level and runs the retirement step. -/
  | trConf
  /-- TR_MISS (R340): Refutes a level and rewinds the slot. -/
  | trMiss
  /-- TR_CLOSE (R341): Frees a request slot. -/
  | trClose
  /-- TR_QRY (R342): Reads a slot word, the positions, a level or the drop counts. -/
  | trQry
  /-- TR_LIM (R343): Sets a slot's unretired limit. -/
  | trLim
  /-- EMIT (R344): Emits an outward request, which leaves or is held by its class. -/
  | emit
  /-- DT_NODE (R345): Adds a draft tree node and returns its ancestry row. -/
  | dtNode
  /-- DT_ACCEPT (R346): Puts a node's path as tokens and clears the tree. -/
  | dtAccept
  /-- DT_RESET (R347): Empties a draft tree. -/
  | dtReset
  /-- TRAP (R366): Enters the handler with cause TRAP and EPC at the next word. -/
  | trap
  /-- BRK (R366): Enters the handler with cause BRK and EPC at the instruction itself. -/
  | brk
  /-- TRET (R367): Leaves the handler by resume, requeue, drop, redispatch or discard. -/
  | tret
  /-- LKILL (R368): Kills a launch and waits for Clear. -/
  | lkill
  /-- TVSET (R369): Sets the context's trap vector. -/
  | tvset
  /-- FRSET (R369): Sets and resets the context's fault area. -/
  | frset
  /-- SUSPEND_DRAIN (R380): Quiesces the group, drains its commands and writes and seals an object. -/
  | suspendDrain
  /-- SUSPEND_RECORD (R380): Quiesces the group and records unstarted commands in the object. -/
  | suspendRecord
  /-- RESUME (R385): Makes a sealed object LIVE and places its members. -/
  | resume
  /-- CCOPY (R386): Copies a sealed object with half the weight. -/
  | ccopy
  /-- CDISC (R387): Discards a sealed object and returns its weight. -/
  | cdisc
  /-- CINSP (R387): Reads a header word of an object. -/
  | cinsp
  /-- GTHAW (R387): Returns a group held by a failed suspension to its state before quiescing. -/
  | gthaw
  /-- CRIGHTS (R387): Narrows an object's rights mask. -/
  | crights
  /-- COLL_SMP (R399): Contributes a shortlist to a sharded sampling collective and waits for its outcome. -/
  | collSmp
  /-- COLL_RED (R399): Contributes partial attention to a reduction collective. -/
  | collRed
  /-- CKPT_SAVE (R401): Barriers the set and copies ranges into home and buddy slots. -/
  | ckptSave
  /-- CKPT_COMMIT (R401): Writes the commit word into buddy and home slots. -/
  | ckptCommit
  /-- ECNT_SEL (R404): Selects a counter's event and clears it. -/
  | ecntSel
  /-- ECNT_RD (R404): Reads a counter. -/
  | ecntRd
  /-- KEY_WRITE (R176): A write to KEY changes the key passed on by later forks and sends. -/
  | keyWrite
  /-- BUD_WRITE (R176): A write to BUD can only shorten the budget, except in a handler. -/
  | budWrite
  /-- BRMODE_WRITE (R36): A write to BRMODE drops fetched words and delays the next issue by 4 cycles. -/
  | brmodeWrite
  /-- VSHAPE_WRITE (R247): A write to VSHAPE is checked and faults VSHAPE.BAD when invalid. -/
  | vshapeWrite
  /-- MXCFG_WRITE (R270): A write to MXCFG is checked and faults MXCFG.BAD when invalid. -/
  | mxcfgWrite
  /-- REGISTER_WRITE (R22): A write to any register that has no row of its own. -/
  | registerWrite
  /-- MIGRANT_ARRIVAL (R189): A migrating context arrives at its home and enters the inbound strand queue. -/
  | migrantArrival
  /-- STAY_REQUEST_AT_HOME (R190): A request, barn store or message sent without migrating is performed at its home, and a reply or failure entry is returned when one is owed. -/
  | stayRequestAtHome
  /-- REPLY_ARRIVAL (R190): A reply arrives and is appended to q7 of the strand's core, or follows a forwarding entry. -/
  | replyArrival
  /-- FORWARDING_ENTRY_LAPSE (R158): A forwarding entry lapses after 65,536 cycles in which nothing uses it. -/
  | forwardingEntryLapse
  /-- SUBBYTE_STORE_AT_HOME (R198): A sub-byte store message is performed at its home as an indivisible read-modify-write. -/
  | subbyteStoreAtHome
  /-- PUSH_GRANULE_WRITE (R237): A pushed granule is written and set full in one step at its home. -/
  | pushGranuleWrite
  /-- CALLAT_ARRIVAL (R163): A callat record arrives at its target and is queued in the ready set. -/
  | callatArrival
  /-- SEND_ARRIVAL (R156): A message arrives and is dispatched or parked by the state of its handler entry. -/
  | sendArrival
  /-- JARV_ARRIVAL (R148): An arrival is performed at the cell's home, and the last one releases the record. -/
  | jarvArrival
  /-- HANDLER_LOCK_LAPSE (R156): A lock lapses 64 cycles after it took effect, and its parked messages are dispatched. -/
  | handlerLockLapse
  /-- SLOT_SELECT (R138): An EMPTY slot takes a migrant, the task of smallest rank, or a stolen task. -/
  | slotSelect
  /-- FORCED_SWITCH (R33): After 256 issues without a switch, the strand is forced to switch away. -/
  | forcedSwitch
  /-- STEAL_ATTEMPT (R141): An idle core asks a victim for a stealable task. -/
  | stealAttempt
  /-- STEAL_GRANT_ARRIVAL (R144): A granted entry arrives at the thief's ready set. -/
  | stealGrantArrival
  /-- STEAL_TIMEOUT (R144): A steal attempt ends after 400 cycles without a grant. -/
  | stealTimeout
  /-- STEAL_BACKOFF_EXPIRY (R142): After 64 failed attempts, the thief resumes stealing once 4,096 cycles have passed. -/
  | stealBackoffExpiry
  /-- BUDGET_EXHAUSTED (R145): BUD reaches zero and the BUDGET trap is taken on the next or the waiting instruction. -/
  | budgetExhausted
  /-- WEIGHT_RETURN (R146): A returned weight reaches the hub and is added to RETURNED. -/
  | weightReturn
  /-- SERIAL_NOTICE_ARRIVAL (R129): A class-0 notice clears a STRID serial bit at the core that numbered the strand. -/
  | serialNoticeArrival
  /-- NOTIFY (R154): A host write of a tail index to a notify register is latched into QSTATE. -/
  | notify
  /-- QUEUE_MAP (R154): The longest-runnable queue takes a free hardware slot. -/
  | queueMap
  /-- LAUNCH_START (R151): The hub takes entry HEAD of a mapped queue, places and loads the image, and queues the root. -/
  | launchStart
  /-- QUEUE_IDLE_UNMAP (R154): A mapped queue idle for 16,384 cycles is unmapped. -/
  | queueIdleUnmap
  /-- QUEUE_EVICT (R154): The longest-mapped queue is unmapped for a waiting runnable queue. -/
  | queueEvict
  /-- QCTL_CREATE (R155): A QCTL write of 1 creates and enables the queue named in QSEL. -/
  | qctlCreate
  /-- QCTL_DISABLE (R155): A QCTL write of 2 disables a queue. -/
  | qctlDisable
  /-- QCTL_DESTROY (R155): A QCTL write of 3 destroys a disabled queue. -/
  | qctlDestroy
  /-- COMPLETION_POST (R153): The hub writes a completion entry and advances CPLCNT once the ring has room. -/
  | completionPost
  /-- CLOCK_NOTICE_SEND (R207): Within 64 cycles of a SER change, a die sends its SER to every other die. -/
  | clockNoticeSend
  /-- CLOCK_NOTICE_ARRIVAL (R207): A clock notice sets APP at the receiver and frees the operations waiting at ingress. -/
  | clockNoticeArrival
  /-- TRANSLATION_SHOOTDOWN (R184): A context shootdown drops every cached translation and waits for old accesses. -/
  | translationShootdown
  /-- OWNERSHIP_CHANGE (R179): The management core zeroes a barn or loft core and passes it to a new owner. -/
  | ownershipChange
  /-- ENGINE_COMMAND_START (R248): A queued engine command starts once it is at the head and its engine or path is free. -/
  | engineCommandStart
  /-- ENGINE_COMMAND_COMPLETE (R248): An engine command completes, freeing the engine for the next. -/
  | engineCommandComplete
  /-- DEFERRED_FAULT (R254): A command's deferred error traps the strand on its next instruction. -/
  | deferredFault
  /-- CARDER_REGISTRATION (R289): A selection command registers at the Carder, when it is issued or when its guard releases it. -/
  | carderRegistration
  /-- FULLER_COMPACTION (R309): The Fuller recopies a full committed page into a smaller class and publishes it. -/
  | fullerCompaction
  /-- SCRUB_CHECK (R310): The scrubber recomputes a page's CRC at up to 2 % of channel bandwidth. -/
  | scrubCheck
  /-- RPOS_NOTICE (R329): The home die applies CLEN = min(LEN, RPOS) on a notice from the hub. -/
  | rposNotice
  /-- EGRESS_WRITE (R396): A leaving request is written into the egress ring once it has room. -/
  | egressWrite
  /-- REPLY_DOORBELL (R396): A host write of RPTAIL makes the hub fetch the new reply entries. -/
  | replyDoorbell
  /-- REPLY_DELIVER (R396): A fetched reply is dropped or appended to the delivery ring once it has room. -/
  | replyDeliver
  /-- HANDLER_BUDGET_EXPIRY (R354): HBUD reaches zero, and the launch is killed with an HND.BUDGET record. -/
  | handlerBudgetExpiry
  /-- LAUNCH_CLEAR_COMPLETE (R364): Clear ends on every core, and the launch is posted KILLED. -/
  | launchClearComplete
  /-- COLL_CONTRIBUTION_ARRIVAL (R399): A contribution reaches the home hub, and the last one decides the collective. -/
  | collContributionArrival
  /-- COLL_WATCHDOG_EXPIRY (R399): A member's watchdog expires and sends ABANDON to the home. -/
  | collWatchdogExpiry
  /-- COLL_ABANDON_ARRIVAL (R399): An ABANDON reaches the home and decides the step PARTIAL or ABANDONED. -/
  | collAbandonArrival
  /-- CKPT_BARRIER_TIMEOUT (R401): The checkpoint barrier expires after TOUT, and the save returns TIMEOUT. -/
  | ckptBarrierTimeout
  /-- DEVICE_RECOVERY (R402): On a device failure, the set's launches are killed and restarted from the last valid slot. -/
  | deviceRecovery
  /-- FLIT_REPLAY (R397): A flit that fails its CRC is replayed from the sender's buffer. -/
  | flitReplay
  /-- POWER_ESTIMATE (R406): Every 1 ms, the hub adjusts the matrix start allowance against PLIM. -/
  | powerEstimate
  /-- THERMAL_THROTTLE (R407): A junction above 100 °C halves the matrix start allowance. -/
  | thermalThrottle
  /-- THERMAL_STOP (R407): A junction at 110 °C stops the module and kills every launch. -/
  | thermalStop
  /-- MODULE_RESET (R409): Power-on or reset clears state and runs the bring-up stages. -/
  | moduleReset
  /-- GET_VERSION (R408): SPDM request for the supported versions. -/
  | getVersion
  /-- GET_CAPABILITIES (R408): SPDM request for capabilities. -/
  | getCapabilities
  /-- NEGOTIATE_ALGORITHMS (R408): SPDM algorithm negotiation. -/
  | negotiateAlgorithms
  /-- GET_DIGESTS (R408): SPDM request for certificate digests. -/
  | getDigests
  /-- GET_CERTIFICATE (R408): SPDM request for the slot 0 certificate. -/
  | getCertificate
  /-- CHALLENGE (R408): SPDM challenge, answered with an SM2 signature. -/
  | challenge
  /-- GET_MEASUREMENTS (R408): SPDM request for signed measurements. -/
  | getMeasurements
  /-- KEY_EXCHANGE (R408): SPDM SM2 key exchange starting a session. -/
  | keyExchange
  /-- FINISH (R408): SPDM session finish. -/
  | finish
  /-- END_SESSION (R408): Ends an SPDM session. -/
  | endSession
  /-- HEARTBEAT (R408): SPDM session heartbeat. -/
  | heartbeat
  /-- ILLEGAL_INSTRUCTION (R47): A word whose opcode is unassigned reaches issue and raises the precise trap ILL.OPC. -/
  | illegalInstruction
  /-- FETCH_FAULT (R40): A translation, permission, hole or poison failure on fetching the next word raises a precise fetch fault with FETCH set. -/
  | fetchFault
  /-- STEAL_REQUEST_AT_VICTIM (R144): A steal request arrives at the victim, which in one atomic step offers its best stealable entry or refuses. -/
  | stealRequestAtVictim
  /-- WRITE_ACKNOWLEDGEMENT (R206): A home's acknowledgement of a write reaches the issuing core and lets waiting writes, migrations, releases, fences and done proceed. -/
  | writeAcknowledgement
  /-- HOST_WINDOW_ACCESS (R395): A host PCIe read or write reaches BAR4 and is performed on an exchange page, or returns zero or is dropped beyond the last mapped page. -/
  | hostWindowAccess
  /-- CONTEXT_CREATE (R155): The management core creates a context, assigns its queue numbers, sets TROOT and starts its object serial at 1. -/
  | contextCreate
  /-- CONTEXT_END (R199): A context ends: its launches are killed, queues destroyed, request slots, handles and filters freed, and its key slot cleared. -/
  | contextEnd
  /-- KEY_PAIR_DELIVERY (R408): A context's SM4 key pair delivered inside a secured SPDM session is written by the security block into key slot c of every loft die. -/
  | keyPairDelivery
  deriving DecidableEq, Repr

end Sys2Proof
end

