-- ==== Sys2Proof/Machine/OpMap.lean ====
section
/-! DEFINITION. The opcode map of R49 and R50: each code with its class, its profiles, the kinds of its fields and the instruction it names. -/

namespace Sys2Proof

/-- Suffix codes in the order of R49. -/
def Width.code : Width → Nat | .w64 => 0 | .w32 => 1 | .w16 => 2 | .w8 => 3
/-- Suffix codes in the order of R49. -/
def IForm.code : IForm → Nat | .i64 => 0 | .n64 => 1 | .i32 => 2 | .n32 => 3
/-- Suffix codes in the order of R50. -/
def Wide.code : Wide → Nat | .w64 => 0 | .w32 => 1
/-- Suffix codes in the order of R50. -/
def Narrow.code : Narrow → Nat | .w32 => 0 | .w16 => 1 | .w8 => 2
/-- Suffix codes in the order of R50. -/
def Lane.code : Lane → Nat | .p8 => 0 | .p16 => 1
/-- Suffix codes in the order of R227. -/
def Sgn.code : Sgn → Nat | .i => 0 | .n => 1
/-- Ord codes of R227. -/
def Ord.code : Ord → Nat | .plain => 0 | .acq => 1 | .rel => 2 | .ar => 3
/-- Scope codes of R41. -/
def Scope.code : Scope → Nat | .core => 0 | .barn => 1 | .yard => 2 | .module => 3 | .system => 4

/-- The scope of a code; codes 5 to 7 name none (R41). -/
def Scope.ofCode : Nat → Option Scope
  | 0 => some .core
  | 1 => some .barn
  | 2 => some .yard
  | 3 => some .module
  | 4 => some .system
  | _ => none

/-- Format classes (R41). -/
inductive Cls where | three | long | memory | engine
  deriving DecidableEq, Repr

/-- CLS codes (R41). -/
def Cls.code : Cls → Nat | .three => 0 | .long => 1 | .memory => 2 | .engine => 3

/-- The profiles of a core (R18). -/
inductive Profile where | compute | loft | management
  deriving DecidableEq, Repr

/-- The profile sets of R50: C L M, C L, C, L. -/
inductive Profs where | clm | cl | c | l
  deriving DecidableEq, Repr

/-- Whether an opcode of the set runs on a core of the profile (R50). -/
def Profs.has : Profs → Profile → Bool
  | .clm, _ => true
  | .cl, .management => false
  | .cl, _ => true
  | .c, .compute => true
  | .c, _ => false
  | .l, .loft => true
  | .l, _ => false

/-- The kind sets a field may have: those of R78, R219, R256, R277 and the entries' own. -/
inductive KSet where
  | no      -- must be all zero (R43)
  | x       -- X: a destination x, o, z, q0 to q3 (R78, R255)
  | xo      -- kinds 0 and 1
  | xe      -- kind 0 with an even index
  | xozq    -- kinds 0, 1, 2, 4 as a source: also S in D, where kind 3 is never allowed (R43)
  | xoz     -- kinds 0, 1, 2 as a source: P in D (R43)
  | s       -- S (R78)
  | p       -- P (R219)
  | g       -- G (R78)
  | b       -- B (R78)
  | t       -- T (R78)
  | imm     -- kind 3
  | movD    -- D of mov.64 (R88)
  | movA    -- A of mov.64 (R88)
  | ld      -- D of a load: X, or q7 with STAY (R219)
  | scope   -- a scope 0 to 4 as an immediate (R229)
  | v       -- V (R256)
  | m       -- M (R256)
  | vs      -- VS (R256)
  | q03     -- Q (R256)
  | tile    -- T of R276: an accumulator tile
  | mo      -- MO: V, or kind 0 with an even index
  | acmvD   -- V or a tile
  | acmvA   -- a tile when D is V, V when D is a tile (R280)
  deriving DecidableEq, Repr

/-- Whether an operand may stand in a field with the set; `d` is the word's D, `stay` its STAY bit. -/
def KSet.ok (stay : Bool) (d : Opd) (k : KSet) (o : Opd) : Bool :=
  match k, o with
  | .no, o => o == .x 0
  | .x, .x _ => true
  | .x, .o _ => true
  | .x, .z i => i == 0
  | .x, .q i => i.val < 4
  | .xo, .x _ => true
  | .xo, .o _ => true
  | .xe, .x i => i.val % 2 == 0
  | .xozq, .x _ => true
  | .xozq, .o _ => true
  | .xozq, .z _ => true
  | .xozq, .q _ => true
  | .xoz, .x _ => true
  | .xoz, .o _ => true
  | .xoz, .z _ => true
  | .s, .x _ => true
  | .s, .o _ => true
  | .s, .z _ => true
  | .s, .imm _ => true
  | .s, .q _ => true
  | .p, .x _ => true
  | .p, .o _ => true
  | .p, .z _ => true
  | .p, .imm _ => true
  | .g, .g _ => true
  | .b, .b _ => true
  | .t, .x _ => true
  | .t, .o _ => true
  | .t, .z _ => true
  | .t, .b _ => true
  | .imm, .imm _ => true
  | .movD, .x _ => true
  | .movD, .o _ => true
  | .movD, .z i => i == 0
  | .movD, .q i => i.val < 4
  | .movD, .sr _ => true
  | .movA, .x _ => true
  | .movA, .o _ => true
  | .movA, .z _ => true
  | .movA, .imm _ => true
  | .movA, .q _ => true
  | .movA, .b _ => true
  | .movA, .sr _ => match d with | .sr _ => false | _ => true
  | .ld, .x _ => !stay
  | .ld, .o _ => !stay
  | .ld, .z i => !stay && i == 0
  | .ld, .q i => if stay then i == 7 else i.val < 4
  | .scope, .imm c => c.toNat < 5
  | .v, .v _ => true
  | .m, .m _ => true
  | .vs, .v _ => true
  | .vs, .x _ => true
  | .vs, .o _ => true
  | .vs, .z _ => true
  | .vs, .imm _ => true
  | .q03, .q i => i.val < 4
  | .tile, .t _ => true
  | .mo, .v _ => true
  | .mo, .x i => i.val % 2 == 0
  | .acmvD, .v _ => true
  | .acmvD, .t _ => true
  | .acmvA, .v _ => match d with | .t _ => true | _ => false
  | .acmvA, .t _ => match d with | .v _ => true | _ => false
  | _, _ => false

/-- What more a row allows or asks: TKN, STAY, STAY with a scope in SC, or IMM48 below 2^16 (R46, R90, R219). -/
inductive Flag where | no | tkn | stay | scope | imm16
  deriving DecidableEq, Repr

/-- One row of the map. -/
structure Row where
  code : Nat
  cls  : Cls
  prof : Profs
  d    : KSet
  a    : KSet
  b    : KSet
  flag : Flag
  make : Operands → Instr

/-- Opcode 0x03C: a write of a state register where D is of kind 6 (R22, R88), else a move. -/
def movReg (o : Operands) : Instr :=
  match o.d with
  | .sr n =>
    if n = 1 then .budWrite
    else if n = 2 then .keyWrite
    else if n = 9 then .brmodeWrite
    else if n = 10 then .vshapeWrite
    else if n = 15 then .mxcfgWrite
    else .registerWrite
  | _ => .mov64Reg

def group0Rows0 : List Row := [
  ⟨0x000, .three, .clm, .x, .s, .s, .no, fun _ => .add .w64⟩,
  ⟨0x001, .three, .clm, .x, .s, .s, .no, fun _ => .add .w32⟩,
  ⟨0x002, .three, .clm, .x, .s, .s, .no, fun _ => .add .w16⟩,
  ⟨0x003, .three, .clm, .x, .s, .s, .no, fun _ => .add .w8⟩,
  ⟨0x004, .three, .clm, .x, .s, .s, .no, fun _ => .sub .w64⟩,
  ⟨0x005, .three, .clm, .x, .s, .s, .no, fun _ => .sub .w32⟩,
  ⟨0x006, .three, .clm, .x, .s, .s, .no, fun _ => .sub .w16⟩,
  ⟨0x007, .three, .clm, .x, .s, .s, .no, fun _ => .sub .w8⟩,
  ⟨0x008, .three, .clm, .x, .s, .s, .no, fun _ => .mul .w64⟩,
  ⟨0x009, .three, .clm, .x, .s, .s, .no, fun _ => .mul .w32⟩,
  ⟨0x00A, .three, .clm, .x, .s, .s, .no, fun _ => .mul .w16⟩,
  ⟨0x00B, .three, .clm, .x, .s, .s, .no, fun _ => .mul .w8⟩,
  ⟨0x00C, .three, .clm, .x, .s, .s, .no, fun _ => .mulh .i64⟩,
  ⟨0x00D, .three, .clm, .x, .s, .s, .no, fun _ => .mulh .n64⟩,
  ⟨0x00E, .three, .clm, .x, .s, .s, .no, fun _ => .mulh .i32⟩,
  ⟨0x00F, .three, .clm, .x, .s, .s, .no, fun _ => .mulh .n32⟩,
  ⟨0x010, .three, .clm, .x, .s, .s, .no, fun _ => .div .i64⟩,
  ⟨0x011, .three, .clm, .x, .s, .s, .no, fun _ => .div .n64⟩,
  ⟨0x012, .three, .clm, .x, .s, .s, .no, fun _ => .div .i32⟩,
  ⟨0x013, .three, .clm, .x, .s, .s, .no, fun _ => .div .n32⟩]

def group0Rows1 : List Row := [
  ⟨0x014, .three, .clm, .x, .s, .s, .no, fun _ => .rem .i64⟩,
  ⟨0x015, .three, .clm, .x, .s, .s, .no, fun _ => .rem .n64⟩,
  ⟨0x016, .three, .clm, .x, .s, .s, .no, fun _ => .rem .i32⟩,
  ⟨0x017, .three, .clm, .x, .s, .s, .no, fun _ => .rem .n32⟩,
  ⟨0x018, .three, .clm, .x, .s, .s, .no, fun _ => .min .i64⟩,
  ⟨0x019, .three, .clm, .x, .s, .s, .no, fun _ => .min .n64⟩,
  ⟨0x01A, .three, .clm, .x, .s, .s, .no, fun _ => .min .i32⟩,
  ⟨0x01B, .three, .clm, .x, .s, .s, .no, fun _ => .min .n32⟩,
  ⟨0x01C, .three, .clm, .x, .s, .s, .no, fun _ => .max .i64⟩,
  ⟨0x01D, .three, .clm, .x, .s, .s, .no, fun _ => .max .n64⟩,
  ⟨0x01E, .three, .clm, .x, .s, .s, .no, fun _ => .max .i32⟩,
  ⟨0x01F, .three, .clm, .x, .s, .s, .no, fun _ => .max .n32⟩,
  ⟨0x020, .three, .clm, .x, .s, .s, .no, fun _ => .adds .i64⟩,
  ⟨0x021, .three, .clm, .x, .s, .s, .no, fun _ => .adds .n64⟩,
  ⟨0x022, .three, .clm, .x, .s, .s, .no, fun _ => .adds .i32⟩,
  ⟨0x023, .three, .clm, .x, .s, .s, .no, fun _ => .adds .n32⟩,
  ⟨0x024, .three, .clm, .x, .s, .s, .no, fun _ => .subs .i64⟩,
  ⟨0x025, .three, .clm, .x, .s, .s, .no, fun _ => .subs .n64⟩,
  ⟨0x026, .three, .clm, .x, .s, .s, .no, fun _ => .subs .i32⟩,
  ⟨0x027, .three, .clm, .x, .s, .s, .no, fun _ => .subs .n32⟩]

def group0Rows2 : List Row := [
  ⟨0x028, .three, .clm, .x, .s, .no, .no, fun _ => .neg .w64⟩,
  ⟨0x029, .three, .clm, .x, .s, .no, .no, fun _ => .neg .w32⟩,
  ⟨0x02A, .three, .clm, .x, .s, .no, .no, fun _ => .neg .w16⟩,
  ⟨0x02B, .three, .clm, .x, .s, .no, .no, fun _ => .neg .w8⟩,
  ⟨0x02C, .three, .clm, .x, .s, .no, .no, fun _ => .sext .w32⟩,
  ⟨0x02D, .three, .clm, .x, .s, .no, .no, fun _ => .sext .w16⟩,
  ⟨0x02E, .three, .clm, .x, .s, .no, .no, fun _ => .sext .w8⟩,
  ⟨0x030, .three, .clm, .g, .s, .s, .no, fun _ => .ceq .w64⟩,
  ⟨0x031, .three, .clm, .g, .s, .s, .no, fun _ => .ceq .w32⟩,
  ⟨0x032, .three, .clm, .g, .s, .s, .no, fun _ => .cne .w64⟩,
  ⟨0x033, .three, .clm, .g, .s, .s, .no, fun _ => .cne .w32⟩,
  ⟨0x034, .three, .clm, .g, .s, .s, .no, fun _ => .clt .i64⟩,
  ⟨0x035, .three, .clm, .g, .s, .s, .no, fun _ => .clt .n64⟩,
  ⟨0x036, .three, .clm, .g, .s, .s, .no, fun _ => .clt .i32⟩,
  ⟨0x037, .three, .clm, .g, .s, .s, .no, fun _ => .clt .n32⟩,
  ⟨0x038, .three, .clm, .g, .s, .s, .no, fun _ => .cle .i64⟩,
  ⟨0x039, .three, .clm, .g, .s, .s, .no, fun _ => .cle .n64⟩,
  ⟨0x03A, .three, .clm, .g, .s, .s, .no, fun _ => .cle .i32⟩,
  ⟨0x03B, .three, .clm, .g, .s, .s, .no, fun _ => .cle .n32⟩,
  ⟨0x03C, .three, .clm, .movD, .movA, .no, .no, movReg⟩]

def group0Rows3 : List Row := [
  ⟨0x03D, .long, .clm, .x, .no, .no, .no, fun _ => .mov64LongImm⟩,
  ⟨0x03E, .long, .clm, .xo, .no, .no, .imm16, fun _ => .movh64⟩,
  ⟨0x03F, .long, .clm, .x, .no, .no, .no, fun _ => .mov64PcRel⟩]

/-- Group 0 of R50. -/
def group0 : List Row := group0Rows0 ++ group0Rows1 ++ group0Rows2 ++ group0Rows3

def group1Rows0 : List Row := [
  ⟨0x040, .three, .clm, .x, .s, .s, .no, fun _ => .and64⟩,
  ⟨0x041, .three, .clm, .x, .s, .s, .no, fun _ => .or64⟩,
  ⟨0x042, .three, .clm, .x, .s, .s, .no, fun _ => .xor64⟩,
  ⟨0x043, .three, .clm, .x, .s, .s, .no, fun _ => .andn64⟩,
  ⟨0x044, .three, .clm, .x, .s, .no, .no, fun _ => .not64⟩,
  ⟨0x045, .three, .clm, .x, .s, .no, .no, fun _ => .zext .w32⟩,
  ⟨0x046, .three, .clm, .x, .s, .no, .no, fun _ => .zext .w16⟩,
  ⟨0x047, .three, .clm, .x, .s, .no, .no, fun _ => .zext .w8⟩,
  ⟨0x048, .three, .clm, .x, .s, .s, .no, fun _ => .shl .w64⟩,
  ⟨0x049, .three, .clm, .x, .s, .s, .no, fun _ => .shl .w32⟩,
  ⟨0x04A, .three, .clm, .x, .s, .s, .no, fun _ => .shl .w16⟩,
  ⟨0x04B, .three, .clm, .x, .s, .s, .no, fun _ => .shl .w8⟩,
  ⟨0x04C, .three, .clm, .x, .s, .s, .no, fun _ => .shr .w64⟩,
  ⟨0x04D, .three, .clm, .x, .s, .s, .no, fun _ => .shr .w32⟩,
  ⟨0x04E, .three, .clm, .x, .s, .s, .no, fun _ => .shr .w16⟩,
  ⟨0x04F, .three, .clm, .x, .s, .s, .no, fun _ => .shr .w8⟩,
  ⟨0x050, .three, .clm, .x, .s, .s, .no, fun _ => .sar .w64⟩,
  ⟨0x051, .three, .clm, .x, .s, .s, .no, fun _ => .sar .w32⟩,
  ⟨0x052, .three, .clm, .x, .s, .s, .no, fun _ => .sar .w16⟩,
  ⟨0x053, .three, .clm, .x, .s, .s, .no, fun _ => .sar .w8⟩]

def group1Rows1 : List Row := [
  ⟨0x054, .three, .clm, .x, .s, .s, .no, fun _ => .rol .w64⟩,
  ⟨0x055, .three, .clm, .x, .s, .s, .no, fun _ => .rol .w32⟩,
  ⟨0x056, .three, .clm, .x, .s, .s, .no, fun _ => .rol .w16⟩,
  ⟨0x057, .three, .clm, .x, .s, .s, .no, fun _ => .rol .w8⟩,
  ⟨0x058, .three, .clm, .x, .s, .s, .no, fun _ => .ror .w64⟩,
  ⟨0x059, .three, .clm, .x, .s, .s, .no, fun _ => .ror .w32⟩,
  ⟨0x05A, .three, .clm, .x, .s, .s, .no, fun _ => .ror .w16⟩,
  ⟨0x05B, .three, .clm, .x, .s, .s, .no, fun _ => .ror .w8⟩,
  ⟨0x05C, .three, .clm, .x, .s, .no, .no, fun _ => .popc .w64⟩,
  ⟨0x05D, .three, .clm, .x, .s, .no, .no, fun _ => .popc .w32⟩,
  ⟨0x05E, .three, .clm, .x, .s, .no, .no, fun _ => .popc .w16⟩,
  ⟨0x05F, .three, .clm, .x, .s, .no, .no, fun _ => .popc .w8⟩,
  ⟨0x060, .three, .clm, .x, .s, .no, .no, fun _ => .clz .w64⟩,
  ⟨0x061, .three, .clm, .x, .s, .no, .no, fun _ => .clz .w32⟩,
  ⟨0x062, .three, .clm, .x, .s, .no, .no, fun _ => .clz .w16⟩,
  ⟨0x063, .three, .clm, .x, .s, .no, .no, fun _ => .clz .w8⟩,
  ⟨0x064, .three, .clm, .x, .s, .no, .no, fun _ => .ctz .w64⟩,
  ⟨0x065, .three, .clm, .x, .s, .no, .no, fun _ => .ctz .w32⟩,
  ⟨0x066, .three, .clm, .x, .s, .no, .no, fun _ => .ctz .w16⟩,
  ⟨0x067, .three, .clm, .x, .s, .no, .no, fun _ => .ctz .w8⟩]

def group1Rows2 : List Row := [
  ⟨0x068, .three, .clm, .x, .s, .s, .no, fun _ => .bext64⟩,
  ⟨0x069, .three, .clm, .xo, .s, .s, .no, fun _ => .bins64⟩,
  ⟨0x06A, .three, .clm, .x, .s, .no, .no, fun _ => .bswap64⟩,
  ⟨0x06B, .three, .clm, .x, .s, .no, .no, fun _ => .brev64⟩,
  ⟨0x06C, .three, .clm, .x, .s, .s, .no, fun _ => .padd .p8⟩,
  ⟨0x06D, .three, .clm, .x, .s, .s, .no, fun _ => .padd .p16⟩,
  ⟨0x06E, .three, .clm, .x, .s, .s, .no, fun _ => .psub .p8⟩,
  ⟨0x06F, .three, .clm, .x, .s, .s, .no, fun _ => .psub .p16⟩,
  ⟨0x070, .three, .clm, .x, .s, .s, .no, fun _ => .pshl .p8⟩,
  ⟨0x071, .three, .clm, .x, .s, .s, .no, fun _ => .pshl .p16⟩,
  ⟨0x072, .three, .clm, .x, .s, .s, .no, fun _ => .pshr .p8⟩,
  ⟨0x073, .three, .clm, .x, .s, .s, .no, fun _ => .pshr .p16⟩,
  ⟨0x074, .three, .clm, .x, .s, .s, .no, fun _ => .psar .p8⟩,
  ⟨0x075, .three, .clm, .x, .s, .s, .no, fun _ => .psar .p16⟩,
  ⟨0x076, .three, .clm, .x, .s, .s, .no, fun _ => .pmul .p8⟩,
  ⟨0x077, .three, .clm, .x, .s, .s, .no, fun _ => .pmul .p16⟩]

/-- Group 1 of R50. -/
def group1 : List Row := group1Rows0 ++ group1Rows1 ++ group1Rows2

def group2Rows0 : List Row := [
  ⟨0x080, .long, .clm, .no, .no, .no, .tkn, fun _ => .brOffset⟩,
  ⟨0x081, .three, .clm, .no, .t, .no, .tkn, fun _ => .brRegister⟩,
  ⟨0x082, .long, .clm, .no, .no, .no, .tkn, fun _ => .callOffset⟩,
  ⟨0x083, .three, .clm, .no, .t, .no, .tkn, fun _ => .callRegister⟩,
  ⟨0x084, .three, .clm, .no, .no, .no, .tkn, fun _ => .ret⟩,
  ⟨0x085, .long, .clm, .b, .no, .no, .no, fun _ => .pbrOffset⟩,
  ⟨0x086, .three, .clm, .b, .xozq, .no, .no, fun _ => .pbrRegister⟩,
  ⟨0x088, .three, .clm, .g, .s, .no, .no, fun _ => .gset⟩,
  ⟨0x089, .three, .clm, .g, .g, .g, .no, fun _ => .gand⟩,
  ⟨0x08A, .three, .clm, .g, .g, .g, .no, fun _ => .gor⟩,
  ⟨0x08B, .three, .clm, .g, .g, .g, .no, fun _ => .gxor⟩,
  ⟨0x08C, .three, .clm, .g, .g, .no, .no, fun _ => .gnot⟩,
  ⟨0x08D, .three, .clm, .g, .no, .no, .no, fun _ => .gpend⟩,
  ⟨0x08E, .three, .clm, .g, .s, .no, .no, fun _ => .gres⟩,
  ⟨0x08F, .three, .clm, .x, .g, .no, .no, fun _ => .gget⟩,
  ⟨0x090, .three, .clm, .no, .no, .no, .no, fun _ => .nop⟩]

/-- Group 2 of R50. -/
def group2 : List Row := group2Rows0

def group3Rows0 : List Row := [
  ⟨0x0C0, .three, .clm, .x, .s, .s, .no, fun _ => .addF32⟩,
  ⟨0x0C1, .three, .clm, .x, .s, .s, .no, fun _ => .subF32⟩,
  ⟨0x0C2, .three, .clm, .x, .s, .s, .no, fun _ => .mulF32⟩,
  ⟨0x0C3, .three, .clm, .x, .s, .s, .no, fun _ => .divF32⟩,
  ⟨0x0C4, .three, .clm, .xo, .s, .s, .no, fun _ => .fmaF32⟩,
  ⟨0x0C5, .three, .clm, .xo, .s, .s, .no, fun _ => .fmsF32⟩,
  ⟨0x0C6, .three, .clm, .x, .s, .no, .no, fun _ => .sqrtF32⟩,
  ⟨0x0C7, .three, .clm, .x, .s, .no, .no, fun _ => .rcpF32⟩,
  ⟨0x0C8, .three, .clm, .x, .s, .no, .no, fun _ => .rsqF32⟩,
  ⟨0x0C9, .three, .clm, .x, .s, .no, .no, fun _ => .exp2F32⟩,
  ⟨0x0CA, .three, .clm, .x, .s, .no, .no, fun _ => .log2F32⟩,
  ⟨0x0CB, .three, .clm, .x, .s, .s, .no, fun _ => .minF32⟩,
  ⟨0x0CC, .three, .clm, .x, .s, .s, .no, fun _ => .maxF32⟩,
  ⟨0x0CD, .three, .clm, .x, .s, .no, .no, fun _ => .absF32⟩,
  ⟨0x0CE, .three, .clm, .x, .s, .no, .no, fun _ => .negF32⟩,
  ⟨0x0CF, .three, .clm, .g, .s, .s, .no, fun _ => .ceqF32⟩,
  ⟨0x0D0, .three, .clm, .g, .s, .s, .no, fun _ => .cltF32⟩,
  ⟨0x0D1, .three, .clm, .g, .s, .s, .no, fun _ => .cleF32⟩,
  ⟨0x0D2, .three, .clm, .g, .s, .s, .no, fun _ => .cunF32⟩,
  ⟨0x0D3, .three, .clm, .x, .s, .no, .no, fun _ => .classF32⟩]

def group3Rows1 : List Row := [
  ⟨0x0E0, .three, .clm, .x, .s, .no, .no, fun _ => .cvtF32FromInt .i64⟩,
  ⟨0x0E1, .three, .clm, .x, .s, .no, .no, fun _ => .cvtF32FromInt .n64⟩,
  ⟨0x0E2, .three, .clm, .x, .s, .no, .no, fun _ => .cvtF32FromInt .i32⟩,
  ⟨0x0E3, .three, .clm, .x, .s, .no, .no, fun _ => .cvtF32FromInt .n32⟩,
  ⟨0x0E4, .three, .clm, .x, .s, .no, .no, fun _ => .cvtIntFromF32 .i64⟩,
  ⟨0x0E5, .three, .clm, .x, .s, .no, .no, fun _ => .cvtIntFromF32 .n64⟩,
  ⟨0x0E6, .three, .clm, .x, .s, .no, .no, fun _ => .cvtIntFromF32 .i32⟩,
  ⟨0x0E7, .three, .clm, .x, .s, .no, .no, fun _ => .cvtIntFromF32 .n32⟩,
  ⟨0x0E8, .three, .clm, .x, .s, .no, .no, fun _ => .cvtF32F16⟩,
  ⟨0x0E9, .three, .clm, .x, .s, .no, .no, fun _ => .cvtF16F32⟩,
  ⟨0x0EA, .three, .clm, .x, .s, .no, .no, fun _ => .cvtF32Bf16⟩,
  ⟨0x0EB, .three, .clm, .x, .s, .no, .no, fun _ => .cvtBf16F32⟩,
  ⟨0x0EC, .three, .clm, .x, .s, .imm, .no, fun _ => .cvtF32B8⟩,
  ⟨0x0ED, .three, .clm, .x, .s, .imm, .no, fun _ => .cvtB8F32⟩]

/-- Group 3 of R50. -/
def group3 : List Row := group3Rows0 ++ group3Rows1

def group4Rows0 : List Row := [
  ⟨0x100, .memory, .clm, .ld, .p, .no, .stay, fun _ => .ld .w64⟩,
  ⟨0x101, .memory, .clm, .ld, .p, .no, .stay, fun _ => .ld .w32⟩,
  ⟨0x102, .memory, .clm, .ld, .p, .no, .stay, fun _ => .ld .w16⟩,
  ⟨0x103, .memory, .clm, .ld, .p, .no, .stay, fun _ => .ld .w8⟩,
  ⟨0x104, .memory, .clm, .ld, .p, .no, .stay, fun _ => .lds .w32⟩,
  ⟨0x105, .memory, .clm, .ld, .p, .no, .stay, fun _ => .lds .w16⟩,
  ⟨0x106, .memory, .clm, .ld, .p, .no, .stay, fun _ => .lds .w8⟩,
  ⟨0x107, .memory, .clm, .xe, .p, .no, .no, fun _ => .ldp128⟩,
  ⟨0x108, .memory, .clm, .xozq, .p, .no, .stay, fun _ => .st .w64⟩,
  ⟨0x109, .memory, .clm, .xozq, .p, .no, .stay, fun _ => .st .w32⟩,
  ⟨0x10A, .memory, .clm, .xozq, .p, .no, .stay, fun _ => .st .w16⟩,
  ⟨0x10B, .memory, .clm, .xozq, .p, .no, .stay, fun _ => .st .w8⟩,
  ⟨0x10C, .memory, .clm, .xozq, .p, .no, .stay, fun _ => .st4⟩,
  ⟨0x10D, .memory, .clm, .xozq, .p, .no, .stay, fun _ => .st2⟩,
  ⟨0x10F, .memory, .clm, .xe, .p, .no, .stay, fun _ => .stp128⟩,
  ⟨0x110, .memory, .clm, .ld, .p, .no, .stay, fun _ => .ldd⟩,
  ⟨0x114, .memory, .clm, .ld, .p, .no, .scope, fun _ => .ldAcq .w64⟩,
  ⟨0x115, .memory, .clm, .ld, .p, .no, .scope, fun _ => .ldAcq .w32⟩,
  ⟨0x116, .memory, .clm, .xozq, .p, .no, .scope, fun _ => .stRel .w64⟩,
  ⟨0x117, .memory, .clm, .xozq, .p, .no, .scope, fun _ => .stRel .w32⟩]

/-- Group 4 of R50. -/
def group4 : List Row := group4Rows0

def group5Rows0 : List Row := [
  ⟨0x140, .memory, .clm, .xo, .p, .no, .scope, fun _ => .amadd .w64 .plain⟩,
  ⟨0x141, .memory, .clm, .xo, .p, .no, .scope, fun _ => .amadd .w64 .acq⟩,
  ⟨0x142, .memory, .clm, .xo, .p, .no, .scope, fun _ => .amadd .w64 .rel⟩,
  ⟨0x143, .memory, .clm, .xo, .p, .no, .scope, fun _ => .amadd .w64 .ar⟩,
  ⟨0x144, .memory, .clm, .xo, .p, .no, .scope, fun _ => .amadd .w32 .plain⟩,
  ⟨0x145, .memory, .clm, .xo, .p, .no, .scope, fun _ => .amadd .w32 .acq⟩,
  ⟨0x146, .memory, .clm, .xo, .p, .no, .scope, fun _ => .amadd .w32 .rel⟩,
  ⟨0x147, .memory, .clm, .xo, .p, .no, .scope, fun _ => .amadd .w32 .ar⟩,
  ⟨0x148, .memory, .clm, .xo, .p, .no, .scope, fun _ => .amin .i .plain⟩,
  ⟨0x149, .memory, .clm, .xo, .p, .no, .scope, fun _ => .amin .i .acq⟩,
  ⟨0x14A, .memory, .clm, .xo, .p, .no, .scope, fun _ => .amin .i .rel⟩,
  ⟨0x14B, .memory, .clm, .xo, .p, .no, .scope, fun _ => .amin .i .ar⟩,
  ⟨0x14C, .memory, .clm, .xo, .p, .no, .scope, fun _ => .amin .n .plain⟩,
  ⟨0x14D, .memory, .clm, .xo, .p, .no, .scope, fun _ => .amin .n .acq⟩,
  ⟨0x14E, .memory, .clm, .xo, .p, .no, .scope, fun _ => .amin .n .rel⟩,
  ⟨0x14F, .memory, .clm, .xo, .p, .no, .scope, fun _ => .amin .n .ar⟩,
  ⟨0x150, .memory, .clm, .xo, .p, .no, .scope, fun _ => .amax .i .plain⟩,
  ⟨0x151, .memory, .clm, .xo, .p, .no, .scope, fun _ => .amax .i .acq⟩,
  ⟨0x152, .memory, .clm, .xo, .p, .no, .scope, fun _ => .amax .i .rel⟩,
  ⟨0x153, .memory, .clm, .xo, .p, .no, .scope, fun _ => .amax .i .ar⟩]

def group5Rows1 : List Row := [
  ⟨0x154, .memory, .clm, .xo, .p, .no, .scope, fun _ => .amax .n .plain⟩,
  ⟨0x155, .memory, .clm, .xo, .p, .no, .scope, fun _ => .amax .n .acq⟩,
  ⟨0x156, .memory, .clm, .xo, .p, .no, .scope, fun _ => .amax .n .rel⟩,
  ⟨0x157, .memory, .clm, .xo, .p, .no, .scope, fun _ => .amax .n .ar⟩,
  ⟨0x158, .memory, .clm, .xo, .p, .no, .scope, fun _ => .aand .plain⟩,
  ⟨0x159, .memory, .clm, .xo, .p, .no, .scope, fun _ => .aand .acq⟩,
  ⟨0x15A, .memory, .clm, .xo, .p, .no, .scope, fun _ => .aand .rel⟩,
  ⟨0x15B, .memory, .clm, .xo, .p, .no, .scope, fun _ => .aand .ar⟩,
  ⟨0x15C, .memory, .clm, .xo, .p, .no, .scope, fun _ => .aor .plain⟩,
  ⟨0x15D, .memory, .clm, .xo, .p, .no, .scope, fun _ => .aor .acq⟩,
  ⟨0x15E, .memory, .clm, .xo, .p, .no, .scope, fun _ => .aor .rel⟩,
  ⟨0x15F, .memory, .clm, .xo, .p, .no, .scope, fun _ => .aor .ar⟩,
  ⟨0x160, .memory, .clm, .xo, .p, .no, .scope, fun _ => .axor .plain⟩,
  ⟨0x161, .memory, .clm, .xo, .p, .no, .scope, fun _ => .axor .acq⟩,
  ⟨0x162, .memory, .clm, .xo, .p, .no, .scope, fun _ => .axor .rel⟩,
  ⟨0x163, .memory, .clm, .xo, .p, .no, .scope, fun _ => .axor .ar⟩,
  ⟨0x164, .memory, .clm, .xo, .p, .no, .scope, fun _ => .aswap .plain⟩,
  ⟨0x165, .memory, .clm, .xo, .p, .no, .scope, fun _ => .aswap .acq⟩,
  ⟨0x166, .memory, .clm, .xo, .p, .no, .scope, fun _ => .aswap .rel⟩,
  ⟨0x167, .memory, .clm, .xo, .p, .no, .scope, fun _ => .aswap .ar⟩]

def group5Rows2 : List Row := [
  ⟨0x168, .memory, .clm, .xe, .p, .no, .scope, fun _ => .acas .w64 .plain⟩,
  ⟨0x169, .memory, .clm, .xe, .p, .no, .scope, fun _ => .acas .w64 .acq⟩,
  ⟨0x16A, .memory, .clm, .xe, .p, .no, .scope, fun _ => .acas .w64 .rel⟩,
  ⟨0x16B, .memory, .clm, .xe, .p, .no, .scope, fun _ => .acas .w64 .ar⟩,
  ⟨0x16C, .memory, .clm, .xe, .p, .no, .scope, fun _ => .acas .w32 .plain⟩,
  ⟨0x16D, .memory, .clm, .xe, .p, .no, .scope, fun _ => .acas .w32 .acq⟩,
  ⟨0x16E, .memory, .clm, .xe, .p, .no, .scope, fun _ => .acas .w32 .rel⟩,
  ⟨0x16F, .memory, .clm, .xe, .p, .no, .scope, fun _ => .acas .w32 .ar⟩,
  ⟨0x170, .three, .clm, .no, .scope, .no, .no, fun _ => .fenceAcq⟩,
  ⟨0x171, .three, .clm, .no, .scope, .no, .no, fun _ => .fenceRel⟩,
  ⟨0x172, .three, .clm, .no, .scope, .no, .no, fun _ => .fence⟩,
  ⟨0x173, .three, .clm, .no, .scope, .no, .no, fun _ => .fenceTotal⟩]

/-- Group 5 of R50. -/
def group5 : List Row := group5Rows0 ++ group5Rows1 ++ group5Rows2

def group6Rows0 : List Row := [
  ⟨0x180, .three, .cl, .x, .s, .s, .no, fun _ => .bdecl⟩,
  ⟨0x181, .three, .cl, .x, .s, .no, .no, fun _ => .bstat⟩,
  ⟨0x182, .three, .cl, .no, .s, .no, .no, fun _ => .bfill⟩,
  ⟨0x183, .three, .cl, .no, .s, .no, .no, fun _ => .bpub⟩,
  ⟨0x184, .three, .cl, .no, .s, .no, .no, fun _ => .bdrain⟩,
  ⟨0x185, .three, .cl, .no, .s, .no, .no, fun _ => .bfree⟩,
  ⟨0x190, .memory, .cl, .ld, .p, .no, .stay, fun _ => .ldfC .w64⟩,
  ⟨0x191, .memory, .cl, .ld, .p, .no, .stay, fun _ => .ldfK .w64⟩,
  ⟨0x192, .memory, .cl, .ld, .p, .no, .stay, fun _ => .ldfC .w32⟩,
  ⟨0x193, .memory, .cl, .ld, .p, .no, .stay, fun _ => .ldfK .w32⟩,
  ⟨0x194, .memory, .cl, .xozq, .p, .no, .stay, fun _ => .stf .w64⟩,
  ⟨0x195, .memory, .cl, .xozq, .p, .no, .stay, fun _ => .stf .w32⟩,
  ⟨0x196, .memory, .cl, .no, .p, .no, .stay, fun _ => .sete⟩,
  ⟨0x197, .memory, .cl, .no, .p, .no, .stay, fun _ => .setf⟩,
  ⟨0x198, .memory, .cl, .ld, .p, .no, .stay, fun _ => .tfe⟩]

/-- Group 6 of R50. -/
def group6 : List Row := group6Rows0

def group7Rows0 : List Row := [
  ⟨0x1C0, .three, .cl, .no, .xozq, .s, .no, fun _ => .fork⟩,
  ⟨0x1C1, .three, .cl, .no, .no, .no, .no, fun _ => .done⟩,
  ⟨0x1C2, .three, .clm, .xo, .xozq, .s, .no, fun _ => .callat⟩,
  ⟨0x1C3, .three, .clm, .xo, .s, .no, .no, fun _ => .send⟩,
  ⟨0x1C4, .three, .cl, .xo, .s, .s, .no, fun _ => .jinit⟩,
  ⟨0x1C5, .three, .cl, .no, .s, .no, .no, fun _ => .jarv⟩,
  ⟨0x1C6, .three, .cl, .no, .s, .no, .no, fun _ => .wmint⟩,
  ⟨0x1C8, .three, .cl, .no, .s, .s, .no, fun _ => .gform⟩,
  ⟨0x1C9, .three, .cl, .no, .no, .no, .no, fun _ => .gleave⟩,
  ⟨0x1CA, .three, .cl, .x, .s, .no, .no, fun _ => .barArv⟩,
  ⟨0x1CB, .three, .cl, .x, .s, .no, .no, fun _ => .barDrop⟩,
  ⟨0x1CC, .three, .cl, .no, .s, .s, .no, fun _ => .barWait⟩,
  ⟨0x1CD, .three, .cl, .x, .s, .no, .no, fun _ => .barQry⟩,
  ⟨0x1CE, .three, .clm, .no, .s, .s, .no, fun _ => .hset⟩,
  ⟨0x1CF, .three, .clm, .no, .s, .no, .no, fun _ => .hlock⟩,
  ⟨0x1D0, .three, .clm, .no, .s, .no, .no, fun _ => .hunlock⟩,
  ⟨0x1D1, .three, .cl, .x, .s, .no, .no, fun _ => .sdom⟩]

/-- Group 7 of R50. -/
def group7 : List Row := group7Rows0

def group8Rows0 : List Row := [
  ⟨0x200, .engine, .c, .v, .vs, .vs, .no, fun _ => .vadd⟩,
  ⟨0x201, .engine, .c, .v, .vs, .vs, .no, fun _ => .vsub⟩,
  ⟨0x202, .engine, .c, .v, .vs, .vs, .no, fun _ => .vmul⟩,
  ⟨0x203, .engine, .c, .v, .vs, .vs, .no, fun _ => .vdiv⟩,
  ⟨0x204, .engine, .c, .v, .vs, .vs, .no, fun _ => .vfma⟩,
  ⟨0x205, .engine, .c, .v, .vs, .vs, .no, fun _ => .vmin⟩,
  ⟨0x206, .engine, .c, .v, .vs, .vs, .no, fun _ => .vmax⟩,
  ⟨0x207, .engine, .c, .v, .vs, .no, .no, fun _ => .vabs⟩,
  ⟨0x208, .engine, .c, .v, .vs, .no, .no, fun _ => .vneg⟩,
  ⟨0x209, .engine, .c, .v, .vs, .no, .no, fun _ => .vrcp⟩,
  ⟨0x20A, .engine, .c, .v, .vs, .no, .no, fun _ => .vrsq⟩,
  ⟨0x20B, .engine, .c, .v, .vs, .no, .no, fun _ => .vexp2⟩,
  ⟨0x210, .engine, .c, .v, .vs, .vs, .no, fun _ => .vand⟩,
  ⟨0x211, .engine, .c, .v, .vs, .vs, .no, fun _ => .vor⟩,
  ⟨0x212, .engine, .c, .v, .vs, .vs, .no, fun _ => .vxor⟩,
  ⟨0x213, .engine, .c, .v, .vs, .no, .no, fun _ => .vnot⟩,
  ⟨0x214, .engine, .c, .v, .vs, .vs, .no, fun _ => .vshl⟩,
  ⟨0x215, .engine, .c, .v, .vs, .vs, .no, fun _ => .vshr⟩,
  ⟨0x216, .engine, .c, .v, .vs, .vs, .no, fun _ => .vsar⟩,
  ⟨0x218, .engine, .c, .m, .vs, .vs, .no, fun _ => .vceq⟩]

def group8Rows1 : List Row := [
  ⟨0x219, .engine, .c, .m, .vs, .vs, .no, fun _ => .vcne⟩,
  ⟨0x21A, .engine, .c, .m, .vs, .vs, .no, fun _ => .vclt⟩,
  ⟨0x21B, .engine, .c, .m, .vs, .vs, .no, fun _ => .vcle⟩,
  ⟨0x220, .engine, .c, .v, .vs, .vs, .no, fun _ => .vsel⟩,
  ⟨0x221, .engine, .c, .v, .v, .no, .no, fun _ => .vmov⟩,
  ⟨0x222, .engine, .c, .v, .p, .no, .no, fun _ => .vbcast⟩,
  ⟨0x223, .engine, .c, .v, .v, .imm, .no, fun _ => .vcvt⟩,
  ⟨0x224, .engine, .c, .v, .p, .p, .no, fun _ => .vld⟩,
  ⟨0x225, .engine, .c, .v, .p, .p, .no, fun _ => .vst⟩,
  ⟨0x226, .engine, .c, .v, .p, .p, .no, fun _ => .vldd⟩,
  ⟨0x227, .engine, .c, .q03, .v, .p, .no, fun _ => .vpush⟩,
  ⟨0x228, .engine, .c, .v, .q03, .p, .no, fun _ => .vpop⟩,
  ⟨0x230, .engine, .c, .v, .v, .no, .no, fun _ => .vrsum⟩,
  ⟨0x231, .engine, .c, .v, .v, .no, .no, fun _ => .vrmax⟩,
  ⟨0x232, .engine, .c, .v, .v, .no, .no, fun _ => .vtrn⟩,
  ⟨0x233, .engine, .c, .v, .v, .v, .no, fun _ => .vshf⟩]

/-- Group 8 of R50. -/
def group8 : List Row := group8Rows0 ++ group8Rows1

def group9Rows0 : List Row := [
  ⟨0x240, .engine, .c, .m, .m, .m, .no, fun _ => .mand⟩,
  ⟨0x241, .engine, .c, .m, .m, .m, .no, fun _ => .mor⟩,
  ⟨0x242, .engine, .c, .m, .m, .m, .no, fun _ => .mxor⟩,
  ⟨0x243, .engine, .c, .m, .m, .no, .no, fun _ => .mnot⟩,
  ⟨0x244, .engine, .c, .m, .p, .no, .no, fun _ => .mset⟩,
  ⟨0x245, .engine, .c, .m, .no, .no, .no, fun _ => .mclr⟩,
  ⟨0x246, .engine, .c, .m, .p, .no, .no, fun _ => .mld⟩,
  ⟨0x247, .engine, .c, .m, .p, .no, .no, fun _ => .mst⟩,
  ⟨0x248, .three, .c, .x, .m, .no, .no, fun _ => .mAny⟩,
  ⟨0x249, .three, .c, .x, .m, .no, .no, fun _ => .mPopc⟩,
  ⟨0x24A, .three, .c, .x, .m, .no, .no, fun _ => .mFirst⟩]

/-- Group 9 of R50. -/
def group9 : List Row := group9Rows0

def group10Rows0 : List Row := [
  ⟨0x280, .engine, .c, .tile, .mo, .mo, .no, fun _ => .mmaB8⟩,
  ⟨0x281, .engine, .c, .tile, .mo, .mo, .no, fun _ => .mmaF16⟩,
  ⟨0x282, .engine, .c, .tile, .mo, .mo, .no, fun _ => .mmaBf16⟩,
  ⟨0x283, .engine, .c, .tile, .no, .no, .no, fun _ => .mzero⟩,
  ⟨0x284, .engine, .c, .tile, .p, .p, .no, fun _ => .acld⟩,
  ⟨0x285, .engine, .c, .tile, .p, .p, .no, fun _ => .acst⟩,
  ⟨0x286, .engine, .c, .acmvD, .acmvA, .imm, .no, fun _ => .acmv⟩,
  ⟨0x288, .engine, .c, .v, .tile, .imm, .no, fun _ => .rstat⟩,
  ⟨0x290, .engine, .c, .xoz, .p, .s, .no, fun _ => .cpy⟩,
  ⟨0x291, .engine, .c, .xoz, .p, .s, .no, fun _ => .cpy2d⟩,
  ⟨0x292, .engine, .c, .xoz, .s, .s, .no, fun _ => .cpyFill⟩,
  ⟨0x293, .engine, .c, .xoz, .p, .s, .no, fun _ => .cpyGth⟩]

/-- Group 10 of R50. -/
def group10 : List Row := group10Rows0

def group11Rows0 : List Row := [
  ⟨0x2C0, .engine, .c, .no, .xe, .p, .no, fun _ => .crdOpen⟩,
  ⟨0x2C1, .engine, .c, .xoz, .p, .no, .no, fun _ => .crdDig⟩,
  ⟨0x2C2, .engine, .c, .xoz, .p, .p, .no, fun _ => .crdWdig⟩,
  ⟨0x2C3, .engine, .c, .xoz, .p, .no, .no, fun _ => .crdPlane⟩,
  ⟨0x2C4, .engine, .c, .no, .p, .no, .no, fun _ => .crdElim⟩,
  ⟨0x2C5, .engine, .c, .xoz, .p, .p, .no, fun _ => .crdRes⟩,
  ⟨0x2C6, .engine, .c, .no, .p, .no, .no, fun _ => .crdWait⟩,
  ⟨0x2C7, .engine, .c, .no, .p, .no, .no, fun _ => .crdClose⟩]

/-- Group 11 of R50. -/
def group11 : List Row := group11Rows0

def group12Rows0 : List Row := [
  ⟨0x300, .three, .cl, .x, .s, .s, .no, fun _ => .kvNew⟩,
  ⟨0x301, .three, .cl, .no, .s, .no, .no, fun _ => .kvDrop⟩,
  ⟨0x302, .three, .cl, .xo, .s, .s, .no, fun _ => .kvApp⟩,
  ⟨0x303, .three, .cl, .x, .s, .no, .no, fun _ => .kvLen⟩,
  ⟨0x304, .three, .cl, .xozq, .s, .s, .no, fun _ => .kvRef⟩,
  ⟨0x305, .three, .cl, .no, .s, .s, .no, fun _ => .kvCut⟩,
  ⟨0x308, .three, .cl, .x, .s, .s, .no, fun _ => .lfArm⟩,
  ⟨0x309, .three, .cl, .xozq, .s, .no, .no, fun _ => .lfTop⟩,
  ⟨0x30A, .three, .cl, .x, .s, .no, .no, fun _ => .lfSum⟩,
  ⟨0x30B, .three, .cl, .no, .s, .no, .no, fun _ => .lfEnd⟩,
  ⟨0x30C, .three, .cl, .no, .s, .s, .no, fun _ => .stopSet⟩,
  ⟨0x30D, .three, .cl, .no, .s, .no, .no, fun _ => .stopClr⟩]

/-- Group 12 of R50. -/
def group12 : List Row := group12Rows0

def group13Rows0 : List Row := [
  ⟨0x340, .three, .cl, .x, .s, .s, .no, fun _ => .trOpen⟩,
  ⟨0x341, .three, .cl, .x, .s, .no, .no, fun _ => .trCall⟩,
  ⟨0x342, .three, .cl, .x, .s, .s, .no, fun _ => .trPut⟩,
  ⟨0x343, .three, .cl, .no, .s, .s, .no, fun _ => .trConf⟩,
  ⟨0x344, .three, .cl, .no, .s, .s, .no, fun _ => .trMiss⟩,
  ⟨0x345, .three, .cl, .no, .s, .no, .no, fun _ => .trClose⟩,
  ⟨0x346, .three, .cl, .x, .s, .s, .no, fun _ => .trQry⟩,
  ⟨0x347, .three, .cl, .x, .s, .s, .no, fun _ => .trLim⟩,
  ⟨0x348, .three, .cl, .x, .s, .s, .no, fun _ => .emit⟩,
  ⟨0x34C, .three, .cl, .x, .s, .s, .no, fun _ => .dtNode⟩,
  ⟨0x34D, .three, .cl, .x, .s, .s, .no, fun _ => .dtAccept⟩,
  ⟨0x34E, .three, .cl, .no, .s, .no, .no, fun _ => .dtReset⟩]

/-- Group 13 of R50. -/
def group13 : List Row := group13Rows0

def group14Rows0 : List Row := [
  ⟨0x380, .three, .clm, .no, .s, .no, .no, fun _ => .trap⟩,
  ⟨0x381, .three, .clm, .no, .s, .no, .no, fun _ => .brk⟩,
  ⟨0x382, .three, .clm, .no, .s, .s, .no, fun _ => .tret⟩,
  ⟨0x383, .three, .clm, .x, .s, .no, .no, fun _ => .lkill⟩,
  ⟨0x384, .three, .clm, .no, .s, .no, .no, fun _ => .tvset⟩,
  ⟨0x385, .three, .clm, .no, .s, .s, .no, fun _ => .frset⟩,
  ⟨0x390, .three, .cl, .xo, .s, .s, .no, fun _ => .suspendDrain⟩,
  ⟨0x391, .three, .cl, .xo, .s, .s, .no, fun _ => .suspendRecord⟩,
  ⟨0x392, .three, .cl, .x, .s, .s, .no, fun _ => .resume⟩,
  ⟨0x393, .three, .cl, .xo, .s, .s, .no, fun _ => .ccopy⟩,
  ⟨0x394, .three, .cl, .no, .s, .no, .no, fun _ => .cdisc⟩,
  ⟨0x395, .three, .cl, .x, .s, .s, .no, fun _ => .cinsp⟩,
  ⟨0x396, .three, .cl, .no, .no, .no, .no, fun _ => .gthaw⟩,
  ⟨0x397, .three, .cl, .x, .s, .s, .no, fun _ => .crights⟩]

/-- Group 14 of R50. -/
def group14 : List Row := group14Rows0

def group15Rows0 : List Row := [
  ⟨0x3C0, .three, .cl, .x, .s, .s, .no, fun _ => .collSmp⟩,
  ⟨0x3C1, .three, .cl, .x, .s, .s, .no, fun _ => .collRed⟩,
  ⟨0x3C2, .three, .cl, .x, .s, .s, .no, fun _ => .ckptSave⟩,
  ⟨0x3C3, .three, .cl, .x, .s, .no, .no, fun _ => .ckptCommit⟩,
  ⟨0x3C4, .three, .clm, .x, .s, .s, .no, fun _ => .ecntSel⟩,
  ⟨0x3C5, .three, .clm, .x, .s, .no, .no, fun _ => .ecntRd⟩,
  ⟨0x3E0, .memory, .l, .xozq, .p, .no, .no, fun _ => .hrd⟩,
  ⟨0x3E1, .memory, .l, .xozq, .p, .no, .no, fun _ => .hwr⟩,
  ⟨0x3E2, .three, .l, .xozq, .s, .s, .no, fun _ => .push⟩,
  ⟨0x3E3, .three, .l, .xozq, .s, .s, .no, fun _ => .push2d⟩,
  ⟨0x3E4, .three, .l, .xozq, .s, .s, .no, fun _ => .pushFill⟩,
  ⟨0x3E5, .three, .l, .no, .s, .no, .no, fun _ => .hpf⟩,
  ⟨0x3E6, .three, .l, .x, .s, .no, .no, fun _ => .keysel⟩,
  ⟨0x3E7, .three, .l, .x, .no, .no, .no, fun _ => .hfence⟩]

/-- Group 15 of R50. -/
def group15 : List Row := group15Rows0

/-- The rows of one group (R49). -/
def groupRows : Nat → List Row
  | 0 => group0
  | 1 => group1
  | 2 => group2
  | 3 => group3
  | 4 => group4
  | 5 => group5
  | 6 => group6
  | 7 => group7
  | 8 => group8
  | 9 => group9
  | 10 => group10
  | 11 => group11
  | 12 => group12
  | 13 => group13
  | 14 => group14
  | 15 => group15
  | _ => []

/-- The first row of a list with the code. -/
def findRow (c : Nat) : List Row → Option Row
  | [] => none
  | r :: rs => if r.code = c then some r else findRow c rs

/-- The row of an opcode (R49, R50); none for an unassigned code. -/
def opRow (c : Nat) : Option Row := findRow c (groupRows (c / 64))

end Sys2Proof
end

