-- ==== Sys2Proof/WellFormed.lean ====
section
/-! DEFINITION. Which instructions are well-formed: those whose operands the opcode map of R50 and the rules R42, R43, R46 and R47 allow. -/

namespace Sys2Proof

/-- What a word decodes to: its row, and its guard, hints and operand fields. -/
structure Decoded where
  row : Instr
  ops : Operands
  deriving DecidableEq, Repr

/-- The opcode of an instruction (R50); none for a row of the table that is an event. -/
def Instr.opc : Instr → Option Nat
  | .add w => some (0x000 + w.code)
  | .sub w => some (0x004 + w.code)
  | .mul w => some (0x008 + w.code)
  | .mulh f => some (0x00C + f.code)
  | .div f => some (0x010 + f.code)
  | .rem f => some (0x014 + f.code)
  | .min f => some (0x018 + f.code)
  | .max f => some (0x01C + f.code)
  | .adds f => some (0x020 + f.code)
  | .subs f => some (0x024 + f.code)
  | .neg w => some (0x028 + w.code)
  | .sext w => some (0x02C + w.code)
  | .ceq w => some (0x030 + w.code)
  | .cne w => some (0x032 + w.code)
  | .clt f => some (0x034 + f.code)
  | .cle f => some (0x038 + f.code)
  | .mov64Reg => some (0x03C)
  | .mov64LongImm => some (0x03D)
  | .mov64PcRel => some (0x03F)
  | .movh64 => some (0x03E)
  | .and64 => some (0x040)
  | .or64 => some (0x041)
  | .xor64 => some (0x042)
  | .andn64 => some (0x043)
  | .not64 => some (0x044)
  | .zext w => some (0x045 + w.code)
  | .shl w => some (0x048 + w.code)
  | .shr w => some (0x04C + w.code)
  | .sar w => some (0x050 + w.code)
  | .rol w => some (0x054 + w.code)
  | .ror w => some (0x058 + w.code)
  | .popc w => some (0x05C + w.code)
  | .clz w => some (0x060 + w.code)
  | .ctz w => some (0x064 + w.code)
  | .bext64 => some (0x068)
  | .bins64 => some (0x069)
  | .bswap64 => some (0x06A)
  | .brev64 => some (0x06B)
  | .padd l => some (0x06C + l.code)
  | .psub l => some (0x06E + l.code)
  | .pshl l => some (0x070 + l.code)
  | .pshr l => some (0x072 + l.code)
  | .psar l => some (0x074 + l.code)
  | .pmul l => some (0x076 + l.code)
  | .brOffset => some (0x080)
  | .brRegister => some (0x081)
  | .callOffset => some (0x082)
  | .callRegister => some (0x083)
  | .ret => some (0x084)
  | .pbrOffset => some (0x085)
  | .pbrRegister => some (0x086)
  | .gset => some (0x088)
  | .gres => some (0x08E)
  | .gand => some (0x089)
  | .gor => some (0x08A)
  | .gxor => some (0x08B)
  | .gnot => some (0x08C)
  | .gpend => some (0x08D)
  | .gget => some (0x08F)
  | .nop => some (0x090)
  | .addF32 => some (0x0C0)
  | .subF32 => some (0x0C1)
  | .mulF32 => some (0x0C2)
  | .divF32 => some (0x0C3)
  | .fmaF32 => some (0x0C4)
  | .fmsF32 => some (0x0C5)
  | .sqrtF32 => some (0x0C6)
  | .rcpF32 => some (0x0C7)
  | .rsqF32 => some (0x0C8)
  | .exp2F32 => some (0x0C9)
  | .log2F32 => some (0x0CA)
  | .minF32 => some (0x0CB)
  | .maxF32 => some (0x0CC)
  | .absF32 => some (0x0CD)
  | .negF32 => some (0x0CE)
  | .ceqF32 => some (0x0CF)
  | .cltF32 => some (0x0D0)
  | .cleF32 => some (0x0D1)
  | .cunF32 => some (0x0D2)
  | .classF32 => some (0x0D3)
  | .cvtF32FromInt f => some (0x0E0 + f.code)
  | .cvtIntFromF32 f => some (0x0E4 + f.code)
  | .cvtF32F16 => some (0x0E8)
  | .cvtF16F32 => some (0x0E9)
  | .cvtF32Bf16 => some (0x0EA)
  | .cvtBf16F32 => some (0x0EB)
  | .cvtF32B8 => some (0x0EC)
  | .cvtB8F32 => some (0x0ED)
  | .ld w => some (0x100 + w.code)
  | .lds w => some (0x104 + w.code)
  | .ldp128 => some (0x107)
  | .st w => some (0x108 + w.code)
  | .st4 => some (0x10C)
  | .st2 => some (0x10D)
  | .stp128 => some (0x10F)
  | .ldd => some (0x110)
  | .ldAcq w => some (0x114 + w.code)
  | .stRel w => some (0x116 + w.code)
  | .amadd w od => some (0x140 + 4 * w.code + od.code)
  | .amin sg od => some (0x148 + 4 * sg.code + od.code)
  | .amax sg od => some (0x150 + 4 * sg.code + od.code)
  | .aand od => some (0x158 + od.code)
  | .aor od => some (0x15C + od.code)
  | .axor od => some (0x160 + od.code)
  | .aswap od => some (0x164 + od.code)
  | .acas w od => some (0x168 + 4 * w.code + od.code)
  | .fenceAcq => some (0x170)
  | .fenceRel => some (0x171)
  | .fence => some (0x172)
  | .fenceTotal => some (0x173)
  | .ldfC w => some (match w with | .w64 => 0x190 | .w32 => 0x192)
  | .ldfK w => some (match w with | .w64 => 0x191 | .w32 => 0x193)
  | .stf w => some (0x194 + w.code)
  | .sete => some (0x196)
  | .setf => some (0x197)
  | .tfe => some (0x198)
  | .bdecl => some (0x180)
  | .bstat => some (0x181)
  | .bfill => some (0x182)
  | .bpub => some (0x183)
  | .bdrain => some (0x184)
  | .bfree => some (0x185)
  | .hrd => some (0x3E0)
  | .hwr => some (0x3E1)
  | .push => some (0x3E2)
  | .push2d => some (0x3E3)
  | .pushFill => some (0x3E4)
  | .hpf => some (0x3E5)
  | .keysel => some (0x3E6)
  | .hfence => some (0x3E7)
  | .fork => some (0x1C0)
  | .done => some (0x1C1)
  | .callat => some (0x1C2)
  | .send => some (0x1C3)
  | .jinit => some (0x1C4)
  | .jarv => some (0x1C5)
  | .wmint => some (0x1C6)
  | .gform => some (0x1C8)
  | .gleave => some (0x1C9)
  | .barArv => some (0x1CA)
  | .barDrop => some (0x1CB)
  | .barWait => some (0x1CC)
  | .barQry => some (0x1CD)
  | .hset => some (0x1CE)
  | .hlock => some (0x1CF)
  | .hunlock => some (0x1D0)
  | .sdom => some (0x1D1)
  | .vadd => some (0x200)
  | .vsub => some (0x201)
  | .vmul => some (0x202)
  | .vdiv => some (0x203)
  | .vfma => some (0x204)
  | .vmin => some (0x205)
  | .vmax => some (0x206)
  | .vabs => some (0x207)
  | .vneg => some (0x208)
  | .vrcp => some (0x209)
  | .vrsq => some (0x20A)
  | .vexp2 => some (0x20B)
  | .vand => some (0x210)
  | .vor => some (0x211)
  | .vxor => some (0x212)
  | .vnot => some (0x213)
  | .vshl => some (0x214)
  | .vshr => some (0x215)
  | .vsar => some (0x216)
  | .vceq => some (0x218)
  | .vcne => some (0x219)
  | .vclt => some (0x21A)
  | .vcle => some (0x21B)
  | .vsel => some (0x220)
  | .vmov => some (0x221)
  | .vbcast => some (0x222)
  | .vcvt => some (0x223)
  | .vld => some (0x224)
  | .vst => some (0x225)
  | .vldd => some (0x226)
  | .vpush => some (0x227)
  | .vpop => some (0x228)
  | .vrsum => some (0x230)
  | .vrmax => some (0x231)
  | .vtrn => some (0x232)
  | .vshf => some (0x233)
  | .mand => some (0x240)
  | .mor => some (0x241)
  | .mxor => some (0x242)
  | .mnot => some (0x243)
  | .mset => some (0x244)
  | .mclr => some (0x245)
  | .mld => some (0x246)
  | .mst => some (0x247)
  | .mAny => some (0x248)
  | .mPopc => some (0x249)
  | .mFirst => some (0x24A)
  | .mmaB8 => some (0x280)
  | .mmaF16 => some (0x281)
  | .mmaBf16 => some (0x282)
  | .mzero => some (0x283)
  | .acld => some (0x284)
  | .acst => some (0x285)
  | .acmv => some (0x286)
  | .rstat => some (0x288)
  | .cpy => some (0x290)
  | .cpyFill => some (0x292)
  | .cpy2d => some (0x291)
  | .cpyGth => some (0x293)
  | .crdOpen => some (0x2C0)
  | .crdDig => some (0x2C1)
  | .crdWdig => some (0x2C2)
  | .crdPlane => some (0x2C3)
  | .crdElim => some (0x2C4)
  | .crdRes => some (0x2C5)
  | .crdWait => some (0x2C6)
  | .crdClose => some (0x2C7)
  | .kvNew => some (0x300)
  | .kvDrop => some (0x301)
  | .kvApp => some (0x302)
  | .kvLen => some (0x303)
  | .kvRef => some (0x304)
  | .kvCut => some (0x305)
  | .lfArm => some (0x308)
  | .lfTop => some (0x309)
  | .lfSum => some (0x30A)
  | .lfEnd => some (0x30B)
  | .stopSet => some (0x30C)
  | .stopClr => some (0x30D)
  | .trOpen => some (0x340)
  | .trCall => some (0x341)
  | .trPut => some (0x342)
  | .trConf => some (0x343)
  | .trMiss => some (0x344)
  | .trClose => some (0x345)
  | .trQry => some (0x346)
  | .trLim => some (0x347)
  | .emit => some (0x348)
  | .dtNode => some (0x34C)
  | .dtAccept => some (0x34D)
  | .dtReset => some (0x34E)
  | .trap => some (0x380)
  | .brk => some (0x381)
  | .tret => some (0x382)
  | .lkill => some (0x383)
  | .tvset => some (0x384)
  | .frset => some (0x385)
  | .suspendDrain => some (0x390)
  | .suspendRecord => some (0x391)
  | .resume => some (0x392)
  | .ccopy => some (0x393)
  | .cdisc => some (0x394)
  | .cinsp => some (0x395)
  | .gthaw => some (0x396)
  | .crights => some (0x397)
  | .collSmp => some (0x3C0)
  | .collRed => some (0x3C1)
  | .ckptSave => some (0x3C2)
  | .ckptCommit => some (0x3C3)
  | .ecntSel => some (0x3C4)
  | .ecntRd => some (0x3C5)
  | .keyWrite => some 0x03C
  | .budWrite => some 0x03C
  | .brmodeWrite => some 0x03C
  | .vshapeWrite => some 0x03C
  | .mxcfgWrite => some 0x03C
  | .registerWrite => some 0x03C
  | .migrantArrival => none
  | .stayRequestAtHome => none
  | .replyArrival => none
  | .forwardingEntryLapse => none
  | .subbyteStoreAtHome => none
  | .pushGranuleWrite => none
  | .callatArrival => none
  | .sendArrival => none
  | .jarvArrival => none
  | .handlerLockLapse => none
  | .slotSelect => none
  | .forcedSwitch => none
  | .stealAttempt => none
  | .stealGrantArrival => none
  | .stealTimeout => none
  | .stealBackoffExpiry => none
  | .budgetExhausted => none
  | .weightReturn => none
  | .serialNoticeArrival => none
  | .notify => none
  | .queueMap => none
  | .launchStart => none
  | .queueIdleUnmap => none
  | .queueEvict => none
  | .qctlCreate => none
  | .qctlDisable => none
  | .qctlDestroy => none
  | .completionPost => none
  | .clockNoticeSend => none
  | .clockNoticeArrival => none
  | .translationShootdown => none
  | .ownershipChange => none
  | .engineCommandStart => none
  | .engineCommandComplete => none
  | .deferredFault => none
  | .carderRegistration => none
  | .fullerCompaction => none
  | .scrubCheck => none
  | .rposNotice => none
  | .egressWrite => none
  | .replyDoorbell => none
  | .replyDeliver => none
  | .handlerBudgetExpiry => none
  | .launchClearComplete => none
  | .collContributionArrival => none
  | .collWatchdogExpiry => none
  | .collAbandonArrival => none
  | .ckptBarrierTimeout => none
  | .deviceRecovery => none
  | .flitReplay => none
  | .powerEstimate => none
  | .thermalThrottle => none
  | .thermalStop => none
  | .moduleReset => none
  | .getVersion => none
  | .getCapabilities => none
  | .negotiateAlgorithms => none
  | .getDigests => none
  | .getCertificate => none
  | .challenge => none
  | .getMeasurements => none
  | .keyExchange => none
  | .finish => none
  | .endSession => none
  | .heartbeat => none
  | .illegalInstruction => none
  | .fetchFault => none
  | .stealRequestAtVictim => none
  | .writeAcknowledgement => none
  | .hostWindowAccess => none
  | .contextCreate => none
  | .contextEnd => none
  | .keyPairDelivery => none

/-- The hint bits a row allows (R46, R47 detail 2). -/
def Row.hintsOk (r : Row) (h : Hdr) : Bool :=
  (!h.tkn || r.flag == .tkn) && (!h.stay || r.flag == .stay || r.flag == .scope)

/-- The D, A and B fields of a row, each under its kind set (R42, R43, R47). -/
def Row.fieldsOk (r : Row) (o : Operands) : Bool :=
  r.d.ok o.hd.stay o.d o.d && r.a.ok o.hd.stay o.d o.a && r.b.ok o.hd.stay o.d o.b

/-- The parts a word of the row's class has, and no others: IMM48 in class 01, SC and the offset in class 10
(R41); SC zero where it has no meaning; IMM48 below 2^16 for `movh.64` (R90). -/
def Row.partsOk (r : Row) (o : Operands) : Bool :=
  (r.cls == .long || o.imm == 0) && (r.cls == .memory || o.off == 0) && (r.flag == .scope || o.sc == .core) &&
  (r.flag != .imm16 || o.imm.toNat < 2 ^ 16)

/-- An instruction with its operands is well-formed when its row of the map allows its hints and fields, and names it.
An event has no word. -/
def Decoded.wf (i : Decoded) : Bool :=
  match i.row.opc with
  | some c =>
    match opRow c with
    | some r => r.hintsOk i.ops.hd && r.fieldsOk i.ops && r.partsOk i.ops && r.make i.ops == i.row
    | none => false
  | none => false

end Sys2Proof
end

