-- ==== Sys2Proof/Decode.lean ====
section
/-! DEFINITION. Decoding and encoding of instruction words (R39 to R50): total, refusing by name. -/

namespace Sys2Proof

/-- The fields of a 96-bit word (R39), each as the number its bits hold. -/
structure Fields where
  opc  : Nat
  gsns : Bool
  gidx : Nat
  gap  : Nat
  sw   : Bool
  tkn  : Bool
  stay : Bool
  res  : Nat
  d    : Nat
  a    : Nat
  b    : Nat
  cls  : Nat
  deriving DecidableEq, Repr

/-- The fields of a word (R39). -/
def Fields.ofWord (w : Nat) : Fields where
  opc  := w / 2 ^ 86 % 2 ^ 10
  gsns := w / 2 ^ 85 % 2 == 1
  gidx := w / 2 ^ 82 % 8
  gap  := w / 2 ^ 79 % 8
  sw   := w / 2 ^ 78 % 2 == 1
  tkn  := w / 2 ^ 77 % 2 == 1
  stay := w / 2 ^ 76 % 2 == 1
  res  := w / 2 ^ 74 % 4
  d    := w / 2 ^ 50 % 2 ^ 24
  a    := w / 2 ^ 26 % 2 ^ 24
  b    := w / 2 ^ 2 % 2 ^ 24
  cls  := w % 4

/-- The word that holds the fields (R39). -/
def Fields.word (f : Fields) : Nat :=
  f.opc * 2 ^ 86 + f.gsns.toNat * 2 ^ 85 + f.gidx * 2 ^ 82 + f.gap * 2 ^ 79 + f.sw.toNat * 2 ^ 78 +
  f.tkn.toNat * 2 ^ 77 + f.stay.toNat * 2 ^ 76 + f.res * 2 ^ 74 + f.d * 2 ^ 50 + f.a * 2 ^ 26 + f.b * 2 ^ 2 + f.cls

/-- The guard and hints of the fields. -/
def Fields.hdr (f : Fields) : Hdr :=
  ⟨f.gsns, Fin.ofNat 8 f.gidx, Fin.ofNat 8 f.gap, f.sw, f.tkn, f.stay⟩

/-- The 24-bit operand field of R42: kind in bits 23:21, payload in bits 20:0. -/
def Opd.field : Opd → Nat
  | .x i => i.val
  | .o i => 2 ^ 21 + i.val
  | .z i => 2 * 2 ^ 21 + i.val
  | .imm c => 3 * 2 ^ 21 + c.toNat
  | .q i => 4 * 2 ^ 21 + i.val
  | .v i => 5 * 2 ^ 21 + i.val
  | .m i => 5 * 2 ^ 21 + 2 ^ 19 + i.val
  | .t i => 5 * 2 ^ 21 + 2 * 2 ^ 19 + i.val
  | .sr n => 6 * 2 ^ 21 + n.val
  | .b i => 7 * 2 ^ 21 + i.val
  | .g i => 7 * 2 ^ 21 + 8 + i.val

/-- The register of a file when the index is in range, else none (R42, R47: a payload bit that must be zero). -/
def below (n p : Nat) (f : Fin n → Opd) : Option Opd :=
  if h : p < n then some (f ⟨p, h⟩) else none

/-- The operand a payload of a kind names (R42); none when a bit that must be zero is set, when the payload names
nothing, or when the state register number is unassigned (R47). -/
def Opd.ofKind (p : Nat) : Nat → Option Opd
  | 0 => below 16 p .x
  | 1 => below 8 p .o
  | 2 => below 2 p .z
  | 3 => some (.imm (BitVec.ofNat 21 p))
  | 4 => below 8 p .q
  | 5 =>
    if p < 2 ^ 19 then below 16 p .v
    else if p < 2 * 2 ^ 19 then below 8 (p - 2 ^ 19) .m
    else if p < 3 * 2 ^ 19 then below 4 (p - 2 * 2 ^ 19) .t
    else none
  | 6 => below 24 p .sr
  | 7 => if p < 8 then below 4 p .b else below 8 (p - 8) .g
  | _ => none

/-- The operand of a 24-bit field (R42). -/
def Opd.ofField (f : Nat) : Option Opd := Opd.ofKind (f % 2 ^ 21) (f / 2 ^ 21)

/-- An operand field read under a kind set; none when it is malformed (R42, R47). -/
def readField (stay : Bool) (d : Opd) (k : KSet) (f : Nat) : Option Opd :=
  match Opd.ofField f with
  | some o => if k.ok stay d o then some o else none
  | none => none

/-- The A and B fields of a word with D already read, or the detail code of the first that fails (R41, R47). -/
def Row.readAB (r : Row) (f : Fields) (d : Opd) : Except Nat Operands :=
  match r.cls with
  | .long =>
    if r.flag == .imm16 && f.a != 0 then .error 4
    else if r.flag == .imm16 && f.b / 2 ^ 16 != 0 then .error 5
    else .ok { hd := f.hdr, d := d, imm := BitVec.ofNat 48 (f.a * 2 ^ 24 + f.b) }
  | .memory =>
    match readField f.stay d r.a f.a with
    | none => .error 4
    | some a =>
      match Scope.ofCode (f.b / 2 ^ 21) with
      | none => .error 5
      | some sc =>
        if r.flag == .scope || sc == .core then
          .ok { hd := f.hdr, d := d, a := a, sc := sc, off := BitVec.ofNat 21 (f.b % 2 ^ 21) }
        else .error 5
  | _ =>
    match readField f.stay d r.a f.a with
    | none => .error 4
    | some a =>
      match readField f.stay d r.b f.b with
      | none => .error 5
      | some b => .ok { hd := f.hdr, d := d, a := a, b := b }

/-- The operands of a word under its row, or the detail code of the first malformed field, in the order
CLS, hints, D, A, B (R47). -/
def Row.read (r : Row) (f : Fields) : Except Nat Operands :=
  if f.cls ≠ r.cls.code then .error 1
  else if f.res ≠ 0 || !r.hintsOk f.hdr then .error 2
  else
    match Opd.ofField f.d with
    | none => .error 3
    | some d => if r.d.ok f.stay d d then r.readAB f d else .error 3

/-- Decoding of a word on a core of the profile, or of any profile: ILL.OPC, then ILL.PROF, then ILL.FORM with its
detail code (R47). -/
def decodeFields (p : Option Profile) (f : Fields) : Except Illegal Decoded :=
  match opRow f.opc with
  | none => .error .opc
  | some r =>
    if (match p with | some p => r.prof.has p | none => true) then
      match r.read f with
      | .ok o => .ok ⟨r.make o, o⟩
      | .error k => .error (.form k)
    else .error .prof

/-- Decoding of a 96-bit word. -/
def decodeWord (p : Option Profile) (w : Nat) : Except Illegal Decoded := decodeFields p (Fields.ofWord w)

/-- The number that little-endian bytes hold (R2). -/
def leNat : List Byte → Nat
  | [] => 0
  | b :: bs => b.toNat + 256 * leNat bs

/-- The `n` low bytes of a number, little-endian (R2). -/
def leBytes : Nat → Nat → List Byte
  | 0, _ => []
  | n + 1, w => BitVec.ofNat 8 w :: leBytes n (w / 256)

/-- Decoding of the 12 bytes at a word's address (R40). -/
def decode (p : Option Profile) (bs : List Byte) : Except Illegal Decoded := decodeWord p (leNat (bs.take 12))

/-- The fields of the A and B operands (R41). -/
def Operands.fieldsAB (c : Cls) (o : Operands) : Nat × Nat :=
  match c with
  | .long => (o.imm.toNat / 2 ^ 24, o.imm.toNat % 2 ^ 24)
  | .memory => (o.a.field, o.sc.code * 2 ^ 21 + o.off.toNat)
  | _ => (o.a.field, o.b.field)

/-- The fields of an instruction's word (R39, R50); none for an event. -/
def Decoded.fields (i : Decoded) : Option Fields :=
  match i.row.opc with
  | none => none
  | some c =>
    match opRow c with
    | none => none
    | some r =>
      let ab := i.ops.fieldsAB r.cls
      some { opc := c, gsns := i.ops.hd.gsns, gidx := i.ops.hd.gidx.val, gap := i.ops.hd.gap.val, sw := i.ops.hd.sw,
             tkn := i.ops.hd.tkn, stay := i.ops.hd.stay, res := 0, d := i.ops.d.field, a := ab.1, b := ab.2,
             cls := r.cls.code }

/-- The 96-bit word of an instruction; 0 for an event, which has none. -/
def encodeWord (i : Decoded) : Nat :=
  match i.fields with
  | some f => f.word
  | none => 0

/-- The 12 bytes of an instruction's word (R40). -/
def encode (i : Decoded) : List Byte := leBytes 12 (encodeWord i)

/-- What the decoder reads from a word whose bits are `w`, bit 0 the lowest; bits above the word's `nbits` are zero.
The table of steps gives its rows no bits, and every word of this part has 96 (R39). -/
def decodeTableWord (nbits w : Nat) : Option Instr :=
  match decode none (leBytes 12 (w % 2 ^ min nbits 96)) with
  | .ok i => some i.row
  | .error _ => none

end Sys2Proof
end

