-- ==== Sys2Proof/Machine/Cipher.lean ====
section
/-! DEFINITION. The cipher of encrypted HBM: SM4 as GB/T 32907 gives it, and the XTS mode of IEEE 1619 over units of 64 bytes (R199; log 35). -/

namespace Sys2Proof.Machine

/-! SM4 -/

/-- The S-box of SM4, one row for each high half of a byte, the first entry highest. -/
def sm4Rows : List Nat :=
  [0xd690e9fecce13db716b614c228fb2c05, 0x2b679a762abe04c3aa44132649860699,
   0x9c4250f491ef987a33540b43edcfac62, 0xe4b31ca9c908e89580df94fa758f3fa6,
   0x4707a7fcf37317ba83593c19e6854fa8, 0x686b81b27164da8bf8eb0f4b70569d35,
   0x1e240e5e6358d1a225227c3b01217887, 0xd40046579fd327524c3602e7a0c4c89e] ++
  [0xeabf8ad240c738b5a3f7f2cef96115a1, 0xe0ae5da49b341a55ad933230f58cb1e3,
   0x1df6e22e8266ca60c02923ab0d534e6f, 0xd5db3745defd8e2f03ff6a726d6c5b51,
   0x8d1baf92bbddbc7f11d95c411f105ad8, 0x0ac13188a5cd7bbd2d74d012b8e5b4b0,
   0x8969974a0c96777e65b9f109c56ec684, 0x18f07dec3adc4d2079ee5f3ed7cb3948]

/-- The S-box at a byte. -/
def sm4Sbox (b : Nat) : Nat := sm4Rows.getD (b / 16) 0 / 256 ^ (15 - b % 16) % 256

/-- The S-box at each byte of a word. -/
def sm4Tau (x : BitVec 32) : BitVec 32 :=
  (List.range 4).foldl (fun y i => y ||| BitVec.ofNat 32 (sm4Sbox (x.toNat / 256 ^ i % 256) * 256 ^ i)) 0

/-- The mixing of a round. -/
def sm4Mix (x : BitVec 32) : BitVec 32 :=
  let b := sm4Tau x
  b ^^^ b.rotateLeft 2 ^^^ b.rotateLeft 10 ^^^ b.rotateLeft 18 ^^^ b.rotateLeft 24

/-- The mixing of a round of the key schedule. -/
def sm4KeyMix (x : BitVec 32) : BitVec 32 :=
  let b := sm4Tau x
  b ^^^ b.rotateLeft 13 ^^^ b.rotateLeft 23

/-- The constant of a round of the key schedule: its byte `j`, from the highest, is 7 (4 i + j). -/
def sm4Const (i : Nat) : BitVec 32 :=
  BitVec.ofNat 32 ((List.range 4).foldl (fun n j => 256 * n + 7 * (4 * i + j) % 256) 0)

/-- Four words that a round works on. -/
abbrev Sm4State := BitVec 32 × BitVec 32 × BitVec 32 × BitVec 32

/-- The four words of a block, the highest first. -/
def sm4Words (x : BitVec 128) : Sm4State :=
  (x.extractLsb' 96 32, x.extractLsb' 64 32, x.extractLsb' 32 32, x.extractLsb' 0 32)

/-- A round of the cipher or of the key schedule: `f` of the mixed words joins the first. -/
def sm4Step (f : BitVec 32 → BitVec 32) (k : BitVec 32) (x : Sm4State) : Sm4State :=
  (x.2.1, x.2.2.1, x.2.2.2, x.1 ^^^ f (x.2.1 ^^^ x.2.2.1 ^^^ x.2.2.2 ^^^ k))

/-- Round keys from round `i` on, `n` of them. -/
def sm4Schedule (x : Sm4State) (i : Nat) : Nat → List (BitVec 32)
  | 0 => []
  | n + 1 =>
    let y := sm4Step sm4KeyMix (sm4Const i) x
    y.2.2.2 :: sm4Schedule y (i + 1) n

/-- The round keys of a key. -/
def sm4Keys (key : BitVec 128) : List (BitVec 32) :=
  let k := sm4Words (key ^^^ 0xa3b1bac656aa3350677d9197b27022dc)
  sm4Schedule k 0 32

/-- A block through the rounds of some round keys: in the order of the schedule it is enciphered, in the reverse order
deciphered. -/
def sm4Block (ks : List (BitVec 32)) (x : BitVec 128) : BitVec 128 :=
  let y := ks.foldl (fun w k => sm4Step sm4Mix k w) (sm4Words x)
  y.2.2.2 ++ y.2.2.1 ++ y.2.1 ++ y.1

/-! XTS -/

/-- A block as a number of the bytes in memory, the first byte lowest, and the other way round. -/
def flipBlock (x : BitVec 128) : BitVec 128 :=
  BitVec.ofNat 128 ((List.range 16).foldl (fun n i => 256 * n + x.toNat / 256 ^ i % 256) 0)

/-- A tweak's next value: the little-endian number doubled in the field of 2^128 elements. -/
def xtsDouble (t : BitVec 128) : BitVec 128 := t <<< 1 ^^^ (if t.msb then 0x87 else 0)

/-- Blocks of a unit, each under its tweak; `t` and the blocks are little-endian. -/
def xtsBlocks (ks : List (BitVec 32)) : BitVec 128 → List (BitVec 128) → List (BitVec 128)
  | _, [] => []
  | t, x :: xs => (flipBlock (sm4Block ks (flipBlock (x ^^^ t))) ^^^ t) :: xtsBlocks ks (xtsDouble t) xs

/-- A unit's 64 bytes as one number, the first byte lowest, enciphered or deciphered under a key pair: the high half of
the pair is the data key, the low half the tweak key, and the tweak is the unit's number (R199; log 35). -/
def xtsUnit (dec : Bool) (pair : BitVec 256) (unit : Nat) (v : BitVec 512) : BitVec 512 :=
  let ks := sm4Keys (pair.extractLsb' 128 128)
  let t := flipBlock (sm4Block (sm4Keys (pair.extractLsb' 0 128)) (flipBlock (BitVec.ofNat 128 unit)))
  let blocks := (List.range 4).map fun i => v.extractLsb' (128 * i) 128
  (xtsBlocks (if dec then ks.reverse else ks) t blocks).reverse.foldl (fun n x => n <<< 128 ||| x.setWidth 512) 0

/-- What a unit written under one key pair, or none, reads as under another: the cipher text that the first made of it, as
the second deciphers it (R199). -/
def crossUnit (written read : Option (BitVec 256)) (unit : Nat) (v : BitVec 512) : BitVec 512 :=
  let c := match written with | none => v | some k => xtsUnit false k unit v
  match read with | none => c | some k => xtsUnit true k unit c

end Sys2Proof.Machine
end

