-- ==== Sys2Proof/Machine/Cause.lean ====
section
/-! DEFINITION. The cause codes of R359 and R405. -/

namespace Sys2Proof.Machine

/-- The causes a fault record can carry: a row of R359 on each line, in its order; the last row is R405. -/
inductive Cause where
  | illOpc | illProf | illForm | regInvalid | sregWrite | fetchAln | guardState | guardMig | fmtBad
  | align | pfHole | pfOwn | pfNone | pfFmt | pfPerm | schedReg | scopeOut | bufState | bufDecl | memNokey | memPoison | fmtSlot | fmtRaw | feAddr | pushLen | pushSrc
  | budget | recBad | sendFull | wgtExh | wgtOvf | joinAddr | joinState | unitBad | hndIdx | hndLock | handlerMissing | orphan | groupYard | groupSize | groupBusy | groupNone | barOver | barAddr | domBad
  | engOwn | engFar | vshapeBad | vtypeBad | vidxBad | mxcfgBad | mmaDesc | mmaFmt | mmaArg | cpyDst | cpyLen | crdDesc | crdArg | crdSess
  | kvTenant | kvStale | kvRange | kvArg | kvFull | kvBound | kvVal | kvNomem | kvPoison | lfArg | lfRegion | lfFid
  | slotBad | slotClosed | stopFull | trArg | trFull | trDeep | trLevel | egrArg | dtFull | dtDepth | dtNode | dtLimit
  | trap | brk | hndNest | hndBudget | hndMig | tretState | lkillBad | vecBad
  | contIncomplete | contDouble | contSave | contRights | contState | contLayout
  | collArg | collStep | collDup | ckptArg | ckptStep | ecntArg | ecntOwn
  deriving DecidableEq, Repr

/-- The 16-bit code of a cause (R359, R405). -/
def Cause.code : Cause → Nat
  | .illOpc => 0x0101
  | .illProf => 0x0102
  | .illForm => 0x0103
  | .regInvalid => 0x0104
  | .sregWrite => 0x0105
  | .fetchAln => 0x0106
  | .guardState => 0x0107
  | .guardMig => 0x0108
  | .fmtBad => 0x0109
  | .align => 0x0201
  | .pfHole => 0x0202
  | .pfOwn => 0x0203
  | .pfNone => 0x0204
  | .pfFmt => 0x0205
  | .pfPerm => 0x0206
  | .schedReg => 0x0207
  | .scopeOut => 0x0208
  | .bufState => 0x0209
  | .bufDecl => 0x020A
  | .memNokey => 0x020B
  | .memPoison => 0x020C
  | .fmtSlot => 0x020D
  | .fmtRaw => 0x020E
  | .feAddr => 0x020F
  | .pushLen => 0x0210
  | .pushSrc => 0x0211
  | .budget => 0x0301
  | .recBad => 0x0302
  | .sendFull => 0x0303
  | .wgtExh => 0x0304
  | .wgtOvf => 0x0305
  | .joinAddr => 0x0306
  | .joinState => 0x0307
  | .unitBad => 0x0308
  | .hndIdx => 0x0309
  | .hndLock => 0x030A
  | .handlerMissing => 0x030B
  | .orphan => 0x030C
  | .groupYard => 0x030D
  | .groupSize => 0x030E
  | .groupBusy => 0x030F
  | .groupNone => 0x0310
  | .barOver => 0x0311
  | .barAddr => 0x0312
  | .domBad => 0x0313
  | .engOwn => 0x0401
  | .engFar => 0x0402
  | .vshapeBad => 0x0403
  | .vtypeBad => 0x0404
  | .vidxBad => 0x0405
  | .mxcfgBad => 0x0406
  | .mmaDesc => 0x0407
  | .mmaFmt => 0x0408
  | .mmaArg => 0x0409
  | .cpyDst => 0x040A
  | .cpyLen => 0x040B
  | .crdDesc => 0x040C
  | .crdArg => 0x040D
  | .crdSess => 0x040E
  | .kvTenant => 0x0501
  | .kvStale => 0x0502
  | .kvRange => 0x0503
  | .kvArg => 0x0504
  | .kvFull => 0x0505
  | .kvBound => 0x0506
  | .kvVal => 0x0507
  | .kvNomem => 0x0508
  | .kvPoison => 0x0509
  | .lfArg => 0x050A
  | .lfRegion => 0x050B
  | .lfFid => 0x050C
  | .slotBad => 0x0601
  | .slotClosed => 0x0602
  | .stopFull => 0x0603
  | .trArg => 0x0604
  | .trFull => 0x0605
  | .trDeep => 0x0606
  | .trLevel => 0x0607
  | .egrArg => 0x0608
  | .dtFull => 0x0609
  | .dtDepth => 0x060A
  | .dtNode => 0x060B
  | .dtLimit => 0x060C
  | .trap => 0x0701
  | .brk => 0x0702
  | .hndNest => 0x0703
  | .hndBudget => 0x0704
  | .hndMig => 0x0705
  | .tretState => 0x0706
  | .lkillBad => 0x0707
  | .vecBad => 0x0708
  | .contIncomplete => 0x0801
  | .contDouble => 0x0802
  | .contSave => 0x0803
  | .contRights => 0x0804
  | .contState => 0x0805
  | .contLayout => 0x0806
  | .collArg => 0x0901
  | .collStep => 0x0902
  | .collDup => 0x0903
  | .ckptArg => 0x0904
  | .ckptStep => 0x0905
  | .ecntArg => 0x0906
  | .ecntOwn => 0x0907

end Sys2Proof.Machine
end

