-- ==== Sys2Proof/Machine/Sparse.lean ====
section
/-! DEFINITION. Sparse maps in one canonical form: a list of pairs with keys strictly rising and no entry equal to the default. -/

namespace Sys2Proof.Machine

/-- The value at a key; an unlisted key holds the default `d`. -/
def sget {α : Type} (d : α) : List (Nat × α) → Nat → α
  | [], _ => d
  | (k, v) :: m, a => if a = k then v else if a < k then d else sget d m a

/-- A write of a key: the entry goes to its sorted place, and an entry that would hold the default is removed. -/
def sset {α : Type} [DecidableEq α] (d : α) : List (Nat × α) → Nat → α → List (Nat × α)
  | [], a, v => if v = d then [] else [(a, v)]
  | (k, w) :: m, a, v =>
    if a = k then (if v = d then m else (a, v) :: m)
    else if a < k then (if v = d then (k, w) :: m else (a, v) :: (k, w) :: m)
    else (k, w) :: sset d m a v

/-- The canonical form: keys rise strictly from `lo`, and no value is the default. -/
def swfFrom {α : Type} [DecidableEq α] (d : α) : Nat → List (Nat × α) → Bool
  | _, [] => true
  | lo, (k, v) :: m => lo ≤ k && v != d && swfFrom d (k + 1) m

/-- The canonical form of a sparse map. -/
def swf {α : Type} [DecidableEq α] (d : α) (m : List (Nat × α)) : Bool := swfFrom d 0 m

/-- A write of a keyed record that is always kept, at its sorted place. -/
def kput {α : Type} : List (Nat × α) → Nat → α → List (Nat × α)
  | [], a, v => [(a, v)]
  | (k, w) :: m, a, v =>
    if a = k then (a, v) :: m
    else if a < k then (a, v) :: (k, w) :: m
    else (k, w) :: kput m a v

/-- The record of a key, if it is listed. -/
def kget {α : Type} : List (Nat × α) → Nat → Option α
  | [], _ => none
  | (k, v) :: m, a => if a = k then some v else kget m a

/-- A keyed record removed. -/
def kdel {α : Type} : List (Nat × α) → Nat → List (Nat × α)
  | [], _ => []
  | (k, v) :: m, a => if a = k then m else (k, v) :: kdel m a

end Sys2Proof.Machine
end

