-- ==== Sys2Proof/Machine/State.lean ====
section
/-! DEFINITION. The machine's state: every register, memory, queue, table and engine the manual names, as plain data, and the state after module reset. -/

namespace Sys2Proof.Machine

/-- Why the machine stops. -/
inductive Fault where
  /-- Raised by an instruction performed with no strand in the slot in focus: no run of the machine does this.
  Safe: the machine stops. -/
  | noStrand
  deriving DecidableEq, Repr

/-- Why an instruction has no meaning here. -/
inductive Refusal where
  /-- Raised by an arm of the dispatch for an instruction that is not modelled. Safe: the machine stops. -/
  | notModelled (mnemonic : String)
  deriving DecidableEq, Repr

/-! Registers and records of a strand -/

/-- The three states of a guard (R21). -/
inductive GState where | f | t | p
  deriving DecidableEq, Repr

/-- A register with a valid bit (R20). -/
structure VReg where
  val   : Word
  valid : Bool
  deriving DecidableEq, Repr

/-- A vector clock (R207): one serial for each die, sparse, unlisted entries zero. -/
abbrev Clock := List (Nat × BitVec 32)

/-- The fields of a continuation record (R125). -/
structure Rec where
  budget : BitVec 32
  dkey   : BitVec 32
  arg    : Vector Word 4
  join   : Word
  frame  : Word
  code   : Word
  deriving DecidableEq, Repr

/-- Where a queued record came from (R127). -/
inductive Origin where | host | fork | callat | send | join | handler
  deriving DecidableEq, Repr

/-- A trap frame (R352, R353); `async` marks a frame of R360, whose message identifier `msgId` is. -/
structure Frame where
  epc    : Word
  ecause : Word
  eaddr  : Word
  erec   : Word
  escr0  : Word
  escr1  : Word
  brmode : Word
  async  : Bool
  msgId  : Word
  deriving DecidableEq, Repr

/-- A queued record with its hidden words (R127) and what its task takes over from its maker. -/
structure Queued where
  crec     : Rec
  weight   : Word
  origin   : Origin
  msgId    : Word
  launch   : BitVec 32
  ctx      : BitVec 12
  dep      : Clock
  /-- A group member's number (R149). -/
  member   : Option Nat
  /-- The root task of a launch without a group, whose STRID is 0 (R129). -/
  root     : Bool
  /-- Requeued under R130, never stolen. -/
  requeued : Bool
  /-- The frame a handler task of R360 starts in. -/
  frame    : Option Frame
  deriving DecidableEq, Repr

/-- A buffered fork, callat or send (R132): where it is bound, and for a send the handler index (R164). -/
structure SendEntry where
  q      : Queued
  target : Nat
  index  : BitVec 8
  deriving DecidableEq, Repr

/-- A write of the strand that its home has not acknowledged (R206). -/
structure OutWrite where
  id   : Nat
  /-- A push or `hwr`, which `hfence` waits for (R242). -/
  loft : Bool
  home : Nat
  addr : Word
  pc   : Word
  deriving DecidableEq, Repr

/-- A request of the strand whose reply is outstanding (R190), and whether it is an atomic. -/
structure Asked where
  id     : Nat
  home   : Nat
  writes : Bool
  deriving DecidableEq, Repr

/-- A write of the strand refused at its home and not yet reported by STORE.REFUSED (R213). -/
structure Refused where
  id    : Nat
  home  : Nat
  addr  : Word
  pc    : Word
  cause : Cause
  deriving DecidableEq, Repr

/-- What a strand is, and takes with it when it migrates (R19, R22, R25, R189). -/
structure Strand where
  x        : Vector Word 16
  g        : Vector GState 8
  pc       : Word
  bud      : BitVec 32
  key      : BitVec 32
  wgt      : Word
  strid    : BitVec 32
  launch   : BitVec 32
  ctx      : BitVec 12
  brmode   : Word
  crec     : Rec
  origin   : Origin
  msgId    : Word
  member   : Option Nat
  root     : Bool
  /-- The core and serial that numbered it (R129). -/
  numbered : Option (Nat × Nat)
  /-- The core its task started on (R130). -/
  started  : Nat
  sends    : List SendEntry
  dep      : Clock
  /-- Class-11 commands accepted for the task (R248). -/
  cseq     : BitVec 32
  /-- Granules and `hwr` writes refused (R242). -/
  hfRefused : BitVec 32
  writes   : List OutWrite
  refused  : List Refused
  /-- Requests whose replies are outstanding, in issue order (R190). -/
  asked    : List Asked
  deriving DecidableEq, Repr

/-- A register that a result of fixed latency lands in (R29). -/
inductive RegName where
  | x (i : Fin 16) | o (i : Fin 8) | z | b (i : Fin 4) | g (i : Fin 8) | q (i : Fin 8)
  deriving DecidableEq, Repr

/-- A result in flight: the first cycle in which it is read, its register and value (R29, R30). -/
structure Landing where
  at_ : Nat
  reg : RegName
  val : Word
  deriving DecidableEq, Repr

/-- An entry of a queue register, or a failure entry of q7, with the unit at which the fault was found (R190, R356). -/
inductive QVal where
  | word (v : Word)
  | failure (cause : Cause) (addr pc : Word) (unit : Nat)
  deriving DecidableEq, Repr

/-- An entry of q0 to q7, tagged with its slot (R255). -/
structure QEntry where
  q    : Fin 8
  slot : Nat
  val  : QVal
  deriving DecidableEq, Repr

/-- A fault found after a command was accepted (R254). -/
structure Deferred where
  cause : Cause
  addr  : Word
  dseq  : BitVec 32
  /-- The unit at which it was found when it is not the strand's core (R356). -/
  unit  : Option Nat
  deriving DecidableEq, Repr

/-- The flags of a fault record (R356). -/
structure Flags where
  async    : Bool := false
  deferred : Bool := false
  fetch    : Bool := false
  refused  : Bool := false
  remote   : Bool := false
  kill     : Bool := false
  deriving DecidableEq, Repr

/-- A fault: its cause and flags, and the fields of its record that it lays down (R356, R357). -/
structure Trap where
  cause  : Cause
  flags  : Flags := {}
  addr   : Word := 0
  detail : BitVec 32 := 0
  dseq   : BitVec 32 := 0
  /-- The unit at which the fault was found when it is not the strand's core (R356, R371). -/
  unit   : Option Nat := none
  /-- PC of the record when it is not the instruction's. -/
  pc     : Option Word := none
  /-- MSGID of the record when it is not the task's. -/
  msgId  : Option Word := none
  /-- EPC is the next word: only for `trap` (R352). -/
  next   : Bool := false
  deriving DecidableEq, Repr

/-- A trap whose record waits for the strand's earlier writes (R206, R358), and whether it kills the launch. -/
structure Due where
  trap  : Trap
  fatal : Bool
  deriving DecidableEq, Repr

/-- A fault found where no strand waits, whose record waits for the strand's operations before it: those that bear an earlier
identifier (R331, R358). -/
structure Owed where
  trap   : Trap
  before : Nat
  deriving DecidableEq, Repr

/-- The states of a strand slot (R133). -/
inductive SlotMode where | empty | issuing | waiting | handler | quiesced
  deriving DecidableEq, Repr

/-- What a blocked strand gets from the place that served it while it waited (R160, R193): done with no result, a
result, or a fault of the form. -/
inductive Answer where
  /-- Performed; its completion waits for something more (R160, R329). -/
  | performed
  | done
  | value (v : Word)
  | fault (cause : Cause) (addr : Word) (detail : BitVec 32)
  deriving DecidableEq, Repr

/-! Memory operations -/

/-- The operation of a read-modify-write (R227). -/
inductive AtomOp where | add | min (sg : Sgn) | max (sg : Sgn) | and | or | xor | swap
  deriving DecidableEq, Repr

/-- An access as its home performs it (R221 to R231). -/
inductive MemOp where
  | load (n : Nat) (signed : Bool)
  | pair
  | decode
  | store (n : Nat) (v : Word)
  | storePair (lo hi : Word)
  | storeWide (v : BitVec 512)
  | sub (bits : Nat) (index : Nat) (v : Word)
  | atom (op : AtomOp) (n : Nat) (v : Word)
  | cas (n : Nat) (old new : Word)
  | take (n : Nat) (consume : Bool)
  | storeFull (n : Nat) (v : Word)
  | setFull
  | setEmpty
  | testFull
  deriving DecidableEq, Repr

/-- Where an access is performed: its home, its place, and its element format (R178, R185). -/
structure Place where
  home : Nat
  place : Nat
  /-- The offset in the home's local memory; none in HBM. -/
  off  : Option Nat
  tag  : BitVec 8
  smp  : Bool
  enc  : Bool
  /-- The access goes through L (R187). -/
  near : Bool
  deriving DecidableEq, Repr

/-- What a long access does at its home when its strand's wait for it is over: an access whose result goes to some
registers, or `hrd`'s copy of 64 bytes to an offset of the strand's core (R187, R230, R236). -/
inductive LongOp where
  | mem (op : MemOp) (regs : List RegName)
  | copyIn (off : Nat)
  deriving DecidableEq, Repr

/-- An access that its strand waits for as for a long load and that has not been performed (R145, R187): the address the
program gave, and the place it translated to. -/
structure LongAccess where
  op    : LongOp
  addr  : Word
  place : Place
  deriving DecidableEq, Repr

/-- A long load or blocking form that has been sent and whose strand waits for it (R133, R145, R160, R187): its own PC,
how many results of it are in flight, whether it counts as performed, the queue entries it took when it does not, and
what is still to be done at its home. -/
structure LongWait where
  pc        : Word
  results   : Nat
  performed : Bool
  taken     : List QEntry
  /-- The access that is made when the wait is over (R145, R187). -/
  access    : Option LongAccess
  deriving DecidableEq, Repr

/-- A strand slot: the strand it holds and what stays with the slot (R19, R133, R352). -/
structure Slot where
  mode     : SlotMode
  /-- The state before the group was quiesced (R133). -/
  back     : SlotMode
  /-- In HANDLER, the strand waits as in WAITING. -/
  blocked  : Bool
  st       : Strand
  o        : Vector VReg 8
  z        : Vector VReg 2
  b        : Vector VReg 4
  vshape   : Word
  mxcfg    : Word
  pfmt     : BitVec 9
  /-- Trap frames, the innermost first; the depth is their number. -/
  frames   : List Frame
  hbud     : BitVec 32
  inflight : List Landing
  /-- Issue cycle of the `pbr` that wrote each b-register (R35). -/
  pbrAt    : Vector Nat 4
  /-- The strand does not issue before this cycle (R30, R32, R34 to R36). -/
  readyAt  : Nat
  lastIssue : Nat
  /-- Instructions issued since it last began issuing (R33). -/
  run      : Nat
  deferred : List Deferred
  /-- Acquires whose replies later accesses wait for (R209). -/
  acquires : List Nat
  /-- The instruction in hand has been served while it waited. -/
  answer   : Option Answer
  /-- The request of the instruction in hand stands at its object (R160). -/
  asked    : Bool
  /-- What the instruction in hand has noted while it waits: the commands accepted before it (R268). -/
  mark     : Nat
  /-- A suspension issuer that has left its task's record (R383). -/
  detached : Bool
  /-- The trap just taken, while its record waits; the strand does not issue meanwhile (R358). -/
  due      : Option Due
  /-- The long load or blocking form the strand waits for (R133). -/
  long     : Option LongWait
  /-- Registers changed since fetch last went elsewhere: x in bits 15:0, o in 23:16, z in 25:24, b in 29:26 (R34). -/
  changed  : BitVec 30
  /-- The word of the instruction that stands at issue or waits, once it has been fetched (R40). -/
  hand     : Option (BitVec 96)
  /-- The queue entries that the instruction it waits in has taken: a fault of it gives them back (R145, R160, R351). -/
  taken    : List QEntry
  /-- Refusals of the commit log whose records wait for the strand's earlier writes, the oldest first (R331, R358). -/
  owed     : List Owed
  deriving DecidableEq, Repr

/-! Requests -/

/-- Who made a request: the strand, its instruction and where its reply goes (R190). -/
structure Sender where
  unit   : Nat
  slot   : Nat
  strid  : BitVec 32
  launch : BitVec 32
  ctx    : BitVec 12
  pc     : Word
  /-- A group member: a root task and member 0 of a group it has formed both have STRID 0 (R129, R169). -/
  member : Bool
  /-- The message its task was started by, or 0 (R356). -/
  msgId  : Word := 0
  deriving DecidableEq, Repr

/-- A request or barn store on its way to its home, or waiting there (R190, R206). -/
structure Request where
  op    : MemOp
  addr  : Word
  /-- The physical place the issuing core translated the address to. -/
  place : Nat
  reply : Bool
  deriving DecidableEq, Repr

/-! Cores -/

/-- The phases of an accepted engine command (R250). -/
inductive CmdPhase where | queued | executing
  deriving DecidableEq, Repr

/-- Bytes of one granule of a core's local memory that a command reads or writes: the address the program gave, the core
and local offset, their number, and for a binary8 element the offset of its scale (R186, R201). -/
structure Grain where
  addr  : Nat
  home  : Nat
  off   : Nat
  n     : Nat
  scale : Option Nat
  deriving DecidableEq, Repr

/-- A Carder session (R286 to R288): its owner, and the column and state area as the cores that hold them and the
addresses the program gave. -/
structure Session where
  ctx    : BitVec 12
  launch : BitVec 32
  strid  : BitVec 32
  member : Bool
  home   : Nat
  column : Nat
  areaHome : Nat
  area   : Nat
  n      : Nat
  ctype  : Nat
  dir    : Bool
  nh     : Bool
  deriving DecidableEq, Repr

/-- An engine command with all it captured at issue (R247, R248, R251, R270, R275). -/
structure Cmd where
  /-- Its place in the order in which the core accepted commands. -/
  order  : Nat
  engine : Engine
  row    : Instr
  ops    : Operands
  slot   : Nat
  sender : Sender
  dseq   : BitVec 32
  /-- Scalar operands read at issue; `sa2` and `sb2` are the second registers of pairs (R274, R292). -/
  sd     : Word
  sa     : Word
  sa2    : Word
  sb     : Word
  sb2    : Word
  vshape : Word
  mxcfg  : Word
  bound  : Option (Fin 8 × Bool)
  phase  : CmdPhase
  /-- Registered at the Carder (R289). -/
  registered : Bool
  /-- Its strand waits at it for its registration (R289). -/
  awaited : Bool
  sess   : Option Session
  /-- The buffer a copy command is registered with: its home and number (R282). -/
  buffer : Option (Nat × Fin 16)
  /-- The core's buffer descriptors when the command was accepted (R197). -/
  bufs   : Vector Word 16
  dep    : Clock
  /-- Writes and requests of the strand that its accesses come after (R216). -/
  waits  : List Nat
  /-- Memory operands A and B, or source and destination. -/
  memA   : List Grain
  memB   : List Grain
  /-- The granules of its memory operands that it has read, by their addresses in region M over 16 (R201). -/
  got    : List (Nat × List Byte)
  /-- The scale bytes read with each granule, by their offsets (R186, R263). -/
  scales : List (Nat × List (Nat × Byte))
  /-- Every memory operand of a matrix command has been read (R273), or every queue operand of a copy command (R251). -/
  loaded : Bool
  /-- The destination that it has yet to write, and the bytes for it; none leaves the byte as it is (R201). -/
  todo   : List Grain
  out    : List (Option Byte)
  /-- Rows computed and not yet written, and rows done (R272). -/
  rows   : List (BitVec 512)
  step   : Nat
  failed : Bool
  deriving DecidableEq, Repr

/-- A translation in a translation cache: its context, the first address and the SIZE of its page, and the page-table
entry that maps it (R184). -/
structure CachedPage where
  ctx   : BitVec 12
  base  : Nat
  size  : Nat
  entry : Word
  deriving DecidableEq, Repr

/-- A word in a core's instruction cache: the launch that fetched it, its address and its bytes as a number (R9, R218). -/
structure CodeWord where
  launch : BitVec 32
  addr   : Word
  word   : BitVec 96
  deriving DecidableEq, Repr

/-- A forwarding entry (R158). -/
structure Forward where
  strid   : BitVec 32
  launch  : BitVec 32
  member  : Bool
  dest    : Nat
  lastUse : Nat
  deriving DecidableEq, Repr

/-- A COMMAND record of a continuation object (R376): the word, whether the command was bound, its sequence number, the
values of D, A and B, the second words of register pairs, VSHAPE and MXCFG. -/
structure CmdRec where
  w      : BitVec 96
  bound  : Bool
  seq    : BitVec 32
  vd     : Word
  va     : Word
  vb     : Word
  va2    : Word
  vb2    : Word
  vshape : Word
  mxcfg  : Word
  deriving DecidableEq, Repr

/-- What the inbound strand queue holds: a migrating context, a group member that has not started, or a member of a
resumed object with what its records restore (R138, R149, R385). -/
inductive Inbound where
  | migrant (st : Strand) (q7 : List QVal)
  | member (q : Queued)
  | resumed (st : Strand) (vshape mxcfg : Word) (qs : List (Fin 8 × Word)) (cmds : List CmdRec)
  deriving DecidableEq, Repr

/-- A message held for its handler entry, or an orphan reply (R156 to R158). -/
inductive Parked where
  | send (q : Queued) (index : BitVec 8)
  | reply (sender : Sender) (id : Word) (val : QVal)
  deriving DecidableEq, Repr

/-- A full/empty load that waits at its home (R193): for the strand that blocks in a slot, or for a reply. -/
structure Waiter where
  request : Request
  sender  : Sender
  id      : Nat
  dep     : Clock
  blocks  : Bool
  deriving DecidableEq, Repr

/-- A steal attempt in progress (R141, R144): when it was sent, and the slot reserved for it. -/
structure Steal where
  victim : Nat
  sentAt : Nat
  slot   : Nat
  deriving DecidableEq, Repr

/-- An event counter of R403: its event code and its 48-bit count. -/
structure EventCounter where
  code  : BitVec 16
  count : BitVec 48
  deriving DecidableEq, Repr

/-- One core (R9, R10): its slots, queues, engine registers, commands, queued work and counters. -/
structure Core where
  cyc      : Nat
  slots    : List Slot
  holder   : Nat
  qs       : List QEntry
  v        : Vector (BitVec 4096) 16
  m        : Vector (BitVec 512) 8
  t        : Vector (BitVec 8192) 4
  /-- FINAL of TW0 to TW3 (R272). -/
  final    : Vector (BitVec 5) 4
  cmds     : List Cmd
  /-- Commands the core has accepted. -/
  accepted : Nat
  deque    : List Queued
  ready    : List Queued
  ckey     : BitVec 32
  inbound  : List Inbound
  /-- The map of serial bits (R129). -/
  serials  : BitVec 1024
  msgSerial : BitVec 32
  forwards : List Forward
  overflow : List Parked
  orphansLost : BitVec 32
  steal    : Option Steal
  /-- Failed steal attempts in a row, and when a back-off of R142 began. -/
  stealFails : Nat
  backoff  : Option Nat
  waiters  : List Waiter
  /-- Requests outstanding that expect replies (R190). -/
  pending  : Nat
  /-- Buffer descriptor words (R195). -/
  bufs     : Vector Word 16
  /-- Event counters (R403). -/
  counters : List EventCounter
  /-- Issue turns used so far (R134, R351). -/
  turns    : Nat
  /-- The instruction cache, the latest word first (R9, R10). -/
  icache   : List CodeWord
  /-- The translation cache of the core, the latest first (R9, R10, R184). -/
  tlb      : List CachedPage
  deriving DecidableEq, Repr

/-! Messages on the fabric -/

/-- A contribution to a collective (R398, R399): the device it came from, the member, its descriptor fields and its data
bytes, and the strand that waits when it is one of this module. -/
structure Contribution where
  dev   : Nat
  self  : Nat
  smp   : Bool
  mask  : Word
  ef    : BitVec 2
  nucleus : Bool
  u     : BitVec 32
  base  : BitVec 32
  ms    : Word
  data  : List Byte
  waits : Option Sender
  deriving DecidableEq, Repr

/-- What a message carries. -/
inductive Payload where
  | migrant (st : Strand) (q7 : List QVal)
  /-- A group member or a member of a resumed object that waits for the inbound strand queue of its core (R137, R149). -/
  | member (x : Inbound)
  | request (r : Request)
  | subbyte (r : Request)
  /-- The granules of a push not yet written: the address of the first, the bytes, the frame tag to stamp, and whether
  none has been written (R235, R237). -/
  | push (addr : Word) (bytes : List Byte) (stamp : Option (BitVec 8)) (first : Bool)
  | callat (q : Queued)
  | send (q : Queued) (index : BitVec 8)
  | arrival (cell : Word)
  | weight (w : Word)
  | serial (n : Nat)
  | clock (ser : BitVec 32)
  | stealRequest (slot : Nat)
  | stealGrant (q : Option Queued)
  | reply (id : Nat) (val : QVal)
  | ack (id : Nat) (addr pc : Word) (home : Nat) (refusal : Option Cause)
  /-- A notice of RPOS to the home die of a bound handle, by its table slot, and the forms that complete once it is
applied (R329). -/
  | rpos (handle : Nat) (rpos : BitVec 32) (tells : List (Sender × Answer))
  /-- A contribution or an ABANDON on its way to a home hub (R399). -/
  | contribution (hdev : Nat) (cid : BitVec 16) (step : BitVec 32) (c : Contribution)
  | abandon (hdev : Nat) (cid : BitVec 16) (step : BitVec 32)
  deriving DecidableEq, Repr

/-- A message: its identifier, ends, sender, vector clock, and the serial of a cross-die write (R207). -/
structure Msg where
  id     : Nat
  src    : Nat
  dst    : Nat
  sender : Sender
  dep    : Clock
  ser    : Option (BitVec 32)
  body   : Payload
  deriving DecidableEq, Repr

/-- The clocks of one die (R207). -/
structure Die where
  ser  : BitVec 32
  app  : Clock
  know : Clock
  /-- SER as last sent in a clock notice. -/
  told : BitVec 32
  deriving DecidableEq, Repr

/-! The hub -/

/-- The states of a launch (R364). -/
inductive LaunchState where | live | killing | killed | done
  deriving DecidableEq, Repr

/-- The group a launch holds (R149): its yard, size, the members that have not ended or left, and the cores
they were placed on. -/
structure Group where
  yard    : Nat
  size    : Nat
  members : List Nat
  cores   : List Nat
  deriving DecidableEq, Repr

/-- A launch (R146, R150, R364). -/
structure Launch where
  state    : LaunchState
  ctx      : BitVec 12
  issued   : BitVec 96
  returned : BitVec 96
  domain   : BitVec 3
  group    : Option Group
  root     : Nat
  queue    : Option Nat
  entry    : BitVec 32
  deriving DecidableEq, Repr

/-- The states of a queue number (R155). -/
inductive QueueState where
  | free
  | assigned (ctx : BitVec 12)
  | active (ctx : BitVec 12) (desc : Word)
  deriving DecidableEq, Repr

/-- A mapped queue (R154): when it was mapped, whether it has started a launch since, and since when it is idle. -/
structure Mapped where
  queue   : Nat
  since   : Nat
  started : Bool
  idleAt  : Nat
  deriving DecidableEq, Repr

/-- A completion that waits for room in its ring (R153). -/
structure Completion where
  queue  : Nat
  launch : BitVec 32
  status : BitVec 8
  entry  : BitVec 32
  deriving DecidableEq, Repr

/-- The holder of a handler lock (R174). -/
structure Holder where
  launch : BitVec 32
  strid  : BitVec 32
  deriving DecidableEq, Repr

/-- An entry of a handler table (R156): its fields, whether it is VALID, its lock, and holders whose lock lapsed. -/
structure HandlerEntry where
  valid  : Bool
  code   : Word
  budget : BitVec 32
  key    : BitVec 32
  lock   : Option (Holder × Nat)
  lapsed : List Holder
  deriving DecidableEq, Repr

/-- An entry that holds nothing (R156). -/
def HandlerEntry.empty : HandlerEntry := ⟨false, 0, 0, 0, none, []⟩

/-- A die's part of a filter (R320 to R323): M and S as FP32 codes, the shortlist as (index, code), best first, and
the counts SEEN and NANCNT. -/
structure FilterPart where
  m    : BitVec 32
  s    : BitVec 32
  best : List (Nat × BitVec 32)
  seen : BitVec 32
  nans : BitVec 32
  deriving DecidableEq, Repr

/-- An ARMED filter (R320, R324): the physical places of its elements' pages in order from the base, the base, K, the
element format, N, the written bits (sparse) and the part of each loft die. -/
structure Filter where
  base    : Word
  pages   : List Nat
  k       : Nat
  ef      : BitVec 2
  n       : Nat
  written : List (Nat × Bool)
  parts   : List (Nat × FilterPart)
  deriving DecidableEq, Repr

/-- The registers of a context page (R396), and the replies fetched and not yet delivered. -/
structure HostPage where
  egbase : Word
  eglog  : BitVec 8
  egprod : BitVec 32
  egcons : BitVec 32
  rpbase : Word
  rplog  : BitVec 8
  rptail : BitVec 32
  rpdone : BitVec 32
  dlbase : Word
  dllog  : BitVec 8
  qsel   : BitVec 14
  qdesc  : Word
  qctl   : BitVec 32
  deriving DecidableEq, Repr

/-- The registers of a context page before the host writes them (R396). -/
def HostPage.reset : HostPage := ⟨0, 0, 0, 0, 0, 0, 0, 0, 0, 0, 0, 0, 0⟩

/-- A step a device has saved (R401): the CRC of the slot data, the ranges saved, and whether it is committed. -/
structure Saved where
  crc       : BitVec 32
  ranges    : List (Nat × Nat)
  committed : Bool
  deriving DecidableEq, Repr

/-- What the hub keeps for a context (R22, R155, R156, R180, R320, R378, R395, R396, R400). -/
structure Context where
  live     : Bool
  troot    : BitVec 41
  tvec     : Word
  frec     : Word
  handlers : List (Nat × HandlerEntry)
  filters  : List (Nat × Filter)
  /-- The next object serial (R378). -/
  serial   : Word
  page     : HostPage
  /-- Its page tables have changed and the shootdown is not complete (R184). -/
  changing : Bool
  /-- Exchange pages in the order they appear in BAR4, as device-virtual addresses (R395). -/
  exchange : List Word
  /-- The last committed step, the steps saved, and the checkpoint set: the bases of slots 0 and 1 in this device's HBM,
  CKSZ, the other devices of the set and the buddy (R400, R401). -/
  ckCommitted : Option (BitVec 32)
  ckSaved  : List (Nat × Saved)
  ckSlots  : List Nat
  ckSize   : Nat
  ckSet    : List Nat
  ckBuddy  : Option Nat
  /-- The slots 0 and 1 reserved here for other devices of the set, by device: their bases (R400). -/
  ckHeld   : List (Nat × List Nat)
  deriving DecidableEq, Repr

/-- A context that has never been created: the module's values before R155. -/
def Context.none : Context :=
  ⟨false, 0, 0, 0, [], [], 0, HostPage.reset, false, [], Option.none, [], [], 0, [], Option.none, []⟩

/-! The retirement unit -/

/-- An unretired token: its identifier and level tag (R330). -/
structure Token where
  id  : BitVec 32
  tag : Nat
  deriving DecidableEq, Repr

/-- A prediction level (R330). -/
structure Level where
  cpos      : BitVec 32
  kvlen     : BitVec 32
  confirmed : Bool
  deriving DecidableEq, Repr

/-- An outward request (R334, R335): its serial, class, tag at emission, its tag now, PROV and the 56-byte body. -/
structure Outward where
  serial : BitVec 32
  cls    : BitVec 2
  tag    : Nat
  cur    : Nat
  prov   : Bool
  body   : BitVec 448
  deriving DecidableEq, Repr

/-- A node of a draft tree (R345): its token, depth and ancestry row. -/
structure Node where
  tok   : BitVec 32
  depth : Nat
  row   : BitVec 64
  deriving DecidableEq, Repr

/-- The states of a request slot (R327). -/
inductive ReqState where | free | opened | stopped
  deriving DecidableEq, Repr

/-- A put or `dt.accept` that waits for room, or an `emit` that waits for a held request to go (R334, R339, R346). -/
inductive SlotWait where
  | put (id : BitVec 32)
  | accept (path : List (BitVec 32))
  | emit (cls : BitVec 2) (body : BitVec 448)
  deriving DecidableEq, Repr

/-- A request slot (R327 to R335). -/
structure ReqSlot where
  state   : ReqState
  ctx     : BitVec 12
  start   : BitVec 32
  rpos    : BitVec 32
  limit   : Nat
  logn    : Nat
  log     : Word
  handle  : Option Nat
  /-- Unretired tokens from RPOS on; NPOS is RPOS plus their number. -/
  toks    : List Token
  levels  : List Level
  serial  : BitVec 32
  first   : BitVec 32
  held    : List Outward
  /-- Requests that have left the slot and wait for the egress ring, in order (R396). -/
  leaving : List Outward
  /-- Read-only requests of the present opening with their tags, and the dead ones among them (R332, R335). -/
  ronly   : List (BitVec 32 × Nat)
  dead    : List (BitVec 32)
  edrop   : BitVec 32
  rdrop   : BitVec 32
  stops   : List (BitVec 32)
  tree    : List Node
  stack   : List (Nat × Nat)
  waiting : List (Sender × SlotWait)
  deriving DecidableEq, Repr

/-- A slot that has not been opened since reset (R327, R337). -/
def ReqSlot.reset : ReqSlot :=
  ⟨.free, 0, 0, 0, 0, 0, 0, none, [], [], 0, 0, [], [], [], [], 0, 0, [], [], [], []⟩

/-! The key-value engine -/

/-- A page descriptor (R304). -/
structure PageDesc where
  crc   : BitVec 32
  ver   : BitVec 16
  scale : BitVec 8
  cls   : BitVec 2
  fill  : Nat
  pois  : Bool
  cmp   : Bool
  pfn   : Nat
  deriving DecidableEq, Repr

/-- A page slot that holds no page. -/
def PageDesc.none : PageDesc := ⟨0, 0, 0, 0, 0, false, false, 0⟩

/-- The states of a handle-table slot (R302). -/
inductive HandleState where | free | live | retired
  deriving DecidableEq, Repr

/-- A handle-table slot (R300 to R306): owner, generation, geometry, bound, NEXT of each plane (sparse), CLEN, the
bound request slot, the page directory by plane × 2^20 + page, and the 4 KiB pages that hold it, as PFNs. -/
structure Handle where
  state  : HandleState
  gen    : BitVec 12
  ctx    : BitVec 12
  planes : Nat
  rb     : Nat
  fmt    : BitVec 5
  bound  : Nat
  next   : List (Nat × BitVec 32)
  clen   : BitVec 32
  slot   : Option Nat
  /-- RPOS of the bound slot as last noticed (R329). -/
  rpos   : BitVec 32
  pages  : List (Nat × PageDesc)
  dir    : List Nat
  deriving DecidableEq, Repr

/-- A table slot at module reset: FREE (R302). -/
def Handle.reset : Handle := ⟨.free, 0, 0, 0, 0, 0, 0, [], 0, none, 0, [], []⟩

/-- The page store of a loft die (R305): granted slabs not carved, by address, and the free pages of each class, as PFNs. -/
structure Store where
  slabs : List Nat
  free  : List (Nat × List Nat)
  deriving DecidableEq, Repr

/-! Collectives, checkpoints, links, power and attestation -/

/-- The outcome of a collective's step (R399): the status, and what a DONE outcome writes. -/
structure Outcome where
  status : Nat
  token  : BitVec 32
  prob   : BitVec 32
  data   : List Byte
  deriving DecidableEq, Repr

/-- What a home keeps for one (context, CID): its latest step, the contributions, and the outcome once decided. -/
structure Collective where
  step    : BitVec 32
  members : List Contribution
  outcome : Option Outcome
  deriving DecidableEq, Repr

/-- A member that waits for its collective (R399): its strand, the home's device, collective and step, where its results
go, and when its watchdog expires. -/
structure CollWait where
  sender   : Sender
  hdev     : Nat
  cid      : BitVec 16
  step     : BitVec 32
  smp      : Bool
  desc     : Nat
  area     : Nat
  deadline : Nat
  abandoned : Bool
  deriving DecidableEq, Repr

/-- A `ckpt.save` that waits at the linked barrier (R401): its strand, step and ranges, and when TOUT is over. -/
structure CkptWait where
  sender   : Sender
  step     : BitVec 32
  ranges   : List (Nat × Nat)
  deadline : Nat
  deriving DecidableEq, Repr

/-- The stages of an SPDM connection (R408). -/
inductive Spdm where | start | version | capabilities | negotiated | keyed | session
  deriving DecidableEq, Repr

/-- The security block (R199, R408): the connection, the last response's bytes, and the key pair in slot c of every
loft die. -/
structure Security where
  spdm     : Spdm
  response : List (BitVec 512)
  keys     : List (Nat × BitVec 256)
  deriving DecidableEq, Repr

/-- The hub's power and cooling state (R406, R407): PLIM in milliwatts, the matrix start allowance n, and whether the
module has stopped. -/
structure Power where
  plim    : Nat
  allow   : Nat
  stopped : Bool
  deriving DecidableEq, Repr

/-- A device link (R397): up or down, and its consecutive failed replays. -/
structure Link where
  up     : Bool
  failed : Nat
  deriving DecidableEq, Repr

/-- A function of a host link that is mapped (R394): its context, and whether it is in D3hot. -/
structure HostFunction where
  ctx   : BitVec 12
  d3hot : Bool
  deriving DecidableEq, Repr

/-- A host link (R14, R394): up or down, and its mapped functions by number. -/
structure HostPort where
  up        : Bool
  functions : List (Nat × HostFunction)
  deriving DecidableEq, Repr

/-- A group held quiesced by a suspension that has begun (R381, R382): the issuer, and whether an attempt failed. -/
structure Suspension where
  launch : BitVec 32
  issuer : Sender
  failed : Bool
  /-- A record-mode suspension: the engines start no command of a member (R381). -/
  record : Bool
  /-- The footprint list as it was read: member, offset and length of each entry (R380). -/
  list   : List (Nat × Nat × Nat)
  deriving DecidableEq, Repr

/-- Counters of a set that belongs to a barn, loft core or the hub, with the context it is assigned to (R403). -/
structure CounterSet where
  owner    : Option (BitVec 12)
  counters : List EventCounter
  deriving DecidableEq, Repr

/-- A barn: its Carder's sessions and the registered commands in order, as (core, order at the core) (R286, R289), its event
counters (R403) and its translation cache. -/
structure Barn where
  sessions : List (Nat × Session)
  line     : List (Nat × Nat)
  counters : List EventCounter
  /-- The translation cache of the barn, the latest first (R9, R184). -/
  tlb      : List CachedPage
  deriving DecidableEq, Repr

/-- A page of HBM that the management core has mapped: its first address and its bytes, the context, none once that has
ended, and whether it is a plain page (R181, R199). -/
structure MappedPage where
  base  : Nat
  size  : Nat
  ctx   : Option (BitVec 12)
  plain : Bool
  deriving DecidableEq, Repr

/-- The hub (R8): launches, queues, contexts, request slots, collectives and the module's own controls. -/
structure Hub where
  launches  : List (Nat × Launch)
  nextLaunch : Nat
  queues    : List (Nat × QueueState)
  mapped    : List Mapped
  /-- Runnable queues in the order they became so (R154). -/
  runnable  : List Nat
  done      : List Completion
  contexts  : List (Nat × Context)
  slots     : List (Nat × ReqSlot)
  /-- Requests that have left, by context and slot, in the order they reach the egress ring (R396). -/
  egress    : List (Nat × Nat)
  colls     : List (Nat × Collective)
  collWaits : List CollWait
  ckptWaits : List CkptWait
  suspended : List Suspension
  links     : List Link
  /-- The two host links (R14). -/
  hosts     : List HostPort
  device    : BitVec 8
  /-- The link to each other device that has a route (R397). -/
  routes    : List (Nat × Nat)
  power     : Power
  security  : Security
  counters  : CounterSet
  /-- The pages that the management core has mapped into contexts, the latest first (R199). -/
  pages     : List MappedPage
  /-- 4 KiB frames of HBM that it has retired for their poison, by address over 4096 (R363). -/
  retired   : List Nat
  /-- The stage of its bring-up that the module is in (R409). -/
  stage     : Nat
  /-- The model's own: the bytes the host's last read returned (R395). -/
  hostRead  : List Byte
  deriving DecidableEq, Repr

/-! The whole machine -/

/-- What the agenda holds: a core's next cycle, an event of the table of steps, or an input that no row of the table names
(assumption log 1). -/
inductive Pick where
  | run (u : Nat)
  | event (e : Event)
  | input (i : Input)
  deriving DecidableEq, Repr

/-- The state of the module. -/
structure State where
  cores  : List (Nat × Core)
  /-- Local memory by its address in region M, and HBM by physical address: one map of bytes. -/
  mem    : List Host.Cell
  /-- The host's memory by bus address: the egress and reply rings lie there (R396). -/
  hostMem : List Host.Cell
  /-- Full/empty bits, by granule (place / 16). -/
  full   : List (Nat × Bool)
  /-- Frame tags of local memory, by frame (place / 4096). -/
  tags   : List (Nat × BitVec 8)
  /-- Poisoned ECC units, by the place / 16 of their first byte (R363). -/
  poison : List (Nat × Bool)
  /-- The key pair under which each 64-byte unit of HBM was last written, by its place / 64: none for a plain write, and
  an unlisted unit has not been written (R199). -/
  seals  : List (Nat × Option (Option (BitVec 256)))
  /-- Owners of barns (by the barn's unit number) and of loft cores (R179). -/
  owners : List (Nat × BitVec 12)
  dies   : List (Nat × Die)
  barns  : List (Nat × Barn)
  lofts  : List (Nat × CounterSet)
  handles : List (Nat × Handle)
  stores : List (Nat × Store)
  hub    : Hub
  fabric : List Msg
  /-- The number of messages and requests made so far; the next one's identifier. -/
  nextId : Nat
  /-- The model's own: which agent moves next (log 1). -/
  agenda : List Pick
  /-- The model's own: the core and slot whose instruction is performed (log 1). -/
  focusU : Nat
  focusK : Nat
  /-- The model's own: the guard, hints and operands of the instruction performed, and the event performed. -/
  ir     : Operands
  ev     : Option Event
  /-- The model's own: the furthest cycle any core has run to (log 7). -/
  now    : Nat
  /-- The model's own: the counter the free values are applied to (log 6). -/
  fresh  : Nat
  deriving DecidableEq, Repr

/-! Reset -/

/-- A record of zero bytes. -/
def Rec.zero : Rec := ⟨0, 0, Vector.replicate 4 0, 0, 0, 0⟩

/-- The strand fields of a slot that holds none (log 2). -/
def Strand.reset : Strand where
  x := Vector.replicate 16 0
  g := Vector.replicate 8 .f
  pc := 0
  bud := 0
  key := 0
  wgt := 0
  strid := 0
  launch := 0
  ctx := 0
  brmode := 0
  crec := Rec.zero
  origin := .host
  msgId := 0
  member := none
  root := false
  numbered := none
  started := 0
  sends := []
  dep := []
  cseq := 0
  hfRefused := 0
  writes := []
  refused := []
  asked := []

/-- VSHAPE at its reset points (R246). -/
def vshapeReset : Word := 0x0000_0000_0010_0008

/-- MXCFG at its reset points (R270). -/
def mxcfgReset : Word := 0x0000_0000_7F7F_1010

/-- A register of the slot whose valid bit is clear. -/
def VReg.clear : VReg := ⟨0, false⟩

/-- A slot after module reset: EMPTY (R26). -/
def Slot.reset : Slot where
  mode := .empty
  back := .issuing
  blocked := false
  st := Strand.reset
  o := Vector.replicate 8 VReg.clear
  z := Vector.replicate 2 VReg.clear
  b := Vector.replicate 4 VReg.clear
  vshape := vshapeReset
  mxcfg := mxcfgReset
  pfmt := 0
  frames := []
  hbud := 0
  inflight := []
  pbrAt := Vector.replicate 4 0
  readyAt := 0
  lastIssue := 0
  run := 0
  deferred := []
  acquires := []
  answer := none
  asked := false
  mark := 0
  detached := false
  due := none
  long := none
  changed := 0
  hand := none
  taken := []
  owed := []

/-- Whether a unit number names a loft core (R17). -/
def isLoft (u : Nat) : Bool :=
  u / 2 ^ 20 == 1 && u / 2 ^ 15 % 32 < 24 && u / 2 ^ 5 % 2 ^ 10 == 0

/-- The unit number of the management core (R17). -/
def mgmtUnit : Nat := 0x1F8000

/-- Whether a unit number names a compute core (R17). -/
def isCompute (u : Nat) : Bool := u < 2 ^ 20

/-- A counter that counts nothing (log 2). -/
def EventCounter.reset : EventCounter := ⟨0, 0⟩

/-- A core after module reset (R26, R133, R138, R195, R245, R269, R272). -/
def Core.reset (u : Nat) : Core where
  cyc := 0
  slots := List.replicate (if isLoft u then 16 else 4) Slot.reset
  holder := 0
  qs := []
  v := Vector.replicate 16 0
  m := Vector.replicate 8 0
  t := Vector.replicate 4 0
  final := Vector.replicate 4 16
  cmds := []
  accepted := 0
  deque := []
  ready := []
  ckey := 0
  inbound := []
  serials := 0
  msgSerial := 0
  forwards := []
  overflow := []
  orphansLost := 0
  steal := none
  stealFails := 0
  backoff := none
  waiters := []
  pending := 0
  bufs := Vector.replicate 16 0
  counters := List.replicate 4 EventCounter.reset
  turns := 0
  icache := []
  tlb := []

/-- A die's clocks after module reset (log 3). -/
def Die.reset : Die := ⟨0, [], [], 0⟩

/-- A barn's Carder after module reset: no session open, nothing registered. -/
def Barn.reset : Barn := ⟨[], [], List.replicate 8 EventCounter.reset, []⟩

/-- The hub after reset, in stage 1 of its bring-up: no launch, no context, no queue assigned, the links not trained (R155,
R409; log 2). -/
def Hub.reset : Hub where
  launches := []
  nextLaunch := 1
  queues := []
  mapped := []
  runnable := []
  done := []
  contexts := []
  slots := []
  egress := []
  colls := []
  collWaits := []
  ckptWaits := []
  suspended := []
  links := List.replicate 16 ⟨false, 0⟩
  hosts := List.replicate 2 ⟨false, []⟩
  device := 0
  routes := []
  power := ⟨26_000_000, 16, false⟩
  security := ⟨.start, [], []⟩
  counters := ⟨none, List.replicate 16 EventCounter.reset⟩
  pages := []
  retired := []
  stage := 1
  hostRead := []

/-- The machine right after module reset (R26, R409). -/
def State.reset : State where
  cores := []
  mem := []
  hostMem := []
  full := []
  tags := []
  poison := []
  seals := []
  owners := []
  dies := []
  barns := []
  lofts := []
  handles := []
  stores := []
  hub := Hub.reset
  fabric := []
  nextId := 0
  agenda := []
  focusU := 0
  focusK := 0
  ir := { hd := Hdr.plain }
  ev := none
  now := 0
  fresh := 0

end Sys2Proof.Machine
end

