-- ==== Sys2Proof/Machine/Access.lean ====
section
/-! DEFINITION. The accessors of State: cores, slots, the strand in focus, contexts, launches, clocks and bytes of memory. -/

namespace Sys2Proof.Machine

/-! Units and dies -/

/-- The die of a unit (R16, R17). -/
def dieOf (u : Nat) : Nat :=
  if isCompute u then u / 2 ^ 15 % 32
  else if isLoft u then 32 + u / 2 ^ 15 % 32
  else 56

/-- The barn number of a compute core (R17, R178). -/
def barnOf (u : Nat) : Nat := u - u % 16

/-- The profile of a unit (R18). -/
def profileOf (u : Nat) : Profile :=
  if isCompute u then .compute else if isLoft u then .loft else .management

/-- Whether a unit number names a compute or loft core (R163, R177). -/
def isWorker (u : Nat) : Bool := isCompute u || isLoft u

/-! Cores and slots -/

/-- The core of a unit. -/
def State.core (s : State) (u : Nat) : Core := (kget s.cores u).getD (Core.reset u)

/-- A core replaced. -/
def State.setCore (s : State) (u : Nat) (c : Core) : State := { s with cores := kput s.cores u c }

/-- A slot of a core. -/
def Core.slot (c : Core) (k : Nat) : Slot := c.slots.getD k Slot.reset

/-- A slot of a core replaced. -/
def Core.setSlot (c : Core) (k : Nat) (sl : Slot) : Core := { c with slots := c.slots.set k sl }

/-- Slot `k` of unit `u`. -/
def State.slot (s : State) (u k : Nat) : Slot := (s.core u).slot k

/-- Slot `k` of unit `u` replaced. -/
def State.setSlot (s : State) (u k : Nat) (sl : Slot) : State := s.setCore u ((s.core u).setSlot k sl)

/-- A core changed by a function. -/
def State.modCore (s : State) (u : Nat) (f : Core → Core) : State := s.setCore u (f (s.core u))

/-- A slot changed by a function. -/
def State.modSlot (s : State) (u k : Nat) (f : Slot → Slot) : State := s.setSlot u k (f (s.slot u k))

/-- The core in focus. -/
def State.here (s : State) : Core := s.core s.focusU

/-- The slot in focus. -/
def State.me (s : State) : Slot := s.slot s.focusU s.focusK

/-- The slot in focus replaced. -/
def State.setMe (s : State) (sl : Slot) : State := s.setSlot s.focusU s.focusK sl

/-- The slot in focus changed by a function. -/
def State.modMe (s : State) (f : Slot → Slot) : State := s.setMe (f s.me)

/-- The strand in focus. -/
def State.st (s : State) : Strand := s.me.st

/-- The strand in focus changed by a function. -/
def State.modSt (s : State) (f : Strand → Strand) : State := s.modMe fun sl => { sl with st := f sl.st }

/-- Whether a slot holds a strand (R133). -/
def Slot.live (sl : Slot) : Bool := sl.mode != .empty

/-- The depth of trap frames (R352). -/
def Slot.depth (sl : Slot) : Nat := sl.frames.length

/-- The cycle of the core in focus (R22). -/
def State.cyc (s : State) : Nat := s.here.cyc

/-- Who the strand in a slot is, and where it stands. -/
def State.sender (s : State) (u k : Nat) : Sender :=
  let st := (s.slot u k).st
  ⟨u, k, st.strid, st.launch, st.ctx, st.pc, st.member.isSome, st.msgId⟩

/-- Who the strand in focus is. -/
def State.self (s : State) : Sender := s.sender s.focusU s.focusK

/-- Whether a strand is the one a sender names (R129; log 25). -/
def Sender.names (w : Sender) (st : Strand) : Bool :=
  w.strid == st.strid && w.launch == st.launch && w.member == st.member.isSome

/-- Whether two senders are one strand. -/
def Sender.same (w v : Sender) : Bool := w.strid == v.strid && w.launch == v.launch && w.member == v.member

/-- The hub as the sender of what no strand asked for. -/
def hubSender (ctx : BitVec 12) : Sender := ⟨mgmtUnit, 0, 0, 0, ctx, 0, false, 0⟩

/-- Whether a forwarding entry names a strand (R158). -/
def Forward.isOf (f : Forward) (st : Strand) : Bool :=
  f.strid == st.strid && f.launch == st.launch && f.member == st.member.isSome

/-- Whether a forwarding entry names the strand of a sender (R158). -/
def Forward.isFor (f : Forward) (w : Sender) : Bool :=
  f.strid == w.strid && f.launch == w.launch && f.member == w.member

/-! The hub's tables -/

/-- The context of a number. -/
def State.context (s : State) (c : BitVec 12) : Context := (kget s.hub.contexts c.toNat).getD Context.none

/-- A context replaced. -/
def State.setContext (s : State) (c : BitVec 12) (x : Context) : State :=
  { s with hub := { s.hub with contexts := kput s.hub.contexts c.toNat x } }

/-- The launch of a number, if there is one. -/
def State.launch (s : State) (l : BitVec 32) : Option Launch := kget s.hub.launches l.toNat

/-- A launch replaced. -/
def State.setLaunch (s : State) (l : BitVec 32) (x : Launch) : State :=
  { s with hub := { s.hub with launches := kput s.hub.launches l.toNat x } }

/-- Whether a launch is LIVE (R364). -/
def State.launchLive (s : State) (l : BitVec 32) : Bool :=
  match s.launch l with
  | some x => x.state == .live
  | none => false

/-- Whether a launch has been killed (R364). -/
def State.launchKilled (s : State) (l : BitVec 32) : Bool :=
  match s.launch l with
  | some x => x.state == .killing || x.state == .killed
  | none => false

/-- The Carder and counters of a barn. -/
def State.barn (s : State) (b : Nat) : Barn := (kget s.barns b).getD Barn.reset

/-- A barn replaced. -/
def State.setBarn (s : State) (b : Nat) (x : Barn) : State := { s with barns := kput s.barns b x }

/-- The owner of the local memory of a compute or loft core (R179). -/
def State.owner (s : State) (u : Nat) : Option (BitVec 12) :=
  kget s.owners (if isCompute u then barnOf u else u)

/-- A fresh number for a free value, and the state that has used it (log 6). -/
def State.draw (s : State) : Nat × State := (s.fresh, { s with fresh := s.fresh + 1 })

/-! Clocks (R207) -/

/-- The entry of a clock. -/
def Clock.at_ (c : Clock) (d : Nat) : BitVec 32 := sget 0 c d

/-- Whether `a` comes after `b` modulo 2^32 within a window of 2^31 (R207). -/
def after32 (a b : BitVec 32) : Bool := a != b && (a - b).toNat < 2 ^ 31

/-- The later of two serials (R207). -/
def max32 (a b : BitVec 32) : BitVec 32 := if after32 b a then b else a

/-- The entrywise maximum of two clocks (R207). -/
def Clock.join : Clock → Clock → Clock
  | a, [] => a
  | a, (d, v) :: bs => Clock.join (sset 0 a d (max32 (Clock.at_ a d) v)) bs

/-- The clocks of a die. -/
def State.die (s : State) (d : Nat) : Die := (kget s.dies d).getD Die.reset

/-- The clocks of a die replaced. -/
def State.setDie (s : State) (d : Nat) (x : Die) : State := { s with dies := kput s.dies d x }

/-- KNOW of a die takes a bearer's clock, when its operation is applied there or it writes there (R207 rule 4). -/
def State.learn (s : State) (d : Nat) (c : Clock) : State :=
  match c with
  | [] => s
  | _ => s.setDie d { s.die d with know := Clock.join (s.die d).know c }

/-- KNOW of a die takes the clock of an operation that has come from another die and is served or applied there (R207
rule 4). -/
def State.learnFrom (s : State) (src dst : Nat) (c : Clock) : State :=
  if dieOf src = dieOf dst then s else s.learn (dieOf dst) c

/-- What a bearer depends on after a read on a die (R207 rule 5). -/
def State.heard (s : State) (d : Nat) (c : Clock) : Clock := Clock.join c (s.die d).know

/-- Whether an operation from die `e` that bears `c` waits at the ingress of die `d` (R207 rule 3). -/
def State.held (s : State) (e d : Nat) (c : Clock) : Bool :=
  c.any fun p => p.1 != e && p.1 != d && after32 p.2 (Clock.at_ (s.die d).app p.1)

/-! Memory -/

/-- The place of an offset in a core's local memory: its address in region M (R177). -/
def localPlace (u off : Nat) : Nat := 2 ^ 48 + u * 2 ^ 19 + off

/-- What a byte that nothing has written reads as (R26 for local memory; log 4 for HBM). -/
def blank : Byte := 0

/-- One byte of memory at a place. -/
def State.byte (s : State) (p : Nat) : Byte := sget blank s.mem p

/-- One byte of memory written. -/
def State.setByte (s : State) (p : Nat) (b : Byte) : State := { s with mem := sset blank s.mem p b }

/-- The `n` bytes from a place. -/
def State.bytes (s : State) (p : Nat) : Nat → List Byte
  | 0 => []
  | n + 1 => s.byte p :: State.bytes s (p + 1) n

/-- The bytes from a place written. -/
def State.setBytes (s : State) (p : Nat) : List Byte → State
  | [] => s
  | b :: bs => State.setBytes (s.setByte p b) (p + 1) bs

/-- The little-endian number in the `n` bytes from a place (R2). -/
def State.num (s : State) (p n : Nat) : Nat := leNat (s.bytes p n)

/-- The `n` bytes from a place set to a number, little-endian (R2). -/
def State.setNum (s : State) (p n v : Nat) : State := s.setBytes p (leBytes n v)

/-- The full/empty bit of the granule at a place (R192). -/
def State.isFull (s : State) (p : Nat) : Bool := sget false s.full (p / 16)

/-- The full/empty bit of the granule at a place set (R192). -/
def State.setFull (s : State) (p : Nat) (b : Bool) : State := { s with full := sset false s.full (p / 16) b }

/-! Encryption of HBM (R199) -/

/-- The place one past the last byte of HBM: physical addresses are those below it (R180). -/
def hbmEnd : Nat := 0x180_0000_0000

/-- The key pair of a context, as its slot in the loft dies holds it (R199). -/
def State.keyOf (s : State) (ctx : BitVec 12) : Option (BitVec 256) := kget s.hub.security.keys ctx.toNat

/-- The key under which a unit of HBM was last written, if it has been (R199). -/
def State.seal (s : State) (i : Nat) : Option (Option (BitVec 256)) := sget none s.seals i

/-- Unit `i` of HBM as an access under `key` finds it: as it was written when that was under the same key or never, and
otherwise what the cipher makes of it (R199; log 35). -/
def State.underUnit (s : State) (key : Option (BitVec 256)) (i : Nat) : State :=
  match s.seal i with
  | none => { s with seals := sset none s.seals i (some key) }
  | some k =>
    if k = key then s
    else
      { s.setBytes (64 * i) (leBytes 64 (crossUnit k key i (BitVec.ofNat 512 (s.num (64 * i) 64))).toNat) with
        seals := sset none s.seals i (some key) }

/-- Units of HBM as an access under a key finds them, `n` of them from the `i`-th on. -/
def underUnits (key : Option (BitVec 256)) (i : Nat) : Nat → State → State
  | 0, s => s
  | n + 1, s => underUnits key (i + 1) n (s.underUnit key i)

/-- Memory as an access of `n` bytes at a place finds it under a key; local memory is not encrypted (R199). -/
def State.under (s : State) (key : Option (BitVec 256)) (p n : Nat) : State :=
  if p < hbmEnd then underUnits key (p / 64) ((p + n + 63) / 64 - p / 64) s else s

/-- `n` bytes as a read under a key finds them (R199). -/
def State.bytesUnder (s : State) (key : Option (BitVec 256)) (p n : Nat) : List Byte := (s.under key p n).bytes p n

/-- The number in `n` bytes as a read under a key finds them (R199). -/
def State.numUnder (s : State) (key : Option (BitVec 256)) (p n : Nat) : Nat := leNat (s.bytesUnder key p n)

/-- Bytes written under a key (R199). -/
def State.setBytesUnder (s : State) (key : Option (BitVec 256)) (p : Nat) (bs : List Byte) : State :=
  (s.under key p bs.length).setBytes p bs

/-- The frame tag of local memory at a place (R185). -/
def State.tag (s : State) (p : Nat) : BitVec 8 := sget 0 s.tags (p / 4096)

/-- The frame tag at a place set (R185). -/
def State.setTag (s : State) (p : Nat) (t : BitVec 8) : State := { s with tags := sset 0 s.tags (p / 4096) t }

/-- The key of the ECC unit that granule `g` lies in: the granule in local memory, the 64-byte unit in HBM (R363). -/
def eccUnit (g : Nat) : Nat := if g < 2 ^ 44 then g / 4 * 4 else g

/-- Whether any ECC unit of the `n` bytes from a place is poisoned (R363). -/
def State.anyPoison (s : State) (p n : Nat) : Bool :=
  (List.range ((p + n + 15) / 16 - p / 16)).any fun i => sget false s.poison (eccUnit (p / 16 + i))

/-- The memory's canonical form: places strictly rising, and no entry equal to what an unlisted place reads as. -/
def Memory.wf (m : List Host.Cell) : Bool := swf blank m

/-! Field reading -/

/-- Bits `hi` to `lo` of a number. -/
def bits (v hi lo : Nat) : Nat := v / 2 ^ lo % 2 ^ (hi + 1 - lo)

/-- Bit `i` of a number. -/
def bit (v i : Nat) : Bool := v / 2 ^ i % 2 == 1

end Sys2Proof.Machine
end

