-- ==== Sys2Proof/Machine/Translate.lean ====
section
/-! DEFINITION. Addresses: the regions of R177, the page walk of R180 to R183, element formats of R185 and R186, homes of R178 and R188, and declared buffers of R194 to R196. -/

namespace Sys2Proof.Machine

/-- The kinds of access that translation tells apart (R182). -/
inductive Access where | load | store | atomic | fetch
  deriving DecidableEq, Repr

/-! The page table -/

/-- An entry of a page table (R181). -/
structure Pte where
  raw : Nat
  deriving DecidableEq, Repr

namespace Pte
/-- Fields of R181. -/
def v (e : Pte) : Bool := bit e.raw 0
/-- Loads allowed (R181). -/
def r (e : Pte) : Bool := bit e.raw 1
/-- Stores allowed (R181). -/
def w (e : Pte) : Bool := bit e.raw 2
/-- Fetch allowed (R181). -/
def x (e : Pte) : Bool := bit e.raw 3
/-- SIZE (R181). -/
def size (e : Pte) : Nat := bits e.raw 11 9
/-- Physical address bits 40:12 of the page or next table, as an address (R181). -/
def base (e : Pte) : Nat := bits e.raw 40 12 * 4096
/-- The element format byte, bits 63:56 (R181). -/
def tag (e : Pte) : BitVec 8 := BitVec.ofNat 8 (e.raw / 2 ^ 56)
/-- A logits region (R181). -/
def smp (e : Pte) : Bool := bit e.raw 55
/-- Encrypted (R181). -/
def enc (e : Pte) : Bool := bit e.raw 54
end Pte

/-- FMT of a format byte (R181). -/
def tagFmt (t : BitVec 8) : Nat := bits t.toNat 7 3
/-- BLK of a format byte (R181). -/
def tagBlk (t : BitVec 8) : Nat := bits t.toNat 2 1
/-- SIDE of a format byte (R181). -/
def tagSide (t : BitVec 8) : Bool := bit t.toNat 0

/-- Whether a format byte breaks the rules of R182 for FMT, BLK and SIDE. -/
def tagBad (t : BitVec 8) : Bool :=
  tagBlk t == 3 || (tagFmt t < 4 && (tagBlk t != 0 || tagSide t))

/-- Bytes in a page of a SIZE (R181); 0 for a table pointer or a malformed SIZE. -/
def pageSize : Nat → Nat
  | 1 => 2 ^ 12
  | 2 => 2 ^ 16
  | 3 => 2 ^ 21
  | 4 => 2 ^ 28
  | 5 => 2 ^ 32
  | _ => 0

/-- Whether a SIZE is allowed at a level and index (R180, R182). -/
def sizeAllowed (level index size : Nat) : Bool :=
  match level, size with
  | 0, 1 => true
  | 0, 2 => index % 16 == 0
  | 1, 0 => true
  | 1, 3 => true
  | 1, 4 => index % 128 == 0
  | 2, 0 => true
  | 2, 5 => true
  | 3, 0 => true
  | _, _ => false

/-- Bytes of the table below a level (R180). -/
def tableSize : Nat → Nat
  | 3 => 8192
  | 2 => 16384
  | 1 => 4096
  | _ => 1

/-- Whether an entry is malformed at a level and index (R182). -/
def Pte.bad (e : Pte) (level index : Nat) : Bool :=
  bits e.raw 53 41 != 0 || bits e.raw 8 4 != 0 || !sizeAllowed level index e.size || tagBad e.tag ||
  (if e.size == 0 then
    e.tag != 0 || e.smp || e.enc || e.x || e.w || e.r || e.base % tableSize level != 0 ||
      hbmEnd < e.base + tableSize level
  else e.base % pageSize e.size != 0 || hbmEnd < e.base + pageSize e.size)

/-- The index of an address at a level (R180). -/
def pageIndex (a : Nat) : Nat → Nat
  | 3 => bits a 54 42
  | 2 => bits a 41 32
  | 1 => bits a 31 21
  | _ => bits a 20 12

/-- What an address of region H translates to (R182). -/
structure Mapping where
  pa  : Nat
  tag : BitVec 8
  smp : Bool
  enc : Bool
  deriving DecidableEq, Repr

/-- An entry of the table at `t` of a context as memory holds it: page tables are encrypted pages of their context
(R180, R199). -/
def State.pte (s : State) (ctx : BitVec 12) (t i : Nat) : Pte := ⟨s.numUnder (s.keyOf ctx) (t + 8 * i) 8⟩

/-- An access through the entry of its page (R182). -/
def mapped (e : Pte) (a : Nat) (k : Access) : Except Cause Mapping :=
  if (match k with
      | .load => e.r
      | .store => e.w
      | .atomic => e.r && e.w
      | .fetch => e.x) then
    .ok ⟨e.base + a % pageSize e.size, e.tag, e.smp, e.enc⟩
  else .error .pfPerm

/-- A leaf found by a walk (R182). -/
def leaf (e : Pte) (level index : Nat) : Except Cause Pte := if e.bad level index then .error .pfFmt else .ok e

/-- The head of a group of a level, when it is valid with the group's SIZE (Try of R182). -/
def groupHead (s : State) (ctx : BitVec 12) (t level i : Nat) : Option (Pte × Nat) :=
  let head := fun n z => let e := s.pte ctx t (i - i % n); if e.v && e.size == z then some (e, i - i % n) else none
  match level with
  | 1 => head 128 4
  | 0 => head 16 2
  | _ => none

/-- The walk from a level down to the entry of the address's page (R182). `fuel` is the level plus one. -/
def walk (s : State) (ctx : BitVec 12) (a : Nat) : Nat → Nat → Except Cause Pte
  | 0, _ => .error .pfNone
  | level + 1, t =>
    let i := pageIndex a level
    match groupHead s ctx t level i with
    | some (e, j) => leaf e level j
    | none =>
      let e := s.pte ctx t i
      if !e.v then .error .pfNone
      else if e.bad level i then .error .pfFmt
      else if e.size != 0 then leaf e level i
      else walk s ctx a level e.base

/-- The page-table entry of an address of region H in a context, as the tables in memory stand (R182). -/
def pageEntry (s : State) (ctx : BitVec 12) (a : Nat) : Except Cause Pte := walk s ctx a 4 (s.context ctx).troot.toNat

/-- Translation of an address of region H in a context by a walk (R182). -/
def translate (s : State) (ctx : BitVec 12) (a : Nat) (k : Access) : Except Cause Mapping :=
  match pageEntry s ctx a with
  | .ok e => mapped e a k
  | .error c => .error c

/-! Translation caches (R9, R10, R184; log 34) -/

/-- Whether a cached entry maps an address of a context (R184). -/
def CachedPage.holds (p : CachedPage) (ctx : BitVec 12) (a : Nat) : Bool :=
  p.ctx == ctx && p.base ≤ a && a < p.base + pageSize p.size

/-- The entry that the caches of a unit hold for an address: its core's, and then its barn's (R184). -/
def State.cachedPage (s : State) (u : Nat) (ctx : BitVec 12) (a : Nat) : Option CachedPage :=
  match (s.core u).tlb.find? fun p => p.holds ctx a with
  | some p => some p
  | none => if isCompute u then (s.barn (barnOf u)).tlb.find? fun p => p.holds ctx a else none

/-- Translation of an address of region H for an access of a unit: by a cached entry, else by a walk (R182, R184). -/
def translateAt (s : State) (u : Nat) (ctx : BitVec 12) (a : Nat) (k : Access) : Except Cause Mapping :=
  match s.cachedPage u ctx a with
  | some p => mapped ⟨p.entry.toNat⟩ a k
  | none => translate s ctx a k

/-- Entries of the translation cache of a core, and of that of a barn (R9, R10, R184). -/
def coreTlbRoom : Nat := 64

/-- Entries of a barn's translation cache (R9). -/
def barnTlbRoom : Nat := 1024

/-- An entry put in a translation cache, which drops its oldest when it is full. -/
def holdPage (room : Nat) (p : CachedPage) (l : List CachedPage) : List CachedPage :=
  (p :: l.filter (· != p)).take room

/-- The entry of an address's page taken into the caches of a unit, after a walk when the barn's does not hold it
(R184). -/
def State.cachePage (s : State) (u : Nat) (ctx : BitVec 12) (a : Nat) : State :=
  let found := match s.cachedPage u ctx a with
    | some p => some p
    | none =>
      match pageEntry s ctx a with
      | .ok e => some ⟨ctx, a - a % pageSize e.size, e.size, BitVec.ofNat 64 e.raw⟩
      | .error _ => none
  match found with
  | none => s
  | some p =>
    let s := s.modCore u fun c => { c with tlb := holdPage coreTlbRoom p c.tlb }
    if isCompute u then
      let b := s.barn (barnOf u)
      s.setBarn (barnOf u) { b with tlb := holdPage barnTlbRoom p b.tlb }
    else s

/-- The translation caches of the module without the entries that a test picks (R179, R184). -/
def State.dropPages (s : State) (f : Nat → CachedPage → Bool) : State :=
  { s with
    cores := s.cores.map fun (c : Nat × Core) => (c.1, { c.2 with tlb := c.2.tlb.filter fun p => !f c.1 p })
    barns := s.barns.map fun (b : Nat × Barn) => (b.1, { b.2 with tlb := b.2.tlb.filter fun p => !f b.1 p }) }

/-- The loft core of a physical address (R188). -/
def loftUnit (p : Nat) : Nat := 0x100000 + p / 2 ^ 21 % 24 * 2 ^ 15 + p / 2 ^ 12 % 32

/-! Regions and homes -/

/-- The regions of R177. -/
inductive Region where | l | w | m | h | hole
  deriving DecidableEq, Repr

/-- The region of an address, before the checks of a slot's unit and offset (R177). -/
def regionOf (a : Nat) : Region :=
  if a < 0x60000 then .l
  else if 0x100_0000 ≤ a && a < 0x180_0000 then .w
  else if 0x1_0000_0000_0000 ≤ a && a < 0x1_0100_0000_0000 then .m
  else if 0x80_0000_0000_0000 ≤ a && a < 0x100_0000_0000_0000 then .h
  else .hole

/-- The core and local offset that an address of L, W or M names for a strand on unit `u`; none for a hole
(R177, R178). -/
def localOf (u a : Nat) : Option (Nat × Nat) :=
  match regionOf a with
  | .l => some (u, a)
  | .w => if isCompute u && a % 2 ^ 19 < 0x60000 then some (barnOf u + a / 2 ^ 19 % 16, a % 2 ^ 19) else none
  | .m =>
    let v := a / 2 ^ 19 % 2 ^ 21
    if profileOf u != .management && isWorker v && a % 2 ^ 19 < 0x60000 then some (v, a % 2 ^ 19) else none
  | _ => none

/-- The first offset of the scheduler region (R137). -/
def schedBase : Nat := 0x5B000

/-- Whether a strand of the context on unit `u` may access the memory of `v` through the region (R179). -/
def mayReach (s : State) (u v : Nat) (ctx : BitVec 12) (r : Region) : Bool :=
  if r == .l then isCompute u || profileOf u == .management || s.owner u == some ctx
  else s.owner v == some ctx

/-- Tests 2 to 5 of R183 on one address, in their order, for a strand of the context on unit `u`; `tr` is what an address
of region H translates to. -/
def locateBy (s : State) (u : Nat) (ctx : BitVec 12) (a : Nat) (tr : Except Cause Mapping) : Except Cause Place :=
  if regionOf a == .h then
    if profileOf u == .management then .error .pfHole
    else
      match tr with
      | .ok m => .ok ⟨loftUnit m.pa, m.pa, none, m.tag, m.smp, m.enc, false⟩
      | .error c => .error c
  else
    match localOf u a with
    | none => .error .pfHole
    | some (v, off) =>
      if schedBase ≤ off then .error .schedReg
      else if !mayReach s u v ctx (regionOf a) then .error .pfOwn
      else .ok ⟨v, localPlace v off, some off, s.tag (localPlace v off), false, false, regionOf a == .l⟩

/-- Tests 2 to 5 of R183 on one address for a strand of the context on unit `u`. -/
def locate (s : State) (u : Nat) (ctx : BitVec 12) (a : Nat) (k : Access) : Except Cause Place :=
  locateBy s u ctx a (translateAt s u ctx a k)

/-- The same for a write of the hub's, which has no translation cache: it walks the tables (R184). -/
def locateHub (s : State) (ctx : BitVec 12) (a : Nat) (k : Access) : Except Cause Place :=
  locateBy s 0 ctx a (translate s ctx a k)

/-- MEM.NOKEY: an encrypted page while the context's key slot is empty (R199, test 7 of R183). -/
def noKey (s : State) (ctx : BitVec 12) (p : Place) : Bool :=
  p.enc && (s.keyOf ctx).isNone

/-- The key under which an access of a context reaches a place (R199). -/
def Place.key (s : State) (ctx : BitVec 12) (p : Place) : Option (BitVec 256) := if p.enc then s.keyOf ctx else none

/-- A place moved within its frame or granule run by a signed number of bytes. -/
def Place.shift (p : Place) (d : Int) : Place :=
  { p with place := ((p.place : Int) + d).toNat, off := p.off.map fun o => ((o : Int) + d).toNat }

/-! Declared buffers -/

namespace Buf
/-- STATE of a descriptor word (R195): 0 EMPTY, 1 FILLING, 2 FULL, 3 DRAINING. -/
def state (d : Word) : Nat := bits d.toNat 63 62
/-- SEL (R195). -/
def sel (d : Word) : Bool := bit d.toNat 61
/-- DECL (R195). -/
def decl (d : Word) : Bool := bit d.toNat 60
/-- PUBS (R195). -/
def pubs (d : Word) : Nat := bits d.toNat 55 40
/-- SIZE (R195). -/
def size (d : Word) : Nat := bits d.toNat 39 20
/-- BASE (R195). -/
def base (d : Word) : Nat := bits d.toNat 19 0
/-- A descriptor word from its fields (R195). -/
def make (state : Nat) (sel decl : Bool) (pubs size base : Nat) : Word :=
  BitVec.ofNat 64 (state * 2 ^ 62 + sel.toNat * 2 ^ 61 + decl.toNat * 2 ^ 60 + pubs % 2 ^ 16 * 2 ^ 40 + size * 2 ^ 20 + base)
/-- Whether an offset lies in V (R194). -/
def inV (d : Word) (off : Nat) : Bool := decl d && base d ≤ off && off < base d + size d
/-- Whether an offset lies in S (R194). -/
def inS (d : Word) (off : Nat) : Bool := decl d && base d + size d ≤ off && off < base d + 2 * size d
/-- V is open to accesses (R196). -/
def open_ (d : Word) : Bool := state d == 2 || state d == 3
/-- S is open to copy and push writes (R196). -/
def filling (d : Word) : Bool := state d == 1 || state d == 3
end Buf

/-- The number of the buffer whose V or S holds the offset (R194). -/
def Core.bufAt (c : Core) (off : Nat) : Option (Fin 16) :=
  (List.finRange 16).find? fun i => Buf.inV c.bufs[i] off || Buf.inS c.bufs[i] off

/-- The offset of the storage that answers a program's access, or BUF.STATE (R194, R196). -/
def Core.bufRead (c : Core) (off : Nat) : Except Cause Nat :=
  match c.bufAt off with
  | none => .ok off
  | some i =>
    let d := c.bufs[i]
    if Buf.inV d off && Buf.open_ d then .ok (if Buf.sel d then off + Buf.size d else off)
    else .error .bufState

/-- The offset of the storage that a push or copy write reaches, or BUF.STATE (R194, R196). -/
def Core.bufFill (c : Core) (off : Nat) : Except Cause Nat :=
  match c.bufAt off with
  | none => .ok off
  | some i =>
    let d := c.bufs[i]
    if Buf.inV d off then
      if Buf.open_ d then .ok (if Buf.sel d then off + Buf.size d else off) else .error .bufState
    else if Buf.filling d then .ok (if Buf.sel d then off - Buf.size d else off)
    else .error .bufState

/-- The place an access reaches at its home behind declared buffers (test 6 of R183). -/
def settle (s : State) (p : Place) : Except Cause Nat :=
  match p.off with
  | none => .ok p.place
  | some off =>
    match (s.core p.home).bufRead off with
    | .ok o => .ok (localPlace p.home o)
    | .error c => .error c

/-- The place a push or copy write reaches at its home behind declared buffers (R196). -/
def settleFill (s : State) (p : Place) : Except Cause Nat :=
  match p.off with
  | none => .ok p.place
  | some off =>
    match (s.core p.home).bufFill off with
    | .ok o => .ok (localPlace p.home o)
    | .error c => .error c

/-! The bytes an access reaches -/

/-- The bytes of a place, behind declared buffers, with the tests that an access makes at its home: BUF.STATE,
MEM.NOKEY, then MEM.POISON (R183, R191, R199). -/
def reach (s : State) (ctx : BitVec 12) (p : Place) (n : Nat) : Except Cause Nat :=
  match settle s p with
  | .error c => .error c
  | .ok a => if noKey s ctx p then .error .memNokey else if s.anyPoison a n then .error .memPoison else .ok a

/-- The places of `n` granules from a place on, behind declared buffers, each by its own storage; the first that fails,
by its number from `i` on (R194, R197). -/
def settleAll (s : State) (p : Place) : Nat → Nat → Except (Cause × Nat) (List Nat)
  | 0, _ => .ok []
  | n + 1, i =>
    match settle s (p.shift (16 * i : Nat)) with
    | .error c => .error (c, i)
    | .ok q =>
      match settleAll s p n (i + 1) with
      | .ok l => .ok (q :: l)
      | .error e => .error e

/-- The places of `n` granules of an access, with the tests of `reach`; the first granule that fails, by its number. -/
def reachAll (s : State) (ctx : BitVec 12) (p : Place) (n : Nat) : Except (Cause × Nat) (List Nat) :=
  match settleAll s p n 0 with
  | .error e => .error e
  | .ok ps =>
    if noKey s ctx p then .error (.memNokey, 0)
    else
      match (List.range n).find? fun i => s.anyPoison (ps.getD i 0) 16 with
      | some i => .error (.memPoison, i)
      | none => .ok ps

/-- The bytes of granules by their places. -/
def State.gather (s : State) (ps : List Nat) : List Byte := (ps.map fun p => s.bytes p 16).flatten

/-- Granules written one after another at their places. -/
def State.scatterRaw (s : State) : List Nat → List Byte → State
  | [], _ => s
  | p :: ps, bs => State.scatterRaw (s.setBytes p (bs.take 16)) ps (bs.drop 16)

/-- The bytes of `n` granules of an access, with its tests (R183, R191, R194, R199). -/
def readAll (s : State) (ctx : BitVec 12) (p : Place) (n : Nat) : Except (Cause × Nat) (List Byte) :=
  match reachAll s ctx p n with
  | .ok ps => .ok ((s.under (p.key s ctx) p.place (16 * n)).gather ps)
  | .error e => .error e

/-! Element formats -/

/-- The classes of an element format (R68): raw, FP32, FP16, BF16, binary8. -/
inductive Format where
  | raw | fp32 | fp16 | bf16
  | b8 (code : Nat)
  deriving DecidableEq, Repr

/-- The format of a format byte (R68, R181). -/
def formatOf (t : BitVec 8) : Format :=
  match tagFmt t with
  | 0 => .raw
  | 1 => .fp32
  | 2 => .fp16
  | 3 => .bf16
  | n => .b8 n

/-- Bytes of an element (R225). -/
def Format.size : Format → Nat
  | .raw => 1
  | .fp32 => 4
  | .fp16 => 2
  | .bf16 => 2
  | .b8 _ => 1

/-- Elements in a block of a format byte (R181). -/
def blockSize (t : BitVec 8) : Nat := 16 * 2 ^ tagBlk t

/-- Blocks in a frame (R186). -/
def blocksOf : Nat → Nat
  | 16 => 240
  | 32 => 124
  | _ => 63

/-- For an offset in a frame of a binary8 format byte: the element's slot number in the frame and the frame offset of
its scale; none for a scale or pad byte (Slot of R186). -/
def slotOf (t : BitVec 8) (o : Nat) : Option (Nat × Nat) :=
  let n := blockSize t
  let k := blocksOf n
  if tagSide t then
    if o < n * k then some (o, n * k + o / n) else none
  else if o < (n + 1) * k && o % (n + 1) != 0 then
    some (o / (n + 1) * n + (o % (n + 1) - 1), o / (n + 1) * (n + 1))
  else none

/-- The frame offset of an element slot by its number in the frame (R186); none past the last. -/
def slotOffset (t : BitVec 8) (i : Nat) : Option Nat :=
  let n := blockSize t
  if i < n * blocksOf n then some (if tagSide t then i else i / n * (n + 1) + 1 + i % n) else none

end Sys2Proof.Machine
end

