-- ==== Sys2Proof/Machine/Ops.lean ====
section
/-! DEFINITION. The shared operations of the machine: results that land, queue registers, messages, fault records, taking a trap and returning from one, and the beginning and end of tasks. -/

namespace Sys2Proof.Machine

/-! Results of fixed latency (R29, R30) -/

/-- A result put among those in flight: after those that land in the same or an earlier cycle (R30). -/
def addLanding : List Landing → Landing → List Landing
  | [], l => [l]
  | k :: ks, l => if l.at_ < k.at_ then l :: k :: ks else k :: addLanding ks l

/-- The state that a landed guard value codes (R21). -/
def GState.decode : Nat → GState
  | 0 => .f
  | 1 => .t
  | _ => .p

/-- The code of a guard state (R21). -/
def GState.code : GState → Nat
  | .f => 0
  | .t => 1
  | .p => 2

/-- A write of a guard's state; a write to g0 is discarded (R21). -/
def Strand.setGuard (st : Strand) (i : Fin 8) (v : GState) : Strand :=
  if i = 0 then st else { st with g := st.g.set i v }

/-- The state of a guard; g0 always reads true (R21). -/
def Strand.guard (st : Strand) (i : Fin 8) : GState := if i = 0 then .t else st.g[i]

/-- Whether a branch takes two values of a register to the same address: it ignores bits 63:56 (R34, R103). -/
def VReg.sameTarget (a b : VReg) : Bool := a.valid == b.valid && a.val.setWidth 56 == b.val.setWidth 56

/-- A register, by its bit, put among those changed since fetch last went elsewhere, when a branch to it would go to another
address (R34, R103). -/
def marked (c : BitVec 30) (i : Nat) (old new : VReg) : BitVec 30 :=
  if old.sameTarget new then c else c ||| BitVec.ofNat 30 (2 ^ i)

/-- A value that lands in its register (R20, R21, R34). -/
def Slot.landOne (sl : Slot) (l : Landing) : Slot :=
  match l.reg with
  | .x i =>
    { sl with st := { sl.st with x := sl.st.x.set i l.val },
              changed := marked sl.changed i.val ⟨sl.st.x[i], true⟩ ⟨l.val, true⟩ }
  | .o i =>
    { sl with o := sl.o.set i ⟨l.val, true⟩, changed := marked sl.changed (16 + i.val) sl.o[i] ⟨l.val, true⟩ }
  | .z =>
    { sl with z := (sl.z.set 1 sl.z[0]).set 0 ⟨l.val, true⟩,
              changed := marked (marked sl.changed 24 sl.z[0] ⟨l.val, true⟩) 25 sl.z[1] sl.z[0] }
  | .b i =>
    { sl with b := sl.b.set i ⟨l.val, true⟩, changed := marked sl.changed (26 + i.val) sl.b[i] ⟨l.val, true⟩ }
  | .g i => { sl with st := sl.st.setGuard i (GState.decode l.val.toNat) }
  | .q _ => sl

/-- A definite write of a guard resolves the commands bound to it: their condition holds, or they are discarded
(R96, R250). -/
def Core.resolve (c : Core) (k : Nat) (i : Fin 8) (v : Bool) : Core :=
  { c with cmds := c.cmds.filterMap fun x =>
      match x.bound with
      | some (j, sense) =>
        if x.slot == k && j == i then (if v != sense then some { x with bound := none } else none) else some x
      | none => some x }

/-- One result of slot `k` lands: an entry joins its queue, and a guard write resolves the commands bound to it
(R30, R44, R250). -/
def Core.landOne (c : Core) (k : Nat) (l : Landing) : Core :=
  let c := c.setSlot k ((c.slot k).landOne l)
  match l.reg with
  | .g i => if i = 0 || l.val.toNat == 2 then c else c.resolve k i (l.val.toNat == 1)
  | .q i => { c with qs := c.qs ++ [⟨i, k, .word l.val⟩] }
  | _ => c

/-- The results of a list land in order. -/
def Core.landList (c : Core) (k : Nat) : List Landing → Core
  | [] => c
  | l :: ls => Core.landList (c.landOne k l) k ls

/-- The results of slot `k` whose cycle has come land (R29). -/
def Core.land (c : Core) (k : Nat) : Core :=
  let sl := c.slot k
  let due := sl.inflight.takeWhile fun l => l.at_ ≤ c.cyc
  (c.setSlot k { sl with inflight := sl.inflight.dropWhile fun l => l.at_ ≤ c.cyc }).landList k due

/-- Every result of slot `k` lands (R30, R351). -/
def Core.landAll (c : Core) (k : Nat) : Core :=
  let sl := c.slot k
  (c.setSlot k { sl with inflight := [] }).landList k sl.inflight

/-- The first cycle in which every result of the slot has landed (R30). -/
def Slot.settled (sl : Slot) : Nat := sl.inflight.foldl (fun n l => max n l.at_) 0

/-! Queue registers (R44, R255) -/

/-- Entries a queue holds, of every slot (R255). -/
def Core.qlen (c : Core) (q : Fin 8) : Nat := (c.qs.filter fun e => e.q == q).length

/-- The depth of a queue register (R255). -/
def qdepth (q : Fin 8) : Nat := if q.val = 7 then 8 else if q.val = 6 then 2 else 4

/-- The oldest entry of a queue that is tagged for the slot, and the rest (R255). -/
def takeEntry (q : Fin 8) (k : Nat) : List QEntry → Option (QVal × List QEntry)
  | [] => none
  | e :: es =>
    if e.q == q && e.slot == k then some (e.val, es)
    else match takeEntry q k es with
      | some (v, r) => some (v, e :: r)
      | none => none

/-- The queue entries that a slot's waiting instruction has taken stand again where they stood: the instruction has had no
effect (R145, R160, R351). A queue may then hold more entries than it has places for (DESIGN CHOICE, log 94). -/
def State.giveBack (s : State) (u k : Nat) : State :=
  (s.modCore u fun c => { c with qs := (c.slot k).taken ++ c.qs }).modSlot u k fun sl => { sl with taken := [] }

/-- An entry appended to a queue (R44, R255). -/
def Core.enqueue (c : Core) (q : Fin 8) (k : Nat) (v : QVal) : Core := { c with qs := c.qs ++ [⟨q, k, v⟩] }

/-- The entries of q0 to q7 that are tagged for the slot are discarded, and how many of q0 to q6 there were (R253). -/
def Core.dropEntries (c : Core) (k : Nat) (keep7 : Bool) : Core × Nat :=
  let gone := c.qs.filter fun e => e.slot == k && !(keep7 && e.q == 7)
  ({ c with qs := c.qs.filter fun e => !(e.slot == k && !(keep7 && e.q == 7)) }, gone.length)

/-! Event counters (R403) -/

/-- A counter that counts the event takes `n` more, modulo 2^48 (R403). -/
def bumpOne (code n : Nat) (x : EventCounter) : EventCounter :=
  if x.code.toNat == code then { x with count := x.count + BitVec.ofNat 48 n } else x

/-- An event of a strand of the context counted at a core, and at its barn or, when the set is assigned to the context,
at its loft core (R403). -/
def State.count (s : State) (u : Nat) (ctx : BitVec 12) (code n : Nat) : State :=
  let s := s.modCore u fun c => { c with counters := c.counters.map (bumpOne code n) }
  if isCompute u then
    let b := s.barn (barnOf u)
    s.setBarn (barnOf u) { b with counters := b.counters.map (bumpOne code n) }
  else
    match kget s.lofts u with
    | some x =>
      if x.owner == some ctx then
        { s with lofts := kput s.lofts u { x with counters := x.counters.map (bumpOne code n) } }
      else s
    | none => s

/-- An event of a context counted at the hub, when the hub's set is assigned to the context (R403). -/
def State.countHub (s : State) (ctx : BitVec 12) (code n : Nat) : State :=
  if s.hub.counters.owner == some ctx then
    { s with hub := { s.hub with counters :=
        { s.hub.counters with counters := s.hub.counters.counters.map (bumpOne code n) } } }
  else s

/-! Writes that filters see (R321) -/

/-- Bytes of an element of a type EF (R324). -/
def efSize (ef : BitVec 2) : Nat := if ef = 0 then 4 else 2

/-- An event of a filter counted at the home loft core and at the hub (R403). -/
def State.countLf (s : State) (ctx : BitVec 12) (u code : Nat) : State := (s.count u ctx code 1).countHub ctx code 1

/-- The positions at which a frame stands in a list of frames. -/
def positions (x : Nat) (l : List Nat) : List Nat := (List.range l.length).filter fun i => l[i]? == some x

/-- What a write of `n` bytes at a place does to one filter through one of its frames, the `g`-th: `act`, with the write's
first byte counted from the region's and the range of the region's bytes that it covers, when it covers any. -/
def filterTouch (act : BitVec 12 → Nat → Filter → Int → Nat → Nat → State → State) (ctx : BitVec 12) (k : Nat) (f : Filter)
    (p n g : Nat) (s : State) : State :=
  let at0 : Int := (g : Int) * 4096 + (p % 4096 : Nat) - (f.base.toNat % 4096 : Nat)
  let lo := (max at0 0).toNat
  let hi := (min (at0 + n) ((f.n * efSize f.ef : Nat) : Int)).toNat
  if at0 + n ≤ 0 || hi ≤ lo then s else act ctx k f at0 lo hi s

/-- What a write of `n` bytes at a place of HBM does to every ARMED filter (R320, R321). -/
def overFilters (act : BitVec 12 → Nat → Filter → Int → Nat → Nat → State → State) (p n : Nat) (s : State) : State :=
  s.hub.contexts.foldl (fun s c =>
    c.2.filters.foldl (fun s f =>
      (positions (p / 4096) (f.2.pages.map (· / 4096))).foldl (fun s g =>
        filterTouch act (BitVec.ofNat 12 c.1) f.1 f.2 p n g s) s) s) s

/-- A write that is performed but not taken counts LF.PART (R321). -/
def untaken (p n : Nat) (s : State) : State := overFilters (fun ctx _ _ _ _ _ s => s.countLf ctx (loftUnit p) 0x12) p n s

/-- Bytes written at a place by the hardware or another agent whose writes no filter takes (R321). -/
def State.storePlain (s : State) (p : Nat) (bs : List Byte) : State :=
  let s := s.setBytes p bs
  if p < hbmEnd then untaken p bs.length s else s

/-! Messages (R206, R207) -/

/-- A message put on the fabric, last in the order sent. -/
def State.post (s : State) (src dst : Nat) (w : Sender) (dep : Clock) (ser : Option (BitVec 32)) (b : Payload) : State :=
  { s with fabric := s.fabric ++ [⟨s.nextId, src, dst, w, dep, ser, b⟩], nextId := s.nextId + 1 }

/-- A write message of a strand in slot `k` of `u`: across dies it takes the die's next serial, which the strand then
depends on (R207 rule 1). -/
def State.postWrite (s : State) (u k dst : Nat) (b : Payload) : State :=
  let st := (s.slot u k).st
  let d := dieOf u
  if dieOf dst = d then s.post u dst (s.sender u k) st.dep none b
  else
    let ser := (s.die d).ser + 1
    let dep := sset 0 st.dep d ser
    let s := s.setDie d { s.die d with ser := ser, know := Clock.join (s.die d).know dep }
    (s.modSlot u k fun sl => { sl with st := { sl.st with dep := dep } }).post u dst (s.sender u k) dep (some ser) b

/-- A message to another unit from no strand's write. -/
def State.postPlain (s : State) (u k dst : Nat) (b : Payload) : State :=
  s.post u dst (s.sender u k) (s.slot u k).st.dep none b

/-- Whether a step of the strand in slot `k` of `u` at a home on another die waits at the ingress of that die (R207 rule
3). -/
def State.crossing (s : State) (u k home : Nat) : Bool :=
  dieOf u != dieOf home && s.held (dieOf u) (dieOf home) (s.slot u k).st.dep

/-- A write of the strand in slot `k` of `u` that its home performs in this step: across dies it takes the die's next
serial, and KNOW of both dies takes what it bears (R207 rules 1 and 4). -/
def State.stepWrite (s : State) (u k home : Nat) : State :=
  let st := (s.slot u k).st
  let d := dieOf u
  if dieOf home = d then s.learn d st.dep
  else
    let ser := (s.die d).ser + 1
    let dep := sset 0 st.dep d ser
    let s := s.setDie d { s.die d with ser := ser, know := Clock.join (s.die d).know dep }
    (s.modSlot u k fun sl => { sl with st := { sl.st with dep := dep } }).learn (dieOf home) dep

/-- A read of the strand in slot `k` of `u` that a home performs in this step: KNOW of the home's die takes what it bears
when it comes from another die, and the strand hears KNOW of that die (R207 rules 4 and 5). -/
def State.stepRead (s : State) (u k home : Nat) : State :=
  let s := s.learnFrom u home (s.slot u k).st.dep
  s.modSlot u k fun sl => { sl with st := { sl.st with dep := s.heard (dieOf home) sl.st.dep } }

/-- The message at an index of the fabric, removed. -/
def State.unpost (s : State) (i : Nat) : State := { s with fabric := s.fabric.eraseIdx i }

/-- Whether a message keeps the order in which messages of classes 1 and 2 were sent (R207 rule 2, R393). -/
def Payload.ordered : Payload → Bool
  | .weight _ => false
  | .serial _ => false
  | .clock _ => false
  | .reply _ _ => false
  | .ack _ _ _ _ _ => false
  | _ => true

/-- Whether a message's operation writes. -/
def MemOp.writes : MemOp → Bool
  | .load _ _ => false
  | .pair => false
  | .decode => false
  | .take _ consume => consume
  | .testFull => false
  | _ => true

/-- Whether an operation takes a full granule (R193). -/
def MemOp.takes : MemOp → Bool
  | .take _ _ => true
  | _ => false

/-- Whether a message writes, so that the writes before it come first: a `{stay}` atomic and a `{stay}` load that empties
its granule are among these (R200, R206, R413). -/
def Payload.writes : Payload → Bool
  | .request r => r.op.writes
  | .subbyte _ => true
  | .push _ _ _ _ => true
  | .arrival _ => true
  | _ => false

/-- Whether a message is a write that holds back its strand's later ones: a request under STAY is ordered by its reply
alone (R206, R413). -/
def Payload.leads : Payload → Bool
  | .request r => r.op.writes && !r.reply
  | b => b.writes

/-- Whether a write message has not left its core: the strand that sent it has an earlier write, to another home, that
is not acknowledged, or, when the strand has ended in Clear, that is still on its way (R206 rule 1, R368, R413; log
12). -/
def State.keptBack (s : State) (m : Msg) : Bool :=
  let st := (s.slot m.sender.unit m.sender.slot).st
  m.body.writes &&
    ((m.sender.names st && st.writes.any fun w => w.id < m.id && w.home != m.dst) ||
      s.fabric.any fun n => n.id < m.id && n.dst != m.dst && n.body.leads && n.sender.same m.sender)

/-- Whether the message at an index waits: at the ingress of its die, behind an earlier message of its strand to the
same core or of its die to that die that has left and does not wait, behind a full/empty request of its strand that
waits at the home, for an acknowledgement, or for the messages ahead of a clock notice (R190, R206, R207). -/
def State.blocked (s : State) (i : Nat) (m : Msg) : Bool :=
  let e := dieOf m.src
  let d := dieOf m.dst
  let before := s.fabric.take i
  match m.body with
  | .clock _ => before.any fun n =>
      (n.body.ordered || match n.body with | .clock _ => true | _ => false) && dieOf n.src == e && dieOf n.dst == d
  | b =>
    b.ordered &&
      ((e != d && s.held e d m.dep) || s.keptBack m ||
        ((s.core m.dst).waiters.any fun x => x.sender.same m.sender) ||
        before.any fun n =>
          n.body.ordered && ((n.src == m.src && n.dst == m.dst && n.sender.same m.sender) ||
            (e != d && dieOf n.src == e && dieOf n.dst == d && !s.held e d n.dep && !s.keptBack n)))

/-- The message at an index, when nothing holds it back. -/
def State.arriving (s : State) (i : Nat) : Option Msg :=
  match s.fabric[i]? with
  | some m => if s.blocked i m then none else some m
  | none => none

/-! Records (R125, R126) -/

/-- A record's 64 bytes as a number (R125). -/
def Rec.num (r : Rec) : Nat :=
  r.code.toNat + r.frame.toNat * 2 ^ 64 + r.join.toNat * 2 ^ 128 + r.arg[0].toNat * 2 ^ 192 +
  r.arg[1].toNat * 2 ^ 256 + r.arg[2].toNat * 2 ^ 320 + r.arg[3].toNat * 2 ^ 384 +
  r.dkey.toNat * 2 ^ 448 + r.budget.toNat * 2 ^ 480

/-- The record that 64 bytes hold (R125). -/
def Rec.ofNum (n : Nat) : Rec where
  code := BitVec.ofNat 64 n
  frame := BitVec.ofNat 64 (n / 2 ^ 64)
  join := BitVec.ofNat 64 (n / 2 ^ 128)
  arg := #v[BitVec.ofNat 64 (n / 2 ^ 192), BitVec.ofNat 64 (n / 2 ^ 256), BitVec.ofNat 64 (n / 2 ^ 320),
    BitVec.ofNat 64 (n / 2 ^ 384)]
  dkey := BitVec.ofNat 32 (n / 2 ^ 448)
  budget := BitVec.ofNat 32 (n / 2 ^ 480)

/-- A malformed record (R126). -/
def Rec.bad (r : Rec) : Bool := r.budget == 0 || bits r.code.toNat 1 0 != 0 || bits r.code.toNat 63 56 != 0

/-! Fault records (R356 to R358) -/

/-- The FLAGS byte (R356). -/
def Flags.code (f : Flags) : Nat :=
  f.async.toNat + 2 * f.deferred.toNat + 4 * f.fetch.toNat + 8 * f.refused.toNat + 16 * f.remote.toNat + 32 * f.kill.toNat

/-- A fault's record as a number of 64 bytes (R356). -/
def recordNum (t : Trap) (pc msgId : Word) (launch strid serial : BitVec 32) (ctx : BitVec 12) (unit : Nat) : Nat :=
  t.cause.code + t.flags.code * 2 ^ 16 + unit * 2 ^ 127 + ctx.toNat * 2 ^ 148 + t.detail.toNat * 2 ^ 160 +
  serial.toNat * 2 ^ 192 + strid.toNat * 2 ^ 224 + launch.toNat * 2 ^ 256 + t.dseq.toNat * 2 ^ 288 +
  pc.toNat * 2 ^ 320 + t.addr.toNat * 2 ^ 384 + msgId.toNat * 2 ^ 448

/-- The granules of 64 bytes of a fault area for hardware's writes, and the key they lie under: none when a write there
would fault (R358). -/
def areaPlaces (s : State) (ctx : BitVec 12) (a : Nat) : Option (Option (BitVec 256) × List Nat) :=
  match locateHub s ctx a .store with
  | .ok p => match reachAll s ctx p 4 with | .ok ps => some (p.key s ctx, ps) | .error _ => none
  | .error _ => none

/-- The 64 bytes at the granules of a fault area, read under their key. -/
def State.area (s : State) (x : Option (BitVec 256) × List Nat) : Nat :=
  leNat ((s.under x.1 (x.2.headD 0) 64).gather x.2)

/-- The 64 bytes at the granules of a fault area written under their key. In region H they are one write, which a filter
there sees as any other (R321); granules in local memory go each to its storage. -/
def State.setArea (s : State) (x : Option (BitVec 256) × List Nat) (v : Nat) : State :=
  let p := x.2.headD 0
  if p < hbmEnd then (s.under x.1 p 64).storePlain p (leBytes 64 v) else s.scatterRaw x.2 (leBytes 64 v)

/-- The header of a fault area: its bytes 12 to 0 from LOGN, LOST, RD and WR, and its Reserved bytes zero (R5, R358). -/
def areaHeader (wr rd lost logn : Nat) : Nat := wr % 2 ^ 32 + rd * 2 ^ 32 + lost * 2 ^ 64 + logn * 2 ^ 96

/-- AppendRecord (R358): the record is written and WR advances, or LOST does; the state and the record's address. -/
def appendRecord (s : State) (t : Trap) (pc msgId : Word) (launch strid : BitVec 32) (ctx : BitVec 12) (unit : Nat) :
    State × Word :=
  let frec := (s.context ctx).frec
  if frec == 0 then (s, 0)
  else
    match areaPlaces s ctx frec.toNat with
    | none => (s, 0)
    | some h =>
      let v := s.area h
      let wr := bits v 31 0
      let rd := bits v 63 32
      let lost := bits v 95 64
      let logn := bits v 103 96
      let a := frec.toNat + 64 * (1 + wr % 2 ^ logn)
      let spill := (s.setArea h (areaHeader wr rd (min (lost + 1) (2 ^ 32 - 1)) logn), (0 : Word))
      if (wr + 2 ^ 32 - rd) % 2 ^ 32 < 2 ^ logn then
        match areaPlaces s ctx a with
        | none => spill
        | some p =>
          let s := s.setArea p (recordNum t pc msgId launch strid (BitVec.ofNat 32 wr) ctx (t.unit.getD unit))
          (s.setArea h (areaHeader (wr + 1) rd lost logn), BitVec.ofNat 64 a)
      else spill

/-! Launches (R146, R364) -/

/-- Kill: a LIVE launch moves to KILLING; its counters stand still from now on (R146, R364). -/
def State.kill (s : State) (l : BitVec 32) : State :=
  match s.launch l with
  | some x => if x.state == .live then s.setLaunch l { x with state := .killing } else s
  | none => s

/-- Weight added to RETURNED of a LIVE launch; when it equals ISSUED the launch is DONE and its completion waits
(R146, R153, R364). -/
def State.returned (s : State) (l : BitVec 32) (w : Word) : State :=
  match s.launch l with
  | some x =>
    if x.state == .live then
      let r := x.returned + w.setWidth 96
      if r == x.issued then
        let s := s.setLaunch l { x with returned := r, state := .done }
        match x.queue with
        | some q => { s with hub := { s.hub with done := s.hub.done ++ [⟨q, l, 0, x.entry⟩] } }
        | none => s
      else s.setLaunch l { x with returned := r }
    else s
  | none => s

/-- Weight added to ISSUED of a LIVE launch (R146, R360). -/
def State.issue (s : State) (l : BitVec 32) (w : Word) : State :=
  match s.launch l with
  | some x => if x.state == .live then s.setLaunch l { x with issued := x.issued + w.setWidth 96 } else s
  | none => s

/-- The group of a launch without a member that ends or leaves; a group without members ends (R149, R170). -/
def State.leaveGroup (s : State) (l : BitVec 32) (m : Nat) : State :=
  match s.launch l with
  | some x =>
    match x.group with
    | some g =>
      let ms := g.members.filter (· != m)
      s.setLaunch l { x with group := if ms.isEmpty then none else some { g with members := ms } }
    | none => s
  | none => s

/-! Queued work (R136 to R138) -/

/-- Entries the ready set and its spill area hold (R136, R137). -/
def readyRoom : Nat := 32 + 256

/-- Whether a core accepts a further queued task (R137). -/
def Core.hasRoom (c : Core) : Bool := c.ready.length < readyRoom

/-- A task queued in the ready set, the latest to arrive (R136). -/
def Core.pushReady (c : Core) (q : Queued) : Core := { c with ready := c.ready ++ [q] }

/-- A requeued task queued, ahead of every other of its rank (R130, R138). -/
def Core.pushRequeued (c : Core) (q : Queued) : Core := { c with ready := { q with requeued := true } :: c.ready }

/-- A fork pushed to the deque's new end; a full deque first moves its oldest entry to the ready set (R136). -/
def Core.pushDeque (c : Core) (q : Queued) : Core :=
  match c.deque with
  | old :: rest =>
    if c.deque.length < 16 then { c with deque := c.deque ++ [q] }
    else { c.pushReady old with deque := rest ++ [q] }
  | [] => { c with deque := [q] }

/-! Taking a trap (R351, R352) -/

/-- ECAUSE of a fault (R353). -/
def Trap.ecause (t : Trap) : Word :=
  BitVec.ofNat 64 (t.cause.code + t.flags.code * 2 ^ 16 + t.detail.toNat * 2 ^ 32)

/-- The trap with the PC and MSGID its record will carry filled in (R356). -/
def Trap.placed (t : Trap) (st : Strand) : Trap :=
  { t with pc := some (t.pc.getD st.pc), msgId := some (t.msgId.getD st.msgId) }

/-- The record of a fault of the strand in a slot, appended (R356, R358). -/
def record (s : State) (u k : Nat) (t : Trap) : State × Word :=
  let st := (s.slot u k).st
  appendRecord s t (t.pc.getD st.pc) (t.msgId.getD st.msgId) st.launch st.strid st.ctx u

/-- Whether a fault's record waits: a record is a write of the hardware, after the strand's operations before the fault
(R206, R358). -/
def State.recordWaits (s : State) (u k : Nat) : Bool :=
  let st := (s.slot u k).st
  (s.context st.ctx).frec != 0 && !(st.writes.isEmpty && !st.asked.any (·.writes))

/-- The record of a fault that kills the strand's launch, and the kill (R352). -/
def killWith (s : State) (u k : Nat) (t : Trap) : State :=
  let r := record s u k t
  r.1.kill (s.slot u k).st.launch

/-- A fault that kills the strand's launch: its one record carries KILL (R352). -/
def fatal (s : State) (u k : Nat) (t : Trap) : State :=
  let t := { t with flags := { t.flags with kill := true } }
  if s.recordWaits u k then s.modSlot u k fun sl => { sl with due := some ⟨t.placed sl.st, true⟩ }
  else killWith s u k t

/-- The fault a second nested one becomes: HND.NEST with the cause of frame 2 and the new cause in DETAIL (R352). -/
def nested (sl : Slot) (t : Trap) : Trap :=
  let outer := match sl.frames with
    | f :: _ => f.ecause.toNat % 2 ^ 16
    | [] => 0
  { t with cause := .hndNest, detail := BitVec.ofNat 32 (outer * 2 ^ 16 + t.cause.code) }

/-- The valid bits of a slot's o-, z- and b-registers cleared (R20). -/
def Slot.clearValid (sl : Slot) : Slot :=
  { sl with o := sl.o.map fun r => { r with valid := false }, z := sl.z.map fun r => { r with valid := false },
            b := sl.b.map fun r => { r with valid := false } }

/-- HBUD at entry of depth 1 (R352). -/
def hbudStart : BitVec 32 := BitVec.ofNat 32 (2 ^ 20)

/-- The frame a trap writes (R352). -/
def trapFrame (sl : Slot) (t : Trap) (e : Word) : Frame where
  epc := if t.next then sl.st.pc + 12 else sl.st.pc
  ecause := t.ecause
  eaddr := t.addr
  erec := e
  escr0 := 0
  escr1 := 0
  brmode := sl.st.brmode
  async := false
  msgId := 0

/-- A slot that enters the handler: frame written, HBUD started at depth 1, valid bits and BRMODE cleared, PC at TVEC;
it issues again once every result has landed (R351, R352). The count of R33 goes on, since HANDLER counts as ISSUING (R134,
R135; DEDUCED, log 69). -/
def Slot.enter (sl : Slot) (cyc : Nat) (tvec : Word) (f : Frame) : Slot :=
  { sl.clearValid with
    mode := .handler
    blocked := false
    frames := f :: sl.frames
    hbud := if sl.frames.isEmpty then hbudStart else sl.hbud
    st := { sl.st with brmode := 0, pc := tvec }
    readyAt := max (cyc + 1) sl.readyAt
    lastIssue := cyc
    answer := none
    asked := false
    long := none
    changed := 0
    hand := none
    taken := [] }

/-- Taking a trap on the instruction at PC of a slot: the operation Enter of R352. With TVEC 0, or at depth 2, the
fault kills the launch. Every result in flight has landed first, the request of a form that waited is withdrawn, and the
queue entries it took stand again (R351). -/
def takeTrap (s : State) (u k : Nat) (t : Trap) : State :=
  let settled := (s.slot u k).settled
  let s := (s.modCore u fun c => c.landAll k).giveBack u k
  let sl := s.slot u k
  let tvec := (s.context sl.st.ctx).tvec
  if sl.depth == 2 then fatal s u k (nested sl t)
  else if tvec == 0 then fatal s u k t
  else
    let late := s.recordWaits u k
    let r := if late then (s, 0) else record s u k t
    let s := r.1
    let s := if sl.mode == .handler && sl.hbud == 0 then s.kill sl.st.launch else s
    let f := trapFrame sl t r.2
    s.modSlot u k fun sl =>
      { { sl with readyAt := max sl.readyAt settled }.enter (s.core u).cyc tvec f with
          due := if late then some ⟨t.placed sl.st, false⟩ else none }

/-- EREC of the innermost frame written (R353). -/
def Slot.setErec (sl : Slot) (a : Word) : Slot :=
  match sl.frames with
  | f :: fs => { sl with frames := { f with erec := a } :: fs }
  | [] => sl

/-- A trap whose record has waited: once the strand's earlier writes are acknowledged the record is appended, and EREC
gets its address or the launch is killed (R352, R358). -/
def settleDue (s : State) (u k : Nat) : State :=
  match (s.slot u k).due with
  | none => s
  | some d =>
    if s.recordWaits u k then s
    else
      let s := s.modSlot u k fun sl => { sl with due := none }
      if d.fatal then killWith s u k d.trap
      else
        let r := record s u k d.trap
        r.1.modSlot u k fun sl => sl.setErec r.2

/-- RESUME of `tret`: the innermost frame is left, BRMODE restored and the strand continues at EPC (R367). -/
def Slot.resume (sl : Slot) : Slot :=
  match sl.frames with
  | f :: fs =>
    { sl with frames := fs, st := { sl.st with brmode := f.brmode, pc := f.epc },
              mode := if fs.isEmpty then .issuing else .handler, blocked := false, changed := 0, hand := none }
  | [] => sl

/-! Faults no strand takes (R360) -/

/-- The core a handler task goes to: where the fault was found when that is a compute or loft core, else the root's
(R360). -/
def handlerCore (s : State) (l : BitVec 32) (u : Nat) : Nat :=
  if isWorker u then u else match s.launch l with | some x => x.root | none => u

/-- A task queued in the ready set of a core; with no room there it waits as a message of its sender (R137). -/
def State.queueTask (s : State) (src : Nat) (w : Sender) (u : Nat) (q : Queued) : State :=
  if (s.core u).hasRoom then s.modCore u fun c => c.pushReady q else s.post src u w q.dep none (.callat q)

/-- A fault that no strand takes: its record, then for a LIVE launch one unit of weight and a handler task, whose PC is
TVEC when it starts (R360). -/
def report (s : State) (u : Nat) (w : Sender) (t : Trap) : State :=
  let t := { t with flags := { t.flags with async := true } }
  let pc := t.pc.getD w.pc
  let mid := t.msgId.getD w.msgId
  let r := appendRecord s t pc mid w.launch w.strid w.ctx u
  let s := r.1
  let tvec := (s.context w.ctx).tvec
  if s.launchLive w.launch && tvec != 0 then
    let s := s.issue w.launch 1
    let f : Frame := ⟨pc, t.ecause, t.addr, r.2, 0, 0, 0, true, mid⟩
    let rec0 : Rec := ⟨0, 0, #v[r.2, 0, 0, 0], 0, 0, 0⟩
    s.queueTask mgmtUnit w (handlerCore s w.launch u)
      ⟨rec0, 1, .handler, 0, w.launch, w.ctx, [], none, false, false, some f⟩
  else s

/-- Whether a write of the strand in a slot that bears an earlier identifier has not been performed (R206). -/
def State.openBefore (s : State) (u k n : Nat) : Bool :=
  let st := (s.slot u k).st
  st.writes.any (·.id < n) || st.asked.any fun x => x.writes && x.id < n

/-- A fault the hub finds in a step of a strand, which the strand does not take: its record, if there is a fault area, comes
after the strand's operations before it (R358, R360). -/
def reportAfter (s : State) (w : Sender) (t : Trap) : State :=
  let sl := s.slot w.unit w.slot
  if sl.live && w.names sl.st && (s.context w.ctx).frec != 0 &&
      (!sl.owed.isEmpty || s.openBefore w.unit w.slot s.nextId) then
    s.modSlot w.unit w.slot fun sl => { sl with owed := sl.owed ++ [⟨t, s.nextId⟩] }
  else report s mgmtUnit w t

/-- The oldest record that has waited in a slot, appended once the strand's writes before it are performed (R358, R360). -/
def settleOwed (s : State) (u k : Nat) : State :=
  match (s.slot u k).owed with
  | [] => s
  | o :: os =>
    if s.openBefore u k o.before then s
    else report (s.modSlot u k fun sl => { sl with owed := os }) mgmtUnit (s.sender u k) o.trap

/-! The end of a task (R129, R130, R253) -/

/-- A serial bit of a core cleared (R129). -/
def Core.clearSerial (c : Core) (n : Nat) : Core := { c with serials := c.serials &&& ~~~ (BitVec.ofNat 1024 (2 ^ n)) }

/-- The lowest serial whose bit is clear (R129). -/
def Core.freeSerial (c : Core) : Option Nat := (List.range 1024).find? fun n => !c.serials.getLsbD n

/-- A serial bit of a core set (R129). -/
def Core.setSerial (c : Core) (n : Nat) : Core := { c with serials := c.serials ||| BitVec.ofNat 1024 (2 ^ n) }

/-- STRID of a strand that is no member (R129). -/
def freeStrid (u n : Nat) : BitVec 32 := BitVec.ofNat 32 (0x80000000 + (u * 1024 + n) % 2 ^ 31)

/-- The serial of an ended strand is given back: at once on the core that numbered it, else by a notice (R129). -/
def State.freeNumber (s : State) (u k : Nat) (n : Option (Nat × Nat)) : State :=
  match n with
  | none => s
  | some (v, i) => if v = u then s.modCore u fun c => c.clearSerial i else s.postPlain u k v (.serial i)

/-- The commands of a slot whose guard is pending follow its resolution to false at the end of a task (R96, R250). -/
def Core.endGuards (c : Core) (k : Nat) : Core :=
  (List.finRange 8).foldl (fun c i =>
    if (c.slot k).st.guard i = .p then
      (c.setSlot k { c.slot k with st := (c.slot k).st.setGuard i .f }).resolve k i false
    else c) c

/-- Whether the strand of a slot has commands not completed (R253). -/
def Core.hasCmds (c : Core) (k : Nat) : Bool := c.cmds.any fun x => x.slot == k

/-- The weight of the buffered sends, which joins the task's when they are discarded (R146). -/
def Strand.sendWeight (st : Strand) : Word := st.sends.foldl (fun w e => w + e.q.weight) 0

/-- Whether a session is a strand's (R287). -/
def Session.isOf (x : Session) (st : Strand) : Bool :=
  x.strid == st.strid && x.launch == st.launch && x.member == st.member.isSome

/-- Whether a session is that of the strand a sender names (R287). -/
def Session.isFor (x : Session) (w : Sender) : Bool :=
  x.strid == w.strid && x.launch == w.launch && x.member == w.member

/-- Every Carder session of a strand closes (R297). -/
def State.closeSessions (s : State) (st : Strand) : State :=
  let f := fun (b : Nat × Barn) => (b.1, { b.2 with sessions := b.2.sessions.filter fun x => !x.2.isOf st })
  { s with barns := s.barns.map f }

/-- A slot becomes EMPTY: its serial is given back, it leaves its group, its sessions close, and its entries of q0 to q7
are dropped and counted (R129, R149, R253, R297). -/
def State.vacate (s : State) (u k : Nat) : State :=
  let st := (s.slot u k).st
  let s := s.freeNumber u k st.numbered
  let s := match st.member with | some m => s.leaveGroup st.launch m | none => s
  let s := s.closeSessions st
  let d := (s.core u).dropEntries k false
  let s := (s.setCore u d.1).count u st.ctx 0x08 d.2
  s.setSlot u k Slot.reset

/-- Whether a task may end now: every command has completed or been discarded, every reply and acknowledgement has
come (R206 rule 3, R253), and no record of its waits (R358). -/
def State.mayEnd (s : State) (u k : Nat) : Bool :=
  let st := (s.slot u k).st
  st.writes.isEmpty && st.asked.isEmpty && !(s.core u).hasCmds k && (s.slot u k).owed.isEmpty

end Sys2Proof.Machine
end

