-- ==== Sys2Proof/Machine/Operands.lean ====
section
/-! DEFINITION. Operands and issue: how sources are read and results written (R42 to R45), what stops an instruction short of its effect, and what an issue does to its strand (R32 to R36, R133, R134). -/

namespace Sys2Proof.Machine

/-- Why an instruction has no effect when it is performed. -/
inductive Stop where
  /-- It takes a trap; the state when something of it stands already. -/
  | trap (t : Trap) (s : Option State := none)
  /-- Its strand waits in WAITING, and performs it again later; the state when something of it stands already. -/
  | block (s : Option State)
  /-- It stays at issue, and its slot stays ISSUING (R44, R190, R248). -/
  | hold

/-- What performing an instruction gives: the state after its effect, or why it has none. -/
abbrev Run := Except Stop State

/-- A trap with a cause and nothing else in its record. -/
def fail {α : Type} (c : Cause) : Except Stop α := .error (.trap { cause := c })

/-- A trap with a cause and an address. -/
def failAt {α : Type} (c : Cause) (a : Nat) : Except Stop α := .error (.trap { cause := c, addr := BitVec.ofNat 64 a })

/-- The unit a record names for a fault found at a home: none at the strand's own core (R356, R371). -/
def State.foundAt (s : State) (u : Nat) : Option Nat := if u = s.focusU then none else some u

/-- A trap for what is found at a home, which its record names (R356, R371). -/
def failThere {α : Type} (s : State) (u : Nat) (c : Cause) (a : Nat) : Except Stop α :=
  .error (.trap { cause := c, addr := BitVec.ofNat 64 a, unit := s.foundAt u })

/-- A trap whose fault the hub finds in what it holds: UNIT of its record names the hub (R356; DEDUCED, log 85). -/
def failHub {α : Type} (c : Cause) : Except Stop α := .error (.trap { cause := c, unit := some mgmtUnit })

/-- A trap of the hub's when the condition holds. -/
def failHubIf (b : Bool) (c : Cause) : Except Stop Unit := if b then failHub c else .ok ()

/-- A trap when the condition holds. -/
def failIf (b : Bool) (c : Cause) : Except Stop Unit := if b then fail c else .ok ()

/-! Sources (R20, R44, R190) -/

/-- A register with a valid bit, read (R20). -/
def VReg.read (r : VReg) : Except Stop Word := if r.valid then .ok r.val else fail .regInvalid

/-- The source of an operand field, read at issue by the strand in focus; a queue loses its oldest entry, and a strand
that finds none waits (R20, R42, R44, R255). A failure entry raises REMOTE.FAULT (R190, R357). -/
def src (o : Opd) (s : State) : Except Stop (Word × State) :=
  match o with
  | .x i => .ok (s.st.x[i], s)
  | .o i => match s.me.o[i].read with | .ok v => .ok (v, s) | .error e => .error e
  | .z i => match s.me.z[i].read with | .ok v => .ok (v, s) | .error e => .error e
  | .b i => match s.me.b[i].read with | .ok v => .ok (v, s) | .error e => .error e
  | .imm c => .ok (c.signExtend 64, s)
  | .q i =>
    match takeEntry i s.focusK s.here.qs with
    | none => .error (.block none)
    | some (.word v, r) => .ok (v, s.modCore s.focusU fun c => { c with qs := r })
    | some (.failure c a pc v, _) =>
      .error (.trap
        { cause := c, flags := { remote := true }, addr := a, pc := some pc, msgId := some s.st.pc, unit := s.foundAt v })
  | _ => .ok (0, s)

/-- Entries of a queue that are tagged for the slot in focus (R255). -/
def State.entries (s : State) (q : Fin 8) : Nat := (s.here.qs.filter fun e => e.q == q && e.slot == s.focusK).length

/-- Whether some of these source fields name a queue more often than it has entries for the strand (R44). -/
def State.short (s : State) (l : List Opd) : Bool :=
  l.any fun o => match o with
    | .q i => decide (s.entries i < l.count (.q i))
    | _ => false

/-- An instruction that needs more entries than its queues hold does not issue and removes nothing; it is looked at before
any source is read (R44). -/
def whole (l : List Opd) (s : State) : Except Stop Unit := if s.short l then .error (.block none) else .ok ()

/-- The sources A and B, A first (R44). -/
def srcAB (s : State) : Except Stop (Word × Word × State) := do
  let _ ← whole [s.ir.a, s.ir.b] s
  let (a, s) ← src s.ir.a s
  let (b, s) ← src s.ir.b s
  return (a, b, s)

/-- The sources A, B and D of a form whose entry does not say when D is read: D last (R44 puts A before B; log 8). -/
def srcABD (s : State) : Except Stop (Word × Word × Word × State) := do
  let _ ← whole [s.ir.a, s.ir.b, s.ir.d] s
  let (a, s) ← src s.ir.a s
  let (b, s) ← src s.ir.b s
  let (d, s) ← src s.ir.d s
  return (a, b, d, s)

/-- The sources A, B and D of a form whose entry reads D first (R6, R44). -/
def srcDAB (s : State) : Except Stop (Word × Word × Word × State) := do
  let _ ← whole [s.ir.a, s.ir.b, s.ir.d] s
  let (d, s) ← src s.ir.d s
  let (a, s) ← src s.ir.a s
  let (b, s) ← src s.ir.b s
  return (a, b, d, s)

/-! Results (R29, R44) -/

/-- The results on their way to a queue, from every slot of a core (R44). -/
def Core.coming (c : Core) (q : Fin 8) : Nat :=
  c.slots.foldl (fun n sl => n + (sl.inflight.filter fun l => l.reg == .q q).length) 0

/-- A result of latency `lat` put in flight for the strand in focus (R29). -/
def State.fly (s : State) (lat : Nat) (r : RegName) (v : Word) : State :=
  s.modMe fun sl => { sl with inflight := addLanding sl.inflight ⟨s.cyc + lat, r, v⟩ }

/-- The register a destination field names (R42). -/
def destReg : Opd → Option RegName
  | .x i => some (.x i)
  | .o i => some (.o i)
  | .z _ => some .z
  | .b i => some (.b i)
  | .g i => some (.g i)
  | .q i => some (.q i)
  | _ => none

/-- Whether a destination has room: only a full queue has none (R44, R255). -/
def State.destRoom (s : State) (o : Opd) : Bool :=
  match o with
  | .q i => s.here.qlen i + s.here.coming i < qdepth i
  | _ => true

/-- A result written to a destination field at a latency; a full queue holds the instruction at issue (R29, R44). Room is
looked for after the sources are read: where the instruction itself takes an entry out of the full queue it writes, it
issues (R44 does not say; DESIGN CHOICE, log 70). -/
def dst (o : Opd) (lat : Nat) (v : Word) (s : State) : Run :=
  if s.destRoom o then
    match destReg o with
    | some r => .ok (s.fly lat r v)
    | none => .ok s
  else .error .hold

/-- A definite guard value as it lands (R21). -/
def ofBool (b : Bool) : Word := if b then 1 else 0

/-- A guard written at latency 1 (R96). -/
def dstGuard (o : Opd) (v : GState) (s : State) : Run := dst o 1 (BitVec.ofNat 64 v.code) s

/-! The guard (R45) -/

/-- Whether the condition of the instruction in hand holds; none while its guard is pending (R45). -/
def State.cond (s : State) : Option Bool :=
  match s.st.guard s.ir.hd.gidx with
  | .p => none
  | .t => some (!s.ir.hd.gsns)
  | .f => some s.ir.hd.gsns

/-! Issue -/

/-- A strand that switches away: it does not issue again before its results have landed (R30, R33). -/
def Slot.switchAway (sl : Slot) : Slot := { sl with run := 0, readyAt := max sl.readyAt sl.settled }

/-- Whether a slot can hold the issue turn: ISSUING, or HANDLER and not blocked (R133, R134). -/
def Slot.holds (sl : Slot) : Bool := sl.mode == .issuing || (sl.mode == .handler && !sl.blocked)

/-- The next slot, from the one after `k` and wrapping round, that can hold the issue turn (R134). While none can, the holder
stays as it was, and is holder again if it is the first to come back (DESIGN CHOICE, log 90). -/
def Core.nextHolder (c : Core) (k : Nat) : Nat :=
  let n := c.slots.length
  match (List.range n).find? fun i =>
      (c.slot ((k + 1 + i) % n)).holds with
  | some i => (k + 1 + i) % n
  | none => c.holder

/-- The holder of the issue turn gives it up (R134). -/
def Core.passTurn (c : Core) (k : Nat) : Core := if c.holder = k then { c with holder := c.nextHolder k } else c

/-- The strand of a slot blocks: it waits in WAITING, or in HANDLER as in WAITING, and switches away (R33, R133). -/
def State.blockSlot (s : State) (u k : Nat) : State :=
  let sl := s.slot u k
  let s := if sl.mode == .waiting || sl.blocked then s else s.count u sl.st.ctx 0x03 1
  let s := s.modSlot u k fun sl =>
    { sl.switchAway with mode := if sl.mode == .handler then .handler else .waiting, blocked := sl.mode == .handler }
  s.modCore u fun c => c.passTurn k

/-- What an issue leaves in the slot: the turn used, the gap of R32, the count of R33, and a wait that is over. -/
def Slot.issued (sl : Slot) (cyc gap : Nat) : Slot :=
  { sl with lastIssue := cyc, run := sl.run + 1, readyAt := max sl.readyAt (cyc + gap + 1),
            mode := if sl.mode == .waiting then .issuing else sl.mode, blocked := false, answer := none, asked := false,
            hand := none, taken := [] }

/-- The issue turn of a core used, and an issue counted (R134, R403). -/
def State.turn (s : State) (u : Nat) : State := (s.modCore u fun c => { c with turns := c.turns + 1 }).count u s.st.ctx 0x02 1

/-- A strand that has sent a long load or a blocking form waits for it: in WAITING, or in HANDLER as in WAITING (R133). -/
def Slot.rest (sl : Slot) : Slot :=
  if sl.long.isSome then
    { sl with mode := if sl.mode == .handler then .handler else .waiting, blocked := sl.mode == .handler }
  else sl

/-- The issue of the instruction in hand: the marks of R32 and R33 on its strand, which switches away when the word
says so or when it waits for a long load or blocking form (R33, R133). -/
def State.finish (s : State) : State :=
  let s := s.modMe fun sl => sl.issued s.cyc s.ir.hd.gap.val
  let s := s.turn s.focusU
  if s.ir.hd.sw || s.me.long.isSome then
    let s := (s.modMe fun sl => sl.switchAway.rest).count s.focusU s.st.ctx 0x03 1
    s.modCore s.focusU fun c => c.passTurn s.focusK
  else s

/-- PC moves to the next word in sequence (R40). -/
def State.advance (s : State) : State := s.modSt fun st => { st with pc := st.pc + 12 }

/-- A trap taken on the instruction in hand, which uses the core's issue turn and counts as an issue under R33 (R135, R351;
log 69). -/
def State.trapHere (s : State) (t : Trap) : State :=
  ((takeTrap s s.focusU s.focusK t).modSlot s.focusU s.focusK fun sl => { sl with run := sl.run + 1 }).modCore
    s.focusU fun c => { c with turns := c.turns + 1 }

/-- The instruction in hand waits in `t`, and its slot keeps the queue entries it has taken since `s`. A strand that has just
sent a request has used the core's issue turn with it, also one that waited to send it (R28, R44, R160). -/
def State.sendAndWait (s t : State) : State :=
  let t := t.modMe fun sl => { sl with taken := sl.taken ++ s.here.qs.diff t.here.qs }
  let b := t.blockSlot s.focusU s.focusK
  if t.me.asked && !s.me.asked then b.modCore s.focusU fun c => { c with turns := c.turns + 1 } else b

/-- A trap of a form whose step has begun leaves the queue entries that it took since `z` where they stood (R59, R351). -/
def untaking (z : State) (r : Run) : Run :=
  match r with
  | .error (.trap t (some s)) =>
    .error (.trap t (some (s.modCore s.focusU fun c => { c with qs := z.here.qs.diff c.qs ++ c.qs })))
  | r => r

/-- The outcome of performing the instruction in hand in state `s`: its effect, the trap it takes, or its wait. -/
def settleRun (s : State) (r : Run) : Host.Outcome State Fault Refusal :=
  match r with
  | .ok t => .next t
  | .error (.trap t o) => .next ((o.getD s).trapHere t)
  | .error (.block none) => .next (s.blockSlot s.focusU s.focusK)
  | .error (.block (some t)) => .next (s.sendAndWait t)
  | .error .hold => .next s

/-- An instruction that stands at issue for the strand in focus: a pending guard makes it wait, a condition that fails
leaves only its issue, and otherwise `body` is its effect (R45, R97). -/
def perform (s : State) (body : State → Run) : Host.Outcome State Fault Refusal :=
  if s.me.live then
    match s.cond with
    | none => .next (s.blockSlot s.focusU s.focusK)
    | some false => .next s.advance.finish
    | some true => settleRun s (body s)
  else .fault .noStrand

/-- An instruction whose effect is followed by the next word in sequence. -/
def performSeq (s : State) (body : State → Run) : Host.Outcome State Fault Refusal :=
  perform s fun s => match body s with | .ok t => .ok t.advance.finish | .error e => .error e

/-! Branches (R34, R35, R107) -/

/-- The strand's next issue comes `n` cycles later than it would (R34 to R36). -/
def State.delay (s : State) (n : Nat) : State := s.modMe fun sl => { sl with readyAt := sl.readyAt + n }

/-- Whether a register that a branch names as its target has changed since fetch last went elsewhere (R34). -/
def Slot.moved (sl : Slot) (o : Opd) : Bool :=
  match o with
  | .x i => sl.changed.getLsbD i.val
  | .o i => sl.changed.getLsbD (16 + i.val)
  | .z i => sl.changed.getLsbD (24 + i.val)
  | .b i => sl.changed.getLsbD (26 + i.val)
  | _ => false

/-- How many cycles a branch that fetch follows by its taken hint delays its strand's next issue: 4 when it goes against
the hint, or when fetch followed a value its target register has left since: whether it did is free (R34; log 33). -/
def State.hintDelay (s : State) (o : Opd) (taken : Bool) : Nat :=
  if s.ir.hd.tkn != taken || (taken && s.me.moved o && Config.fetchedEarly s.fresh) then 4 else 0

/-- How many cycles a branch delays its strand's next issue: `o` is the field that may name its target, and `taken`
whether it is taken (R34, R35, R107). -/
def State.branchDelay (s : State) (o : Opd) (taken : Bool) : Nat :=
  match o with
  | .b i =>
    if s.st.brmode.getLsbD 0 then
      if taken then 6 - min 6 (s.cyc - s.me.pbrAt[i]) else 0
    else s.hintDelay o taken
  | _ => s.hintDelay o taken

/-- What the strand has fetched is dropped, and its next issue comes `n` cycles later (R34, R36). -/
def State.refetch (s : State) (n : Nat) : State := (s.delay n).modMe fun sl => { sl with changed := 0 }

/-- Whether a branch taken to the register of a field redirects fetch itself: in prepare mode, to a b-register (R35). -/
def State.redirects (s : State) (o : Opd) : Bool :=
  match o with
  | .b _ => s.st.brmode.getLsbD 0
  | _ => false

/-- The strand's next issue after a branch: `n` cycles later than it would come, from what is fetched then; `anew` says
that the branch redirects fetch, if without delay (R34, R35; log 33). -/
def State.redirect (s : State) (n : Nat) (anew : Bool) : State := (if n = 0 && !anew then s else s.refetch n).draw.2

/-- A branch of the strand in focus: `o` is the field of the register it goes to, an immediate for an offset, and `target`
gives its target address and what else it writes. A condition that fails
goes on at the next word; a misaligned target raises FETCH.ALN and nothing is written (R40, R103, R107). -/
def performBranch (s : State) (o : Opd) (target : State → Except Stop (Nat × State)) : Host.Outcome State Fault Refusal :=
  if s.me.live then
    match s.cond with
    | none => .next (s.blockSlot s.focusU s.focusK)
    | some false => .next (s.advance.finish.redirect (s.branchDelay o false) false)
    | some true =>
      settleRun s <| do
        let (t, s') ← target s
        let _ ← if t % 4 = 0 then .ok () else failAt .fetchAln t
        let s' := s'.modSt fun st => { st with pc := BitVec.ofNat 64 t }
        return s'.finish.redirect (s.branchDelay o true) (s.redirects o)
  else .fault .noStrand

end Sys2Proof.Machine
end

