-- ==== Sys2Proof/Machine/Flags.lean ====
section
/-! DEFINITION. Guards as conditions: the three-state tables of R100 and the comparisons that write a guard. The part has no flag register (R59). -/

namespace Sys2Proof.Machine

/-- A definite guard state. -/
def GState.ofBool (b : Bool) : GState := if b then .t else .f

/-- The table of `gand` (R100). -/
def GState.and : GState → GState → GState
  | .f, _ => .f
  | _, .f => .f
  | .t, .t => .t
  | _, _ => .p

/-- The table of `gor` (R100). -/
def GState.or : GState → GState → GState
  | .t, _ => .t
  | _, .t => .t
  | .f, .f => .f
  | _, _ => .p

/-- The table of `gxor` (R100). -/
def GState.xor : GState → GState → GState
  | .p, _ => .p
  | _, .p => .p
  | a, b => GState.ofBool (a != b)

/-- The table of `gnot` (R100). -/
def GState.not : GState → GState
  | .f => .t
  | .t => .f
  | .p => .p

/-- The guard an operand field names. -/
def guardIdx : Opd → Fin 8
  | .g i => i
  | _ => 0

/-- A comparison that writes the guard named by D at latency 1 (R96). -/
def compare (s : State) (f : Word → Word → Bool) : Host.Outcome State Fault Refusal :=
  performSeq s fun s => do
    let (a, b, s) ← srcAB s
    dstGuard s.ir.d (GState.ofBool (f a b)) s

end Sys2Proof.Machine
end

