-- ==== Sys2Proof/Machine/Arith.lean ====
section
/-! DEFINITION. Integer arithmetic at a width: exact integers, narrowed at the end (R80 to R95). -/

namespace Sys2Proof.Machine

/-- Bits of a width suffix. -/
def widthBits : Width → Nat | .w64 => 64 | .w32 => 32 | .w16 => 16 | .w8 => 8
/-- Bits of a width suffix. -/
def wideBits : Wide → Nat | .w64 => 64 | .w32 => 32
/-- Bits of a width suffix. -/
def narrowBits : Narrow → Nat | .w32 => 32 | .w16 => 16 | .w8 => 8
/-- Bits of a lane. -/
def laneBits : Lane → Nat | .p8 => 8 | .p16 => 16
/-- Bits of an integer suffix. -/
def formBits : IForm → Nat | .i64 => 64 | .n64 => 64 | .i32 => 32 | .n32 => 32
/-- Whether an integer suffix reads signed. -/
def formSigned : IForm → Bool | .i64 => true | .n64 => false | .i32 => true | .n32 => false

/-- Signed: the two's complement reading of the low `w` bits. -/
def sgn (w a : Nat) : Int := if a % 2 ^ w < 2 ^ (w - 1) then (a % 2 ^ w : Nat) else (a % 2 ^ w : Nat) - 2 ^ w

/-- V: signed or unsigned reading of the low `w` bits (R80). -/
def val (signed : Bool) (w a : Nat) : Int := if signed then sgn w a else (a % 2 ^ w : Nat)

/-- An integer modulo 2^w. -/
def wrap (w : Nat) (v : Int) : Nat := (v % 2 ^ w).toNat

/-- Clamp of R80. -/
def clamp (v lo hi : Int) : Int := if v < lo then lo else if hi < v then hi else v

/-- The least and greatest value at a width. -/
def lowest (signed : Bool) (w : Nat) : Int := if signed then -(2 ^ (w - 1)) else 0
/-- The least and greatest value at a width. -/
def highest (signed : Bool) (w : Nat) : Int := if signed then 2 ^ (w - 1) - 1 else 2 ^ w - 1

/-- The high half of a product (R82). -/
def mulHigh (signed : Bool) (w a b : Nat) : Nat := wrap w (val signed w a * val signed w b / 2 ^ w)

/-- The quotient of R83: all ones when the divisor is zero, else truncated. -/
def quotient (signed : Bool) (w a b : Nat) : Nat :=
  if b % 2 ^ w = 0 then 2 ^ w - 1 else wrap w (Int.tdiv (val signed w a) (val signed w b))

/-- The remainder of R83: the dividend when the divisor is zero. -/
def remainder (signed : Bool) (w a b : Nat) : Nat :=
  if b % 2 ^ w = 0 then a % 2 ^ w
  else wrap w (val signed w a - Int.tdiv (val signed w a) (val signed w b) * val signed w b)

/-- The smaller of two, or `a` when equal (R84). -/
def lesser (signed : Bool) (w a b : Nat) : Nat := if val signed w b < val signed w a then b % 2 ^ w else a % 2 ^ w

/-- The larger of two, or `a` when equal (R84). -/
def greater (signed : Bool) (w a b : Nat) : Nat := if val signed w a < val signed w b then b % 2 ^ w else a % 2 ^ w

/-- An exact result clamped to the range of its type (R85). -/
def saturate (signed : Bool) (w : Nat) (v : Int) : Nat := wrap w (clamp v (lowest signed w) (highest signed w))

/-- `shl` at a width, the amount taken whole (R92). -/
def shiftLeft (w a n : Nat) : Nat := if w ≤ n then 0 else a % 2 ^ w * 2 ^ n % 2 ^ w

/-- `shr` at a width (R92). -/
def shiftRight (w a n : Nat) : Nat := if w ≤ n then 0 else a % 2 ^ w / 2 ^ n

/-- `sar` at a width: `n` of the width or more gives the sign fill (R92). -/
def shiftArith (w a n : Nat) : Nat := wrap w (sgn w a / 2 ^ min n (w - 1))

/-- `rol` at a width (R92). -/
def rotLeft (w a n : Nat) : Nat := (a % 2 ^ w * 2 ^ (n % w) + a % 2 ^ w / 2 ^ (w - n % w)) % 2 ^ w

/-- `ror` at a width (R92). -/
def rotRight (w a n : Nat) : Nat := (a % 2 ^ w / 2 ^ (n % w) + a % 2 ^ w * 2 ^ (w - n % w)) % 2 ^ w

/-- The number of set bits among the low `w` (R93). -/
def popCount : Nat → Nat → Nat
  | 0, _ => 0
  | w + 1, a => a % 2 + popCount w (a / 2)

/-- The number of clear bits above the highest set bit of the low `w` (R93). -/
def leadZeros : Nat → Nat → Nat
  | 0, _ => 0
  | w + 1, a => if bit a w then 0 else 1 + leadZeros w a

/-- The number of clear bits below the lowest set bit of the low `w` (R93). -/
def trailZeros : Nat → Nat → Nat
  | 0, _ => 0
  | w + 1, a => if a % 2 = 1 then 0 else 1 + trailZeros w (a / 2)

/-- The low `w` bits in reverse order (R94). -/
def reverseBits : Nat → Nat → Nat
  | 0, _ => 0
  | w + 1, a => a % 2 * 2 ^ w + reverseBits w (a / 2)

/-- The low `n` bytes in reverse order (R94). -/
def reverseBytes : Nat → Nat → Nat
  | 0, _ => 0
  | n + 1, a => a % 256 * 256 ^ n + reverseBytes n (a / 256)

/-- The position of a bit field (R94). -/
def fieldPos (b : Nat) : Nat := bits b 13 8
/-- The length of a bit field (R94). -/
def fieldLen (b : Nat) : Nat := min (bits b 6 0) 64

/-- `bext` (R94). -/
def extract (a b : Nat) : Nat := a / 2 ^ fieldPos b % 2 ^ fieldLen b

/-- `bins` (R94). -/
def insertField (d a b : Nat) : Nat :=
  let mask := (2 ^ fieldLen b - 1) * 2 ^ fieldPos b % 2 ^ 64
  (d &&& (2 ^ 64 - 1 - mask)) ||| (a % 2 ^ fieldLen b * 2 ^ fieldPos b % 2 ^ 64)

/-- A lane function applied to `n` lanes of `l` bits (R95). -/
def lanes (l : Nat) (f : Nat → Nat → Nat) : Nat → Nat → Nat → Nat
  | 0, _, _ => 0
  | n + 1, a, b => f (a % 2 ^ l) (b % 2 ^ l) % 2 ^ l + 2 ^ l * lanes l f n (a / 2 ^ l) (b / 2 ^ l)

/-- A result word from a number. -/
def word (n : Nat) : Word := BitVec.ofNat 64 n

/-- An instruction that writes D from A and B at a latency. -/
def binary (s : State) (lat : Nat) (f : Nat → Nat → Nat) : Host.Outcome State Fault Refusal :=
  performSeq s fun s => do
    let (a, b, s) ← srcAB s
    dst s.ir.d lat (word (f a.toNat b.toNat)) s

/-- An instruction that writes D from A at a latency. -/
def unary (s : State) (lat : Nat) (f : Nat → Nat) : Host.Outcome State Fault Refusal :=
  performSeq s fun s => do
    let (a, s) ← src s.ir.a s
    dst s.ir.d lat (word (f a.toNat)) s

/-- An instruction that reads D as its third source, and writes it (R94). -/
def ternary (s : State) (lat : Nat) (f : Nat → Nat → Nat → Nat) : Host.Outcome State Fault Refusal :=
  performSeq s fun s => do
    let (a, b, d, s) ← srcABD s
    dst s.ir.d lat (word (f d.toNat a.toNat b.toNat)) s

/-- An instruction that reads D as its addend, before A and B, and writes it (R114). -/
def addInto (s : State) (lat : Nat) (f : Nat → Nat → Nat → Nat) : Host.Outcome State Fault Refusal :=
  performSeq s fun s => do
    let (a, b, d, s) ← srcDAB s
    dst s.ir.d lat (word (f d.toNat a.toNat b.toNat)) s

end Sys2Proof.Machine
end

