-- ==== Sys2Proof/Machine/Num.lean ====
section
/-! DEFINITION. Number formats and exact arithmetic (R61 to R77): reals as exact dyadic numbers, RoundNE, narrowing, widening, block scales, and monotone images. -/

namespace Sys2Proof.Machine

/-! Formats -/

/-- The layout of a format's magnitude: `t` bits of trailing significand, exponent bias `b` (R62, R63). -/
structure Grid where
  t    : Nat
  bias : Int
  /-- The magnitude code of the largest finite value (R62, R66). -/
  top  : Nat
  deriving DecidableEq, Repr

/-- The layouts of R62. -/
def fp32 : Grid := ⟨23, 127, 0x7F7F_FFFF⟩
/-- The layouts of R62. -/
def fp16 : Grid := ⟨10, 15, 0x7BFF⟩
/-- The layouts of R62. -/
def bf16 : Grid := ⟨7, 127, 0x7F7F⟩

namespace B8
/-- PREC of a format code (R68). -/
def prec (f : Nat) : Nat := f / 4 % 8
/-- UNS of a format code (R68). -/
def uns (f : Nat) : Bool := bit f 1
/-- FIN of a format code (R68). -/
def fin (f : Nat) : Bool := bit f 0
/-- The layout of a binary8 format (R63, R66). -/
def grid (f : Nat) : Grid where
  t := prec f - 1
  bias := if uns f then 2 ^ (8 - prec f) else 2 ^ (7 - prec f)
  top := (if uns f then 0xFD else 0x7E) + (fin f).toNat
/-- The single NaN (R65). -/
def nan (f : Nat) : Nat := if uns f then 0xFF else 0x80
/-- InfCode of R71. -/
def inf (f : Nat) (neg : Bool) : Nat := if uns f then 0xFE else if neg then 0xFF else 0x7F
end B8

/-! Reals (R70) -/

/-- A finite real `m` × 2^`e`. -/
structure Dyadic where
  m : Int
  e : Int
  deriving DecidableEq, Repr

/-- The type `real` of R70. -/
inductive Real where
  | nan
  | inf (neg : Bool)
  | fin (v : Dyadic)
  deriving DecidableEq, Repr

/-- Zero. -/
def Dyadic.zero : Dyadic := ⟨0, 0⟩

/-- The integer that a dyadic number is at a lower exponent. -/
def Dyadic.at_ (v : Dyadic) (e : Int) : Int := v.m * 2 ^ (v.e - e).toNat

/-- An exact sum. -/
def Dyadic.add (v w : Dyadic) : Dyadic := let e := min v.e w.e; ⟨v.at_ e + w.at_ e, e⟩
/-- A negation. -/
def Dyadic.neg (v : Dyadic) : Dyadic := ⟨-v.m, v.e⟩
/-- An exact product. -/
def Dyadic.mul (v w : Dyadic) : Dyadic := ⟨v.m * w.m, v.e + w.e⟩
/-- The order of values. -/
def Dyadic.lt (v w : Dyadic) : Bool := let e := min v.e w.e; v.at_ e < w.at_ e

/-- Sums of reals; infinities of opposite sign give NaN (R113). -/
def Real.add : Real → Real → Real
  | .nan, _ => .nan
  | _, .nan => .nan
  | .inf a, .inf b => if a == b then .inf a else .nan
  | .inf a, _ => .inf a
  | _, .inf b => .inf b
  | .fin v, .fin w => .fin (v.add w)

/-- A negation. -/
def Real.neg : Real → Real
  | .nan => .nan
  | .inf a => .inf !a
  | .fin v => .fin v.neg

/-- Products of reals; zero times an infinity gives NaN (R113). -/
def Real.mul : Real → Real → Real
  | .nan, _ => .nan
  | _, .nan => .nan
  | .inf a, .inf b => .inf (a != b)
  | .inf a, .fin v => if v.m = 0 then .nan else .inf (a != decide (v.m < 0))
  | .fin v, .inf b => if v.m = 0 then .nan else .inf (b != decide (v.m < 0))
  | .fin v, .fin w => .fin (v.mul w)

/-! Codes and values (R62, R64, R70) -/

/-- The exponent of the spacing of a format's subnormals. -/
def Grid.low (g : Grid) : Int := 1 - g.bias - g.t

/-- The value of a magnitude code of a number (R62, R64). -/
def Grid.value (g : Grid) (c : Nat) : Dyadic :=
  if c / 2 ^ g.t = 0 then ⟨c, g.low⟩ else ⟨(2 ^ g.t + c % 2 ^ g.t : Nat), g.low + (c / 2 ^ g.t : Nat) - 1⟩

/-- RoundNE of R70 for a magnitude `m` × 2^`e`: the code of the nearest grid point, the even code of two equally near.
Codes go on above the largest finite value at the same spacing for each binade. -/
def Grid.round (g : Grid) (m : Nat) (e : Int) : Nat :=
  let u := max ((Nat.log2 m : Int) + e - g.t) g.low
  let k := (u - g.low).toNat * 2 ^ g.t
  if u ≤ e then k + m * 2 ^ (e - u).toNat
  else
    let d := 2 ^ (u - e).toNat
    let c := k + m / d
    if d < 2 * (m % d) || (2 * (m % d) = d && c % 2 = 1) then c + 1 else c

/-- The bits of a code with a sign bit above `w` magnitude bits. -/
def signed (w : Nat) (neg : Bool) (c : Nat) : Nat := neg.toNat * 2 ^ w + c

/-- A sticky bit put below a magnitude. -/
def sticky (m : Nat) (inexact : Bool) : Nat := 2 * m + inexact.toNat

/-! FP32 (R62, R111) -/

/-- The canonical NaN (R111). -/
def nan32 : Nat := 0x7FC0_0000
/-- An infinity (R62). -/
def inf32 (neg : Bool) : Nat := signed 31 neg 0x7F80_0000
/-- SignBit (R111). -/
def sign32 (a : Nat) : Bool := bit a 31
/-- Whether a code is a NaN (R62). -/
def isNan32 (a : Nat) : Bool := 0x7F80_0000 < a % 2 ^ 31
/-- Value of R111, with NaN and the infinities. -/
def value32 (a : Nat) : Real :=
  let c := a % 2 ^ 31
  if 0x7F80_0000 < c then .nan
  else if c = 0x7F80_0000 then .inf (sign32 a)
  else .fin (let v := fp32.value c; if sign32 a then v.neg else v)

/-- A nonzero magnitude rounded to FP32 under a sign, an overflow to infinity (R111). -/
def encode32 (neg : Bool) (m : Nat) (e : Int) : Nat :=
  let c := fp32.round m e
  if fp32.top < c then inf32 neg else signed 31 neg c

/-- Round32 (R111). -/
def round32 (y : Real) (zs : Bool) : Nat :=
  match y with
  | .nan => nan32
  | .inf n => inf32 n
  | .fin v => if v.m = 0 then signed 31 zs 0 else encode32 (v.m < 0) v.m.natAbs v.e

/-- `add.f32` (R113). -/
def add32 (a b : Nat) : Nat := round32 ((value32 a).add (value32 b)) (sign32 a && sign32 b)
/-- `sub.f32` (R113). -/
def sub32 (a b : Nat) : Nat := round32 ((value32 a).add (value32 b).neg) (sign32 a && !sign32 b)
/-- `mul.f32` (R113). -/
def mul32 (a b : Nat) : Nat := round32 ((value32 a).mul (value32 b)) (sign32 a != sign32 b)

/-- A quotient of magnitudes, with a sticky bit far below the last place (R113). -/
def quotient32 (neg : Bool) (m n : Nat) (e : Int) : Nat :=
  let q := m * 2 ^ 96
  encode32 neg (sticky (q / n) (q % n != 0)) (e - 97)

/-- `div.f32` (R113). -/
def div32 (a b : Nat) : Nat :=
  let neg := sign32 a != sign32 b
  match value32 a, value32 b with
  | .nan, _ => nan32
  | _, .nan => nan32
  | .inf _, .inf _ => nan32
  | .inf _, .fin _ => inf32 neg
  | .fin _, .inf _ => signed 31 neg 0
  | .fin v, .fin w =>
    if v.m = 0 then (if w.m = 0 then nan32 else signed 31 neg 0)
    else if w.m = 0 then inf32 neg
    else quotient32 neg v.m.natAbs w.m.natAbs (v.e - w.e)

/-- `fma.f32` (R114): c + a × b with one rounding. -/
def fma32 (c a b : Nat) : Nat :=
  round32 ((value32 c).add ((value32 a).mul (value32 b))) (sign32 c && (sign32 a != sign32 b))
/-- `fms.f32` (R114): c − a × b with one rounding. -/
def fms32 (c a b : Nat) : Nat :=
  round32 ((value32 c).add ((value32 a).mul (value32 b)).neg) (sign32 c && !(sign32 a != sign32 b))

/-- The integer square root, bit `i` and below. -/
def isqrtFrom (n : Nat) : Nat → Nat → Nat
  | 0, r => r
  | i + 1, r => isqrtFrom n i (if (r + 2 ^ i) * (r + 2 ^ i) ≤ n then r + 2 ^ i else r)

/-- The integer square root. -/
def isqrt (n : Nat) : Nat := isqrtFrom n (Nat.log2 n / 2 + 1) 0

/-- A positive dyadic number with an even exponent. -/
def evenExp (v : Dyadic) : Nat × Int := if v.e % 2 = 0 then (v.m.natAbs, v.e) else (2 * v.m.natAbs, v.e - 1)

/-- `sqrt.f32` (R115). -/
def sqrt32 (a : Nat) : Nat :=
  match value32 a with
  | .nan => nan32
  | .inf n => if n then nan32 else a % 2 ^ 32
  | .fin v =>
    if v.m = 0 then a % 2 ^ 32
    else if v.m < 0 then nan32
    else
      let (m, e) := evenExp v
      let q := m * 2 ^ 128
      let r := isqrt q
      encode32 false (sticky r (r * r != q)) (e / 2 - 65)

/-- `rcp.f32` (R116). -/
def rcp32 (a : Nat) : Nat := div32 0x3F80_0000 a

/-- `rsq.f32` (R116). -/
def rsq32 (a : Nat) : Nat :=
  match value32 a with
  | .nan => nan32
  | .inf n => if n then nan32 else 0
  | .fin v =>
    if v.m = 0 then inf32 (sign32 a)
    else if v.m < 0 then nan32
    else
      let (m, e) := evenExp v
      let r := isqrt (2 ^ 192 / m)
      encode32 false (sticky r (r * r * m != 2 ^ 192)) (-(e / 2) - 97)

/-! Powers and logarithms (R116): bounds at a precision, and the rounding on which both agree (log 11) -/

/-- Bounds of 2^f, in units of 2^−w, for the first `n` fraction bits of f (`f` × 2^−k), as products of the square roots
2^(1/2), 2^(1/4), …; `lo` and `hi` bound the product so far, `rl` and `rh` the last root. -/
def exp2Loop (w : Nat) : Nat → Nat → Nat → Nat → Nat → Nat → Nat → Nat × Nat
  | 0, _, _, lo, hi, _, _ => (lo, hi)
  | n + 1, k, f, lo, hi, rl, rh =>
    let rl := isqrt (rl * 2 ^ w)
    let rh := isqrt (rh * 2 ^ w) + 1
    if bit f (k - 1) then exp2Loop w n (k - 1) f (lo * rl / 2 ^ w) (hi * rh / 2 ^ w + 1) rl rh
    else exp2Loop w n (k - 1) f lo hi rl rh

/-- Bounds of 2^f for a fraction f = `f` × 2^−k, in units of 2^−w. A fraction of more than `w` bits is cut after them:
2^f grows by less than one unit of 2^−(w−1) for what is cut. -/
def exp2Bounds (w k f : Nat) : Nat × Nat :=
  let n := min w k
  let r := exp2Loop w n k f (2 ^ w) (2 ^ w) (2 ^ (w + 1)) (2 ^ (w + 1))
  if f % 2 ^ (k - n) = 0 then r else (r.1, r.2 + 4)

/-- Bounds of log2 of `lo` to `hi`, both at least 1 and below 2 in units of 2^−w: `n` fraction bits, found by squaring
(the lower bound's bits; the upper is at most one unit more when the last flag is set). -/
def log2Loop (w : Nat) : Nat → Nat → Nat → Nat → Nat × Nat × Nat
  | 0, _, _, acc => (acc, 0, 0)
  | n + 1, lo, hi, acc =>
    let l := lo * lo / 2 ^ w
    let h := hi * hi / 2 ^ w + 1
    if 2 ^ (w + 1) ≤ l then log2Loop w n (l / 2) (h / 2 + 1) (2 * acc + 1)
    else if h < 2 ^ (w + 1) then log2Loop w n l h (2 * acc)
    else (acc, n + 1, 1)

/-- The first of some precisions at which the bounds round alike, or the last one's lower bound (log 11). -/
def agree (f : Nat → Nat × Nat) : List Nat → Nat
  | [] => nan32
  | [w] => (f w).1
  | w :: ws => let r := f w; if r.1 = r.2 then r.1 else agree f ws

/-- `exp2.f32` (R116). -/
def exp232 (a : Nat) : Nat :=
  match value32 a with
  | .nan => nan32
  | .inf n => if n then 0 else inf32 false
  | .fin v =>
    let k := (-v.e).toNat
    let x := v.at_ (min v.e 0)
    let n := x / 2 ^ k
    let f := (x % 2 ^ k).toNat
    if 128 ≤ n then inf32 false
    else if n < -200 then 0
    else if f = 0 then encode32 false 1 n
    else agree (fun w =>
      let r := exp2Bounds w k f
      (encode32 false r.1 (n - w), encode32 false r.2 (n - w))) [128, 256, 512]

/-- `log2.f32` (R116). -/
def log232 (a : Nat) : Nat :=
  match value32 a with
  | .nan => nan32
  | .inf n => if n then nan32 else inf32 false
  | .fin v =>
    if v.m = 0 then inf32 true
    else if v.m < 0 then nan32
    else
      let m := v.m.natAbs
      let l := Nat.log2 m
      let e := v.e + l
      if m = 2 ^ l then round32 (.fin ⟨e, 0⟩) false
      else agree (fun n =>
        let w := 3 * n
        let x := m * 2 ^ w / 2 ^ l
        let r := log2Loop w n x x 0
        let lo : Int := (r.1 : Int) * 2 ^ r.2.1
        let hi : Int := ((r.1 : Int) + 1) * 2 ^ r.2.1
        (round32 (.fin ⟨e * 2 ^ n + lo, -n⟩) false, round32 (.fin ⟨e * 2 ^ n + hi, -n⟩) false)) [128, 256, 512]

/-- Bounds of ln 2 in units of 2^−w, from the sum of 1 / (k 2^k) for k up to `n`, counted down. -/
def ln2Sum (w : Nat) : Nat → Nat
  | 0 => 0
  | n + 1 => 2 ^ w / ((n + 1) * 2 ^ (n + 1)) + ln2Sum w n

/-- Bounds of e^(−a) for a > 0, rounded to FP32, at a precision (log 11): 2 to the power −a / ln 2. -/
def expNegBounds (a : Dyadic) (w : Nat) : Nat × Nat :=
  let v := 2 * w
  let lo := ln2Sum v v
  let hi := lo + v + 2
  let x := a.m.natAbs
  -- a / ln 2 in units of 2^−w, from below and from above
  let scaled := fun (d : Nat) => if 0 ≤ a.e then x * 2 ^ a.e.toNat * 2 ^ (v + w) / d else x * 2 ^ (v + w) / d / 2 ^ (-a.e).toNat
  let below := scaled hi
  let above := scaled lo + 2
  -- 2^(−t) for t in units of 2^−w: the whole part rounded up, the rest a fraction
  let power := fun (t : Nat) (upper : Bool) =>
    let n := (t + 2 ^ w - 1) / 2 ^ w
    let r := exp2Bounds w w (n * 2 ^ w - t)
    encode32 false (if upper then r.2 else r.1) (-(n : Int) - w)
  (power above false, power below true)

/-- E(y) of R323 for a difference y ≤ 0 of FP32 values: e^y correctly rounded; E(−inf) = 0. Any y at −128 or below
rounds to zero. -/
def expNeg (y : Real) : Nat :=
  match y with
  | .nan => nan32
  | .inf _ => 0
  | .fin v =>
    if v.m = 0 then 0x3F80_0000
    else if v.lt ⟨-128, 0⟩ then 0
    else agree (expNegBounds v.neg) [128, 256, 512]

/-- The order of FP32 numbers with −0 below +0: the image of R77 without NaN. -/
def order32 (a : Nat) : Nat := if sign32 a then 2 ^ 32 - 1 - a % 2 ^ 32 else 2 ^ 31 + a % 2 ^ 31

/-- `min.f32` and `max.f32` (R117). -/
def pick32 (greater : Bool) (a b : Nat) : Nat :=
  let a := a % 2 ^ 32
  let b := b % 2 ^ 32
  if isNan32 a then (if isNan32 b then nan32 else b)
  else if isNan32 b then a
  else if greater then (if order32 a < order32 b then b else a)
  else if order32 b < order32 a then b else a

/-- Value of a number as an integer that keeps the order, both zeros alike (R119). -/
def key32 (a : Nat) : Int := if sign32 a then -(a % 2 ^ 31 : Nat) else (a % 2 ^ 31 : Nat)

/-- Whether two operands are unordered (R119). -/
def unordered (a b : Nat) : Bool := isNan32 a || isNan32 b
/-- `ceq.f32` (R119). -/
def eq32 (a b : Nat) : Bool := !unordered a b && key32 a == key32 b
/-- `clt.f32` (R119). -/
def lt32 (a b : Nat) : Bool := !unordered a b && decide (key32 a < key32 b)
/-- `cle.f32` (R119). -/
def le32 (a b : Nat) : Bool := !unordered a b && decide (key32 a ≤ key32 b)

/-- `class.f32` (R120). -/
def class32 (a : Nat) : Nat :=
  let c := a % 2 ^ 31
  let n := sign32 a
  2 ^ (if 0x7F80_0000 < c then (if bit a 22 then 9 else 8)
    else if c = 0x7F80_0000 then (if n then 0 else 7)
    else if c = 0 then (if n then 3 else 4)
    else if c < 2 ^ 23 then (if n then 2 else 5)
    else if n then 1 else 6)

/-! Conversions (R71, R72, R121 to R124) -/

/-- An integer converted to FP32 (R121). -/
def ofInt32 (v : Int) : Nat := round32 (.fin ⟨v, 0⟩) false

/-- A value truncated toward zero. -/
def Dyadic.trunc (v : Dyadic) : Int :=
  if 0 ≤ v.e then v.m * 2 ^ v.e.toNat else Int.tdiv v.m (2 ^ (-v.e).toNat)

/-- An FP32 code converted to an integer, saturating (R122). -/
def toInt32 (sg : Bool) (w : Nat) (a : Nat) : Nat :=
  wrap w (match value32 a with
    | .nan => 0
    | .inf n => if n then lowest sg w else highest sg w
    | .fin v => clamp v.trunc (lowest sg w) (highest sg w))

/-- A 16-bit code widened to FP32, exactly; NaN keeps its sign and payload (R72). -/
def widen16 (g : Grid) (a : Nat) : Nat :=
  let s := bit a 15
  let c := a % 2 ^ 15
  let inf := 2 ^ 15 - 2 ^ g.t
  if inf ≤ c then signed 31 s (0x7F80_0000 + (c - inf) * 2 ^ (23 - g.t))
  else if c = 0 then signed 31 s 0
  else let v := g.value c; signed 31 s (fp32.round v.m.natAbs v.e)

/-- FP32 narrowed to a 16-bit format: RoundNE, overflow to infinity, NaN by its top payload bits (R71, R72). -/
def narrow16 (g : Grid) (a : Nat) : Nat :=
  let s := sign32 a
  let inf := 2 ^ 15 - 2 ^ g.t
  match value32 a with
  | .nan =>
    let f := a % 2 ^ 23 / 2 ^ (23 - g.t)
    signed 15 s (inf + (if f = 0 then 2 ^ (g.t - 1) else f))
  | .inf _ => signed 15 s inf
  | .fin v => if v.m = 0 then signed 15 s 0 else signed 15 s (min (g.round v.m.natAbs v.e) inf)

/-- Decode of a binary8 code (R64, R65). -/
def value8 (f a : Nat) : Real :=
  if a = B8.nan f then .nan
  else if !B8.fin f && (if B8.uns f then a == 0xFE else a % 128 == 0x7F) then .inf (!B8.uns f && 128 ≤ a)
  else if B8.uns f then .fin ((B8.grid f).value a)
  else
    let v := (B8.grid f).value (a % 128)
    .fin (if 128 ≤ a then v.neg else v)

/-- A binary8 code widened to FP32 (R72). -/
def widen8 (f a : Nat) : Nat := round32 (value8 f a) false

/-- Encode of a binary8 code from its sign and magnitude code (R63, R71). -/
def encode8 (neg : Bool) (c : Nat) : Nat := if neg && c != 0 then 128 + c else c

/-- Narrow8 (R71). -/
def narrow8 (x : Real) (f : Nat) (sat : Bool) : Nat :=
  let past := fun neg =>
    if sat then encode8 neg (B8.grid f).top
    else if B8.fin f then B8.nan f else B8.inf f neg
  match x with
  | .nan => B8.nan f
  | .inf n => if B8.uns f && n then B8.nan f else past n
  | .fin v =>
    if B8.uns f && v.m < 0 then B8.nan f
    else if v.m = 0 then 0
    else
      let c := (B8.grid f).round v.m.natAbs v.e
      if (B8.grid f).top < c then past (v.m < 0) else encode8 (v.m < 0) c

/-! Block scales (R73, R74) -/

/-- ScaledValue (R74). -/
def scaledValue (f e s : Nat) : Real :=
  if s = 0xFF then .nan
  else match value8 f e with
    | .fin v => .fin ⟨v.m, v.e + s - 127⟩
    | x => x

/-- A real rounded into FP32, FP16 or BF16 as a load or a copy decodes it: overflow to the infinity of its sign, NaN
canonical (R74). -/
def round16 (g : Grid) (x : Real) : Nat :=
  let inf := 2 ^ 15 - 2 ^ g.t
  match x with
  | .nan => inf + 2 ^ (g.t - 1)
  | .inf n => signed 15 n inf
  | .fin v => if v.m = 0 then 0 else signed 15 (v.m < 0) (min (g.round v.m.natAbs v.e) inf)

/-- Decode of a 16-bit code. -/
def value16 (g : Grid) (a : Nat) : Real := value32 (widen16 g a)

/-! The group sum (R75) -/

/-- GroupAdd (R75): the products of a group added exactly to an accumulator, with one rounding. -/
def groupAdd (acc : Nat) (ps : List (Real × Real)) : Nat :=
  match ps.foldl (fun y p => y.add (p.1.mul p.2)) (value32 acc) with
  | .fin v => round32 (.fin v) false
  | y => round32 y false

/-! Monotone images (R77) -/

/-- The image of a code of FP32, FP16 or BF16, of `w` bits with infinity at `inf` (R77). -/
def imageIeee (w inf : Nat) (nh : Bool) (c : Nat) : Nat :=
  if inf < c % 2 ^ (w - 1) then (if nh then 2 ^ w - 1 else 0)
  else if bit c (w - 1) then 2 ^ w - 1 - c % 2 ^ w
  else 2 ^ (w - 1) + c

/-- The image of a binary8 code (R77). -/
def image8 (f : Nat) (nh : Bool) (c : Nat) : Nat :=
  if c = B8.nan f then (if nh then 0xFF else 0)
  else if B8.uns f then (if nh then c else c + 1)
  else if 128 ≤ c then (255 - c) + (!nh).toNat
  else 128 + c - nh.toNat

/-- The image of an integer code of `w` bits (R77). -/
def imageInt (sg : Bool) (w c : Nat) : Nat := if sg then (c + 2 ^ (w - 1)) % 2 ^ w else c % 2 ^ w

end Sys2Proof.Machine
end

