-- ==== Sys2Proof/Machine/Filter.lean ====
section
/-! DEFINITION. The logit filters' taking of written elements (R320 to R323), and the write that every store goes through. -/

namespace Sys2Proof.Machine

/-- A part with nothing taken: M −inf, S +0 (R320). -/
def FilterPart.empty : FilterPart := ⟨0xFF80_0000, 0, [], 0, 0⟩

/-- The FP32 code of an element of a type EF. -/
def efWiden (ef : BitVec 2) (code : Nat) : Nat :=
  if ef = 0 then code else if ef = 1 then widen16 fp16 code else widen16 bf16 code

/-- The monotone image of an element with NaN lowest (R77, R322). -/
def efImage (ef : BitVec 2) (code : Nat) : Nat :=
  if ef = 0 then imageIeee 32 0x7F80_0000 false code
  else if ef = 1 then imageIeee 16 0x7C00 false code
  else imageIeee 16 0x7F80 false code

/-- An element put in a shortlist, in descending image and then ascending index (R322). -/
def shortlist (ef : BitVec 2) (i : Nat) (code : Nat) : List (Nat × BitVec 32) → List (Nat × BitVec 32)
  | [] => [(i, BitVec.ofNat 32 code)]
  | (j, c) :: l =>
    let x := efImage ef code
    let y := efImage ef c.toNat
    if y < x || (x = y && i < j) then (i, BitVec.ofNat 32 code) :: (j, c) :: l else (j, c) :: shortlist ef i code l

/-- The weight e^(x − m) of a value below a maximum, as a real (R323). -/
def weight (x m : Nat) : Real :=
  if key32 x == key32 m then .fin ⟨1, 0⟩ else value32 (expNeg ((value32 x).add (value32 m).neg))

/-- M and S after an element (R323). -/
def sumTake (p : FilterPart) (x : Nat) : FilterPart :=
  let p := if lt32 p.m.toNat x then
      { p with s := BitVec.ofNat 32 (round32 ((value32 p.s.toNat).mul (weight p.m.toNat x)) false),
               m := BitVec.ofNat 32 x }
    else p
  { p with s := BitVec.ofNat 32 (round32 ((value32 p.s.toNat).add (weight x p.m.toNat)) false) }

/-- An element taken on a die's part (R321 to R323). -/
def FilterPart.take (p : FilterPart) (ef : BitVec 2) (i code : Nat) : FilterPart :=
  let x := efWiden ef code
  if isNan32 x then { p with nans := p.nans + 1 }
  else { sumTake p x with seen := p.seen + 1, best := (shortlist ef i code p.best).take 256 }

/-- A filter's part on a die. -/
def Filter.part (f : Filter) (d : Nat) : FilterPart := (kget f.parts d).getD FilterPart.empty

/-- The filter of a context replaced. -/
def State.setFilter (s : State) (ctx : BitVec 12) (k : Nat) (f : Filter) : State :=
  let x := s.context ctx
  s.setContext ctx { x with filters := kput x.filters k f }

/-- The elements from `i` on, `n` of them, at places from `p` on, taken on the die of the home (R321). -/
def takeElements (ctx : BitVec 12) (k : Nat) (u : Nat) : Nat → Nat → Nat → State → State
  | 0, _, _, s => s
  | n + 1, i, p, s =>
    match kget (s.context ctx).filters k with
    | none => s
    | some f =>
      let s :=
        if sget false f.written i then s.countLf ctx u 0x11
        else
          let d := dieOf u
          s.setFilter ctx k
            { f with written := sset false f.written i true,
                     parts := kput f.parts d ((f.part d).take f.ef i (s.num p (efSize f.ef))) }
      takeElements ctx k u n (i + 1) (p + efSize f.ef) s

/-- The whole elements that a store covers are taken, and LF.PART is counted for a part of one (R321). -/
def takeWrite (p : Nat) (ctx : BitVec 12) (k : Nat) (f : Filter) (at0 : Int) (lo hi : Nat) (s : State) : State :=
  let z := efSize f.ef
  let a := (lo + z - 1) / z
  let b := hi / z
  let s := takeElements ctx k (loftUnit p) (b - a) a ((p : Int) + (a * z : Nat) - at0).toNat s
  if lo % z != 0 || hi % z != 0 then s.countLf ctx (loftUnit p) 0x12 else s

/-- What a write of `n` bytes at a place of HBM does to every ARMED filter: it is taken, or counts LF.PART (R321). -/
def filtersWrite (takes : Bool) (p n : Nat) (s : State) : State :=
  if takes then overFilters (takeWrite p) p n s else untaken p n s

/-- Bytes written at a place by an agent: every write of memory that a filter could see goes this way. -/
def State.store (s : State) (takes : Bool) (p : Nat) (bs : List Byte) : State :=
  let s := s.setBytes p bs
  if p < hbmEnd then filtersWrite takes p bs.length s else s

/-- A number written little-endian at a place by an agent. -/
def State.storeNum (s : State) (takes : Bool) (p n v : Nat) : State := s.store takes p (leBytes n v)

end Sys2Proof.Machine
end

