-- ==== Sys2Proof/Machine/Home.lean ====
section
/-! DEFINITION. What a home does with an access: reads, writes, atomics and full/empty forms in one step (R200, R201, R219 to R231), and the waiters it keeps (R193). -/

namespace Sys2Proof.Machine

/-- A place of a core's own local memory, through L. -/
def ownPlace (s : State) (u off : Nat) : Place :=
  ⟨u, localPlace u off, some off, s.tag (localPlace u off), false, false, true⟩

/-- The number in `n` bytes of a place, as its key shows them (R199). -/
def readAt (s : State) (ctx : BitVec 12) (p : Place) (n : Nat) : Except Cause Nat :=
  match reach s ctx p n with
  | .ok a => .ok ((s.under (p.key s ctx) a n).num a n)
  | .error c => .error c

/-- The offset of a place in its 4 KiB frame. -/
def Place.inFrame (p : Place) : Nat := (match p.off with | some o => o | none => p.place) % 4096

/-- The exact value of the element at a place under its format, its block scale included (R74, R225). -/
def elementAt (s : State) (ctx : BitVec 12) (p : Place) : Except Cause Real :=
  match formatOf p.tag with
  | .raw => .error .fmtRaw
  | .fp32 => match readAt s ctx p 4 with | .ok v => .ok (value32 v) | .error c => .error c
  | .fp16 => match readAt s ctx p 2 with | .ok v => .ok (value16 fp16 v) | .error c => .error c
  | .bf16 => match readAt s ctx p 2 with | .ok v => .ok (value16 bf16 v) | .error c => .error c
  | .b8 f =>
    match slotOf p.tag p.inFrame with
    | none => .error .fmtSlot
    | some (_, sc) =>
      match readAt s ctx p 1, readAt s ctx (p.shift ((sc : Int) - (p.inFrame : Nat))) 1 with
      | .ok e, .ok c => .ok (scaledValue f e c)
      | .error c, _ => .error c
      | _, .error c => .error c

/-- The FP32 code that `ldd` reads at a place (R225): FP32 unchanged, 16-bit codes widened, binary8 scaled. -/
def decodeAt (s : State) (ctx : BitVec 12) (p : Place) : Except Cause Nat :=
  match formatOf p.tag with
  | .fp32 => readAt s ctx p 4
  | .fp16 => match readAt s ctx p 2 with | .ok v => .ok (widen16 fp16 v) | .error c => .error c
  | .bf16 => match readAt s ctx p 2 with | .ok v => .ok (widen16 bf16 v) | .error c => .error c
  | _ => match elementAt s ctx p with | .ok x => .ok (round32 x false) | .error c => .error c

/-- The new value of a read-modify-write at a width (R227). -/
def AtomOp.apply (op : AtomOp) (w m v : Nat) : Nat :=
  match op with
  | .add => (m + v) % 2 ^ w
  | .min sg => lesser (sg == .i) w m v
  | .max sg => greater (sg == .i) w m v
  | .and => m &&& v
  | .or => m ||| v
  | .xor => m ^^^ v
  | .swap => v

/-- A field of a byte replaced (R224): `b` bits at index `i`. -/
def replaceField (b i old v : Nat) : Nat :=
  old - old / 2 ^ (b * i) % 2 ^ b * 2 ^ (b * i) + v % 2 ^ b * 2 ^ (b * i)

/-- The bit of a granule set full by a push or `stf`; an overrun is counted when it was full (R192). -/
def State.fill (s : State) (ctx : BitVec 12) (u a : Nat) : State :=
  let s := if s.isFull a then s.count u ctx 0x09 1 else s
  s.setFull a true

/-- One access performed at its home: its result and the state after it, or why the home refuses it (R201, R221 to
R231). -/
def performAt (s : State) (ctx : BitVec 12) (p : Place) (op : MemOp) : Except Cause (Nat × State) := do
  match op with
  | .load n sg =>
    let v ← readAt s ctx p n
    return (if sg then wrap 64 (sgn (8 * n) v) else v, s)
  | .pair =>
    let v ← readAt s ctx p 16
    return (v, s)
  | .decode =>
    let v ← decodeAt s ctx p
    return (v, s)
  | .store n v =>
    let a ← reach s ctx p n
    return (0, (s.under (p.key s ctx) a n).storeNum true a n v.toNat)
  | .storePair lo hi =>
    let a ← reach s ctx p 16
    return (0, (s.under (p.key s ctx) a 16).storeNum true a 16 (lo.toNat + 2 ^ 64 * hi.toNat))
  | .storeWide v =>
    let a ← reach s ctx p 64
    return (0, (s.under (p.key s ctx) a 64).storeNum true a 64 v.toNat)
  | .sub b i v =>
    let a ← reach s ctx p 1
    let s := s.under (p.key s ctx) a 1
    return (0, s.storeNum true a 1 (replaceField b i (s.num a 1) v.toNat))
  | .atom op n v =>
    let a ← reach s ctx p n
    let s := s.under (p.key s ctx) a n
    let m := s.num a n
    return (m, s.storeNum false a n (op.apply (8 * n) m (v.toNat % 2 ^ (8 * n))))
  | .cas n old new =>
    let a ← reach s ctx p n
    let r := s.under (p.key s ctx) a n
    let m := r.num a n
    return (m, if m = old.toNat % 2 ^ (8 * n) then r.storeNum false a n new.toNat else s)
  | .take n consume =>
    let a ← reach s ctx p n
    return (s.num a n, if consume then s.setFull a false else s)
  | .storeFull n v =>
    let a ← reach s ctx p n
    return (0, (s.storeNum true a n v.toNat).fill ctx p.home a)
  | .setFull =>
    let a ← settle s p
    return (0, s.setFull a true)
  | .setEmpty =>
    let a ← settle s p
    return (0, s.setFull a false)
  | .testFull =>
    let a ← settle s p
    return ((s.isFull a).toNat, s)

/-! Waiters (R193) -/

/-- What a waiting strand is given, or the reply a waiting request gets (R160, R190). -/
def State.deliver (s : State) (u : Nat) (x : Waiter) (r : Except Cause Nat) : State :=
  let s := s.learnFrom x.sender.unit u x.dep
  let dep := s.heard (dieOf u) x.dep
  if x.blocks then
    s.modSlot x.sender.unit x.sender.slot fun sl =>
      if x.sender.names sl.st && sl.asked then
        { sl with st := { sl.st with dep := dep },
                  answer := some (match r with
                    | .ok v => .value (word v)
                    | .error c => .fault c x.request.addr 0) }
      else sl
  else
    s.post u x.sender.unit x.sender dep none (.reply x.id (match r with
      | .ok v => .word (word v)
      | .error c => .failure c x.request.addr x.sender.pc u))

/-- The place a waiter's request names again, with its home's format. -/
def Waiter.place (x : Waiter) (u : Nat) : Place :=
  ⟨u, x.request.place, some (x.request.place % 2 ^ 19), 0, false, false, false⟩

/-- The waiters of a list served in their order of arrival: each that finds its granule full is performed, or refused;
the others go on waiting (R193). One that takes the granule writes its bit, so that KNOW of the home's die takes what it
bears (R200, R207 rule 4). One that waits at V when its buffer is closed or freed is refused with BUF.STATE (DESIGN
CHOICE, log 84). -/
def serveList (u : Nat) : List Waiter → State → State
  | [], s => s
  | x :: xs, s =>
    let keep := s.modCore u fun c => { c with waiters := c.waiters ++ [x] }
    match settle s (x.place u) with
    | .error c => serveList u xs (s.deliver u x (.error c))
    | .ok a =>
      if s.isFull a then
        match performAt s x.sender.ctx (x.place u) x.request.op with
        | .ok (v, s) =>
          let s := if x.request.op.writes then s.learn (dieOf u) x.dep else s
          serveList u xs (s.deliver u x (.ok v))
        | .error c => serveList u xs (s.deliver u x (.error c))
      else serveList u xs keep

/-- The waiters of a core served after a granule of it has turned full or a buffer has changed sides. -/
def State.serve (s : State) (u : Nat) : State :=
  let ws := (s.core u).waiters
  match ws with
  | [] => s
  | _ => serveList u ws (s.modCore u fun c => { c with waiters := [] })

/-- Whether an access can set a granule full. -/
def MemOp.fills : MemOp → Bool
  | .storeFull _ _ => true
  | .setFull => true
  | _ => false

/-- An access performed for a bearer of a clock: KNOW of the home's die takes the clock (R207 rule 4), and waiters are
served when it fills a granule. -/
def performFor (s : State) (ctx : BitVec 12) (dep : Clock) (p : Place) (op : MemOp) : Except Cause (Nat × State) := do
  let (v, s) ← performAt s ctx p op
  let s := if op.writes then s.learn (dieOf p.home) dep else s
  return (v, if op.fills then s.serve p.home else s)

/-- Whether a full/empty load must wait at its home. -/
def mustWait (s : State) (p : Place) (op : MemOp) : Bool :=
  match op with
  | .take _ _ => match settle s p with | .ok a => !s.isFull a | .error _ => false
  | _ => false

/-- Full/empty requests that a home keeps (R193). -/
def waitersRoom : Nat := 16

/-- One granule written by a push at its home behind declared buffers, its bit set full, its frame tag stamped, and
waiters served (R185, R192, R196, R214, R235); or why the home refuses it. The full/empty bit belongs to the storage; a
frame tag goes with the frame of the address (R194 names the bits alone; DESIGN CHOICE, log 71). -/
def pushGranule (s : State) (ctx : BitVec 12) (dep : Clock) (p : Place) (bs : List Byte) (stamp : Option (BitVec 8)) :
    Except Cause State := do
  let a ← settleFill s p
  let _ ← if s.anyPoison a 16 then .error .memPoison else .ok ()
  let s := (s.store false a bs).fill ctx p.home a
  let s := match stamp with | some t => s.setTag p.place t | none => s
  return (s.learn (dieOf p.home) dep).serve p.home

end Sys2Proof.Machine
end

