-- ==== Sys2Proof/Machine/Mem.lean ====
section
/-! DEFINITION. How a strand's access is made: its tests, the waits of the order rules, and the way to its home (R183, R187 to R191, R206, R209 to R214, R220, R413); and the meanings of groups 4, 5 and the full/empty forms of group 6. -/

namespace Sys2Proof.Machine

/-! Addresses and scopes -/

/-- EA() of R60, after the source A is read. -/
def ea (s : State) : Except Stop (Nat × State) := do
  let (a, s) ← src s.ir.a s
  return ((a + s.ir.off.signExtend 64).toNat % 2 ^ 56, s)

/-- Whether a home lies in a scope of an issuer on unit `u` (R208; module and system hold every home: log 13). -/
def inScope (u home : Nat) (sc : Scope) : Bool :=
  match sc with
  | .core => home == u
  | .barn => if isCompute u then isCompute home && barnOf home == barnOf u else home == u
  | .yard =>
    if isCompute u then isCompute home && dieOf home == dieOf u
    else if isLoft u then isLoft home && dieOf home == dieOf u
    else home == u
  | .module => true
  | .system => true

/-- A memory form: its access, and the tests and orders it carries (R219, R226, R227). -/
structure MemForm where
  kind   : Access
  size   : Nat
  op     : MemOp
  /-- SCOPE.OUT is tested under SC. -/
  inSc   : Bool := false
  acq    : Bool := false
  rel    : Bool := false
  /-- A full/empty form: region H raises FE.ADDR. -/
  fe     : Bool := false

/-- Whether an access answers its strand; a store expects no reply (R190). -/
def MemOp.replies : MemOp → Bool
  | .load _ _ => true
  | .pair => true
  | .decode => true
  | .atom _ _ _ => true
  | .cas _ _ _ => true
  | .take _ _ => true
  | .testFull => true
  | _ => false

/-- A sub-byte store (R198). -/
def MemOp.isSub : MemOp → Bool
  | .sub _ _ _ => true
  | _ => false

/-- The tests of `ldd` on the format of its place: FMT.RAW, FMT.SLOT, and the element's alignment (R225). -/
def decodeTests (p : Place) (a : Nat) : Except Stop Unit :=
  match formatOf p.tag with
  | .raw => failAt .fmtRaw a
  | .b8 _ => if (slotOf p.tag p.inFrame).isNone then failAt .fmtSlot a else .ok ()
  | f => if a % f.size = 0 then .ok () else failAt .align a

/-- The tests of a form at issue, in their order: alignment, PF.HOLE with FE.ADDR beside it, SCHED.REG, PF.OWN,
translation, those of `ldd`, SCOPE.OUT (R183, R192, R208, R225). -/
def locateForm (s : State) (a : Nat) (f : MemForm) : Except Stop Place := do
  let _ ← if a % f.size = 0 then .ok () else failAt .align a
  let _ ← if f.fe && regionOf a == .h then failAt .feAddr a else .ok ()
  match locate s s.focusU s.st.ctx a f.kind with
  | .error c => failAt c a
  | .ok p =>
    let _ ← if f.op == .decode then decodeTests p a else .ok ()
    let _ ← if f.inSc && !inScope s.focusU p.home s.ir.sc then failAt .scopeOut a else .ok ()
    return p

/-! Results -/

/-- A result of a long load or blocking form: it is in its register before the strand's next issue, which comes once
every earlier result has landed and after a wait the manual does not bound; the strand waits for it (R30, R133, R160,
R187). -/
def landLong (regs : List (RegName × Word)) (s : State) : State :=
  let (n, s) := s.draw
  let t := Config.longLatency n + max (s.cyc + 1) s.me.settled
  regs.foldl (fun s r => s.fly (t - s.cyc) r.1 r.2)
    (s.modMe fun sl => { sl with readyAt := max sl.readyAt t, long := some ⟨sl.st.pc, regs.length, true, [], none⟩ })

/-- A long load that the strand waits for has not been performed as long as it waits: a budget trap takes it back, with
the queue entries it took in `s0` (R145). -/
def takeBack (s0 s : State) : State :=
  s.modMe fun sl => match sl.long with
    | some w => { sl with long := some { w with performed := false, taken := s0.here.qs.diff s.here.qs } }
    | none => sl

/-- A long access sent: its strand waits as for a long load, and when the wait is over its home performs it; a budget trap
before that gives back the queue entries it took in `s0` (R145, R187). -/
def sendLong (x : LongAccess) (s0 s : State) : State :=
  let (n, s) := s.draw
  let t := Config.longLatency n + max (s.cyc + 1) s.me.settled
  s.modMe fun sl =>
    { sl with readyAt := max sl.readyAt t, long := some ⟨sl.st.pc, 0, false, s0.here.qs.diff s.here.qs, some x⟩ }

/-- The strand's next issue comes after what it reads has come, and after every result in flight; it does not wait in
WAITING (R30, R237). -/
def State.linger (s : State) : State :=
  let (n, s) := s.draw
  s.modMe fun sl => { sl with readyAt := max sl.readyAt (Config.longLatency n + max (s.cyc + 1) sl.settled) }

/-- The result of a long load or blocking form written to a destination field; a full queue holds it (R44, R160). -/
def dstLong (o : Opd) (v : Word) (s : State) : Run :=
  if s.destRoom o then .ok (landLong ((destReg o).toList.map fun r => (r, v)) s) else .error .hold

/-- What the instruction in hand was given while it waited, or that it waits still; `first` performs it before it has
asked (R160, R193). -/
def served (s : State) (given : Word → State → Run) (first : State → Run) : Run :=
  match s.me.answer with
  | some .performed => .error (.block none)
  | some .done => given 0 s
  | some (.value v) => given v s
  | some (.fault c a d) => .error (.trap { cause := c, addr := a, detail := d, unit := some mgmtUnit })
  | none => if s.me.asked then .error (.block none) else first s

/-- The strand hears KNOW of its die when it has read (R207 rule 5). -/
def State.hear (s : State) : State := s.modSt fun st => { st with dep := s.heard (dieOf s.focusU) st.dep }

/-! Waits of the order rules -/

/-- Whether a request of the strand to a home, or a `{stay}` atomic of its to any, has no reply yet (R190, R413). -/
def Strand.asks (st : Strand) (home : Nat) (anyAtomic : Bool) : Bool :=
  st.asked.any fun x => x.home == home || (anyAtomic && x.writes)

/-- An access that is performed at issue or as a long load waits at issue for earlier accesses of its strand: a read for
those to its home, a write for every write too (R413, R414). -/
def State.early (s : State) (home : Nat) (writes : Bool) : Bool :=
  s.st.asks home writes || s.st.writes.any fun w => writes || w.home == home

/-- Whether the strand has nothing left to wait for of its earlier accesses in a scope and, under `all`, of its earlier
writes and `{stay}` atomics anywhere (R206, R210, R211, R413). -/
def State.settledIn (s : State) (sc : Scope) (all : Bool) : Bool :=
  !(s.st.writes.any fun w => all || inScope s.focusU w.home sc) &&
    !(s.st.asked.any fun x => (all && x.writes) || inScope s.focusU x.home sc)

/-- The earliest of refused writes in program order (R213). -/
def earliest : List Refused → Option Refused
  | [] => none
  | r :: rs =>
    match earliest rs with
    | some q => if q.id < r.id then some q else some r
    | none => some r

/-- STORE.REFUSED for the earliest of some refused writes (R213, R357). -/
def refusedTrap (r : Refused) : Trap :=
  { cause := r.cause, flags := { refused := true }, addr := r.addr, msgId := some r.pc }

/-- STORE.REFUSED when one of the refused writes that `mine` picks is not yet reported: it names the earliest, each of
them is reported no more, and nothing else of the instruction stands (R213). -/
def refusedNow (s : State) (mine : Refused → Bool) : Except Stop Unit :=
  match earliest (s.st.refused.filter mine) with
  | none => .ok ()
  | some r =>
    .error (.trap (refusedTrap r)
      (some (s.modSt fun st => { st with refused := st.refused.filter fun x => !mine x })))

/-- A fence that waits: it blocks until the earlier accesses in its scope are performed, and under `all` every earlier
write; when a write of the scope was refused it raises STORE.REFUSED (R211, R213, R413). -/
def fenceWaits (s : State) (sc : Scope) (all : Bool) : Except Stop Unit :=
  if s.settledIn sc all then refusedNow s fun r => inScope s.focusU r.home sc else .error (.block none)

/-- A release: it blocks until every earlier write of its strand is acknowledged and every earlier read of its scope has
been answered, and raises STORE.REFUSED for any refused write; `s` is the state before its sources were read (R206, R210,
R213, R413). -/
def releaseWait (s : State) (sc : Scope) : Except Stop Unit :=
  if s.settledIn sc true then refusedNow s fun _ => true else .error (.block none)

/-! Migration (R98, R149, R158, R189, R253, R354) -/

/-- Whether a member of a group may go to a unit: compute cores of the group's yard, and loft cores (R149). -/
def State.memberMay (s : State) (u : Nat) : Bool :=
  match s.st.member, s.launch s.st.launch with
  | some _, some x =>
    match x.group with
    | some g => isLoft u || (isCompute u && dieOf u == g.yard)
    | none => true
  | _, _ => true

/-- Forwarding entries a core holds (R158). -/
def forwardsRoom : Nat := 64

/-- A strand put on its way to another core, leaving a forwarding entry; its slot becomes EMPTY. Unread entries of q0
to q6 are discarded, those of q7 travel (R158, R189, R253). -/
def State.sendMigrant (s : State) (u k dest : Nat) : State :=
  let s := s.modCore u fun c => c.landAll k
  let st := (s.slot u k).st
  let q7 := ((s.core u).qs.filter fun e => e.slot == k && e.q == 7).map (·.val)
  let dropped := ((s.core u).qs.filter fun e => e.slot == k && e.q != 7).length
  let s := (s.count u st.ctx 0x08 dropped).count u st.ctx 0x07 1
  let s := s.modCore u fun c =>
    { c with qs := c.qs.filter fun e => e.slot != k,
             forwards := (c.forwards.filter fun f => !f.isOf st) ++
               [⟨st.strid, st.launch, st.member.isSome, dest, c.cyc⟩],
             turns := c.turns + 1 }
  let s := s.postPlain u k dest (.migrant st q7)
  (s.setSlot u k Slot.reset).modCore u fun c => c.passTurn k

/-- The strand in focus migrates to a home: HND.MIG, GUARD.MIG and GROUP.YARD first, then a wait for its earlier writes,
requests and commands and for a free forwarding entry (R98, R149, R158, R189, R206, R253, R354). No rule orders HND.MIG
and GUARD.MIG: DESIGN CHOICE, log 72. -/
def migrate (s : State) (home : Nat) : Run := do
  let _ ← failIf (s.me.mode == .handler) .hndMig
  let _ ← failIf ((List.finRange 8).any fun i => s.st.guard i == .p) .guardMig
  let _ ← failIf (!s.memberMay home) .groupYard
  let free := s.here.forwards.length < forwardsRoom ||
    s.here.forwards.any fun f => f.isOf s.st
  if s.mayEnd s.focusU s.focusK && free then .ok (s.sendMigrant s.focusU s.focusK home)
  else .error (.block none)

/-! The way to the home (R187, R190, R220) -/

/-- How an access reaches its home. -/
inductive Route where | near | home | away | ask
  deriving DecidableEq, Repr

/-- The route of an access: through L in the core; as a long load at a core of the barn, or at the strand's own core;
by migration; or by request under STAY (R187, R220). -/
def routeOf (s : State) (p : Place) : Route :=
  let u := s.focusU
  if s.ir.hd.stay then .ask
  else if p.near then .near
  else if p.home == u || (isCompute u && isCompute p.home && p.off.isSome && barnOf p.home == barnOf u) then .home
  else .away

/-- A write message of the strand in focus, which counts as outstanding until it is acknowledged (R206). -/
def State.sendWrite (s : State) (home : Nat) (a : Word) (loft : Bool) (b : Payload) : State :=
  let id := s.nextId
  (s.postWrite s.focusU s.focusK home b).modSt fun st =>
    { st with writes := st.writes ++ [⟨id, loft, home, a, st.pc⟩] }

/-- A request of the strand in focus that expects a reply in q7: at most 8 of a core are outstanding (R190). -/
def sendRequest (f : MemForm) (p : Place) (a : Nat) (s : State) : Run :=
  if 8 ≤ s.here.pending then .error .hold
  else
    let id := s.nextId
    let r : Request := ⟨f.op, BitVec.ofNat 64 a, p.place, true⟩
    let s := if f.op.writes then s.postWrite s.focusU s.focusK p.home (.request r)
      else s.postPlain s.focusU s.focusK p.home (.request r)
    let s := s.modCore s.focusU fun c => { c with pending := c.pending + 1 }
    .ok (s.modMe fun sl =>
      { sl with st := { sl.st with asked := sl.st.asked ++ [⟨id, p.home, f.kind == .atomic⟩] },
                acquires := if f.acq then sl.acquires ++ [id] else sl.acquires })

/-- A write that its home refused is reported and remembered for a later release; the strand goes on (R190, R191,
R213). -/
def State.refuse (s : State) (id : Nat) (u : Nat) (w : Sender) (home : Nat) (a : Word) (c : Cause) : State :=
  let s := report s u w { cause := c, addr := a }
  s.modSlot w.unit w.slot fun sl =>
    if w.names sl.st then { sl with st := { sl.st with refused := sl.st.refused ++ [⟨id, home, a, w.pc, c⟩] } } else sl

/-- An access performed while the strand stands at it: through L at issue, else a read made as a long load. A store that
its home finds poisoned is reported and the strand goes on; every other refusal is precise (R191, R196, R223). -/
def accessNow (f : MemForm) (p : Place) (a : Nat) (put : Bool → Nat → State → Run) (s : State) : Run :=
  if s.early p.home f.op.writes then .error .hold
  else
    match performFor s s.st.ctx s.st.dep p f.op with
    | .ok (v, s) => put (!p.near) v (if f.op.replies then s.hear else s)
    | .error c =>
      if !f.op.replies && c == .memPoison then
        .ok ({ s with nextId := s.nextId + 1 }.refuse s.nextId p.home s.self p.home (BitVec.ofNat 64 a) c)
      else failThere s p.home c a

/-- A store sent to its home; the strand does not wait. What the home refuses on arrival is reported; a closed buffer
or a missing key found at issue is precise, but a buffer closed to a request under STAY or to a sub-byte store is for the
home to find (R183, R190, R196, R198, R223; log 15). -/
def accessSend (f : MemForm) (p : Place) (a : Nat) (s : State) : Run := do
  let _ ← if noKey s s.st.ctx p then failAt .memNokey a else .ok ()
  let _ ← if s.ir.hd.stay || f.op.isSub then .ok ()
    else match settle s p with | .ok _ => .ok () | .error c => failThere s p.home c a
  if s.st.asked.any fun x => x.writes && x.home != p.home then .error .hold
  else
    let r : Request := ⟨f.op, BitVec.ofNat 64 a, p.place, false⟩
    .ok (s.sendWrite p.home (BitVec.ofNat 64 a) false (if f.op.isSub then .subbyte r else .request r))

/-- Whether a store at a home in reach is sent and leaves its strand free: one to local memory is, and one to HBM is
performed as a long load (R189, R223, R231). -/
def sends (f : MemForm) (p : Place) : Bool := !f.op.replies && p.off.isSome

/-- An access sent to a home in reach, which performs it when the strand's wait is over (R145, R187, R230). -/
def accessLong (f : MemForm) (p : Place) (a : Nat) (s0 s : State) : Run :=
  if s.early p.home f.op.writes || (f.op.replies && !s.destRoom s.ir.d) then .error .hold
  else
    let regs := if f.op.replies then (destReg s.ir.d).toList else []
    .ok (sendLong ⟨.mem f.op regs, BitVec.ofNat 64 a, p⟩ s0 s)

/-- A read alone, which is made at issue, and which a budget trap takes back while its strand waits for it (R145). -/
def MemOp.plain : MemOp → Bool
  | .load _ _ => true
  | .pair => true
  | .decode => true
  | .testFull => true
  | _ => false

/-- A memory form of the strand in focus (R220): `more` are the source fields beside A, `build` reads what it stores and
gives the form, `put` takes its result, with whether it comes as a long load's. A form that goes abroad is tested through
translation only, so MEM.NOKEY is found where it arrives (R189; log 73). -/
def memory (s : State) (more : List Opd) (build : State → Except Stop (MemForm × State))
    (put : Bool → Nat → State → Run) : Host.Outcome State Fault Refusal :=
  perform s fun s0 => do
    let done := fun (r : Run) => do let t ← r; return t.advance.finish
    let _ ← if s0.me.acquires.isEmpty then .ok () else .error .hold
    let _ ← whole (s0.ir.a :: more) s0
    let (a, s) ← ea s0
    let (f, s) ← build s
    let p ← locateForm s a f
    let _ ← if f.rel then releaseWait s0 s.ir.sc else .ok ()
    if f.op.isSub then done (if p.near then accessNow f p a put s else accessSend f p a s)
    else
      match routeOf s p with
      | .near => done (if f.op.takes then accessLong f p a s0 s else accessNow f p a put s)
      | .home =>
        if sends f p then done (accessSend f p a s)
        else if f.op.plain then do
          let t ← accessNow f p a put s
          return (takeBack s0 t).advance.finish
        else done (accessLong f p a s0 s)
      | .away => migrate s0 p.home
      | .ask =>
        if f.op.replies then
          let _ ← if noKey s s.st.ctx p then failAt .memNokey a else .ok ()
          done (sendRequest f p a s)
        else done (accessSend f p a s)

/-! Loads and stores (R221 to R226) -/

/-- LoadDst of R220: at the latency of R29 through L, else as a long load. -/
def loadDst (lat : Nat) (long : Bool) (v : Nat) (s : State) : Run :=
  if long then dstLong s.ir.d (word v) s else dst s.ir.d lat (word v) s

/-- A store has no result. -/
def noResult (_ : Bool) (_ : Nat) (s : State) : Run := .ok s

/-- Bytes of a width suffix. -/
def widthBytes : Width → Nat | .w64 => 8 | .w32 => 4 | .w16 => 2 | .w8 => 1
/-- Bytes of a width suffix. -/
def wideBytes : Wide → Nat | .w64 => 8 | .w32 => 4
/-- Bytes of a width suffix. -/
def narrowBytes : Narrow → Nat | .w32 => 4 | .w16 => 2 | .w8 => 1

/-- A form that reads nothing but A. -/
def form (f : MemForm) (s : State) : Except Stop (MemForm × State) := .ok (f, s)

/-- A form that stores from D. -/
def formD (f : Word → MemForm) (s : State) : Except Stop (MemForm × State) := do
  let (v, s) ← src s.ir.d s
  return (f v, s)

/-- The even register of a pair and the one after it (R222, R228). -/
def pairOf (s : State) : Word × Word :=
  match s.ir.d with
  | .x i => (s.st.x[i], s.st.x[i + 1])
  | _ => (0, 0)

/-- R221: zero-extended. -/
def execLd (w : Width) (s : State) :=
  memory s [] (form { kind := .load, size := widthBytes w, op := .load (widthBytes w) false }) (loadDst 3)
/-- R221: sign-extended. -/
def execLds (w : Narrow) (s : State) :=
  memory s [] (form { kind := .load, size := narrowBytes w, op := .load (narrowBytes w) true }) (loadDst 3)

/-- A granule written to a register pair; both land together (R222). -/
def loadPair (long : Bool) (v : Nat) (s : State) : Run :=
  match s.ir.d with
  | .x i =>
    let lo := (RegName.x i, word (v % 2 ^ 64))
    let hi := (RegName.x (i + 1), word (v / 2 ^ 64))
    .ok (if long then landLong [lo, hi] s else (s.fly 3 lo.1 lo.2).fly 3 hi.1 hi.2)
  | _ => .ok s

/-- R222. -/
def execLdp128 (s : State) := memory s [] (form { kind := .load, size := 16, op := .pair }) loadPair
/-- R222. -/
def execStp128 (s : State) :=
  memory s [] (fun s => .ok ({ kind := .store, size := 16, op := .storePair (pairOf s).1 (pairOf s).2 }, s)) noResult
/-- R223. -/
def execSt (w : Width) (s : State) :=
  memory s [s.ir.d] (formD fun v => { kind := .store, size := widthBytes w, op := .store (widthBytes w) v }) noResult
/-- R224: bit 8 of the source names the half of the byte. -/
def execSt4 (s : State) :=
  memory s [s.ir.d] (formD fun v => { kind := .store, size := 1, op := .sub 4 (bits v.toNat 8 8) v }) noResult
/-- R224: bits 9:8 of the source name the quarter of the byte. -/
def execSt2 (s : State) :=
  memory s [s.ir.d] (formD fun v => { kind := .store, size := 1, op := .sub 2 (bits v.toNat 9 8) v }) noResult
/-- R225: latency 6 through L. -/
def execLdd (s : State) := memory s [] (form { kind := .load, size := 1, op := .decode }) (loadDst 6)
/-- R226. -/
def execLdAcq (w : Wide) (s : State) :=
  memory s [] (form { kind := .load, size := wideBytes w, op := .load (wideBytes w) false, inSc := true, acq := true })
    (loadDst 3)
/-- R226. -/
def execStRel (w : Wide) (s : State) :=
  memory s [s.ir.d] (formD fun v =>
    { kind := .store, size := wideBytes w, op := .store (wideBytes w) v, inSc := true, rel := true }) noResult

/-! Atomics (R227, R228) -/

/-- Whether an ord code acquires. -/
def ordAcquires : Ord → Bool | .acq => true | .ar => true | _ => false
/-- Whether an ord code releases. -/
def ordReleases : Ord → Bool | .rel => true | .ar => true | _ => false

/-- An atomic with its operand in D, which takes the old value (R227). -/
def atomic (s : State) (op : AtomOp) (n : Nat) (od : Ord) : Host.Outcome State Fault Refusal :=
  memory s [s.ir.d] (formD fun v =>
    { kind := .atomic, size := n, op := .atom op n v, inSc := true, acq := ordAcquires od, rel := ordReleases od })
    (loadDst 3)

/-- R227. -/
def execAmadd (w : Wide) (od : Ord) (s : State) := atomic s .add (wideBytes w) od
/-- R227. -/
def execAmin (sg : Sgn) (od : Ord) (s : State) := atomic s (.min sg) 8 od
/-- R227. -/
def execAmax (sg : Sgn) (od : Ord) (s : State) := atomic s (.max sg) 8 od
/-- R227. -/
def execAand (od : Ord) (s : State) := atomic s .and 8 od
/-- R227. -/
def execAor (od : Ord) (s : State) := atomic s .or 8 od
/-- R227. -/
def execAxor (od : Ord) (s : State) := atomic s .xor 8 od
/-- R227. -/
def execAswap (od : Ord) (s : State) := atomic s .swap 8 od
/-- R228: compares with x(d), writes x(d+1). -/
def execAcas (w : Wide) (od : Ord) (s : State) :=
  memory s [] (fun s =>
    let p := pairOf s
    .ok ({ kind := .atomic, size := wideBytes w, op := .cas (wideBytes w) p.1 p.2, inSc := true,
           acq := ordAcquires od, rel := ordReleases od }, s)) (loadDst 3)

/-! Fences (R211, R212, R229) -/

/-- The scope a fence's A immediate names (R229). -/
def fenceScope (s : State) : Scope :=
  match s.ir.a with
  | .imm c => (Scope.ofCode c.toNat).getD .system
  | _ => .system

/-- R211: requests outstanding in the scope order later accesses as acquires do; the strand does not wait. -/
def execFenceAcq (s : State) := performSeq s fun s =>
  let ids := (s.st.asked.filter fun x => inScope s.focusU x.home (fenceScope s)).map (·.id)
  .ok (s.modMe fun sl => { sl with acquires := sl.acquires ++ ids })

/-- A fence that waits for the strand's earlier accesses in its scope (R211, R213). -/
def fenceWait (s : State) : Host.Outcome State Fault Refusal :=
  performSeq s fun s => do
    let _ ← fenceWaits s (fenceScope s) false
    return s

/-- R211. -/
def execFenceRel (s : State) := fenceWait s
/-- R211. -/
def execFence (s : State) := fenceWait s
/-- Whether the link that the static route to a device takes is up (R397). -/
def State.linkTo (s : State) (d : Nat) : Bool :=
  (kget s.hub.routes d).any fun l => (s.hub.links.getD l ⟨false, 0⟩).up

/-- Whether the hub that sequences a total fence can be reached: for system scope that of the lowest device number of the
linked group (R397). -/
def sequencerUp (s : State) : Bool :=
  fenceScope s != .system ||
    match (s.hub.routes.filter fun r => r.1 < s.hub.device.toNat).map (·.1) with
    | [] => true
    | d :: ds => s.linkTo (ds.foldl min d)

/-- R212: as `fence`, and then a place in its scope instance's sequence, which is the order of the model's steps. What is
before it is causally before every later fence of the instance, so it waits for its strand's writes of every scope
(R203, R204, R206; DEDUCED, log 89). -/
def execFenceTotal (s : State) := performSeq s fun s => do
  let _ ← fenceWaits s (fenceScope s) true
  if sequencerUp s then return landLong [] s else .error (.block none)

/-! Full/empty forms (R230, R231) -/

/-- R230: reads a full granule and empties it; a long access in every region. -/
def execLdfC (w : Wide) (s : State) :=
  memory s [] (form { kind := .load, size := wideBytes w, op := .take (wideBytes w) true, fe := true }) (loadDst 3)
/-- R230: reads a full granule and leaves it full. -/
def execLdfK (w : Wide) (s : State) :=
  memory s [] (form { kind := .load, size := wideBytes w, op := .take (wideBytes w) false, fe := true }) (loadDst 3)
/-- R231. -/
def execStf (w : Wide) (s : State) :=
  memory s [s.ir.d] (formD fun v => { kind := .store, size := wideBytes w, op := .storeFull (wideBytes w) v, fe := true }) noResult
/-- R231. -/
def execSetf (s : State) := memory s [] (form { kind := .store, size := 16, op := .setFull, fe := true }) noResult
/-- R231. -/
def execSete (s : State) := memory s [] (form { kind := .store, size := 16, op := .setEmpty, fe := true }) noResult
/-- R231. -/
def execTfe (s : State) := memory s [] (form { kind := .load, size := 16, op := .testFull, fe := true }) (loadDst 3)

/-! Arrivals -/

/-- The kind of access of an operation. -/
def MemOp.access : MemOp → Access
  | .atom _ _ _ => .atomic
  | .cas _ _ _ => .atomic
  | op => if op.replies then .load else .store

/-- The place of a request at its home: translated again, by an old entry or the new one while a change of the page tables
has not completed; a mapping that a shootdown has changed since the request left makes it fail (R184, R190; log 16). The
element of an `ldd` is aligned by the frame tag that stands at the home (R185, R225). -/
def requestPlace (s : State) (m : Msg) (r : Request) : Except Cause Place :=
  match locate s m.src m.sender.ctx r.addr.toNat r.op.access with
  | .error c => .error c
  | .ok p =>
    if p.place ≠ r.place then .error .pfNone
    else if r.op = .decode ∧ r.addr.toNat % (formatOf p.tag).size ≠ 0 then .error .align
    else .ok p

/-- A request or store performed at its home, or refused there: the reply, failure entry, acknowledgement or record that
follows (R190, R198, R206). -/
def arrive (s : State) (m : Msg) (r : Request) : State :=
  let res : Except Cause (Nat × State) := match requestPlace s m r with
    | .error c => .error c
    | .ok p => performFor s m.sender.ctx m.dep p r.op
  match res with
  | .ok (v, s) =>
    let s := s.learnFrom m.src m.dst m.dep
    let back := s.heard (dieOf m.dst) m.dep
    if r.reply then s.post m.dst m.src m.sender back none (.reply m.id (.word (word v)))
    else s.post m.dst m.src m.sender back none (.ack m.id r.addr m.sender.pc m.dst none)
  | .error c =>
    let s := s.learnFrom m.src m.dst m.dep
    let back := s.heard (dieOf m.dst) m.dep
    if r.reply then s.post m.dst m.src m.sender back none (.reply m.id (.failure c r.addr m.sender.pc m.dst))
    else
      (report s m.dst m.sender { cause := c, addr := r.addr }).post m.dst m.src m.sender back none
        (.ack m.id r.addr m.sender.pc m.dst (some c))

/-- A request that expects a reply is outstanding no more on the core that sent it (R190). -/
def State.answered (s : State) (u : Nat) : State := s.modCore u fun c => { c with pending := c.pending - 1 }

/-- A request message handled: kept among the waiters of its home when its granule is empty, else performed; one of a
killed launch that would wait or only read is dropped (R193, R364, R368). -/
def handleRequest (s : State) (i : Nat) (m : Msg) (r : Request) : State :=
  let wait := match requestPlace s m r with | .ok p => mustWait s p r.op | .error _ => false
  if s.launchKilled m.sender.launch && (wait || !r.op.writes) then
    if r.reply then (s.unpost i).answered m.src else s.unpost i
  else
    if wait then
      if (s.core m.dst).waiters.length < waitersRoom then
        (s.unpost i).modCore m.dst fun c =>
          { c with waiters := c.waiters ++ [⟨r, m.sender, m.id, m.dep, false⟩] }
      else s
    else arrive (s.unpost i) m r

/-- R190: a request or barn store at its home. -/
def execStayRequestAtHome (s : State) : Host.Outcome State Fault Refusal :=
  match s.ev with
  | some (.stayRequestAtHome i) =>
    match s.arriving i with
    | some m => match m.body with | .request r => .next (handleRequest s i m r) | _ => .next s
    | none => .next s
  | _ => .next s

/-- R198: a sub-byte store at its home. -/
def execSubbyteStoreAtHome (s : State) : Host.Outcome State Fault Refusal :=
  match s.ev with
  | some (.subbyteStoreAtHome i) =>
    match s.arriving i with
    | some m => match m.body with | .subbyte r => .next (handleRequest s i m r) | _ => .next s
    | none => .next s
  | _ => .next s

/-- R206, R213: an acknowledgement reaches its strand; a refusal is remembered for the strand's next release. -/
def execWriteAcknowledgement (s : State) : Host.Outcome State Fault Refusal :=
  match s.ev with
  | some (.writeAcknowledgement i) =>
    match s.arriving i with
    | some m =>
      match m.body with
      | .ack id a pc home refusal =>
        .next <| (s.unpost i).modSlot m.sender.unit m.sender.slot fun sl =>
          if m.sender.names sl.st then
            let loft := sl.st.writes.any fun w => w.id == id && w.loft
            { sl with st := { sl.st with
                writes := sl.st.writes.filter fun w => w.id != id,
                hfRefused := if loft && refusal.isSome && sl.st.hfRefused != BitVec.allOnes 32 then sl.st.hfRefused + 1
                  else sl.st.hfRefused,
                refused := match refusal with
                  | some c => sl.st.refused ++ [⟨id, home, a, pc, c⟩]
                  | none => sl.st.refused } }
          else sl
      | _ => .next s
    | none => .next s
  | _ => .next s

/-- Entries of the overflow store (R157). -/
def overflowRoom : Nat := 64

/-- A reply whose strand is not on the core and has no forwarding entry: it is parked and reported as an ORPHAN; with the
store full it is dropped and counted in the next record; either counts as an orphan (R157, R158, R357, R403). Its message
identifier is the number of its request (DESIGN CHOICE, log 74). -/
def orphan (s : State) (u : Nat) (w : Sender) (id : Nat) (v : QVal) : State :=
  if !s.launchLive w.launch then s
  else if (s.core u).overflow.length < overflowRoom then
    let lost := (s.core u).orphansLost
    let s := (s.modCore u fun c =>
      { c with overflow := c.overflow ++ [.reply w (word id) v], orphansLost := 0 }).count u w.ctx 0x0D 1
    report s u w { cause := .orphan, detail := lost, pc := some 0, msgId := some (word id) }
  else (s.modCore u fun c => { c with orphansLost := c.orphansLost + 1 }).count u w.ctx 0x0D 1

/-- A reply put in q7 of the slot that holds its strand (R190). -/
def Core.putReply (c : Core) (k id : Nat) (v : QVal) (dep : Clock) : Core :=
  let sl := c.slot k
  (c.setSlot k
    { sl with acquires := sl.acquires.filter (· != id),
              st := { sl.st with asked := sl.st.asked.filter fun x => x.id != id, dep := Clock.join sl.st.dep dep } }).enqueue
    7 k v

/-- The slot of a core that holds a strand. -/
def Core.slotOf (c : Core) (w : Sender) : Option Nat :=
  (List.range c.slots.length).find? fun k => (c.slot k).live && w.names (c.slot k).st

/-- A reply taken from the fabric: at the core that sent its request it is outstanding no more (R190). -/
def State.replied (s : State) (i : Nat) (m : Msg) : State :=
  if m.dst = m.sender.unit then (s.unpost i).answered m.dst else s.unpost i

/-- R158, R190: a reply reaches its strand's core: into q7 behind the replies of earlier requests, along a forwarding
entry, or an orphan. -/
def execReplyArrival (s : State) : Host.Outcome State Fault Refusal :=
  match s.ev with
  | some (.replyArrival i) =>
    match s.arriving i with
    | some m =>
      match m.body with
      | .reply id v =>
        let c := s.core m.dst
        match c.slotOf m.sender with
        | some k =>
          if ((c.slot k).st.asked.head?.any fun x => x.id == id) && c.qlen 7 < qdepth 7 then
            .next ((s.replied i m).modCore m.dst fun c => c.putReply k id v m.dep)
          else .next s
        | none =>
          match c.forwards.find? fun f => f.isFor m.sender with
          | some f =>
            let s := (s.replied i m).modCore m.dst fun c =>
              { c with forwards := c.forwards.map fun g => if g == f then { g with lastUse := c.cyc } else g }
            .next (s.post m.dst f.dest m.sender m.dep none (.reply id v))
          | none => .next (orphan (s.replied i m) m.dst m.sender id v)
      | _ => .next s
    | none => .next s
  | _ => .next s

/-- R158: a forwarding entry that nothing has used for 65,536 cycles lapses. -/
def execForwardingEntryLapse (s : State) : Host.Outcome State Fault Refusal :=
  match s.ev with
  | some (.forwardingEntryLapse u i) =>
    match (s.core u).forwards[i]? with
    | some f =>
      if f.lastUse + 65536 ≤ (s.core u).cyc then
        .next (s.modCore u fun c => { c with forwards := c.forwards.eraseIdx i })
      else .next s
    | none => .next s
  | _ => .next s

/-- A migrant of a launch that is no longer LIVE ends: its serial is given back and its sessions close (R129, R297,
R364). -/
def State.dropMigrant (s : State) (u : Nat) (st : Strand) : State :=
  (s.freeNumber u 0 st.numbered).closeSessions st

/-- Entries of the inbound strand queue (R138). -/
def inboundRoom : Nat := 8

/-- Whether the inbound strand queue takes one more: it has an entry free, and the core accepts queued tasks (R137,
R138). -/
def Core.takesInbound (c : Core) : Bool := c.inbound.length < inboundRoom && c.hasRoom

/-- R189: a migrant, or a member of a group that waits for an entry, enters the inbound strand queue of its core; one of a
killed launch is dropped (R149, R364). -/
def execMigrantArrival (s : State) : Host.Outcome State Fault Refusal :=
  match s.ev with
  | some (.migrantArrival i) =>
    match s.arriving i with
    | some m =>
      match m.body with
      | .migrant st q7 =>
        if !s.launchLive st.launch then .next ((s.unpost i).dropMigrant m.dst st)
        else if (s.core m.dst).takesInbound then
          .next (((s.unpost i).learnFrom m.src m.dst m.dep).modCore m.dst fun c =>
            { c with inbound := c.inbound ++ [.migrant st q7] })
        else .next s
      | .member x =>
        if !s.launchLive m.sender.launch then .next (s.unpost i)
        else if (s.core m.dst).takesInbound then
          .next (((s.unpost i).learnFrom m.src m.dst m.dep).modCore m.dst fun c => { c with inbound := c.inbound ++ [x] })
        else .next s
      | _ => .next s
    | none => .next s
  | _ => .next s

end Sys2Proof.Machine
end

