-- ==== Sys2Proof/Machine/Buffer.lean ====
section
/-! DEFINITION. The declared-buffer forms of group 6 (R194 to R197, R232 to R234). -/

namespace Sys2Proof.Machine

/-- The end of the storage a buffer may take: the scheduler region's start (R194, R233). -/
def bufEnd : Nat := schedBase

/-- The home and local offset that the address of a buffer form names: PF.HOLE, SCHED.REG and PF.OWN are tested first,
and region H raises BUF.STATE (R232). -/
def bufferPlace (s : State) (a : Nat) : Except Stop (Nat × Nat) :=
  if regionOf a == .h then failAt .bufState a
  else
    match locate s s.focusU s.st.ctx a .load with
    | .error c => failAt c a
    | .ok p => .ok (p.home, p.off.getD 0)

/-- A buffer form of the strand in focus: `act` acts at the address Src(A), its home and offset, in one step there (R160,
R232). Bits 63:56 of Src(A) are not read (DESIGN CHOICE, log 92; `bdecl` likewise). -/
def bufferForm (s : State) (writes : Bool) (act : Nat → Nat → Nat → State → Run) : Host.Outcome State Fault Refusal :=
  performSeq s fun s => do
    let _ ← if s.me.acquires.isEmpty then .ok () else .error .hold
    let (a, s) ← src s.ir.a s
    let a := a.toNat % 2 ^ 56
    let (u, off) ← bufferPlace s a
    let _ ← if s.early u writes then .error .hold else .ok ()
    let _ ← if s.crossing s.focusU s.focusK u then .error (.block none) else .ok ()
    act a u off s

/-- Whether two ranges of bytes meet. -/
def overlaps (a n b m : Nat) : Bool := a < b + m && b < a + n

/-- Whether a declaration is refused (R194, R233). -/
def declBad (c : Core) (base size : Nat) : Bool :=
  base % 16 != 0 || size % 16 != 0 || size < 16 || 0x2D800 < size || bufEnd < base + 2 * size ||
  c.bufs.toList.any fun d => Buf.decl d && overlaps base (2 * size) (Buf.base d) (2 * Buf.size d)

/-- The lowest free descriptor of a core. -/
def Core.freeBuf (c : Core) : Option (Fin 16) := (List.finRange 16).find? fun i => !Buf.decl c.bufs[i]

/-- A descriptor of a core replaced. -/
def Core.setBuf (c : Core) (i : Fin 16) (d : Word) : Core := { c with bufs := c.bufs.set i d }

/-- A buffer of a core declared in its lowest free descriptor, and the descriptor's number; none when it is refused
(R233). -/
def Core.declare (c : Core) (base size : Nat) : Option (Fin 16 × Core) :=
  if declBad c base size then none
  else c.freeBuf.map fun i => (i, c.setBuf i (Buf.make 0 false true 0 size base))

/-- R233: a buffer declared at the home of Src(A), BASE its offset, SIZE Src(B). -/
def execBdecl (s : State) := performSeq s fun s => do
  let _ ← if s.me.acquires.isEmpty then .ok () else .error .hold
  let (a, b, s) ← srcAB s
  let (u, off) ← bufferPlace s (a.toNat % 2 ^ 56)
  let _ ← if s.early u false then .error .hold else .ok ()
  let _ ← if s.crossing s.focusU s.focusK u then .error (.block none) else .ok ()
  match (s.core u).declare off b.toNat with
  | none => failThere s u .bufDecl (a.toNat % 2 ^ 56)
  | some (i, c) => dstLong s.ir.d (word i.val) (s.setCore u c)

/-- R234: the descriptor word as one read at the home; 0 in no declared buffer. The strand hears KNOW of the home's die
(R207 rule 5). -/
def execBstat (s : State) := bufferForm s false fun _ u off s =>
  let c := s.core u
  dstLong s.ir.d (match c.bufAt off with | some i => c.bufs[i] | none => 0) (s.stepRead s.focusU s.focusK u)

/-- The table of R196 for the four events: the new descriptor, or BUF.STATE. -/
def bufferEvent (s : State) (writes : Bool) (wait : Nat → Fin 16 → State → Bool) (f : Word → Option Word) :
    Host.Outcome State Fault Refusal :=
  bufferForm s writes fun a u off s =>
    let c := s.core u
    match c.bufAt off with
    | none => failThere s u .bufState a
    | some i =>
      match f c.bufs[i] with
      | none => failThere s u .bufState a
      | some d =>
        if wait u i s then .error (.block none)
        else
          let s := s.setCore u (c.setBuf i d)
          let s := if writes then s.stepWrite s.focusU s.focusK u else s
          .ok (landLong [] (s.serve u))

/-- A descriptor with another STATE. -/
def Buf.become (d : Word) (state : Nat) : Word :=
  Buf.make state (Buf.sel d) (Buf.decl d) (Buf.pubs d) (Buf.size d) (Buf.base d)

/-- Nothing to wait for. -/
def noWait (_ : Nat) (_ : Fin 16) (_ : State) : Bool := false

/-- Whether a copy command registered with the buffer has not completed (R196, R282). -/
def copying (u : Nat) (i : Fin 16) (s : State) : Bool :=
  s.cores.any fun c => c.2.cmds.any fun x => x.buffer == some (u, i)

/-- R196, R234: EMPTY to FILLING, FULL to DRAINING. -/
def execBfill (s : State) := bufferEvent s false noWait fun d =>
  if Buf.state d = 0 then some (Buf.become d 1) else if Buf.state d = 2 then some (Buf.become d 3) else none

/-- R196, R197, R215, R234: FILLING or DRAINING to FULL; SEL changes sides and PUBS counts, once every accepted write
to S has been performed. -/
def execBpub (s : State) := bufferEvent s true copying fun d =>
  if Buf.filling d then
    some (Buf.make 2 (!Buf.sel d) (Buf.decl d) (Buf.pubs d + 1) (Buf.size d) (Buf.base d))
  else none

/-- R196, R234: FULL to EMPTY, DRAINING to FILLING. -/
def execBdrain (s : State) := bufferEvent s false noWait fun d =>
  if Buf.state d = 2 then some (Buf.become d 0) else if Buf.state d = 3 then some (Buf.become d 1) else none

/-- R196, R234: EMPTY or FULL to undeclared. -/
def execBfree (s : State) := bufferEvent s false noWait fun d =>
  if Buf.state d = 0 || Buf.state d = 2 then some 0 else none

end Sys2Proof.Machine
end

