-- ==== Sys2Proof/Machine/Loft.lean ====
section
/-! DEFINITION. The loft-profile forms of group F and the writing of pushed granules (R235 to R242). -/

namespace Sys2Proof.Machine

/-- The bytes of a run of local memory read by a form: BUF.STATE, then MEM.POISON, at the first address that fails; `a` is
the address the run's first byte has for the program. -/
def readRun (s : State) (u off a n : Nat) : Except Stop (List Byte) :=
  match readAll s s.st.ctx (ownPlace s u off) (n / 16) with
  | .error (c, i) => failAt c (a + 16 * i)
  | .ok bs => .ok bs

/-- The local offset in Src(D) of `hrd` and `hwr`: 64-byte aligned and below the scheduler region, in memory the context
owns (R236). -/
def localSide (s : State) (d : Nat) : Except Stop Nat :=
  if d / 2 ^ 20 != 0 || d % 64 != 0 || schedBase ≤ d then fail .pushSrc
  else if !mayReach s s.focusU s.focusU s.st.ctx .l then failAt .pfOwn d
  else .ok d

/-- The H side of `hrd` and `hwr`: ALIGN, then PF.HOLE or PUSH.SRC outside H, then translation; MEM.NOKEY is found where
the form is performed (R189, R236; log 73). -/
def farSide (s : State) (a : Nat) (k : Access) : Except Stop Place :=
  if a % 64 != 0 then failAt .align a
  else if regionOf a != .h then
    if (localOf s.focusU a).isSome then failAt .pushSrc a else failAt .pfHole a
  else
    match locate s s.focusU s.st.ctx a k with
    | .error c => failAt c a
    | .ok p => .ok p

/-- R236: 64 bytes of HBM copied into local memory when the strand's wait, as on a long load, is over. No rule orders the
tests of the two sides: those of EA come first, with the migration, and then those of Src(D) (DESIGN CHOICE, log 81). -/
def execHrd (s : State) := perform s fun s0 => do
  let _ ← if s0.me.acquires.isEmpty then .ok () else .error .hold
  let _ ← whole [s0.ir.a, s0.ir.d] s0
  let (a, s) ← ea s0
  let p ← farSide s a .load
  if dieOf p.home != dieOf s.focusU then migrate s0 p.home
  else
    let _ ← if noKey s s.st.ctx p then failAt .memNokey a else .ok ()
    let (d, s) ← src s.ir.d s
    let off ← localSide s d.toNat
    if s.early p.home false || s.early s.focusU true then .error .hold
    else return (sendLong ⟨.copyIn off, BitVec.ofNat 64 a, p⟩ s0 s).advance.finish

/-- R236: 64 bytes of local memory, read now, written to HBM as a store; the tests as for `hrd` (log 81). -/
def execHwr (s : State) := perform s fun s0 => do
  let _ ← if s0.me.acquires.isEmpty then .ok () else .error .hold
  let _ ← whole [s0.ir.a, s0.ir.d] s0
  let (a, s) ← ea s0
  let p ← farSide s a .store
  if dieOf p.home != dieOf s.focusU then migrate s0 p.home
  else
    let _ ← if noKey s s.st.ctx p then failAt .memNokey a else .ok ()
    let (d, s) ← src s.ir.d s
    let off ← localSide s d.toNat
    if s.early s.focusU false || (s.st.asked.any fun x => x.writes && x.home != p.home) then .error .hold
    else
      let bs ← readRun s s.focusU off off 64
      let r : Request := ⟨.storeWide (BitVec.ofNat 512 (leNat bs)), BitVec.ofNat 64 a, p.place, false⟩
      return (s.hear.sendWrite p.home (BitVec.ofNat 64 a) true (.request r)).advance.finish

/-! Pushes -/

/-- The place of a push's source: it lies in this core's own local memory, or in H of its channel within one frame, else
PUSH.SRC; a byte in a hole raises PF.HOLE, as its home does not exist. The faults of the read are for later (R178,
R237). -/
def pushSource (s : State) (a n : Nat) : Except Stop (Except Cause Place) :=
  if regionOf a == .h then
    if 4096 < a % 4096 + n then failAt .pushSrc a
    else
      match locate s s.focusU s.st.ctx a .load with
      | .error c => .ok (.error c)
      | .ok p => if p.home = s.focusU then .ok (.ok p) else failAt .pushSrc a
  else
    match localOf s.focusU a with
    | none => failAt .pfHole a
    | some (v, off) =>
      if v != s.focusU then failAt .pushSrc a
      else if 0x60000 < off + n then failAt .pfHole (a + (0x60000 - off))
      else .ok (locate s s.focusU s.st.ctx (a + n - 16) .load)

/-- The destination of a push: within one core's slot in L, W or M and below its scheduler region, in memory the
context owns (R237). -/
def pushDest (s : State) (a n : Nat) : Except Stop Nat :=
  match localOf s.focusU a with
  | none => failAt .pfHole a
  | some (v, off) =>
    if 0x60000 < off + n then failAt .pfHole (a + n - 16)
    else if schedBase < off + n then failAt .schedReg (a + n - 16)
    else if !mayReach s s.focusU v s.st.ctx (regionOf a) then failAt .pfOwn a
    else .ok v

/-- The bytes of a push's source, with the faults of reading them (R237). -/
def pushRead (s : State) (a n : Nat) (r : Except Cause Place) : Except Stop (List Byte) :=
  match r with
  | .error c => failAt c a
  | .ok p =>
    match readAll s s.st.ctx (if p.off.isSome then p.shift (16 - (n : Int)) else p) (n / 16) with
    | .error (c, i) => failAt c (a + 16 * i)
    | .ok bs => .ok bs

/-- The frame tag a push stamps: PFMT's when it is enabled (R235). -/
def State.stamp (s : State) : Option (BitVec 8) :=
  if s.me.pfmt.getLsbD 8 then some (s.me.pfmt.setWidth 8) else none

/-- One row of a push checked: its destination's core, and the bytes to write there (R237 to R239). -/
structure PushRow where
  home  : Nat
  addr  : Nat
  bytes : List Byte
  deriving DecidableEq, Repr

/-- Granules of a row, up to local offset `e` of the core in focus, written where a later row of the same instruction finds
them, as far as its home takes them (R202, R238). -/
def rowView (ctx : BitVec 12) (e : Nat) : Nat → List Byte → State → State
  | 0, _, s => s
  | n + 1, bs, s =>
    match bs with
    | [] => s
    | _ =>
      match pushGranule s ctx [] (ownPlace s s.focusU (e - bs.length)) (bs.take 16) none with
      | .ok s => rowView ctx e n (bs.drop 16) s
      | .error _ => s

/-- Rows of `n` bytes, each (source, destination), tested one after another: a row's source, its destination, then the
reading of its source, which finds what the rows before it wrote (R237, R238). -/
def pushRows (n : Nat) (pattern : Option (List Byte)) : List (Nat × Nat) → State → Except Stop (List PushRow)
  | [], _ => .ok []
  | (a, d) :: rows, s => do
    let p ← match pattern with | none => (pushSource s a n).map some | some _ => .ok none
    let v ← pushDest s d n
    let bs ← match p, pattern with
      | some p, _ => pushRead s a n p
      | none, some bs => .ok bs
      | none, none => .ok []
    let off := match localOf s.focusU d with | some (_, o) => o | none => 0
    let rest ← pushRows n pattern rows (if v = s.focusU then rowView s.st.ctx (off + n) (n / 16) bs s else s)
    return ⟨v, d, bs⟩ :: rest

/-- The rows sent as pushes, in order (R206, R214, R238). -/
def sendRows (s : State) : List PushRow → State
  | [] => s
  | r :: rs =>
    sendRows (s.sendWrite r.home (BitVec.ofNat 64 r.addr) true (.push (BitVec.ofNat 64 r.addr) r.bytes s.stamp true)) rs

/-- A push of rows of `n` bytes, all checked before any granule is written; with a pattern nothing is read (R237 to
R239). -/
def pushAll (s : State) (rows : List (Nat × Nat)) (n : Nat) (pattern : Option (List Byte)) : Run := do
  if s.early s.focusU false then .error .hold
  else
    let ps ← pushRows n pattern rows s
    if s.st.asked.any fun x => x.writes && ps.any (·.home != x.home) then .error .hold
    else
      let s := sendRows (if pattern.isNone then s.hear else s) ps
      return if pattern.isNone && rows.any fun r => regionOf r.1 == .h then s.linger else s

/-- Whether a length breaks R237. -/
def pushLenBad (n : Nat) : Bool := n == 0 || n % 16 != 0 || 4096 < n

/-- R237. -/
def execPush (s : State) := performSeq s fun s => do
  let _ ← if s.me.acquires.isEmpty then .ok () else .error .hold
  let (a, b, d, s) ← srcDAB s
  let from_ := a.toNat % 2 ^ 56
  let to_ := d.toNat % 2 ^ 56
  let _ ← failIf (pushLenBad b.toNat) .pushLen
  let _ ← if from_ % 16 = 0 then .ok () else failAt .align from_
  let _ ← if to_ % 16 = 0 then .ok () else failAt .align to_
  pushAll s [(from_, to_)] b.toNat none

/-- The rows of a rectangle (R238), from row `i` on. -/
def rectangle (a d sp dp : Nat) : Nat → Nat → List (Nat × Nat)
  | 0, _ => []
  | n + 1, i => ((a + i * sp) % 2 ^ 56, (d + i * dp) % 2 ^ 56) :: rectangle a d sp dp n (i + 1)

/-- Whether the descriptor of a rectangle breaks R238: DPITCH, SPITCH, ROWS and a row length. -/
def rectangleBad (b len : Nat) : Bool :=
  bits b 63 48 % 16 != 0 || bits b 47 32 % 16 != 0 || bits b 31 16 == 0 || 256 < bits b 31 16 || pushLenBad len

/-- R238. -/
def execPush2d (s : State) := performSeq s fun s => do
  let _ ← if s.me.acquires.isEmpty then .ok () else .error .hold
  let (a, b, d, s) ← srcDAB s
  let from_ := a.toNat % 2 ^ 56
  let to_ := d.toNat % 2 ^ 56
  let b := b.toNat
  let _ ← failIf (rectangleBad b (bits b 15 0)) .pushLen
  let _ ← if from_ % 16 = 0 then .ok () else failAt .align from_
  let _ ← if to_ % 16 = 0 then .ok () else failAt .align to_
  pushAll s (rectangle from_ to_ (bits b 47 32) (bits b 63 48) (bits b 31 16) 0) (bits b 15 0) none

/-- A pattern of 8 bytes over `n` bytes (R239). -/
def patternBytes (v n : Nat) : List Byte := (List.replicate (n / 8) (leBytes 8 v)).flatten

/-- R239. -/
def execPushFill (s : State) := performSeq s fun s => do
  let _ ← if s.me.acquires.isEmpty then .ok () else .error .hold
  let (a, b, d, s) ← srcDAB s
  let to_ := d.toNat % 2 ^ 56
  let _ ← failIf (pushLenBad b.toNat) .pushLen
  let _ ← if to_ % 16 = 0 then .ok () else failAt .align to_
  pushAll s [(0, to_)] b.toNat (some (patternBytes a.toNat b.toNat))

/-- R240: a hint that changes nothing a program can see. -/
def execHpf (s : State) := performSeq s fun s => do
  let (_, s) ← src s.ir.a s
  return s

/-- R235, R241: PFMT read and written; FMT.BAD for a malformed tag that is enabled. -/
def execKeysel (s : State) := performSeq s fun s => do
  let (a, s) ← src s.ir.a s
  let v := a.setWidth 9
  let _ ← failIf (v.getLsbD 8 && tagBad (v.setWidth 8)) .fmtBad
  let old := s.me.pfmt
  dst s.ir.d 1 (old.setWidth 64) (s.modMe fun sl => { sl with pfmt := v })

/-- R242: waits for the strand's pushes and `hwr` writes, and gives how many were refused; it stands behind an acquire of
its strand (R209, R413). -/
def execHfence (s : State) := performSeq s fun s => do
  let _ ← if s.me.acquires.isEmpty then .ok () else .error .hold
  if s.st.writes.any (·.loft) then .error (.block none)
  else dstLong s.ir.d (s.st.hfRefused.setWidth 64) (s.modSt fun st => { st with hfRefused := 0 })

/-! Granules (R214, R237) -/

/-- R235, R237: the next granule of a push written and set full in one step at its home; a refusal ends the push and is
reported. -/
def writeGranule (s : State) (i : Nat) (m : Msg) (a : Word) (bs : List Byte) (stamp : Option (BitVec 8)) (first : Bool) :
    State :=
  let ackTo := fun (s : State) (c : Option Cause) =>
    (s.unpost i).post m.dst m.src m.sender (s.heard (dieOf m.dst) m.dep) none (.ack m.id a m.sender.pc m.dst c)
  let refuse := fun (c : Cause) => ackTo (report s m.dst m.sender { cause := c, addr := a }) (some c)
  match localOf m.src a.toNat with
  | none => refuse .pfHole
  | some (v, off) =>
    let p := ownPlace s v off
    match pushGranule s m.sender.ctx m.dep p (bs.take 16) (if first || off % 4096 == 0 then stamp else none) with
    | .error c => refuse c
    | .ok s =>
      if bs.length ≤ 16 then ackTo s none
      else
        { s with fabric := s.fabric.modify i fun m =>
            { m with body := .push (a + 16) (bs.drop 16) stamp false } }

/-- R237: a granule of a push at its home. -/
def execPushGranuleWrite (s : State) : Host.Outcome State Fault Refusal :=
  match s.ev with
  | some (.pushGranuleWrite i) =>
    match s.arriving i with
    | some m =>
      match m.body with
      | .push a bs stamp first => .next (writeGranule s i m a bs stamp first)
      | _ => .next s
    | none => .next s
  | _ => .next s

end Sys2Proof.Machine
end

