-- ==== Sys2Proof/Machine/Tasks.lean ====
section
/-! DEFINITION. Tasks: how one starts in a slot, what its end releases and returns, reading a record where it lies, and the handler tables (R25, R129, R130, R132, R138, R146, R156, R416). -/

namespace Sys2Proof.Machine

/-! Reading a block where it lies (R416) -/

/-- The 64 bytes at an address read by a form with an ordinary load, the strand staying where it is: every test of R183 and
MEM.POISON is precise on the form, each granule is read from the storage that answers for it, and the strand hears what
the home's die knows (R194, R207). -/
def readBlock (s : State) (a : Nat) : Except Stop (List Byte × State) :=
  if a % 64 != 0 then failAt .align a
  else
    match locate s s.focusU s.st.ctx a .load with
    | .error c => failAt c a
    | .ok p =>
      if s.early p.home false then .error .hold
      else if s.crossing s.focusU s.focusK p.home then .error (.block none)
      else
        match readAll s s.st.ctx p 4 with
        | .error (c, i) => failThere s p.home c (a + 16 * i)
        | .ok bs => .ok (bs, s.stepRead s.focusU s.focusK p.home)

/-- A record read where it lies (R169, R174). -/
def readRec (s : State) (a : Nat) : Except Stop (Rec × State) := do
  let (bs, s) ← readBlock s a
  return (Rec.ofNum (leNat bs), s)

/-! Starting (R25, R129, R138) -/

/-- The strand of a queued task on unit `u`, before its STRID is chosen (R25). -/
def Queued.strand (q : Queued) (u : Nat) : Strand :=
  { Strand.reset with
    x := ((((Strand.reset.x.set 0 q.crec.arg[0]).set 1 q.crec.arg[1]).set 2 q.crec.arg[2]).set 3 q.crec.arg[3]).set 14
      q.crec.frame
    pc := q.crec.code
    bud := q.crec.budget
    key := q.crec.dkey
    wgt := q.weight
    launch := q.launch
    ctx := q.ctx
    crec := q.crec
    origin := q.origin
    msgId := q.msgId
    member := q.member
    root := q.root
    started := u
    dep := q.dep }

/-- A slot that begins a task: ISSUING, or HANDLER at depth 1 for a handler task of R360 (R25, R360). -/
def Queued.slot (q : Queued) (u cyc : Nat) (strid : BitVec 32) (numbered : Option (Nat × Nat)) : Slot :=
  { Slot.reset with
    mode := if q.frame.isSome then .handler else .issuing
    st := { q.strand u with strid := strid, numbered := numbered }
    frames := q.frame.toList
    hbud := if q.frame.isSome then hbudStart else 0
    lastIssue := cyc }

/-- Whether a task takes a serial when it starts: it is no member and no root task (R129). -/
def Queued.needsSerial (q : Queued) : Bool := q.member.isNone && !q.root

/-- The task a queued record starts: a handler task of R360 begins at TVEC as it stands then (R360). -/
def State.starts (s : State) (q : Queued) : Queued :=
  if q.frame.isSome then { q with crec := { q.crec with code := (s.context q.ctx).tvec } } else q

/-- A task begins in a slot of `u`; CKEY becomes its deadline key (R25, R129, R138). -/
def State.startTask (s : State) (u k : Nat) (q : Queued) : State :=
  let q := s.starts q
  let c := s.core u
  match q.needsSerial, c.freeSerial with
  | true, some n =>
    s.setCore u (({ c with ckey := q.crec.dkey }.setSerial n).setSlot k (q.slot u c.cyc (freeStrid u n) (some (u, n))))
  | true, none => s
  | false, _ =>
    let strid := match q.member with | some m => BitVec.ofNat 32 m | none => 0
    s.setCore u ({ c with ckey := q.crec.dkey }.setSlot k (q.slot u c.cyc strid none))

/-- A migrant takes a slot (R20, R138, R189, R246). -/
def State.seatMigrant (s : State) (u k : Nat) (st : Strand) (q7 : List QVal) : State :=
  s.modCore u fun c =>
    { c with qs := c.qs ++ q7.map fun v => (⟨7, k, v⟩ : QEntry) }.setSlot k
      { Slot.reset with mode := .issuing, st := st, lastIssue := c.cyc }

/-- The rank of a deadline key on a core (R138). -/
def Core.rank (c : Core) (k : BitVec 32) : Nat := (k - c.ckey + 0x80000000#32).toNat

/-- The least of the ranks of some queued tasks. -/
def leastRank (c : Core) (l : List Queued) : Option Nat :=
  l.foldl (fun m q => match m with | some r => some (min r (c.rank q.crec.dkey)) | none => some (c.rank q.crec.dkey)) none

/-- Where a queued task stands: in the deque or the ready set, by its index. -/
inductive Spot where | deque (i : Nat) | ready (i : Nat)
  deriving DecidableEq, Repr

/-- The task of smallest rank that a core's own slot takes: of equal rank, requeued entries, the latest first; then the
deque's newest; then the other ready entries, the earliest first (R138). -/
def Core.pick (c : Core) : Option Spot :=
  match leastRank c (c.deque ++ c.ready) with
  | none => none
  | some r =>
    let at_ := fun (q : Queued) => c.rank q.crec.dkey == r
    match c.ready.findIdx? fun q => at_ q && q.requeued with
    | some i => some (.ready i)
    | none =>
      match c.deque.reverse.findIdx? at_ with
      | some i => some (.deque (c.deque.length - 1 - i))
      | none => (c.ready.findIdx? at_).map .ready

/-- The queued task at a spot. -/
def Core.queuedAt (c : Core) : Spot → Option Queued
  | .deque i => c.deque[i]?
  | .ready i => c.ready[i]?

/-- The queued task at a spot taken out. -/
def Core.takeOut (c : Core) : Spot → Core
  | .deque i => { c with deque := c.deque.eraseIdx i }
  | .ready i => { c with ready := c.ready.eraseIdx i }

/-! Ending (R130, R132, R146, R165) -/

/-- A strand's slot becomes EMPTY and gives up the issue turn. -/
def State.endStrand (s : State) (u k : Nat) : State := (s.vacate u k).modCore u fun c => c.passTurn k

/-- Weight sent back to the hub, on class 0 (R146). -/
def State.sendWeight (s : State) (u k : Nat) (w : Word) : State := s.postPlain u k mgmtUnit (.weight w)

/-- The message identifier of the next message a core releases, and the core after it (R128). -/
def Core.nextMessage (c : Core) (u : Nat) : Word × Core :=
  (BitVec.ofNat 64 (u * 2 ^ 32 + c.msgSerial.toNat), { c with msgSerial := c.msgSerial + 1 })

/-- The buffered entries of a task released in program order: forks to the deque, the others as messages (R132, R165). A
fork made on a loft core goes to that core's deque (R132), which R179 does not name among the places of a context's work
(DESIGN CHOICE, log 87). -/
def releaseAll (u k : Nat) : List SendEntry → State → State
  | [], s => s
  | e :: es, s =>
    let q := { e.q with dep := (s.slot u k).st.dep }
    match q.origin with
    | .fork => releaseAll u k es (s.modCore u fun c => c.pushDeque q)
    | _ =>
      let (id, c) := (s.core u).nextMessage u
      let s := s.setCore u c
      let q := { q with msgId := id }
      releaseAll u k es (s.postPlain u k e.target (if q.origin == .send then .send q e.index else .callat q))

/-- Whether a core can take the forks of a task that ends (R136, R137). -/
def Core.forksFit (c : Core) (n : Nat) : Bool :=
  c.ready.length + (c.deque.length + n - 16) ≤ readyRoom

/-- A task dropped: buffered sends discarded, its whole weight returned, the slot EMPTY (R130, R146). -/
def State.dropTask (s : State) (u k : Nat) : State :=
  let st := (s.slot u k).st
  ((s.sendWeight u k (st.wgt + st.sendWeight)).turn u).endStrand u k

/-- The end of a task, in or out of a handler: what it still waits for, with its pending guards resolved false (R96,
R165, R253). A form that waits leaves the state `z`, in which no source has been read (R44). -/
def endWait (z s : State) : Except Stop State :=
  let guardsOff := fun s : State => s.modCore s.focusU fun c => c.endGuards s.focusK
  let s := guardsOff s
  if s.mayEnd s.focusU s.focusK then .ok s else .error (.block (some (guardsOff z)))

/-- The unread entries of q0 to q7 that are tagged for a slot discarded, and counted (R253, R403). -/
def State.discardEntries (s : State) (u k : Nat) : State :=
  let d := (s.core u).dropEntries k false
  (s.setCore u d.1).count u (s.slot u k).st.ctx 0x08 d.2

/-- `done` outside a handler, once nothing is left to wait for: unread entries go first, then the buffered ones leave
(R137, R165, R213, R253, R413). While its forks do not all find room none of its entries leaves, so that a budget trap finds
the form without effect (R145), but for the guards it has resolved and the count of the entries that it discarded, which
come back (DESIGN CHOICE, log 86). -/
def release (s : State) : Run :=
  let st := s.st
  let u := s.focusU
  match earliest st.refused with
  | some r => .error (.trap (refusedTrap r) (some (s.modSt fun st => { st with refused := [] })))
  | none =>
    let s := s.discardEntries u s.focusK
    if s.here.forksFit (st.sends.filter fun e => e.q.origin == .fork).length then
      let s := releaseAll u s.focusK st.sends s
      .ok (((s.sendWeight u s.focusK st.wgt).turn u).endStrand u s.focusK)
    else .error (.block (some s))

/-! Handler tables (R156, R174, R361) -/

/-- The entry of a context's handler table. -/
def Context.handler (x : Context) (i : Nat) : HandlerEntry := (kget x.handlers i).getD HandlerEntry.empty

/-- An entry of a context's handler table replaced. -/
def State.setHandler (s : State) (ctx : BitVec 12) (i : Nat) (e : HandlerEntry) : State :=
  let x := s.context ctx
  s.setContext ctx { x with handlers := kput x.handlers i e }

/-- The task of a message under a VALID entry (R156). -/
def handlerTask (q : Queued) (e : HandlerEntry) : Queued :=
  { q with crec := { q.crec with code := e.code, budget := e.budget, dkey := e.key } }

/-- HANDLER.MISSING for a message parked at a core (R156). -/
def missing (s : State) (u : Nat) (w : Sender) (q : Queued) : State :=
  report s u w { cause := .handlerMissing, pc := some 0, msgId := some q.msgId }

/-- The parked messages of one core for an entry dispatched in arrival order: queued under a VALID entry, waiting as
messages where the core has no room (R137), and parked on with HANDLER.MISSING under an EMPTY one (R156). -/
def dispatchList (u : Nat) (ctx : BitVec 12) (i : Nat) : List Parked → State → State
  | [], s => s
  | .send q j :: ps, s =>
    let keep := fun (s : State) => s.modCore u fun c => { c with overflow := c.overflow ++ [.send q j] }
    let w : Sender := ⟨u, 0, 0, q.launch, q.ctx, 0, false, q.msgId⟩
    if q.ctx == ctx && j.toNat == i then
      let e := (s.context ctx).handler i
      if e.valid then dispatchList u ctx i ps (s.queueTask u w u (handlerTask q e))
      else dispatchList u ctx i ps (keep (missing s u w q))
    else dispatchList u ctx i ps (keep s)
  | p :: ps, s => dispatchList u ctx i ps (s.modCore u fun c => { c with overflow := c.overflow ++ [p] })

/-- The parked messages of every core for an entry that has unlocked dispatched (R156). -/
def dispatchParked (s : State) (ctx : BitVec 12) (i : Nat) : State :=
  s.cores.foldl (fun s p =>
    match p.2.overflow with
    | [] => s
    | l => dispatchList p.1 ctx i l (s.modCore p.1 fun c => { c with overflow := [] })) s

/-- An entry whose lock has stood for 64 cycles: the lock has lapsed, and its holder is remembered (R156, R174). -/
def HandlerEntry.lapse (e : HandlerEntry) (now : Nat) : Option HandlerEntry :=
  match e.lock with
  | some (h, t) => if t + 64 ≤ now then some { e with lock := none, lapsed := h :: e.lapsed.filter (· != h) } else none
  | none => none

/-- A handler table's entry at the present cycle: a lock that has stood for 64 cycles lapses, and what is parked for the
entry is dispatched (R156, R174). -/
def State.lapseLock (s : State) (ctx : BitVec 12) (i : Nat) : State :=
  match ((s.context ctx).handler i).lapse s.now with
  | some e => dispatchParked (s.setHandler ctx i e) ctx i
  | none => s

end Sys2Proof.Machine
end

