-- ==== Sys2Proof/Machine/Engine.lean ====
section
/-! DEFINITION. Engine commands: acceptance and binding, operands in barn memory, when a command may start, and deferred faults (R248 to R254, R271). -/

namespace Sys2Proof.Machine

/-! Acceptance (R248 to R250) -/

/-- The queue of an engine: the two matrix paths share one (R248, R271, R286). -/
def queueOf : Engine → Nat
  | .vector => 0
  | .array => 1
  | .row => 1
  | .copy => 2
  | .selection => 3

/-- Whether the core belongs to a group that the strand in focus is no member of (R149). -/
def engOwn (s : State) : Bool :=
  s.hub.launches.any fun p =>
    match p.2.group with
    | some g => g.cores.contains s.focusU && !(s.st.member.isSome && s.st.launch.toNat == p.1)
    | none => false

/-- The value of an operand of kinds 0 to 3; 0 for an operand of another kind (R251). -/
def State.captured (s : State) (o : Opd) : Word :=
  match o with
  | .x i => s.st.x[i]
  | .o i => s.me.o[i].val
  | .z i => s.me.z[i].val
  | .imm c => c.signExtend 64
  | _ => 0

/-- A command of the strand in focus before its operands are filled in: what it captures at issue (R216, R247, R251,
R270). -/
def newCmd (s : State) (row : Instr) (e : Engine) (bound : Option (Fin 8 × Bool)) : Cmd where
  order := s.here.accepted
  engine := e
  row := row
  ops := s.ir
  slot := s.focusK
  sender := s.self
  dseq := s.st.cseq
  sd := s.captured s.ir.d
  sa := s.captured s.ir.a
  sa2 := 0
  sb := s.captured s.ir.b
  sb2 := 0
  vshape := s.me.vshape
  mxcfg := s.me.mxcfg
  bound := bound
  phase := .queued
  registered := false
  awaited := false
  sess := none
  buffer := none
  bufs := s.here.bufs
  dep := s.st.dep
  waits := s.st.writes.map (·.id) ++ s.st.asked.map (·.id)
  memA := []
  memB := []
  got := []
  scales := []
  loaded := false
  todo := []
  out := []
  rows := []
  step := 0
  failed := false

/-- Queued commands of an engine's queue on a core. -/
def Core.queued (c : Core) (q : Nat) : List Cmd := c.cmds.filter fun x => queueOf x.engine == q && x.phase == .queued

/-- A command accepted into its queue, which takes the task's next sequence number; with the queue full it is held at
issue (R248). -/
def accept (x : Cmd) (s : State) : Run :=
  if !s.me.acquires.isEmpty || 2 ≤ (s.here.queued (queueOf x.engine)).length then .error .hold
  else
    .ok ((s.modCore s.focusU fun c => { c with cmds := c.cmds ++ [x], accepted := c.accepted + 1 }).modSt fun st =>
      { st with cseq := st.cseq + 1 })

/-- A class-11 form: a condition that fails is not accepted, and one whose guard is pending is bound to the guard's
resolution; ENG.OWN is tested first (R45, R249, R250). -/
def performCmd (s : State) (body : Option (Fin 8 × Bool) → State → Run) : Host.Outcome State Fault Refusal :=
  if s.me.live then
    let go := fun (bound : Option (Fin 8 × Bool)) =>
      settleRun s <| do
        let _ ← failIf (engOwn s) .engOwn
        let t ← body bound s
        return t.advance.finish
    match s.cond with
    | none => go (some (s.ir.hd.gidx, s.ir.hd.gsns))
    | some false => .next s.advance.finish
    | some true => go none
  else .fault .noStrand

/-- A scalar operand of kinds 0 to 3 read at issue; 0 for an operand of another kind, whose queue is read when the command
executes (R251). -/
def scalar (o : Opd) (s : State) : Except Stop Word :=
  match o with
  | .q _ => .ok 0
  | o => do
    let (v, _) ← src o s
    return v

/-- A command of the vector engine that touches no memory: `test` says what its shape and operands raise. -/
def vectorCmd (row : Instr) (test : State → Word → Except Stop Unit) (bound : Option (Fin 8 × Bool)) (s : State) : Run := do
  let a ← scalar s.ir.a s
  let b ← scalar s.ir.b s
  let _ ← test s b
  accept { newCmd s row .vector bound with sa := a, sb := b } s

/-! Operands in barn memory (R249, R262) -/

/-- The home and offset of an operand's address, or its fault: ENG.FAR outside the barn (R249). -/
def homeOf (s : State) (a : Nat) : Except Cause (Nat × Nat) :=
  if regionOf a == .h then .error .engFar
  else
    match locate s s.focusU s.st.ctx a .load with
    | .error c => .error c
    | .ok p => if isCompute p.home && barnOf p.home == barnOf s.focusU then .ok (p.home, p.off.getD 0) else .error .engFar

/-- The addresses of an operand tested, each test over all of them before the next: PF.HOLE, SCHED.REG, PF.OWN, then
ENG.FAR (R249). -/
def homeTests (s : State) (l : List Nat) : Except Stop Unit :=
  [Cause.pfHole, .schedReg, .pfOwn, .engFar].forM fun c =>
    match l.find? fun a => match homeOf s a with | .error d => d == c | .ok _ => false with
    | some a => failAt c a
    | none => .ok ()

/-- The home and offset of one address of an operand, with its tests. -/
def engineAddr (s : State) (a : Nat) : Except Stop (Nat × Nat) :=
  match homeOf s a with | .ok p => .ok p | .error c => failAt c a

/-- `n` bytes from an address on, split at granules: the address and length of each part (R201). -/
def pieces (a n : Nat) : List (Nat × Nat) :=
  (List.range ((a % 16 + n + 15) / 16)).map fun i =>
    let lo := if i = 0 then a else (a / 16 + i) * 16
    (lo % 2 ^ 56, min (a + n) ((a / 16 + i + 1) * 16) - lo)

/-- The grains of the parts of an operand, after the tests of their addresses (R249). -/
def grainsAt (s : State) (l : List (Nat × Nat)) : Except Stop (List Grain) := do
  let _ ← homeTests s (l.map (·.1))
  l.mapM fun p => do
    let (u, off) ← engineAddr s p.1
    return ⟨p.1, u, off, p.2, none⟩

/-- The grains of `n` bytes from an address on (R201, R249). -/
def grainsOf (s : State) (a n : Nat) : Except Stop (List Grain) := grainsAt s (pieces a n)

/-- The grains of an operand of rows of `n` bytes that begin at the addresses given. -/
def grainRows (s : State) (n : Nat) (rows : List Nat) : Except Stop (List Grain) :=
  grainsAt s (rows.flatMap fun a => pieces a n)

/-- BUF.STATE for the grains of an operand that a program's access would be refused (R196, R249). -/
def bufTests (s : State) : List Grain → Except Stop Unit
  | [] => .ok ()
  | g :: gs =>
    let bad := fun (o : Nat) => match (s.core g.home).bufRead o with | .ok _ => false | .error _ => true
    if bad g.off || g.scale.any bad then failAt .bufState g.addr else bufTests s gs

/-- An address with a signed number of bytes added, modulo 2^56. -/
def offsetAddr (a : Nat) (d : Int) : Nat := (((a : Int) + d) % 2 ^ 56).toNat

/-- The addresses of rows a signed pitch apart. -/
def pitchRows (a : Nat) (pitch : Int) (n : Nat) : List Nat := (List.range n).map fun (i : Nat) => offsetAddr a (i * pitch)

/-! Execution -/

/-- The storage that answers at an offset under some descriptors, whatever a buffer's state (R194, R249). -/
def storage (bufs : Vector Word 16) (off : Nat) : Nat :=
  match (List.finRange 16).find? fun i => Buf.inV bufs[i] off || Buf.inS bufs[i] off with
  | none => off
  | some i =>
    let d := bufs[i]
    if Buf.inV d off then (if Buf.sel d then off + Buf.size d else off)
    else if Buf.sel d then off - Buf.size d else off

/-- The core that accepted a command. -/
def Cmd.unit (x : Cmd) : Nat := x.sender.unit

/-- The place a command reads at: in its own core the storage of its acceptance, elsewhere the present one (R197). -/
def Cmd.source (x : Cmd) (s : State) (home off : Nat) : Nat :=
  localPlace home (storage (if home = x.unit then x.bufs else (s.core home).bufs) off)

/-- The place a command writes at. -/
def writePlace (s : State) (home off : Nat) : Nat := localPlace home (storage (s.core home).bufs off)

/-- The number of the granule at an offset of a core: its address in region M over 16. -/
def granuleOf (home off : Nat) : Nat := localPlace home off / 16

/-- Whether two grains lie in one granule. -/
def Grain.beside (g h : Grain) : Bool := g.home == h.home && g.off / 16 == h.off / 16

/-- Whether a command has yet to read a grain's granule (R201). -/
def Cmd.lacks (x : Cmd) (g : Grain) : Bool := (kget x.got (granuleOf g.home g.off)).isNone

/-- The next grain of an operand that the command has not read: in the order of its grains, each granule once (R201). -/
def Cmd.nextRead (x : Cmd) (l : List Grain) : Option Grain := l.find? x.lacks

/-- One granule of an operand read, with the scale of every element in it in the same step; MEM.POISON with the address of
what fails (R186, R191, R254, R263). -/
def readGranule (s : State) (x : Cmd) (g : Grain) : Except (Cause × Nat) Cmd :=
  let n := granuleOf g.home g.off
  let p := x.source s g.home (g.off - g.off % 16)
  let scaled := ((x.memA ++ x.memB).filter g.beside).filterMap fun h => h.scale.map fun o => (h.addr - h.off + o, o)
  if s.anyPoison p 16 then .error (.memPoison, g.addr)
  else
    match scaled.find? fun y => s.anyPoison (x.source s g.home (y.2 - y.2 % 16)) 16 with
    | some y => .error (.memPoison, y.1)
    | none =>
      .ok { x with got := kput x.got n (s.bytes p 16),
                   scales := kput x.scales n (scaled.map fun y => (y.2, (s.bytes (x.source s g.home y.2) 1).headD 0)) }

/-- The scale byte at an offset that a command has read with a granule (R74, R186). -/
def Cmd.scaleOf (x : Cmd) (n o : Nat) : Nat := ((kget ((kget x.scales n).getD []) o).getD 0).toNat

/-- What a command has read of grains: the bytes of each, and the scale of its own block (R74, R186). -/
def Cmd.grains (x : Cmd) (l : List Grain) : List (List Byte × Nat) :=
  l.map fun g =>
    let n := granuleOf g.home g.off
    ((((kget x.got n).getD []).drop (g.off % 16)).take g.n, match g.scale with | some o => x.scaleOf n o | none => 0)

/-- The bytes of grains read. -/
def bytesOf (l : List (List Byte × Nat)) : List Byte := (l.map (·.1)).flatten

/-- A grain written with its bytes; a byte that is none is not written. -/
def putGrain (g : Grain) (bs : List (Option Byte)) (s : State) : State :=
  (List.range g.n).foldl (fun s i =>
    match bs.getD i none with
    | some b => s.store false (writePlace s g.home g.off + i) [b]
    | none => s) s

/-- Grains written one after another. -/
def putGrains : List Grain → List (Option Byte) → State → State
  | [], _, s => s
  | g :: gs, bs, s => putGrains gs (bs.drop g.n) (putGrain g bs s)

/-- The first grains of a destination that have nothing to write left out. -/
def skipBlank : List Grain → List (Option Byte) → List Grain × List (Option Byte)
  | [], _ => ([], [])
  | g :: gs, bs => if (bs.take g.n).all Option.isNone then skipBlank gs (bs.drop g.n) else (g :: gs, bs)

/-- A command that has a destination to write: its grains and their bytes. -/
def Cmd.begin_ (x : Cmd) (gs : List Grain) (bs : List (Option Byte)) : Cmd :=
  let r := skipBlank gs bs
  { x with todo := r.1, out := r.2 }

/-- Whether the strand that issued a command still holds its slot. -/
def Cmd.present (x : Cmd) (s : State) : Bool :=
  let sl := s.slot x.unit x.slot
  sl.live && x.sender.names sl.st

/-- The unit at which a command's access to an address fails, when it is not the command's core (R178, R356). -/
def Cmd.failsAt (x : Cmd) (s : State) (a : Nat) : Option Nat :=
  match locate s x.unit x.sender.ctx a .load with
  | .ok p => if p.home = x.unit then none else some p.home
  | .error _ => none

/-- A deferred fault put before the strand (R254). -/
def deferFault (s : State) (x : Cmd) (c : Cause) (a : Nat) : State :=
  if x.present s then
    s.modSlot x.unit x.slot fun sl =>
      { sl with deferred := sl.deferred ++ [⟨c, BitVec.ofNat 64 a, x.dseq, x.failsAt s a⟩] }
  else s

/-- Whether a queue has room for an entry of an engine (R255). -/
def Core.roomFor (c : Core) (q : Fin 8) : Bool := c.qlen q + c.coming q < qdepth q

/-- An entry appended for the issuing slot, while its strand is there (R253, R255). -/
def appendEntry (s : State) (x : Cmd) (q : Fin 8) (v : Word) : State :=
  if x.present s then s.modCore x.unit fun c => c.enqueue q x.slot (.word v) else s

/-- A command of a core replaced. -/
def State.setCmd (s : State) (x : Cmd) : State :=
  s.modCore x.unit fun c => { c with cmds := c.cmds.map fun y => if y.order == x.order then x else y }

/-- A command that has completed: its strand hears what the engine has read, and the event is counted (R207, R403). -/
def retireCmd (s : State) (x : Cmd) : State :=
  let s := s.modCore x.unit fun c => { c with cmds := c.cmds.filter fun y => y.order != x.order }
  let s := if x.present s then
      s.modSlot x.unit x.slot fun sl => { sl with st := { sl.st with dep := s.heard (dieOf x.unit) sl.st.dep } }
    else s
  match x.engine with
  | .vector => s.count x.unit x.sender.ctx 0x0C 1
  | .array => s.count x.unit x.sender.ctx 0x0B 1
  | .row => s.count x.unit x.sender.ctx 0x0B 1
  | _ => s

/-- A command that ends in a deferred fault. -/
def failCmd (s : State) (x : Cmd) (e : Cause × Nat) : State := retireCmd (deferFault s x e.1 e.2) x

/-- A command goes on with the memory operands `l`: it reads their next granule, and once it has read the last, `k` is what
it does (R201, R254). -/
def reading (s : State) (x : Cmd) (l : List Grain) (k : State → Cmd → State) : State :=
  match x.nextRead l with
  | none => k s x
  | some v =>
    match readGranule s x v with
    | .error e => failCmd s x e
    | .ok x => if (x.nextRead l).isNone then k s x else s.setCmd x

/-- A command writes the next granule of its destination; after the last, `k` is what it does. A refused granule ends it
(R201, R254). -/
def writing (s : State) (x : Cmd) (k : State → Cmd → State) : State :=
  match x.todo with
  | [] => k s x
  | g :: gs =>
    if s.anyPoison (writePlace s g.home (g.off - g.off % 16)) 16 then failCmd s x (.memPoison, g.addr - g.off % 16)
    else
      let run := g :: gs.takeWhile g.beside
      let n := run.foldl (fun n h => n + h.n) 0
      let s := (putGrains run (x.out.take n) s).learn (dieOf g.home) x.dep
      let x := x.begin_ (gs.dropWhile g.beside) (x.out.drop n)
      if x.todo.isEmpty then k s x else s.setCmd x

/-! Starting (R248, R250, R252, R271) -/

/-- An operand that names an engine register. -/
def regOf (o : Opd) : List Opd :=
  match o with
  | .v i => [.v i]
  | .m i => [.m i]
  | .t i => [.t i]
  | _ => []

/-- The mask register MSEL names (R246). -/
def mselOf (v : Word) : Fin 8 := Fin.ofNat 8 (bits v.toNat 30 28)

/-- Engine registers a command reads besides A and B. -/
def Cmd.extra (x : Cmd) : List Opd :=
  match x.row with
  | .vfma => regOf x.ops.d
  | .vst => regOf x.ops.d ++ (if bit x.vshape.toNat 31 then [.m (mselOf x.vshape)] else [])
  | .mst => regOf x.ops.d
  | .acst => regOf x.ops.d
  | .vsel => [.m (mselOf x.vshape)]
  | _ => []

/-- Engine registers a command reads (R252). -/
def Cmd.reads (x : Cmd) : List Opd := regOf x.ops.a ++ regOf x.ops.b ++ x.extra

/-- Engine registers a command writes (R252). -/
def Cmd.writes (x : Cmd) : List Opd :=
  match x.row with
  | .vst => []
  | .mst => []
  | .acst => []
  | _ => regOf x.ops.d

/-- Whether two lists of registers share one; tiles or the other registers. -/
def meet (tiles : Bool) (l m : List Opd) : Bool :=
  l.any fun r => (match r with | .t _ => tiles | _ => !tiles) && m.contains r

/-- Whether an earlier command keeps a later one from starting: by a shared register of another engine (R252), by a
vector or mask register within the matrix engine, or as a reader of a tile the later one writes (R271). -/
def hinders (o x : Cmd) : Bool :=
  let all := fun (y : Cmd) => y.reads ++ y.writes
  if queueOf o.engine != queueOf x.engine then meet false (all o) (all x) || meet true (all o) (all x)
  else queueOf x.engine == 1 && (meet false (all o) (all x) || meet true o.reads x.writes)

/-- Whether a command is one of a member of a group held quiesced by a record-mode suspension, the issuer where it is a
member among them (R381). -/
def recording (s : State) (x : Cmd) : Bool :=
  s.hub.suspended.any fun y => y.record && y.launch == x.sender.launch && x.present s &&
    ((s.slot x.unit x.slot).mode == .quiesced ||
      ((s.slot x.unit x.slot).st.member.isSome && y.issuer.same x.sender))

/-- Whether the writes and requests of its strand that a command comes after have been performed (R216). -/
def Cmd.ready (x : Cmd) (s : State) : Bool :=
  let st := (s.slot x.unit x.slot).st
  !x.present s || !(st.writes.any (fun w => x.waits.contains w.id) || st.asked.any (fun w => x.waits.contains w.id))

/-- Whether a matrix engine may start a command in this cycle: in n of each 16 (R406; which n is left open: log 24). -/
def powerAllows (s : State) (x : Cmd) : Bool :=
  queueOf x.engine != 1 || decide ((s.core x.unit).cyc % 16 < s.hub.power.allow)

/-- Whether a command may start: first of its queue, not bound, its path free, and nothing accepted earlier hinders
it. -/
def mayStart (s : State) (x : Cmd) : Bool :=
  let c := s.core x.unit
  powerAllows s x &&
  ((c.queued (queueOf x.engine)).head?.any fun y => y.order == x.order) && x.bound.isNone &&
    !(c.cmds.any fun y => y.engine == x.engine && y.phase == .executing) &&
    !(c.cmds.any fun y => y.order < x.order && hinders y x) && !recording s x && x.ready s

/-- The command at the head of an engine's queue. -/
def Core.head (c : Core) (e : Engine) : Option Cmd :=
  match (c.queued (queueOf e)).head? with
  | some x => if x.engine == e then some x else none
  | none => none

/-- The command an engine or path executes. -/
def Core.executing (c : Core) (e : Engine) : Option Cmd := c.cmds.find? fun x => x.engine == e && x.phase == .executing

end Sys2Proof.Machine
end

