-- ==== Sys2Proof/Machine/Sysreg.lean ====
section
/-! DEFINITION. State registers: reads by number, and the rows that write them (R22 to R24, R36, R88, R176, R247, R270, R353, R354). -/

namespace Sys2Proof.Machine

/-- Whether a command writes accumulator tile `n` (R271). -/
def Cmd.writesTile (x : Cmd) (n : Fin 4) : Bool := x.engine == .array && x.ops.d == .t n

/-- TWn: PEND, the accepted commands that write the tile and have not completed, and FINAL (R272). -/
def Core.watermark (c : Core) (n : Fin 4) : Word :=
  word ((c.cmds.filter fun x => x.writesTile n).length % 4 * 2 ^ 8 + c.final[n].toNat)

/-- A field of the innermost trap frame; 0 outside HANDLER (R353). -/
def Slot.frame (sl : Slot) (f : Frame → Word) : Word :=
  match sl.mode, sl.frames with
  | .handler, x :: _ => f x
  | _, _ => 0

/-- A state register read by the strand in focus, zero-extended (R22, R353). -/
def readSr (n : Nat) (s : State) : Word :=
  match n with
  | 0 => word s.cyc
  | 1 => s.st.bud.setWidth 64
  | 2 => s.st.key.setWidth 64
  | 3 => s.st.wgt
  | 4 => (s.context s.st.ctx).tvec
  | 5 => (s.context s.st.ctx).frec
  | 6 => s.st.ctx.setWidth 64
  | 7 => s.st.strid.setWidth 64
  | 8 => word s.focusU
  | 9 => s.st.brmode
  | 10 => s.me.vshape
  | 11 => s.here.watermark 0
  | 12 => s.here.watermark 1
  | 13 => s.here.watermark 2
  | 14 => s.here.watermark 3
  | 15 => s.me.mxcfg
  | 16 => s.me.frame (·.epc)
  | 17 => s.me.frame (·.ecause)
  | 18 => s.me.frame (·.eaddr)
  | 19 => s.me.frame (·.erec)
  | 20 => s.me.frame (·.escr0)
  | 21 => s.me.frame (·.escr1)
  | 22 => s.st.launch.setWidth 64
  | 23 => if s.me.mode == .handler then word s.me.depth else 0
  | _ => 0

/-- The source of a `mov.64`: an operand, or a state register (R88). -/
def movSrc (s : State) : Except Stop (Word × State) :=
  match s.ir.a with
  | .sr n => .ok (readSr n.val s, s)
  | a => src a s

/-- R88: a register, a short immediate or a state register moved at latency 1. -/
def execMov64Reg (s : State) := performSeq s fun s => do
  let (a, s) ← movSrc s
  dst s.ir.d 1 a s

/-- A write of a state register, which the next instruction sees. -/
def writeSr (s : State) (f : Word → State → Run) : Host.Outcome State Fault Refusal :=
  performSeq s fun s => do
    let (a, s) ← movSrc s
    f a s

/-- R176: the key that later forks and sends pass on. -/
def execKeyWrite (s : State) := writeSr s fun a s => .ok (s.modSt fun st => { st with key := a.setWidth 32 })

/-- R176, R354: outside HANDLER a budget can only be shortened; a handler sets it. -/
def execBudWrite (s : State) := writeSr s fun a s =>
  let v := a.setWidth 32
  .ok (s.modSt fun st => { st with bud := if s.me.mode == .handler then v else if v < st.bud then v else st.bud })

/-- R24, R36: the branch mode; the words fetched are dropped, and the next issue comes 4 cycles later. -/
def execBrmodeWrite (s : State) := perform s fun s => do
  let (a, s) ← movSrc s
  return (s.modSt fun st => { st with brmode := a &&& 1 }).advance.finish.refetch 4

/-- Bytes of an element of a TYPE (R246); none for codes 11 to 15. -/
def typeSize : Nat → Option Nat
  | 0 => some 4
  | 1 => some 2
  | 2 => some 2
  | 3 => some 8
  | 4 => some 8
  | 5 => some 4
  | 6 => some 4
  | 7 => some 2
  | 8 => some 2
  | 9 => some 1
  | 10 => some 1
  | _ => none

/-- Whether a value breaks the rules of R247 for VSHAPE. -/
def vshapeBad (a : Nat) : Bool :=
  bits a 63 32 != 0 || bits a 23 21 != 0 || bits a 15 10 != 0 ||
  match typeSize (bits a 27 24) with
  | none => true
  | some n =>
    let rows := bits a 20 16
    let cols := bits a 9 0
    rows == 0 || 16 < rows || cols == 0 || 512 < cols || 512 < rows * cols * n

/-- R247: VSHAPE, or VSHAPE.BAD. -/
def execVshapeWrite (s : State) := writeSr s fun a s =>
  if vshapeBad a.toNat then fail .vshapeBad else .ok (s.modMe fun sl => { sl with vshape := a })

/-- Whether a value breaks the rules of R270 for MXCFG. -/
def mxcfgBad (a : Nat) : Bool :=
  bits a 63 33 != 0 || bits a 15 13 != 0 || bits a 7 5 != 0 || bits a 12 8 < 4 || bits a 4 0 < 4

/-- R270: MXCFG, or MXCFG.BAD. -/
def execMxcfgWrite (s : State) := writeSr s fun a s =>
  if mxcfgBad a.toNat then fail .mxcfgBad else .ok (s.modMe fun sl => { sl with mxcfg := a })

/-- The innermost trap frame of the strand in focus changed. -/
def State.modFrame (s : State) (f : Frame → Frame) : State :=
  s.modMe fun sl => match sl.frames with
    | x :: xs => { sl with frames := f x :: xs }
    | [] => sl

/-- R23, R353: EPC, ESCR0 and ESCR1 of a handler; every other register is read-only, and SREG.WRITE is raised. -/
def execRegisterWrite (s : State) := writeSr s fun a s =>
  if s.me.mode == .handler then
    match s.ir.d with
    | .sr n =>
      if n.val = 16 then
        if bits a.toNat 63 56 != 0 || bits a.toNat 1 0 != 0 then fail .sregWrite
        else .ok (s.modFrame fun f => { f with epc := a })
      else if n.val = 20 then .ok (s.modFrame fun f => { f with escr0 := a })
      else if n.val = 21 then .ok (s.modFrame fun f => { f with escr1 := a })
      else fail .sregWrite
    | _ => fail .sregWrite
  else fail .sregWrite

end Sys2Proof.Machine
end

