-- ==== Sys2Proof/Machine/Typed.lean ====
section
/-! DEFINITION. Arithmetic in an element TYPE of R246: the float formats and integers of vector elements (R256 to R261, R265). -/

namespace Sys2Proof.Machine

/-- What an element TYPE is (R246). -/
inductive Kind where
  | float (g : Grid) (w : Nat)
  | int (signed : Bool) (w : Nat)
  deriving DecidableEq, Repr

/-- The kind of a TYPE code 0 to 10 (R246); codes above are never captured. -/
def kindOf : Nat → Kind
  | 0 => .float fp32 32
  | 1 => .float fp16 16
  | 2 => .float bf16 16
  | 3 => .int true 64
  | 4 => .int false 64
  | 5 => .int true 32
  | 6 => .int false 32
  | 7 => .int true 16
  | 8 => .int false 16
  | 9 => .int true 8
  | _ => .int false 8

/-- Bits of an element. -/
def Kind.width : Kind → Nat | .float _ w => w | .int _ w => w

/-- Whether a kind is a float format. -/
def Kind.isFloat : Kind → Bool | .float _ _ => true | .int _ _ => false

/-! Floats of 16 and 32 bits -/

/-- The infinity code of a format of `w` bits (R62). -/
def infOf (g : Grid) (w : Nat) : Nat := 2 ^ (w - 1) - 2 ^ g.t
/-- The canonical NaN of a format of `w` bits (R256). -/
def nanOf (g : Grid) (w : Nat) : Nat := infOf g w + 2 ^ (g.t - 1)
/-- Whether a code is a NaN. -/
def isNanT (g : Grid) (w a : Nat) : Bool := infOf g w < a % 2 ^ (w - 1)
/-- The sign bit of a code. -/
def signT (w a : Nat) : Bool := bit a (w - 1)
/-- The value of a code, with NaN and the infinities (R62). -/
def valueT (g : Grid) (w a : Nat) : Real :=
  let c := a % 2 ^ (w - 1)
  if infOf g w < c then .nan
  else if c = infOf g w then .inf (signT w a)
  else .fin (let v := g.value c; if signT w a then v.neg else v)

/-- A nonzero magnitude rounded to a format under a sign, an overflow to infinity. -/
def encodeT (g : Grid) (w : Nat) (neg : Bool) (m : Nat) (e : Int) : Nat :=
  signed (w - 1) neg (min (g.round m e) (infOf g w))

/-- RoundT of R256, `zs` the sign of a zero. -/
def roundT (g : Grid) (w : Nat) (y : Real) (zs : Bool) : Nat :=
  match y with
  | .nan => nanOf g w
  | .inf n => signed (w - 1) n (infOf g w)
  | .fin v => if v.m = 0 then signed (w - 1) zs 0 else encodeT g w (v.m < 0) v.m.natAbs v.e

/-- A quotient as `div.f32` gives it (R113). -/
def divT (g : Grid) (w a b : Nat) : Nat :=
  let neg := signT w a != signT w b
  match valueT g w a, valueT g w b with
  | .nan, _ => nanOf g w
  | _, .nan => nanOf g w
  | .inf _, .inf _ => nanOf g w
  | .inf _, .fin _ => signed (w - 1) neg (infOf g w)
  | .fin _, .inf _ => signed (w - 1) neg 0
  | .fin v, .fin u =>
    if v.m = 0 then (if u.m = 0 then nanOf g w else signed (w - 1) neg 0)
    else if u.m = 0 then signed (w - 1) neg (infOf g w)
    else
      let q := v.m.natAbs * 2 ^ 96
      encodeT g w neg (sticky (q / u.m.natAbs) (q % u.m.natAbs != 0)) (v.e - u.e - 97)

/-- The code of one. -/
def oneOf (g : Grid) : Nat := g.bias.toNat * 2 ^ g.t

/-- A reciprocal square root (R116). -/
def rsqT (g : Grid) (w a : Nat) : Nat :=
  match valueT g w a with
  | .nan => nanOf g w
  | .inf n => if n then nanOf g w else 0
  | .fin v =>
    if v.m = 0 then signed (w - 1) (signT w a) (infOf g w)
    else if v.m < 0 then nanOf g w
    else
      let (m, e) := evenExp v
      let r := isqrt (2 ^ 192 / m)
      encodeT g w false (sticky r (r * r * m != 2 ^ 192)) (-(e / 2) - 97)

/-- A power of two (R116; log 11). -/
def exp2T (g : Grid) (w a : Nat) : Nat :=
  match valueT g w a with
  | .nan => nanOf g w
  | .inf n => if n then 0 else infOf g w
  | .fin v =>
    let k := (-v.e).toNat
    let x := v.at_ (min v.e 0)
    let n := x / 2 ^ k
    let f := (x % 2 ^ k).toNat
    if 128 ≤ n then infOf g w
    else if n < -200 then 0
    else if f = 0 then encodeT g w false 1 n
    else agree (fun p =>
      let r := exp2Bounds p k f
      (encodeT g w false r.1 (n - p), encodeT g w false r.2 (n - p))) [128, 256, 512]

/-- The order of numbers with −0 below +0. -/
def orderT (w a : Nat) : Nat := if signT w a then 2 ^ w - 1 - a % 2 ^ w else 2 ^ (w - 1) + a % 2 ^ (w - 1)

/-- The minimum and maximum of R117. -/
def pickT (g : Grid) (w : Nat) (larger : Bool) (a b : Nat) : Nat :=
  if isNanT g w a then (if isNanT g w b then nanOf g w else b)
  else if isNanT g w b then a
  else if larger then (if orderT w a < orderT w b then b else a)
  else if orderT w b < orderT w a then b else a

/-- The order of values, both zeros alike (R119). -/
def keyT (w a : Nat) : Int := if signT w a then -(a % 2 ^ (w - 1) : Nat) else (a % 2 ^ (w - 1) : Nat)

/-! Element-wise operations (R257 to R260) -/

/-- The operations of R257 with two sources or one, the sources `a` and `b`, and `d` as it stands. -/
inductive VOp where | add | sub | mul | div | fma | min | max | abs | neg | rcp | rsq | exp2
  deriving DecidableEq, Repr

/-- R257 on float elements. -/
def VOp.float (op : VOp) (g : Grid) (w d a b : Nat) : Nat :=
  let va := valueT g w a
  let vb := valueT g w b
  let sa := signT w a
  let sb := signT w b
  match op with
  | .add => roundT g w (va.add vb) (sa && sb)
  | .sub => roundT g w (va.add vb.neg) (sa && !sb)
  | .mul => roundT g w (va.mul vb) (sa != sb)
  | .div => divT g w a b
  | .fma => roundT g w ((valueT g w d).add (va.mul vb)) (signT w d && (sa != sb))
  | .min => pickT g w false a b
  | .max => pickT g w true a b
  | .abs => a % 2 ^ (w - 1)
  | .neg => (a + 2 ^ (w - 1)) % 2 ^ w
  | .rcp => divT g w (oneOf g) a
  | .rsq => rsqT g w a
  | .exp2 => exp2T g w a

/-- R257 on integer elements; the forms with none are refused at issue. -/
def VOp.int (op : VOp) (sg : Bool) (w d a b : Nat) : Nat :=
  match op with
  | .add => (a + b) % 2 ^ w
  | .sub => wrap w ((a : Int) - b)
  | .mul => a * b % 2 ^ w
  | .div => quotient sg w a b
  | .fma => (d + a * b) % 2 ^ w
  | .min => lesser sg w a b
  | .max => greater sg w a b
  | .abs => if sg then wrap w (sgn w a).natAbs else a % 2 ^ w
  | .neg => wrap w (-(a : Int))
  | _ => 0

/-- R257 on an element of a kind. -/
def VOp.apply (op : VOp) (k : Kind) (d a b : Nat) : Nat :=
  match k with
  | .float g w => op.float g w d a b
  | .int sg w => op.int sg w d a b

/-- Whether an operation has no meaning for a kind (R257). -/
def VOp.bad (op : VOp) (k : Kind) : Bool := !k.isFloat && (op == .rcp || op == .rsq || op == .exp2)

/-- The conditions of R259. -/
inductive VCmp where | eq | ne | lt | le
  deriving DecidableEq, Repr

/-- A condition on two elements of a kind (R119, R259). -/
def VCmp.holds (c : VCmp) (k : Kind) (a b : Nat) : Bool :=
  match k with
  | .float g w =>
    let un := isNanT g w a || isNanT g w b
    let x := keyT w a
    let y := keyT w b
    match c with
    | .eq => !un && x == y
    | .ne => un || x != y
    | .lt => !un && decide (x < y)
    | .le => !un && decide (x ≤ y)
  | .int sg w =>
    let x := val sg w a
    let y := val sg w b
    match c with
    | .eq => x == y
    | .ne => x != y
    | .lt => decide (x < y)
    | .le => decide (x ≤ y)

/-! Conversion (R261) -/

/-- A real converted to an integer type: toward zero, saturating, NaN to 0 (R122). -/
def toIntT (sg : Bool) (w : Nat) (y : Real) : Nat :=
  wrap w (match y with
    | .nan => 0
    | .inf n => if n then lowest sg w else highest sg w
    | .fin v => clamp v.trunc (lowest sg w) (highest sg w))

/-- A float code converted to another float format: widening exactly, FP32 narrowed with NaN by R72, FP16 and BF16 by
value with the canonical NaN; a code of the format itself is copied (R261; DESIGN CHOICE, log 93). -/
def floatToFloat (g : Grid) (w : Nat) (h : Grid) (v a : Nat) : Nat :=
  if g = h then a
  else if w = 16 && v = 32 then widen16 g a
  else if w = 32 then narrow16 h a
  else roundT h v (valueT g w a) (signT w a)

/-- An element converted from a kind to another (R261). -/
def convertT (from_ to_ : Kind) (a : Nat) : Nat :=
  match from_, to_ with
  | .float g w, .float h v => floatToFloat g w h v a
  | .float g w, .int sg v => toIntT sg v (valueT g w a)
  | .int sg w, .float h v => roundT h v (.fin ⟨val sg w a, 0⟩) false
  | .int sg w, .int tg v => saturate tg v (val sg w a)

/-! Rows (R265) -/

/-- The sum of a row: exact and rounded once, or modulo 2^W (R265). -/
def rowSum (k : Kind) (l : List Nat) : Nat :=
  match k with
  | .float g w => roundT g w (l.foldl (fun y a => y.add (valueT g w a)) (.fin Dyadic.zero)) false
  | .int _ w => l.foldl (· + ·) 0 % 2 ^ w

/-- The maximum of a row, in ascending column (R265). -/
def rowMax (k : Kind) (l : List Nat) : Nat :=
  match l with
  | [] => 0
  | a :: l =>
    match k with
    | .float g w => l.foldl (pickT g w true) a
    | .int sg w => l.foldl (greater sg w) a

end Sys2Proof.Machine
end

