-- ==== Sys2Proof/Machine/Vector.lean ====
section
/-! DEFINITION. The vector engine: the meanings of groups 8 and 9 at issue, and what their commands do when they execute (R245 to R247, R256 to R268). -/

namespace Sys2Proof.Machine

/-! Shapes and elements (R246, R247) -/

/-- ROWS of a captured VSHAPE. -/
def rowsOf (v : Word) : Nat := bits v.toNat 20 16
/-- COLS of a captured VSHAPE. -/
def colsOf (v : Word) : Nat := bits v.toNat 9 0
/-- TYPE of a captured VSHAPE. -/
def typeOf (v : Word) : Nat := bits v.toNat 27 24
/-- The kind of a captured VSHAPE's elements. -/
def vkind (v : Word) : Kind := kindOf (typeOf v)
/-- Bytes of an element of a captured VSHAPE. -/
def esize (v : Word) : Nat := (typeSize (typeOf v)).getD 1
/-- Elements of a captured VSHAPE. -/
def count (v : Word) : Nat := rowsOf v * colsOf v

/-- A vector register of the command's core. -/
def vreg (c : Core) (o : Opd) : BitVec 4096 := match o with | .v i => c.v[i] | _ => 0
/-- A mask register of the command's core. -/
def mreg (c : Core) (o : Opd) : BitVec 512 := match o with | .m i => c.m[i] | _ => 0

/-- Element `i` of size `s` bytes of a register (R247). -/
def elem (v : BitVec 4096) (s i : Nat) : Nat := v.toNat / 2 ^ (8 * s * i) % 2 ^ (8 * s)

/-- Element `i` of a source: of a register, or of a scalar broadcast (R256). -/
def source (c : Core) (o : Opd) (sc : Word) (s i : Nat) : Nat :=
  match o with
  | .v j => elem c.v[j] s i
  | _ => sc.toNat % 2 ^ (8 * s)

/-- Element `i` of a register replaced. -/
def setElem (v : BitVec 4096) (s i x : Nat) : BitVec 4096 :=
  let m := BitVec.ofNat 4096 (2 ^ (8 * s) - 1) <<< (8 * s * i)
  (v &&& ~~~m) ||| BitVec.ofNat 4096 (x % 2 ^ (8 * s)) <<< (8 * s * i)

/-- Elements of a register replaced, each by its index (R247: the other bytes keep their values). -/
def setElems (v : BitVec 4096) (s : Nat) (l : List (Nat × Nat)) : BitVec 4096 := l.foldl (fun v p => setElem v s p.1 p.2) v

/-- A vector register of a core written. -/
def Core.setV (c : Core) (o : Opd) (v : BitVec 4096) : Core := match o with | .v i => { c with v := c.v.set i v } | _ => c
/-- A mask register of a core written. -/
def Core.setM (c : Core) (o : Opd) (v : BitVec 512) : Core := match o with | .m i => { c with m := c.m.set i v } | _ => c

/-- The first `n` bits by a condition, the others clear (R259). -/
def maskOf (n : Nat) (f : Nat → Bool) : BitVec 512 :=
  BitVec.ofNat 512 ((List.range n).foldl (fun v i => if f i then v + 2 ^ i else v) 0)

/-! At issue -/

/-- No test beyond those of every command. -/
def noTest (_ : State) (_ : Word) : Except Stop Unit := .ok ()

/-- VTYPE.BAD for an operation the captured TYPE has no meaning for (R257). -/
def typeTest (op : VOp) (s : State) (_ : Word) : Except Stop Unit := failIf (op.bad (vkind s.me.vshape)) .vtypeBad

/-- VTYPE.BAD for a float TYPE (R258). -/
def intTest (s : State) (_ : Word) : Except Stop Unit := failIf (vkind s.me.vshape).isFloat .vtypeBad

/-- R257. -/
def cmdVadd (bound : Option (Fin 8 × Bool)) (s : State) : Run := vectorCmd .vadd (typeTest .add) bound s
/-- The same, issued. -/
def execVadd (s : State) := performCmd s cmdVadd
/-- R257. -/
def cmdVsub (bound : Option (Fin 8 × Bool)) (s : State) : Run := vectorCmd .vsub (typeTest .sub) bound s
/-- The same, issued. -/
def execVsub (s : State) := performCmd s cmdVsub
/-- R257. -/
def cmdVmul (bound : Option (Fin 8 × Bool)) (s : State) : Run := vectorCmd .vmul (typeTest .mul) bound s
/-- The same, issued. -/
def execVmul (s : State) := performCmd s cmdVmul
/-- R257. -/
def cmdVdiv (bound : Option (Fin 8 × Bool)) (s : State) : Run := vectorCmd .vdiv (typeTest .div) bound s
/-- The same, issued. -/
def execVdiv (s : State) := performCmd s cmdVdiv
/-- R257. -/
def cmdVfma (bound : Option (Fin 8 × Bool)) (s : State) : Run := vectorCmd .vfma (typeTest .fma) bound s
/-- The same, issued. -/
def execVfma (s : State) := performCmd s cmdVfma
/-- R257. -/
def cmdVmin (bound : Option (Fin 8 × Bool)) (s : State) : Run := vectorCmd .vmin (typeTest .min) bound s
/-- The same, issued. -/
def execVmin (s : State) := performCmd s cmdVmin
/-- R257. -/
def cmdVmax (bound : Option (Fin 8 × Bool)) (s : State) : Run := vectorCmd .vmax (typeTest .max) bound s
/-- The same, issued. -/
def execVmax (s : State) := performCmd s cmdVmax
/-- R257. -/
def cmdVabs (bound : Option (Fin 8 × Bool)) (s : State) : Run := vectorCmd .vabs (typeTest .abs) bound s
/-- The same, issued. -/
def execVabs (s : State) := performCmd s cmdVabs
/-- R257. -/
def cmdVneg (bound : Option (Fin 8 × Bool)) (s : State) : Run := vectorCmd .vneg (typeTest .neg) bound s
/-- The same, issued. -/
def execVneg (s : State) := performCmd s cmdVneg
/-- R257: VTYPE.BAD in an integer TYPE. -/
def cmdVrcp (bound : Option (Fin 8 × Bool)) (s : State) : Run := vectorCmd .vrcp (typeTest .rcp) bound s
/-- The same, issued. -/
def execVrcp (s : State) := performCmd s cmdVrcp
/-- R257: VTYPE.BAD in an integer TYPE. -/
def cmdVrsq (bound : Option (Fin 8 × Bool)) (s : State) : Run := vectorCmd .vrsq (typeTest .rsq) bound s
/-- The same, issued. -/
def execVrsq (s : State) := performCmd s cmdVrsq
/-- R257: VTYPE.BAD in an integer TYPE. -/
def cmdVexp2 (bound : Option (Fin 8 × Bool)) (s : State) : Run := vectorCmd .vexp2 (typeTest .exp2) bound s
/-- The same, issued. -/
def execVexp2 (s : State) := performCmd s cmdVexp2
/-- R258. -/
def cmdVand (bound : Option (Fin 8 × Bool)) (s : State) : Run := vectorCmd .vand noTest bound s
/-- The same, issued. -/
def execVand (s : State) := performCmd s cmdVand
/-- R258. -/
def cmdVor (bound : Option (Fin 8 × Bool)) (s : State) : Run := vectorCmd .vor noTest bound s
/-- The same, issued. -/
def execVor (s : State) := performCmd s cmdVor
/-- R258. -/
def cmdVxor (bound : Option (Fin 8 × Bool)) (s : State) : Run := vectorCmd .vxor noTest bound s
/-- The same, issued. -/
def execVxor (s : State) := performCmd s cmdVxor
/-- R258. -/
def cmdVnot (bound : Option (Fin 8 × Bool)) (s : State) : Run := vectorCmd .vnot noTest bound s
/-- The same, issued. -/
def execVnot (s : State) := performCmd s cmdVnot
/-- R258: an integer TYPE, or VTYPE.BAD. -/
def cmdVshl (bound : Option (Fin 8 × Bool)) (s : State) : Run := vectorCmd .vshl intTest bound s
/-- The same, issued. -/
def execVshl (s : State) := performCmd s cmdVshl
/-- R258: an integer TYPE, or VTYPE.BAD. -/
def cmdVshr (bound : Option (Fin 8 × Bool)) (s : State) : Run := vectorCmd .vshr intTest bound s
/-- The same, issued. -/
def execVshr (s : State) := performCmd s cmdVshr
/-- R258: an integer TYPE, or VTYPE.BAD. -/
def cmdVsar (bound : Option (Fin 8 × Bool)) (s : State) : Run := vectorCmd .vsar intTest bound s
/-- The same, issued. -/
def execVsar (s : State) := performCmd s cmdVsar
/-- R259. -/
def cmdVceq (bound : Option (Fin 8 × Bool)) (s : State) : Run := vectorCmd .vceq noTest bound s
/-- The same, issued. -/
def execVceq (s : State) := performCmd s cmdVceq
/-- R259. -/
def cmdVcne (bound : Option (Fin 8 × Bool)) (s : State) : Run := vectorCmd .vcne noTest bound s
/-- The same, issued. -/
def execVcne (s : State) := performCmd s cmdVcne
/-- R259. -/
def cmdVclt (bound : Option (Fin 8 × Bool)) (s : State) : Run := vectorCmd .vclt noTest bound s
/-- The same, issued. -/
def execVclt (s : State) := performCmd s cmdVclt
/-- R259. -/
def cmdVcle (bound : Option (Fin 8 × Bool)) (s : State) : Run := vectorCmd .vcle noTest bound s
/-- The same, issued. -/
def execVcle (s : State) := performCmd s cmdVcle
/-- R260. -/
def cmdVsel (bound : Option (Fin 8 × Bool)) (s : State) : Run := vectorCmd .vsel noTest bound s
/-- The same, issued. -/
def execVsel (s : State) := performCmd s cmdVsel
/-- R260. -/
def cmdVmov (bound : Option (Fin 8 × Bool)) (s : State) : Run := vectorCmd .vmov noTest bound s
/-- The same, issued. -/
def execVmov (s : State) := performCmd s cmdVmov
/-- R260. -/
def cmdVbcast (bound : Option (Fin 8 × Bool)) (s : State) : Run := vectorCmd .vbcast noTest bound s
/-- The same, issued. -/
def execVbcast (s : State) := performCmd s cmdVbcast
/-- R261: VTYPE.BAD for a source TYPE above 10 or a source tile of more than 512 bytes. -/
def cmdVcvt (bound : Option (Fin 8 × Bool)) (s : State) : Run := vectorCmd .vcvt (fun s b =>
  match typeSize b.toNat with
  | none => fail .vtypeBad
  | some n => failIf (512 < count s.me.vshape * n) .vtypeBad) bound s
/-- The same, issued. -/
def execVcvt (s : State) := performCmd s cmdVcvt
/-- R264: VIDX.BAD for an element index outside the tile. -/
def cmdVpush (bound : Option (Fin 8 × Bool)) (s : State) : Run := vectorCmd .vpush (fun s b => failIf (count s.me.vshape ≤ b.toNat) .vidxBad) bound s
/-- The same, issued. -/
def execVpush (s : State) := performCmd s cmdVpush
/-- R264: VIDX.BAD for an element index outside the tile. -/
def cmdVpop (bound : Option (Fin 8 × Bool)) (s : State) : Run := vectorCmd .vpop (fun s b => failIf (count s.me.vshape ≤ b.toNat) .vidxBad) bound s
/-- The same, issued. -/
def execVpop (s : State) := performCmd s cmdVpop
/-- R265. -/
def cmdVrsum (bound : Option (Fin 8 × Bool)) (s : State) : Run := vectorCmd .vrsum noTest bound s
/-- The same, issued. -/
def execVrsum (s : State) := performCmd s cmdVrsum
/-- R265. -/
def cmdVrmax (bound : Option (Fin 8 × Bool)) (s : State) : Run := vectorCmd .vrmax noTest bound s
/-- The same, issued. -/
def execVrmax (s : State) := performCmd s cmdVrmax
/-- R266: VSHAPE.BAD for more than 16 columns. -/
def cmdVtrn (bound : Option (Fin 8 × Bool)) (s : State) : Run := vectorCmd .vtrn (fun s _ => failIf (16 < colsOf s.me.vshape) .vshapeBad) bound s
/-- The same, issued. -/
def execVtrn (s : State) := performCmd s cmdVtrn
/-- R266: VSHAPE.BAD for more than 256 elements. -/
def cmdVshf (bound : Option (Fin 8 × Bool)) (s : State) : Run := vectorCmd .vshf (fun s _ => failIf (256 < count s.me.vshape) .vshapeBad) bound s
/-- The same, issued. -/
def execVshf (s : State) := performCmd s cmdVshf
/-- R267. -/
def cmdMand (bound : Option (Fin 8 × Bool)) (s : State) : Run := vectorCmd .mand noTest bound s
/-- The same, issued. -/
def execMand (s : State) := performCmd s cmdMand
/-- R267. -/
def cmdMor (bound : Option (Fin 8 × Bool)) (s : State) : Run := vectorCmd .mor noTest bound s
/-- The same, issued. -/
def execMor (s : State) := performCmd s cmdMor
/-- R267. -/
def cmdMxor (bound : Option (Fin 8 × Bool)) (s : State) : Run := vectorCmd .mxor noTest bound s
/-- The same, issued. -/
def execMxor (s : State) := performCmd s cmdMxor
/-- R267. -/
def cmdMnot (bound : Option (Fin 8 × Bool)) (s : State) : Run := vectorCmd .mnot noTest bound s
/-- The same, issued. -/
def execMnot (s : State) := performCmd s cmdMnot
/-- R267. -/
def cmdMset (bound : Option (Fin 8 × Bool)) (s : State) : Run := vectorCmd .mset noTest bound s
/-- The same, issued. -/
def execMset (s : State) := performCmd s cmdMset
/-- R267. -/
def cmdMclr (bound : Option (Fin 8 × Bool)) (s : State) : Run := vectorCmd .mclr noTest bound s
/-- The same, issued. -/
def execMclr (s : State) := performCmd s cmdMclr

/-- A vector command with a memory operand: `grains` tests it and lists what it touches (R249, R262). -/
def vectorMem (row : Instr) (grains : Nat → Int → State → Except Stop (List Grain)) (bound : Option (Fin 8 × Bool))
    (s : State) : Run := do
  let a ← scalar s.ir.a s
  let b ← scalar s.ir.b s
  let gs ← grains (a.toNat % 2 ^ 56) b.toInt s
  let _ ← bufTests s gs
  accept { newCmd s row .vector bound with sa := a, sb := b, memA := gs } s

/-- The rows of a tile of raw bytes (R262). -/
def tileGrains (a : Nat) (pitch : Int) (s : State) : Except Stop (List Grain) := do
  let v := s.me.vshape
  let n := esize v
  let _ ← if a % n = 0 && pitch % n = 0 then .ok () else failAt .align a
  grainRows s (colsOf v * n) (pitchRows a pitch (rowsOf v))

/-- R262. -/
def cmdVld (bound : Option (Fin 8 × Bool)) (s : State) : Run := vectorMem .vld tileGrains bound s
/-- The same, issued. -/
def execVld (s : State) := performCmd s cmdVld
/-- R262. -/
def cmdVst (bound : Option (Fin 8 × Bool)) (s : State) : Run := vectorMem .vst tileGrains bound s
/-- The same, issued. -/
def execVst (s : State) := performCmd s cmdVst

/-- One row of `vldd`: its format byte, and its elements or the parts of memory they fill (R186, R263). -/
def decodedRow (s : State) (a : Nat) (cols base : Nat) (pitch : Int) :
    Except Stop (BitVec 8 × List Grain × List (Nat × Nat)) := do
  let (u, off) ← engineAddr s a
  let t := s.tag (localPlace u off)
  match formatOf t with
  | .raw => failAt .fmtRaw a
  | .b8 _ =>
    match slotOf t (off % 4096) with
    | none => failAt .fmtSlot a
    | some (i, _) =>
      if blockSize t * blocksOf (blockSize t) < i + cols then failAt .fmtSlot a
      else
        let gs := (List.range cols).filterMap fun j =>
          match slotOffset t (i + j) with
          | none => none
          | some o =>
            let at_ := off - off % 4096 + o
            (slotOf t o).map fun p => (⟨a - off % 4096 + o, u, at_, 1, some (off - off % 4096 + p.2)⟩ : Grain)
        return (t, gs, [])
  | f =>
    let _ ← if base % f.size = 0 && pitch % f.size = 0 then .ok () else failAt .align base
    return (t, [], (List.range cols).flatMap fun (j : Nat) => pieces (offsetAddr a (j * f.size)) f.size)

/-- R263: every row under the tag of the frame that holds its first byte; the tags are those at issue. The addresses of
the rows are tested first, then what the tags ask for, then the other addresses (DESIGN CHOICE, log 50). -/
def decodedRows (s : State) (a : Nat) (pitch : Int) : Except Stop (List (BitVec 8 × List Grain)) := do
  let v := s.me.vshape
  let firsts := pitchRows a pitch (rowsOf v)
  let _ ← homeTests s firsts
  let rs ← firsts.mapM fun r => decodedRow s r (colsOf v) a pitch
  let _ ← homeTests s ((rs.flatMap fun r => r.2.2).map (·.1))
  rs.mapM fun r => do
    let gs ← grainsAt s r.2.2
    return (r.1, r.2.1 ++ gs)

/-- R263. -/
def cmdVldd (bound : Option (Fin 8 × Bool)) (s : State) : Run := do
  let a ← scalar s.ir.a s
  let b ← scalar s.ir.b s
  let _ ← failIf (!(vkind s.me.vshape).isFloat) .vtypeBad
  let rs ← decodedRows s (a.toNat % 2 ^ 56) b.toInt
  let gs := (rs.map (·.2)).flatten
  let _ ← bufTests s gs
  let tags := rs.map fun r => BitVec.setWidth 512 r.1
  accept { newCmd s .vldd .vector bound with sa := a, sb := b, memA := gs, rows := tags } s
/-- The same, issued. -/
def execVldd (s : State) := performCmd s cmdVldd

/-- The 64 bytes of a mask (R267). -/
def maskGrains (a : Nat) (_ : Int) (s : State) : Except Stop (List Grain) := do
  let _ ← if a % 16 = 0 then .ok () else failAt .align a
  grainsOf s a 64

/-- R267. -/
def cmdMld (bound : Option (Fin 8 × Bool)) (s : State) : Run := vectorMem .mld maskGrains bound s
/-- The same, issued. -/
def execMld (s : State) := performCmd s cmdMld
/-- R267. -/
def cmdMst (bound : Option (Fin 8 × Bool)) (s : State) : Run := vectorMem .mst maskGrains bound s
/-- The same, issued. -/
def execMst (s : State) := performCmd s cmdMst

/-! `m.any`, `m.popc`, `m.first` (R268) -/

/-- Commands that are held, or stand behind a held one: bound commands, and those that an earlier such command keeps
from starting. -/
def stuck : List Cmd → List Cmd → List Cmd
  | [], l => l
  | x :: xs, l =>
    stuck xs (if x.phase == .queued &&
        (x.bound.isSome || l.any fun o => queueOf o.engine == queueOf x.engine || hinders o x) then x :: l else l)

/-- Whether the vector queue holds a command accepted before the `n`-th that executes or can start. -/
def Core.vectorBusy (c : Core) (n : Nat) : Bool :=
  let held := stuck c.cmds []
  c.cmds.any fun x => x.engine == .vector && x.order < n && !held.any fun y => y.order == x.order

/-- R268: waits for the earlier vector commands that execute or can start, then reads the mask. -/
def maskQuery (s : State) (f : BitVec 512 → Nat) : Host.Outcome State Fault Refusal :=
  performSeq s fun s =>
    let n := if s.me.asked then s.me.mark else s.here.accepted
    if s.here.vectorBusy n then .error (.block (some (s.modMe fun sl => { sl with asked := true, mark := n })))
    else dstLong s.ir.d (word (f (mreg s.here s.ir.a))) s

/-- R268. -/
def execMAny (s : State) := maskQuery s fun m => (m != 0).toNat
/-- R268. -/
def execMPopc (s : State) := maskQuery s fun m => popCount 512 m.toNat
/-- R268. -/
def execMFirst (s : State) := maskQuery s fun m => if m == 0 then 512 else trailZeros 512 m.toNat

/-! Execution -/

/-- An element-wise command (R257, R258): each element reads its sources before it is written. -/
def elementwise (c : Core) (x : Cmd) (f : Nat → Nat → Nat → Nat) : Core :=
  let s := esize x.vshape
  let old := vreg c x.ops.d
  c.setV x.ops.d (setElems old s ((List.range (count x.vshape)).map fun i =>
    (i, f (elem old s i) (source c x.ops.a x.sa s i) (source c x.ops.b x.sb s i))))

/-- A comparison (R259). -/
def compareAll (c : Core) (x : Cmd) (p : VCmp) : Core :=
  let s := esize x.vshape
  c.setM x.ops.d (maskOf (count x.vshape) fun i =>
    p.holds (vkind x.vshape) (source c x.ops.a x.sa s i) (source c x.ops.b x.sb s i))

/-- A command that writes elements from A alone. -/
def fromA (c : Core) (x : Cmd) (l : List (Nat × Nat)) : Core :=
  c.setV x.ops.d (setElems (vreg c x.ops.d) (esize x.vshape) l)

/-- The elements of A as rows of columns, by indices. -/
def rowElems (c : Core) (x : Cmd) (r : Nat) : List Nat :=
  (List.range (colsOf x.vshape)).map fun j => elem (vreg c x.ops.a) (esize x.vshape) (r * colsOf x.vshape + j)

/-- What a command that touches no memory and no queue does to its core's registers (R257 to R261, R265 to R267). -/
def registerEffect (c : Core) (x : Cmd) : Core :=
  let v := x.vshape
  let k := vkind v
  let w := k.width
  let s := esize v
  let n := count v
  let op := fun (o : VOp) => elementwise c x fun d a b => o.apply k d a b
  let masks := fun (f : BitVec 512 → BitVec 512 → BitVec 512) => c.setM x.ops.d (f (mreg c x.ops.a) (mreg c x.ops.b))
  match x.row with
  | .vadd => op .add
  | .vsub => op .sub
  | .vmul => op .mul
  | .vdiv => op .div
  | .vfma => op .fma
  | .vmin => op .min
  | .vmax => op .max
  | .vabs => op .abs
  | .vneg => op .neg
  | .vrcp => op .rcp
  | .vrsq => op .rsq
  | .vexp2 => op .exp2
  | .vand => elementwise c x fun _ a b => a &&& b
  | .vor => elementwise c x fun _ a b => a ||| b
  | .vxor => elementwise c x fun _ a b => a ^^^ b
  | .vnot => elementwise c x fun _ a _ => 2 ^ w - 1 - a
  | .vshl => elementwise c x fun _ a b => shiftLeft w a b
  | .vshr => elementwise c x fun _ a b => shiftRight w a b
  | .vsar => elementwise c x fun _ a b => shiftArith w a b
  | .vceq => compareAll c x .eq
  | .vcne => compareAll c x .ne
  | .vclt => compareAll c x .lt
  | .vcle => compareAll c x .le
  | .vsel =>
    let m := c.m[mselOf v]
    fromA c x ((List.range n).map fun i =>
      (i, if m.getLsbD i then source c x.ops.a x.sa s i else source c x.ops.b x.sb s i))
  | .vmov => c.setV x.ops.d (vreg c x.ops.a)
  | .vbcast => fromA c x ((List.range n).map fun i => (i, x.sa.toNat))
  | .vcvt =>
    let t := x.sb.toNat
    let z := (typeSize t).getD 1
    fromA c x ((List.range n).map fun i => (i, convertT (kindOf t) k (elem (vreg c x.ops.a) z i)))
  | .vrsum => fromA c x ((List.range (rowsOf v)).map fun r => (r * colsOf v, rowSum k (rowElems c x r)))
  | .vrmax => fromA c x ((List.range (rowsOf v)).map fun r => (r * colsOf v, rowMax k (rowElems c x r)))
  | .vtrn =>
    let a := vreg c x.ops.a
    fromA c x ((List.range n).map fun i => (i % colsOf v * rowsOf v + i / colsOf v, elem a s i))
  | .vshf =>
    let a := vreg c x.ops.a
    let b := vreg c x.ops.b
    fromA c x ((List.range n).map fun i => (i, if elem b 2 i < n then elem a s (elem b 2 i) else 0))
  | .mand => masks (· &&& ·)
  | .mor => masks (· ||| ·)
  | .mxor => masks (· ^^^ ·)
  | .mnot => masks fun a _ => ~~~a
  | .mset => c.setM x.ops.d (maskOf (min x.sa.toNat 512) fun _ => true)
  | .mclr => c.setM x.ops.d 0
  | _ => c

/-- An element read under a format byte, converted to a float kind (R74, R263). -/
def decodeTo (t : BitVec 8) (k : Kind) (b : List Byte × Nat) : Nat :=
  match k, formatOf t with
  | .float g w, .b8 f => roundT g w (scaledValue f (leNat b.1) b.2) false
  | k, .fp32 => convertT (.float fp32 32) k (leNat b.1)
  | k, .fp16 => convertT (.float fp16 16) k (leNat b.1)
  | k, .bf16 => convertT (.float bf16 16) k (leNat b.1)
  | _, _ => 0

/-- What `vst` writes of each byte of its tile: with MEN, only elements whose MSEL bit is set (R262). -/
def storedBytes (c : Core) (x : Cmd) : List (Option Byte) :=
  let v := x.vshape
  let s := esize v
  let bs := leBytes 512 (vreg c x.ops.d).toNat
  (List.range (count v * s)).map fun i =>
    if bit v.toNat 31 && !c.m[mselOf v].getLsbD (i / s) then none else some (bs.getD i 0)

/-- What a vector command that reads memory leaves in its core once it has read all of it (R262, R263, R267). -/
def loadedInto (c : Core) (x : Cmd) : Core :=
  let l := x.grains x.memA
  let bs := bytesOf l
  match x.row with
  | .vld =>
    c.setV x.ops.d (setElems (vreg c x.ops.d) 1 ((List.range bs.length).map fun i => (i, (bs.getD i 0).toNat)))
  | .vldd =>
    c.setV x.ops.d (setElems (vreg c x.ops.d) (esize x.vshape) ((List.range l.length).map fun i =>
      (i, decodeTo ((x.rows.getD (i / colsOf x.vshape) 0).setWidth 8) (vkind x.vshape) (l.getD i ([], 0)))))
  | _ => c.setM x.ops.d (BitVec.ofNat 512 (leNat bs))

/-- A vector command that reads memory goes on by one granule; after the last it writes its register and completes. -/
def loading (s : State) (x : Cmd) : State :=
  reading s x x.memA fun s x => retireCmd (s.setCore x.unit (loadedInto (s.core x.unit) x)) x

/-- A vector command that writes memory goes on by one granule of the bytes `bs`; after the last it completes. -/
def storing (s : State) (x : Cmd) (bs : List (Option Byte)) : State :=
  writing s (if x.step = 0 then { x.begin_ x.memA bs with step := 1 } else x) retireCmd

/-- What an executing vector command does when it goes on; none while it waits in execution (R255, R262 to R264). -/
def vectorEffect (s : State) (x : Cmd) : Option State :=
  let c := s.core x.unit
  let z := esize x.vshape
  match x.row with
  | .vld => some (loading s x)
  | .vst => some (storing s x (storedBytes c x))
  | .vldd => some (loading s x)
  | .mld => some (loading s x)
  | .mst => some (storing s x ((leBytes 64 (mreg c x.ops.d).toNat).map some))
  | .vpush =>
    match x.ops.d with
    | .q i =>
      if !x.present s then some (retireCmd s x)
      else if c.roomFor i then
        some (retireCmd (appendEntry s x i (word (elem (vreg c x.ops.a) z x.sb.toNat))) x)
      else none
    | _ => some (retireCmd s x)
  | .vpop =>
    match x.ops.a with
    | .q i =>
      if !x.present s then some (retireCmd s x)
      else
        match takeEntry i x.slot c.qs with
        | some (.word w, r) =>
          let c := { c with qs := r }
          some (retireCmd (s.setCore x.unit
            (c.setV x.ops.d (setElem (vreg c x.ops.d) z x.sb.toNat w.toNat))) x)
        | some (.failure e a _ _, r) => some (failCmd (s.setCore x.unit { c with qs := r }) x (e, a.toNat))
        | none => none
    | _ => some (retireCmd s x)
  | _ => some (retireCmd (s.setCore x.unit (registerEffect c x)) x)

end Sys2Proof.Machine
end

