-- ==== Sys2Proof/Machine/Matrix.lean ====
section
/-! DEFINITION. The matrix engine: the meanings of 0x280 to 0x288 at issue, and its array and row paths (R269 to R281). -/

namespace Sys2Proof.Machine

/-! Operands in memory (R274, R275) -/

/-- The register pair that an operand of kind 0 names, read at issue (R274). -/
def pairAt (s : State) (o : Opd) : Word × Word :=
  match o with
  | .x i => (s.st.x[i], s.st.x[i + 1])
  | _ => (0, 0)

/-- Whether an operand lies in memory: a kind 0 MO operand names a descriptor pair (R276). -/
def inMemory : Opd → Bool
  | .x _ => true
  | _ => false

/-- MMA.DESC (R274). -/
def descBad (p : Word × Word) : Bool :=
  bits p.1.toNat 63 56 != 0 || bits p.2.toNat 63 43 != 0 || bits p.2.toNat 31 16 % 16 != 0 || bits p.2.toNat 15 0 % 16 != 0

/-- RowAddr (R275). -/
def rowAddr (p : Word × Word) (i : Nat) : Nat :=
  let d := p.2.toNat
  (p.1.toNat + bits d 39 32 * bits d 31 16 + i * bits d 15 0 + 16 * (i * bits d 42 40 % 16)) % 2 ^ 56

/-- The format an `mma` reads. -/
inductive MmaFmt where | b8 | f16 | bf16
  deriving DecidableEq, Repr

/-- MMA.FMT and FMT.RAW for the frame tag of a row (R277). -/
def tagTest (f : MmaFmt) (t : BitVec 8) (a : Nat) : Except Stop Unit :=
  match f, formatOf t with
  | .b8, .raw => failAt .fmtRaw a
  | .b8, .b8 _ => .ok ()
  | .f16, .raw => .ok ()
  | .f16, .fp16 => .ok ()
  | .bf16, .raw => .ok ()
  | .bf16, .bf16 => .ok ()
  | _, _ => failAt .mmaFmt a

/-- The grains of a binary8 row of 32 element slots, or FMT.SLOT (R275). -/
def slotRow (t : BitVec 8) (a u off : Nat) : Except Stop (List Grain) :=
  match slotOf t (off % 4096) with
  | none => failAt .fmtSlot a
  | some (i, _) =>
    if blockSize t * blocksOf (blockSize t) < i + 32 then failAt .fmtSlot a
    else
      .ok ((List.range 32).filterMap fun j =>
        match slotOffset t (i + j) with
        | none => none
        | some o => (slotOf t o).map fun p =>
            (⟨a - off % 4096 + o, u, off - off % 4096 + o, 1, some (off - off % 4096 + p.2)⟩ : Grain))

/-- The address tests of step 4 on a memory operand: its rows' homes (R249, R275). -/
def rowTests (s : State) (f : MmaFmt) (p : Word × Word) : Except Stop Unit := do
  let _ ← if f != .b8 && p.1.toNat % 16 != 0 then failAt .align (p.1.toNat % 2 ^ 56) else .ok ()
  let _ ← if f == .b8 then .ok () else
    (List.range 16).forM fun i => if 4096 < rowAddr p i % 4096 + 32 then failAt .align (rowAddr p i) else .ok ()
  homeTests s ((List.range 16).flatMap fun i =>
    if f == .b8 then [rowAddr p i] else (pieces (rowAddr p i) 32).map (·.1))

/-- The grains of a memory operand, row by row, with each row's format byte, after the tests of its tags (R275 to
R277). -/
def operandRows (s : State) (f : MmaFmt) (p : Word × Word) : Except Stop (List Grain × List (BitVec 8)) := do
  let rs ← (List.range 16).mapM fun i => do
    let a := rowAddr p i
    let (u, off) ← engineAddr s a
    let t := s.tag (localPlace u off)
    let _ ← tagTest f t a
    let gs ← if f == .b8 then slotRow t a u off else grainsOf s a 32
    return (gs, t)
  return ((rs.map (·.1)).flatten, rs.map (·.2))

/-- The format bytes of sixteen rows kept as one number. -/
def packTags (l : List (BitVec 8)) : BitVec 512 := BitVec.ofNat 512 (leNat l)

/-- An `mma` at issue: MMA.DESC, the address tests of A then B, the tests of their tags, BUF.STATE (R276). -/
def mma (row : Instr) (f : MmaFmt) (bound : Option (Fin 8 × Bool)) (s : State) : Run := do
  let pa := pairAt s s.ir.a
  let pb := pairAt s s.ir.b
  let ma := inMemory s.ir.a
  let mb := inMemory s.ir.b
  let _ ← failIf ((ma && descBad pa) || (mb && descBad pb)) .mmaDesc
  let _ ← if ma then rowTests s f pa else .ok ()
  let _ ← if mb then rowTests s f pb else .ok ()
  let ga ← if ma then operandRows s f pa else .ok ([], [])
  let gb ← if mb then operandRows s f pb else .ok ([], [])
  let _ ← bufTests s (ga.1 ++ gb.1)
  accept { newCmd s row .array bound with
    sa := pa.1, sa2 := pa.2, sb := pb.1, sb2 := pb.2, memA := ga.1, memB := gb.1,
    rows := [packTags ga.2, packTags gb.2] } s

/-- R277. -/
def cmdMmaB8 (bound : Option (Fin 8 × Bool)) (s : State) : Run := mma .mmaB8 .b8 bound s
/-- The same, issued. -/
def execMmaB8 (s : State) := performCmd s cmdMmaB8
/-- R277. -/
def cmdMmaF16 (bound : Option (Fin 8 × Bool)) (s : State) : Run := mma .mmaF16 .f16 bound s
/-- The same, issued. -/
def execMmaF16 (s : State) := performCmd s cmdMmaF16
/-- R277. -/
def cmdMmaBf16 (bound : Option (Fin 8 × Bool)) (s : State) : Run := mma .mmaBf16 .bf16 bound s
/-- The same, issued. -/
def execMmaBf16 (s : State) := performCmd s cmdMmaBf16

/-- R278. -/
def cmdMzero (bound : Option (Fin 8 × Bool)) (s : State) : Run := accept (newCmd s .mzero .array bound) s
/-- The same, issued. -/
def execMzero (s : State) := performCmd s cmdMzero

/-- A tile's rows in memory (R279). -/
def tileRows (s : State) (a : Nat) (pitch : Int) : Except Stop (List Grain) := do
  let _ ← if a % 16 = 0 && pitch % 16 = 0 then .ok () else failAt .align a
  grainRows s 64 (pitchRows a pitch 16)

/-- `acld` and `acst` at issue (R279). -/
def tileCmd (row : Instr) (e : Engine) (bound : Option (Fin 8 × Bool)) (s : State) : Run := do
  let a ← scalar s.ir.a s
  let b ← scalar s.ir.b s
  let gs ← tileRows s (a.toNat % 2 ^ 56) b.toInt
  let _ ← bufTests s gs
  accept { newCmd s row e bound with sa := a, sb := b, memA := gs } s

/-- R279. -/
def cmdAcld (bound : Option (Fin 8 × Bool)) (s : State) : Run := tileCmd .acld .array bound s
/-- The same, issued. -/
def execAcld (s : State) := performCmd s cmdAcld
/-- R279. -/
def cmdAcst (bound : Option (Fin 8 × Bool)) (s : State) : Run := tileCmd .acst .row bound s
/-- The same, issued. -/
def execAcst (s : State) := performCmd s cmdAcst

/-- R280: out of a tile on the row path, into one on the array path; MMA.ARG. -/
def cmdAcmv (bound : Option (Fin 8 × Bool)) (s : State) : Run := do
  let b ← scalar s.ir.b s
  let _ ← failIf (3 < b.toNat) .mmaArg
  let e := match s.ir.d with | .t _ => Engine.array | _ => Engine.row
  accept { newCmd s .acmv e bound with sb := b } s
/-- The same, issued. -/
def execAcmv (s : State) := performCmd s cmdAcmv

/-- R281: MMA.ARG. -/
def cmdRstat (bound : Option (Fin 8 × Bool)) (s : State) : Run := do
  let b ← scalar s.ir.b s
  let n := b.toNat
  let _ ← failIf (n / 2 ^ 9 != 0 || bits n 7 5 != 0 || 16 < n % 32) .mmaArg
  accept { newCmd s .rstat .row bound with sb := b } s
/-- The same, issued. -/
def execRstat (s : State) := performCmd s cmdRstat

/-! Tiles (R269) -/

/-- The tile number an operand names. -/
def tileOf : Opd → Fin 4
  | .t i => i
  | _ => 0

/-- Row `i` of a tile. -/
def tileRow (t : BitVec 8192) (i : Nat) : BitVec 512 := BitVec.ofNat 512 (t.toNat / 2 ^ (512 * i))

/-- Row `i` of a tile replaced. -/
def setTileRow (t : BitVec 8192) (i : Nat) (r : BitVec 512) : BitVec 8192 :=
  (t &&& ~~~(BitVec.ofNat 8192 (2 ^ 512 - 1) <<< (512 * i))) ||| (r.setWidth 8192 <<< (512 * i))

/-- FP32 element `j` of a row. -/
def rowElem (r : BitVec 512) (j : Nat) : Nat := r.toNat / 2 ^ (32 * j) % 2 ^ 32

/-- A row from its sixteen FP32 codes. -/
def packRow (l : List Nat) : BitVec 512 := BitVec.ofNat 512 (l.foldr (fun a n => a + 2 ^ 32 * n) 0)

/-! Results of the array path (R277 to R280) -/

/-- The elements of a row of a register operand as reals (R277). -/
def regRow (f : MmaFmt) (v : BitVec 4096) (fmt scale i : Nat) : List Real :=
  match f with
  | .b8 => (List.range 32).map fun k => scaledValue fmt (elem v 1 (32 * i + k)) scale
  | .f16 => (List.range 16).map fun k => valueT fp16 16 (elem v 2 (16 * i + k))
  | .bf16 => (List.range 16).map fun k => valueT bf16 16 (elem v 2 (16 * i + k))

/-- The elements of a row of a memory operand as reals, from what was read of it (R277). -/
def memRow (f : MmaFmt) (t : BitVec 8) (l : List (List Byte × Nat)) (i : Nat) : List Real :=
  match f with
  | .b8 =>
    let fmt := match formatOf t with | .b8 c => c | _ => 4
    (List.range 32).map fun k => let b := l.getD (32 * i + k) ([], 0); scaledValue fmt (leNat b.1) b.2
  | f =>
    let bs := bytesOf l
    (List.range 16).map fun k =>
      let c := leNat ((bs.drop (32 * i + 2 * k)).take 2)
      if f == .f16 then valueT fp16 16 c else valueT bf16 16 c

/-- The sixteen rows of an operand of an `mma`. -/
def operand (f : MmaFmt) (c : Core) (o : Opd) (fmt scale : Nat) (tags : BitVec 512) (l : List (List Byte × Nat)) :
    List (List Real) :=
  (List.range 16).map fun i =>
    match o with
    | .v j => regRow f c.v[j] fmt scale i
    | _ => memRow f (BitVec.ofNat 8 (tags.toNat / 2 ^ (8 * i))) l i

/-- The rows an `mma` writes (R277). -/
def mmaRows (f : MmaFmt) (c : Core) (x : Cmd) (la lb : List (List Byte × Nat)) : List (BitVec 512) :=
  let m := x.mxcfg.toNat
  let as := operand f c x.ops.a (bits m 4 0) (bits m 23 16) (x.rows.getD 0 0) la
  let bs := operand f c x.ops.b (bits m 12 8) (bits m 31 24) (x.rows.getD 1 0) lb
  let t := c.t[tileOf x.ops.d]
  (List.range 16).map fun i =>
    packRow ((List.range 16).map fun j =>
      groupAdd (rowElem (tileRow t i) j) ((as.getD i []).zip (bs.getD j [])))

/-- The rows that `acmv` into a tile writes (R280). -/
def moveRows (c : Core) (x : Cmd) : List (BitVec 512) :=
  let v := vreg c x.ops.a
  let t := c.t[tileOf x.ops.d]
  let mode := x.sb.toNat
  (List.range 16).map fun i =>
    if mode < 2 then
      if i / 8 = mode then packRow ((List.range 16).map fun j => elem v 4 (16 * (i % 8) + j)) else tileRow t i
    else
      packRow ((List.range 16).map fun j => widen16 (if mode = 2 then fp16 else bf16) (elem v 2 (16 * i + j)))

/-- The rows a command of the array path writes, once it has read every memory operand (R273). -/
def arrayRows (c : Core) (x : Cmd) : List (BitVec 512) :=
  let both := fun (f : MmaFmt) => mmaRows f c x (x.grains x.memA) (x.grains x.memB)
  match x.row with
  | .mmaB8 => both .b8
  | .mmaF16 => both .f16
  | .mmaBf16 => both .bf16
  | .acld =>
    let bs := bytesOf (x.grains x.memA)
    (List.range 16).map fun i => BitVec.ofNat 512 (leNat ((bs.drop (64 * i)).take 64))
  | .acmv => moveRows c x
  | _ => List.replicate 16 0

/-- A command of the array path starts, and FINAL of its tile becomes 0 (R272). -/
def startArray (s : State) (x : Cmd) : State :=
  (s.setCmd { x with phase := .executing }).modCore x.unit fun c => { c with final := c.final.set (tileOf x.ops.d) 0 }

/-- Whether every matrix command accepted before one has completed, its memory writes with it (R281). -/
def Core.firstMatrix (c : Core) (x : Cmd) : Bool := !(c.cmds.any fun y => queueOf y.engine == 1 && y.order < x.order)

/-- Whether a matrix command has no register left to write: `acst` writes none (R272). -/
def Cmd.written (x : Cmd) : Bool := x.row == .acst || 16 ≤ x.step

/-- Whether every register write of the matrix commands accepted before one has completed (R272). -/
def Core.tilesBefore (c : Core) (x : Cmd) : Bool :=
  c.cmds.all fun y => !(queueOf y.engine == 1 && y.order < x.order) || y.written

/-- A watermark entry (R272). -/
def watermarkEntry (x : Cmd) : Word :=
  BitVec.ofNat 64 (x.dseq.toNat + (tileOf x.ops.d).val * 2 ^ 32 + x.failed.toNat * 2 ^ 62 + 2 ^ 63)

/-- A command of the array path that has read its operands goes on: its next row is written and FINAL follows; after the
last, its watermark entry is appended when WNOTE was captured, and it completes (R272). None while it waits. -/
def arrayWrite (s : State) (x : Cmd) : Option State :=
  let n := tileOf x.ops.d
  let s := if x.step < 16 then
      (s.modCore x.unit fun c =>
        { c with t := c.t.set n (setTileRow c.t[n] x.step (x.rows.getD x.step 0)),
                 final := c.final.set n (BitVec.ofNat 5 (x.step + 1)) }).setCmd { x with step := x.step + 1 }
    else s
  if x.step < 15 then some s
  else if bit x.mxcfg.toNat 32 && x.present s then
    if (s.core x.unit).tilesBefore x && (s.core x.unit).roomFor 4 then
      some (retireCmd (appendEntry s x 4 (watermarkEntry x)) x)
    else if x.step < 16 then some s else none
  else some (retireCmd s x)

/-- A command of the array path goes on: it reads the next granule of its memory operands, or writes its next row. A
failed read is deferred, and the tile keeps its contents with FINAL 16 (R272, R273). None while it waits. -/
def arrayStep (s : State) (x : Cmd) : Option State :=
  let l := x.memA ++ x.memB
  let full := fun (y : Cmd) => { y with loaded := true, rows := arrayRows (s.core x.unit) y }
  if x.loaded then arrayWrite s x
  else
    match x.nextRead l with
    | none => arrayWrite s (full x)
    | some v =>
      match readGranule s x v with
      | .error e =>
        some (((deferFault s x e.1 e.2).setCmd { x with loaded := true, failed := true, step := 16 }).modCore x.unit
          fun c => { c with final := c.final.set (tileOf x.ops.d) 16 })
      | .ok y => some (s.setCmd (if (y.nextRead l).isNone then full y else y))

/-! The row path (R271, R279 to R281) -/

/-- The tile a command of the row path reads. -/
def Cmd.tileRead (x : Cmd) : Fin 4 := match x.row with | .acst => tileOf x.ops.d | _ => tileOf x.ops.a

/-- Bytes of a vector register replaced from an offset on. -/
def setRegBytes (v : BitVec 4096) (off : Nat) (bs : List Byte) : BitVec 4096 :=
  setElems v 1 ((List.range bs.length).map fun i => (off + i, (bs.getD i 0).toNat))

/-- The statistics of a row's first `n` columns (R281). -/
def rowStats (r : BitVec 512) (n : Nat) : List Byte :=
  let l := (List.range n).map (rowElem r)
  let mx := match l with | [] => 0 | a :: l => l.foldl (pick32 true) a
  let sum := fun (f : Nat → Real) => round32 (l.foldl (fun y a => y.add (f a)) (.fin Dyadic.zero)) false
  leBytes 4 mx ++ leBytes 4 (sum value32) ++ leBytes 4 (sum fun a => (value32 a).mul (value32 a))

/-- What `acmv` out of a tile writes for row `i`: the offset in the register and the bytes; none for a row the mode does
not move (R280). -/
def movedRow (mode i : Nat) (r : BitVec 512) : Option (Nat × List Byte) :=
  if mode < 2 then (if i / 8 = mode then some (64 * (i % 8), leBytes 64 r.toNat) else none)
  else
    let g := if mode = 2 then fp16 else bf16
    some (32 * i, ((List.range 16).map fun j => leBytes 2 (narrow16 g (rowElem r j))).flatten)

/-- A row path command that writes a register processes row `i` of its tile. -/
def rowEffect (c : Core) (x : Cmd) (i : Nat) : Core :=
  let r := tileRow c.t[x.tileRead] i
  let d := vreg c x.ops.d
  match x.row with
  | .rstat =>
    let n := x.sb.toNat % 32
    c.setV x.ops.d (setRegBytes d (32 * i) (rowStats r (if n = 0 then 16 else n)))
  | _ =>
    match movedRow x.sb.toNat i r with
    | some (off, bs) => c.setV x.ops.d (setRegBytes d off bs)
    | none => c

/-- A row path command with row `x.step` of its tile before it: `acst` writes the next granule of the row, and a refused
one ends it (R254); the others write their register. -/
def rowNext (s : State) (x : Cmd) : State :=
  let done := fun (s : State) (x : Cmd) => s.setCmd { x with step := x.step + 1 }
  match x.row with
  | .acst =>
    let r := tileRow (s.core x.unit).t[x.tileRead] x.step
    writing s
      (if x.todo.isEmpty then x.begin_ ((x.memA.drop (4 * x.step)).take 4) ((leBytes 64 r.toNat).map some) else x) done
  | _ => done (s.setCore x.unit (rowEffect (s.core x.unit) x x.step)) x

/-- A command of the row path goes on with its next row once FINAL has passed it; after the last, `rstat` with NOTE
appends its entry, and the command completes (R272, R281). None while it waits. -/
def rowStep (s : State) (x : Cmd) : Option State :=
  let fin := (s.core x.unit).final[x.tileRead].toNat
  if x.step < 16 then if x.step < fin || !x.todo.isEmpty then some (rowNext s x) else none
  else if x.row == .rstat && bit x.sb.toNat 8 && x.present s then
    if (s.core x.unit).firstMatrix x && (s.core x.unit).roomFor 4 then
      some (retireCmd (appendEntry s x 4 (x.dseq.setWidth 64)) x)
    else none
  else some (retireCmd s x)

end Sys2Proof.Machine
end

