-- ==== Sys2Proof/Machine/Copy.lean ====
section
/-! DEFINITION. The copy engine: the meanings of 0x290 to 0x293 at issue, and its commands' execution (R282 to R285). -/

namespace Sys2Proof.Machine

/-! At issue -/

/-- The buffer whose S holds every grain of a destination, at one home; else CPY.DST (R282). -/
def shadowOf (s : State) (a : Nat) : List Grain → Except Stop (Nat × Fin 16)
  | [] => failAt .cpyDst a
  | g :: gs =>
    match (s.core g.home).bufAt g.off with
    | none => failAt .cpyDst g.addr
    | some i =>
      let d := (s.core g.home).bufs[i]
      match (g :: gs).find? fun h => h.home != g.home || !Buf.inS d h.off with
      | some h => failAt .cpyDst h.addr
      | none => .ok (g.home, i)

/-- The state of the destination's buffer tested, and the command registered there: the strand waits as on a long load
(R282). -/
def registerCopy (s : State) (x : Cmd) (a : Nat) (buf : Nat × Fin 16) : Run := do
  if 2 ≤ (s.here.queued 2).length then .error .hold
  else if Buf.filling (s.core buf.1).bufs[buf.2] then
    let s ← accept { x with buffer := some buf } s
    return landLong [] s
  else failAt .bufState a

/-- ALIGN for addresses that are no multiples of `n`. -/
def alignTest (n : Nat) : List Nat → Except Stop Unit
  | [] => .ok ()
  | a :: as => if a % n = 0 then alignTest n as else failAt .align a

/-- The least number that a copy form's addresses are multiples of: its source's, and its destination's (R283 to R285). -/
def sourceAlign : Instr → Nat
  | .cpyGth => 8
  | _ => 16

/-- CPY.LEN for a length word (R283). -/
def lengthBad (b : Nat) : Bool :=
  b / 2 ^ 33 != 0 || bits b 31 13 != 0 || bits b 12 0 % 16 != 0 || bits b 12 0 == 0 || 4096 < bits b 12 0

/-- CPY.LEN for a rectangle (R284). -/
def rectBad (b : Nat) : Bool :=
  rectangleBad b (bits b 14 0) || 4096 < bits b 31 16 * bits b 14 0

/-- CPY.LEN for a count word (R285). -/
def gatherBad (b : Nat) : Bool :=
  b / 2 ^ 33 != 0 || bits b 31 9 != 0 || bits b 8 0 == 0 || 256 < bits b 8 0

/-- CPY.LEN for the word B of a copy form. -/
def copyLenBad (row : Instr) (b : Nat) : Bool :=
  match row with
  | .cpy2d => rectBad b
  | .cpyGth => gatherBad b
  | _ => lengthBad b

/-- The source of a copy form from address `a` under its word B: the addresses of its rows, and the bytes of each. A
pattern has none, and a gather's is its list (R283 to R285). -/
def copyFrom (row : Instr) (a b : Nat) : List Nat × Nat :=
  match row with
  | .cpy => ([a], bits b 12 0)
  | .cpy2d => ((List.range (bits b 31 16)).map fun i => (a + i * bits b 47 32) % 2 ^ 56, bits b 14 0)
  | .cpyGth => ([a], 8 * bits b 8 0)
  | _ => ([], 0)

/-- Its destination at address `d`, in the same way. -/
def copyTo (row : Instr) (d b : Nat) : List Nat × Nat :=
  match row with
  | .cpy2d => ((List.range (bits b 31 16)).map fun i => (d + i * bits b 63 48) % 2 ^ 56, bits b 14 0)
  | .cpyGth => ([d], 16 * bits b 8 0)
  | _ => ([d], bits b 12 0)

/-- A word B under which a form copies its first granule, or looks at its first list entry, and no more. -/
def firstOnly : Instr → Nat
  | .cpy2d => 16 + 2 ^ 16
  | .cpyGth => 1
  | _ => 16

/-- ALIGN for a copy form's source and destination. -/
def copyAlign (row : Instr) (a d b : Nat) : Except Stop Unit :=
  alignTest (sourceAlign row) (if (copyFrom row a b).1.isEmpty then [] else [a]) >>= fun _ => alignTest 16 [d]

/-- A copy form under its word B: ALIGN, the homes of its source and then of its destination, CPY.DST, and the BUF.STATE
of its source; its grains, and the buffer whose S it fills (R282). -/
def copyTests (row : Instr) (s : State) (a d b : Nat) : Except Stop (List Grain × List Grain × Nat × Fin 16) := do
  let _ ← copyAlign row a d b
  let ga ← grainRows s (copyFrom row a b).2 (copyFrom row a b).1
  let gb ← grainRows s (copyTo row d b).2 (copyTo row d b).1
  let buf ← shadowOf s d gb
  let _ ← bufTests s ga
  return (ga, gb, buf)

/-- A copy command at issue. A word B that comes from a queue is read when the command executes (R251): until then its
length is not known, and the tests at issue are those of its first granules (DESIGN CHOICE, log 77). -/
def copyCmd (row : Instr) (bound : Option (Fin 8 × Bool)) (s : State) : Run := do
  let d ← scalar s.ir.d s
  let a ← scalar s.ir.a s
  let b ← scalar s.ir.b s
  let late := match s.ir.b with | .q _ => true | _ => false
  let _ ← failIf (!late && copyLenBad row b.toNat) .cpyLen
  let to_ := d.toNat % 2 ^ 56
  let (ga, gb, buf) ← copyTests row s (a.toNat % 2 ^ 56) to_ (if late then firstOnly row else b.toNat)
  registerCopy s { newCmd s row .copy bound with sd := d, sa := a, sb := b, memA := ga, memB := gb } to_ buf

/-- R283. -/
def cmdCpy (bound : Option (Fin 8 × Bool)) (s : State) : Run := copyCmd .cpy bound s
/-- The same, issued. -/
def execCpy (s : State) := performCmd s cmdCpy

/-- R283: the pattern Src(A) in both halves of every granule; one that comes from a queue is read when the command
executes (R251). -/
def cmdCpyFill (bound : Option (Fin 8 × Bool)) (s : State) : Run := copyCmd .cpyFill bound s
/-- The same, issued. -/
def execCpyFill (s : State) := performCmd s cmdCpyFill

/-- R284: row i from a + i × SPITCH to d + i × DPITCH. -/
def cmdCpy2d (bound : Option (Fin 8 × Bool)) (s : State) : Run := copyCmd .cpy2d bound s
/-- The same, issued. -/
def execCpy2d (s : State) := performCmd s cmdCpy2d

/-- R285: the list is tested like a source; what it names is read at execution. -/
def cmdCpyGth (bound : Option (Fin 8 × Bool)) (s : State) : Run := copyCmd .cpyGth bound s
/-- The same, issued. -/
def execCpyGth (s : State) := performCmd s cmdCpyGth

/-! Execution -/

/-- A copy command writes the next granule of its destination and sets it full; after the last, `k` is what it does. A
refused one ends it (R192, R201, R254, R282). -/
def copyWrite (s : State) (x : Cmd) (k : State → Cmd → State) : State :=
  match x.todo with
  | [] => k s x
  | g :: gs =>
    let p := writePlace s g.home g.off
    if s.anyPoison p g.n then failCmd s x (.memPoison, g.addr)
    else
      let s := (s.store false p ((x.out.take g.n).map fun b => b.getD 0)).fill x.sender.ctx g.home p
      let s := (s.learn (dieOf g.home) x.dep).serve g.home
      let x := { x with todo := gs, out := x.out.drop g.n }
      if gs.isEmpty then k s x else s.setCmd x

/-- One entry of a gather list tested and read: a deferred fault's cause, with the entry as its address (R285). -/
def gatherOne (s : State) (x : Cmd) (e : Word) : Except (Cause × Nat) (List Byte) :=
  let a := e.toNat
  let here := { s with focusU := x.unit, focusK := x.slot }
  if a % 16 != 0 then .error (.align, a)
  else if regionOf a == .h then .error (.engFar, a)
  else
    match locate here x.unit x.sender.ctx a .load with
    | .error c => .error (c, a)
    | .ok p =>
      let off := p.off.getD 0
      if !(isCompute p.home && barnOf p.home == barnOf x.unit) then .error (.engFar, a)
      else
        match (s.core p.home).bufRead off with
        | .error c => .error (c, a)
        | .ok _ =>
          let p := x.source s p.home off
          if s.anyPoison p 16 then .error (.memPoison, a) else .ok (s.bytes p 16)

/-- Entry `i` of a gather list, from the bytes of the list. -/
def gatherEntry (bs : List Byte) (i : Nat) : Word := word (leNat ((bs.drop (8 * i)).take 8))

/-- NOTE of a copy command (R283 to R285). -/
def copyNote (x : Cmd) : Bool := if x.row == .cpy2d then bit x.sb.toNat 15 else bit x.sb.toNat 32

/-- A copy command that has written its destination: it has its note to append, or completes (R282). -/
def copyDone (s : State) (x : Cmd) : State :=
  if copyNote x && x.present s then s.setCmd { x with step := 2 } else retireCmd s x

/-- A copy command with its whole source: it begins to write (R282). -/
def copyBegin (s : State) (x : Cmd) (bs : List Byte) : State :=
  copyWrite s { x with step := 1, todo := x.memB, out := bs.map some } copyDone

/-- `cpy.gth` with its list read: it tests and reads the granule of the next entry, and begins to write after the last
(R285). -/
def gatherNext (s : State) (x : Cmd) : State :=
  match gatherOne s x (gatherEntry (bytesOf (x.grains x.memA)) (x.out.length / 16)) with
  | .error e => failCmd s x e
  | .ok bs =>
    let x := { x with out := x.out ++ bs.map some }
    if x.out.length < 16 * bits x.sb.toNat 8 0 then s.setCmd x
    else s.setCmd { x with step := 1, todo := x.memB }

/-- The queue registers that a copy command reads when it executes (R251). -/
def Cmd.lateOpds (x : Cmd) : List Opd :=
  [x.ops.a, x.ops.b].filter fun o => match o with | .q _ => true | _ => false

/-- A copy command whose queue operands have been read: where its word B was one of them, its length is tested and its
whole source and destination, a failure as a deferred fault (R251, R254; DESIGN CHOICE, log 77). -/
def copyKnown (s : State) (x : Cmd) : State :=
  let x := { x with loaded := true }
  match x.ops.b with
  | .q _ =>
    let here := { s with focusU := x.unit, focusK := x.slot }
    let b := x.sb.toNat
    let to_ := x.sd.toNat % 2 ^ 56
    match (do
      let _ ← failIf (copyLenBad x.row b) .cpyLen
      let (ga, gb, buf) ← copyTests x.row here (x.sa.toNat % 2 ^ 56) to_ b
      let _ ← if x.buffer == some buf then .ok () else failAt .cpyDst to_
      return (ga, gb) : Except Stop (List Grain × List Grain)) with
    | .ok (ga, gb) => s.setCmd { x with memA := ga, memB := gb }
    | .error (.trap t _) => failCmd s x (t.cause, t.addr.toNat)
    | .error _ => s.setCmd x
  | _ => s.setCmd x

/-- A copy command reads its queue operands, A before B, once every entry that it needs is there; a failure entry is its
deferred fault (R44, R251, R254). -/
def copyOperands (s : State) (x : Cmd) : Option State :=
  let take := fun (o : Opd) (v : Word) (qs : List QEntry) =>
    match o with
    | .q i => takeEntry i x.slot qs
    | _ => some (.word v, qs)
  let left := fun (qs : List QEntry) => s.modCore x.unit fun c => { c with qs := qs }
  if !x.present s then some (retireCmd s x)
  else
    match take x.ops.a x.sa (s.core x.unit).qs with
    | none => none
    | some (a, r) =>
      match take x.ops.b x.sb r with
      | none => none
      | some (b, r2) =>
        match a, b with
        | .word a, .word b => some (copyKnown (left r2) { x with sa := a, sb := b })
        | .failure c e _ _, _ => some (failCmd (left r) x (c, e.toNat))
        | _, .failure c e _ _ => some (failCmd (left r2) x (c, e.toNat))

/-- What an executing copy command does when it goes on: it reads its queue operands, then its whole source, one granule
after another, then writes its destination, then appends its note; none while an entry is missing, or the note finds no
room in q6 (R201, R251, R255, R282). -/
def copyEffect (s : State) (x : Cmd) : Option State :=
  match x.step with
  | 0 =>
    if !x.loaded && !x.lateOpds.isEmpty then copyOperands s x
    else
      match x.row with
      | .cpyFill => some (copyBegin s x (patternBytes x.sa.toNat (bits x.sb.toNat 12 0)))
      | .cpyGth => if (x.nextRead x.memA).isNone then some (gatherNext s x) else some (reading s x x.memA State.setCmd)
      | _ => some (reading s x x.memA fun s x => copyBegin s x (bytesOf (x.grains x.memA)))
  | 1 => some (copyWrite s x copyDone)
  | _ =>
    if x.present s then
      if (s.core x.unit).roomFor 6 then some (retireCmd (appendEntry s x 6 (x.dseq.setWidth 64)) x) else none
    else some (retireCmd s x)

end Sys2Proof.Machine
end

