-- ==== Sys2Proof/Machine/Carder.lean ====
section
/-! DEFINITION. The Carder: sessions, keys, registration and execution of selection commands (R286 to R297). -/

namespace Sys2Proof.Machine

/-! Keys and states (R287, R288) -/

/-- Whether an element type is none (R287). -/
def ctypeBad (c : Nat) : Bool := 0x0A < c && c < 0x24

/-- Bits of an element type (R287). -/
def ctypeWidth (c : Nat) : Nat := if c ≤ 0x0A then (kindOf c).width else 8

/-- The monotone image of an element (R77, R287). -/
def ctypeImage (c : Nat) (nh : Bool) (e : Nat) : Nat :=
  if c ≤ 0x0A then
    match kindOf c with
    | .float g w => imageIeee w (infOf g w) nh e
    | .int sg w => imageInt sg w e
  else image8 (c - 0x20) nh e

/-- The key of an element in a session (R287). -/
def Session.key (x : Session) (e : Nat) : Nat :=
  let k := ctypeImage x.ctype x.nh e
  if x.dir then 2 ^ ctypeWidth x.ctype - 1 - k else k

/-- Bytes of a session's column. -/
def Session.columnBytes (x : Session) : Nat := x.n * (ctypeWidth x.ctype / 8)

/-- Bytes of the state area of `n` elements (R288). -/
def areaBytes (n : Nat) : Nat := (n + 63) / 64 * 16

/-- `n` numbers of `w` bytes each, from bytes. -/
def numbers (w : Nat) : Nat → List Byte → List Nat
  | 0, _ => []
  | n + 1, bs => leNat (bs.take w) :: numbers w n (bs.drop w)

/-- The four states a byte of the area holds (R288). -/
def pairsOf (b : Byte) : List Nat := (List.range 4).map fun i => b.toNat / 4 ^ i % 4

/-- The bytes of the area that hold some states, four to a byte. -/
def packPairs : List Nat → List Byte
  | a :: b :: c :: d :: r => BitVec.ofNat 8 (a + 4 * b + 16 * c + 64 * d) :: packPairs r
  | _ => []

/-- The grains of `n` bytes from an address of a core's local memory. -/
def runGrains (home a n : Nat) : List Grain :=
  (List.range ((a % 16 + n + 15) / 16)).map fun i =>
    let lo := if i = 0 then a else (a / 16 + i) * 16
    ⟨lo, home, lo % 2 ^ 19, min (a + n) ((a / 16 + i + 1) * 16) - lo, none⟩

/-- The grains of a session's column. -/
def Session.columnGrains (x : Session) : List Grain := runGrains x.home x.column x.columnBytes

/-- The grains of a session's state area. -/
def Session.areaGrains (x : Session) : List Grain := runGrains x.areaHome x.area (areaBytes x.n)

/-! Commands -/

/-- The session number a command names (R292 to R296). -/
def Cmd.session (x : Cmd) : Nat :=
  match x.row with
  | .crdOpen => bits x.sa2.toNat 41 40
  | .crdDig => bits x.sa.toNat 7 6
  | .crdWdig => bits x.sa.toNat 7 6
  | .crdPlane => bits x.sa.toNat 7 6
  | .crdElim => bits x.sa.toNat 7 6
  | _ => x.sa.toNat % 4

/-- L of a digit form, and of `crd.elim` (R293, R294). -/
def Cmd.digit (x : Cmd) : Nat :=
  match x.row with
  | .crdPlane => 1
  | .crdElim => if bit x.sa.toNat 12 then 1 else 4
  | _ => 4

/-- Whether a command has a digit position, in bits 5:0 of its word (R293, R294). -/
def Cmd.hasDigit (x : Cmd) : Bool :=
  match x.row with
  | .crdDig => true
  | .crdWdig => true
  | .crdPlane => true
  | .crdElim => true
  | _ => false

/-- Whether a command appends to q5 (R289). -/
def Cmd.tells (x : Cmd) : Bool :=
  match x.row with
  | .crdDig => true
  | .crdWdig => true
  | .crdPlane => true
  | .crdRes => true
  | .crdWait => true
  | _ => false

/-- The home of a run that lies whole in one core's local memory below 0x5_B000 (R292). -/
def wholeIn (s : State) (a n : Nat) : Option Nat :=
  match localOf s.focusU a with
  | some (u, off) => if off + n ≤ schedBase then some u else none
  | none => none

/-- The session that a `crd.open` opens, from its two words and the state area; CRD.DESC (R292). -/
def openSession (s : State) (w0 w1 b : Nat) : Except Stop Session :=
  let n := bits w1 21 0
  let ct := bits w1 37 32
  let area := b % 2 ^ 56
  let size := n * (ctypeWidth ct / 8)
  if w0 / 2 ^ 56 != 0 || bits w1 63 42 != 0 || bits w1 31 22 != 0 || ctypeBad ct || n == 0 || 2 ^ 21 < n then fail .crdDesc
  else
    match wholeIn s w0 size, wholeIn s area (areaBytes n) with
    | some u, some v =>
      if u == v && overlaps (w0 % 2 ^ 19) size (area % 2 ^ 19) (areaBytes n) then fail .crdDesc
      else
        .ok { ctx := s.st.ctx, launch := s.st.launch, strid := s.st.strid,
                member := s.st.member.isSome, home := u, column := w0, areaHome := v, area := area,
              n := n, ctype := ct, dir := bit w1 39, nh := bit w1 38 }
    | _, _ => fail .crdDesc

/-- An open session that a command's strand owns; else CRD.SESS (R290). -/
def sessionOf (s : State) (x : Cmd) : Except Stop Session :=
  match kget (s.barn (barnOf x.unit)).sessions x.session with
  | some y => if y.isFor x.sender then .ok y else fail .crdSess
  | none => fail .crdSess

/-! Registration (R289, R290) -/

/-- The tests that need the session and its ranges, in the order of R290; the session. `s` has the command's strand in
focus. -/
def registerTests (s : State) (x : Cmd) : Except Stop Session := do
  if x.row == .crdOpen then
    let y ← openSession s x.sa.toNat x.sa2.toNat x.sb.toNat
    let _ ← failIf (kget (s.barn (barnOf x.unit)).sessions x.session).isSome .crdSess
    let _ ← bufTests s (y.columnGrains ++ y.areaGrains)
    return y
  else
    let y ← sessionOf s x
    let _ ← failIf (x.hasDigit && ctypeWidth y.ctype < bits x.sa.toNat 5 0 + x.digit) .crdArg
    let wa := x.sb.toNat % 2 ^ 56
    let weights ←
      if x.row == .crdWdig then do
        let _ ← failIf (wholeIn s wa (4 * y.n)).isNone .crdArg
        let _ ← alignTest 4 [wa]
        grainsOf s wa (4 * y.n)
      else .ok []
    let _ ←
      if x.row == .crdWait || x.row == .crdClose then .ok ()
      else bufTests s (y.columnGrains ++ y.areaGrains ++ weights ++ x.memB)
    return y

/-- Whether a command of a core waits to register: an earlier selection command has not, or the slot's q5 entries and
reservations leave no room (R289). -/
def registerWaits (s : State) (x : Cmd) : Bool :=
  let c := s.core x.unit
  (c.cmds.any fun y => y.engine == .selection && !y.registered && y.order < x.order) ||
    (x.tells &&
      4 ≤ (c.qs.filter fun e => e.q == 5 && e.slot == x.slot).length +
        (c.cmds.filter fun y => y.engine == .selection && y.registered && y.slot == x.slot && y.tells).length)

/-- A command registered with its session: it takes its place in the Carder's order, and `crd.open` and `crd.close` open
and end the session (R289, R292, R296). -/
def enrol (s : State) (x : Cmd) (y : Session) : State :=
  let b := s.barn (barnOf x.unit)
  let open_ :=
    match x.row with
    | .crdOpen => kput b.sessions x.session y
    | .crdClose => kdel b.sessions x.session
    | _ => b.sessions
  (s.setBarn (barnOf x.unit) { b with sessions := open_, line := b.line ++ [(x.unit, x.order)] }).setCmd
    { x with registered := true, awaited := false, sess := some y }

/-- An accepted command taken back, with its sequence number. -/
def withdrawCmd (s : State) (x : Cmd) : State :=
  (s.modCore x.unit fun c => { c with cmds := c.cmds.filter fun y => y.order != x.order }).modSt fun st =>
    { st with cseq := st.cseq - 1 }

/-- The registration of the unbound command of the strand in focus: it waits, faults precisely, or registers; the strand
waits as on a long load (R289). -/
def registerHere (x : Cmd) (s : State) : Run :=
  if registerWaits s x then .error (.block (some (s.modMe fun sl => { sl with asked := true })))
  else
    match registerTests s x with
    | .ok y => .ok (landLong [] (enrol s x y))
    | .error (.trap t _) => .error (.trap t (some (withdrawCmd s x)))
    | .error e => .error e

/-- The command of the strand in focus that waits for its registration. -/
def State.waitingCmd (s : State) : Option Cmd := s.here.cmds.find? fun x => x.awaited && x.slot == s.focusK

/-- A selection command at issue: `make` tests its operands and gives the command. An unbound one registers at once or
waits; a bound one registers when its guard has resolved (R289). -/
def carderCmd (s : State) (make : Option (Fin 8 × Bool) → State → Except Stop Cmd) : Host.Outcome State Fault Refusal :=
  if s.me.asked then
    performSeq s fun s => match s.waitingCmd with | some x => registerHere x s | none => .ok s
  else
    performCmd s fun bound s => do
      let x ← make bound s
      match bound with
      | some _ => accept x s
      | none =>
        let x := { x with awaited := true }
        let s ← accept x s
        registerHere x s

/-- R292. -/
def makeCrdOpen (bound : Option (Fin 8 × Bool)) (s : State) : Except Stop Cmd := do
  let (w0, w1) := pairAt s s.ir.a
  let b ← scalar s.ir.b s
  let y ← openSession s w0.toNat w1.toNat b.toNat
  let _ ← alignTest (ctypeWidth y.ctype / 8) [y.column]
  let _ ← grainsOf s y.column y.columnBytes
  let _ ← alignTest 16 [y.area]
  let _ ← grainsOf s y.area (areaBytes y.n)
  return { newCmd s .crdOpen .selection bound with sa := w0, sa2 := w1, sb := b }
/-- The same, issued. -/
def execCrdOpen (s : State) := carderCmd s makeCrdOpen

/-- The digit forms at issue: RANK, then the histogram of `n` bytes at a multiple of `al` (R293). -/
def digitCmd (row : Instr) (al n : Nat) (bound : Option (Fin 8 × Bool)) (s : State) : Except Stop Cmd := do
  let d ← scalar s.ir.d s
  let a ← scalar s.ir.a s
  let b ← scalar s.ir.b s
  let to_ := d.toNat % 2 ^ 56
  let _ ← failIf (a.toNat / 2 ^ 8 == 0) .crdArg
  let _ ← alignTest al [to_]
  let g ← grainsOf s to_ n
  return { newCmd s row .selection bound with sa := a, sb := b, memB := g }

/-- R293. -/
def makeCrdDig (bound : Option (Fin 8 × Bool)) (s : State) : Except Stop Cmd := digitCmd .crdDig 16 64 bound s
/-- The same, issued. -/
def execCrdDig (s : State) := carderCmd s makeCrdDig
/-- R293. -/
def makeCrdWdig (bound : Option (Fin 8 × Bool)) (s : State) : Except Stop Cmd := digitCmd .crdWdig 16 128 bound s
/-- The same, issued. -/
def execCrdWdig (s : State) := carderCmd s makeCrdWdig
/-- R293. -/
def makeCrdPlane (bound : Option (Fin 8 × Bool)) (s : State) : Except Stop Cmd := digitCmd .crdPlane 8 8 bound s
/-- The same, issued. -/
def execCrdPlane (s : State) := carderCmd s makeCrdPlane

/-- Whether the word of `crd.elim` has a bit outside its fields, or a v of 2^L or more (R294). -/
def elimBad (a : Nat) : Bool := a / 2 ^ 13 != 0 || (bit a 12 && 2 ≤ bits a 11 8)

/-- R294. -/
def makeCrdElim (bound : Option (Fin 8 × Bool)) (s : State) : Except Stop Cmd := do
  let a ← scalar s.ir.a s
  let _ ← failIf (elimBad a.toNat) .crdArg
  return { newCmd s .crdElim .selection bound with sa := a }
/-- The same, issued. -/
def execCrdElim (s : State) := carderCmd s makeCrdElim

/-- R295: the destination is tested over 4m bytes. -/
def makeCrdRes (bound : Option (Fin 8 × Bool)) (s : State) : Except Stop Cmd := do
  let d ← scalar s.ir.d s
  let a ← scalar s.ir.a s
  let b ← scalar s.ir.b s
  let to_ := d.toNat % 2 ^ 56
  let _ ← failIf (3 < a.toNat || b == 0 || 4096 < b.toNat) .crdArg
  let _ ← alignTest 4 [to_]
  let g ← grainsOf s to_ (4 * b.toNat)
  return { newCmd s .crdRes .selection bound with sa := a, sb := b, memB := g }
/-- The same, issued. -/
def execCrdRes (s : State) := carderCmd s makeCrdRes

/-- A form whose one operand is the session (R296). -/
def sessionCmd (row : Instr) (bound : Option (Fin 8 × Bool)) (s : State) : Except Stop Cmd := do
  let a ← scalar s.ir.a s
  let _ ← failIf (3 < a.toNat) .crdArg
  return { newCmd s row .selection bound with sa := a }

/-- R296. -/
def makeCrdWait (bound : Option (Fin 8 × Bool)) (s : State) : Except Stop Cmd := sessionCmd .crdWait bound s
/-- The same, issued. -/
def execCrdWait (s : State) := carderCmd s makeCrdWait
/-- R296. -/
def makeCrdClose (bound : Option (Fin 8 × Bool)) (s : State) : Except Stop Cmd := sessionCmd .crdClose bound s
/-- The same, issued. -/
def execCrdClose (s : State) := carderCmd s makeCrdClose

/-- R289: the first selection command of a core that has not registered, when its guard has resolved to hold and no
strand waits at it. A fault is deferred. -/
def execCarderRegistration (s : State) : Host.Outcome State Fault Refusal :=
  match s.ev with
  | some (.carderRegistration u) =>
    match (s.core u).cmds.find? fun x => x.engine == .selection && !x.registered with
    | some x =>
      if x.awaited || x.bound.isSome || registerWaits s x then .next s
      else
        match registerTests { s with focusU := x.unit, focusK := x.slot } x with
        | .ok y => .next (enrol s x y)
        | .error (.trap t _) => .next (failCmd s x (t.cause, t.addr.toNat))
        | .error _ => .next s
    | none => .next s
  | _ => .next s

/-! Execution (R288, R293 to R296) -/

/-- The keys of a session's elements, from what the command has read of the column (R287). -/
def keysOf (x : Cmd) (y : Session) : List Nat :=
  (numbers (ctypeWidth y.ctype / 8) y.n (bytesOf (x.grains y.columnGrains))).map y.key

/-- The states in a session's area, with those of the unused pairs, from what the command has read of it (R288). -/
def statesOf (x : Cmd) (y : Session) : List Nat := (bytesOf (x.grains y.areaGrains)).flatMap pairsOf

/-- The digit of a key (R293). -/
def digitAt (p l k : Nat) : Nat := k / 2 ^ p % 2 ^ l

/-- h[j]: the weight of the LIVE elements with digit j (R293). -/
def histogram (l : Nat) (live : List (Nat × Nat)) : List Nat :=
  (List.range (2 ^ l)).map fun j => ((live.filter fun p => p.1 == j).map (·.2)).foldl (· + ·) 0

/-- V and BELOW for a rank: the first digit whose running sum reaches it (R293). -/
def rankDigit (r : Nat) : List Nat → Nat → Nat → Option (Nat × Nat)
  | [], _, _ => none
  | h :: hs, j, below => if r ≤ below + h then some (j, below) else rankDigit r hs (j + 1) (below + h)

/-- The result word of a digit form (R293). -/
def digitWord (r : Nat) (h : List Nat) : Nat :=
  match rankDigit r h 0 0 with
  | some (v, below) => below * 2 ^ 8 + v
  | none => h.foldl (· + ·) 0 * 2 ^ 8 + 0x10

/-- The grains of the weight column of `crd.wdig` (R293). -/
def Cmd.weightGrains (x : Cmd) (y : Session) : List Grain :=
  let a := x.sb.toNat % 2 ^ 56
  match localOf x.unit a with
  | some (u, _) => runGrains u a (4 * y.n)
  | none => []

/-- The weights of a command's elements: those of the column, or one each (R293). -/
def weightsOf (x : Cmd) (y : Session) : List Nat :=
  if x.row == .crdWdig then numbers 4 y.n (bytesOf (x.grains (x.weightGrains y))) else List.replicate y.n 1

/-- What a command reads: its column and its state area, and the weights of `crd.wdig` (R288, R293 to R296). -/
def Cmd.carderReads (x : Cmd) (y : Session) : List Grain :=
  match x.row with
  | .crdOpen => []
  | .crdClose => []
  | .crdWait => y.areaGrains
  | .crdWdig => y.columnGrains ++ y.areaGrains ++ x.weightGrains y
  | _ => y.columnGrains ++ y.areaGrains

/-- The next states under an elimination: only a LIVE element's changes (R294). -/
def eliminate (v : Nat) : List Nat → List Nat → List Nat
  | st :: sts, j :: js => (if st == 0 then (if j < v then 1 else if v < j then 2 else 0) else st) :: eliminate v sts js
  | sts, _ => sts

/-- A candidate put among others by key, then by index (R295). -/
def insertKey (e : Nat × Nat) : List (Nat × Nat) → List (Nat × Nat)
  | [] => [e]
  | f :: fs => if e.1 < f.1 || (e.1 == f.1 && e.2 < f.2) then e :: f :: fs else f :: insertKey e fs

/-- Candidates in the order of key and then index. -/
def sortKeys (l : List (Nat × Nat)) : List (Nat × Nat) := l.foldl (fun r e => insertKey e r) []

/-- The indices `crd.res` takes, in order of key and then index, from keys and states by index (R295). -/
def chosen (m : Nat) (l : List (Nat × Nat × Nat)) : List Nat :=
  let of_ := fun (z : Nat) => sortKeys ((l.filter fun e => e.1 == z).map fun e => e.2)
  (sortKeys ((of_ 1 ++ of_ 0).take m)).map (·.2)

/-- What a command computes from what it has read: the bytes it writes and where, and its q5 word (R290 to R296). -/
def carderResult (x : Cmd) (y : Session) : List Grain × List Byte × Nat :=
  let a := x.sa.toNat
  let st := statesOf x y
  match x.row with
  | .crdOpen => (y.areaGrains, List.replicate (areaBytes y.n) 0, 0)
  | .crdClose => ([], [], 0)
  | .crdWait =>
    let n := fun (z : Nat) => ((st.take y.n).filter (· == z)).length
    ([], [], n 0 + n 1 * 2 ^ 22)
  | .crdElim =>
    (y.areaGrains, packPairs (eliminate (bits a 11 8) st ((keysOf x y).map (digitAt (bits a 5 0) x.digit))), 0)
  | .crdRes =>
    let l := chosen x.sb.toNat (st.zip ((keysOf x y).zip (List.range y.n)))
    (x.memB, (l.map (leBytes 4)).flatten, l.length)
  | _ =>
    let live := ((st.zip ((keysOf x y).zip (weightsOf x y))).filter fun e => e.1 == 0).map fun e =>
      (digitAt (bits a 5 0) x.digit e.2.1, e.2.2)
    let h := histogram x.digit live
    (x.memB, (h.map (leBytes (if x.row == .crdWdig then 8 else 4))).flatten, digitWord (a / 2 ^ 8) h)

/-- A selection command that has written its destination: it has its entry to append, or completes (R291). -/
def carderDone (s : State) (x : Cmd) : State :=
  if x.tells && x.present s then s.setCmd { x with step := 2 } else retireCmd s x

/-- What an executing selection command does when it goes on: it reads what it needs and then writes its destination, one
granule after another, then appends its entry; none while that finds no room in q5 (R201, R255, R288, R291). -/
def carderEffect (s : State) (x : Cmd) : Option State :=
  match x.step, x.sess with
  | 0, some y =>
    some (reading s x (x.carderReads y) fun s x =>
      let r := carderResult x y
      writing s { x.begin_ r.1 (r.2.1.map some) with step := 1, sd := BitVec.ofNat 64 r.2.2 } carderDone)
  | 1, some _ => some (writing s x carderDone)
  | _, some _ =>
    if x.present s then
      if (s.core x.unit).roomFor 5 then some (retireCmd (appendEntry s x 5 x.sd) x) else none
    else some (retireCmd s x)
  | _, none => some (retireCmd s x)

/-! The Carder's order (R286, R289) -/

/-- Whether a barn's Carder is at a command: it is the first of the registered that has not gone, and none executes. -/
def carderAt (s : State) (x : Cmd) : Bool :=
  let line := (s.barn (barnOf x.unit)).line
  match line.find? fun p => (s.core p.1).cmds.any fun y => y.order == p.2 with
  | some p => p.1 == x.unit && p.2 == x.order && x.phase == .queued
  | none => false

/-- A barn's line without the commands that have gone. -/
def tidyLine (s : State) (u : Nat) : State :=
  let b := s.barn (barnOf u)
  s.setBarn (barnOf u) { b with line := b.line.filter fun p => (s.core p.1).cmds.any fun y => y.order == p.2 }

end Sys2Proof.Machine
end

