-- ==== Sys2Proof/Machine/Pages.lean ====
section
/-! DEFINITION. Key-value handles and their pages: the table, the page store, scales, checksums, publication and cuts (R300 to R312). -/

namespace Sys2Proof.Machine

/-! The handle table (R300 to R302) -/

/-- A table slot. -/
def State.handle (s : State) (i : Nat) : Handle := (kget s.handles i).getD Handle.reset

/-- A table slot replaced. -/
def State.setHandle (s : State) (i : Nat) (h : Handle) : State := { s with handles := kput s.handles i h }

/-- Table slots (R300). -/
def handleSlots : Nat := 98304

/-- SLOT of a handle (R300). -/
def slotField (h : Word) : Nat := bits h.toNat 39 20

/-- The loft die of a table slot (R300). -/
def handleDie (i : Nat) : Nat := i % 24

/-- A handle's value (R300). -/
def handleWord (i : Nat) (h : Handle) : Word :=
  word (h.ctx.toNat * 2 ^ 52 + h.gen.toNat * 2 ^ 40 + i * 2 ^ 20 + h.bound)

/-- Checks 1 and 2 of R301: the table slot a handle names, or KV.TENANT or KV.STALE. -/
def checkHandle (s : State) (ctx : BitVec 12) (h : Word) : Except Cause Nat :=
  let i := slotField h
  let x := s.handle i
  if bits h.toNat 63 52 != ctx.toNat then .error .kvTenant
  else if handleSlots ≤ i || x.state != .live || x.ctx != ctx || x.gen.toNat != bits h.toNat 51 40 ||
      x.bound != bits h.toNat 19 0 then .error .kvStale
  else .ok i

/-- Elements of a row (R303). -/
def Handle.elems (h : Handle) : Nat := 16 * h.rb

/-- NEXT of a plane (R306). -/
def Handle.nextOf (h : Handle) (q : Nat) : BitVec 32 := sget 0 h.next q

/-- LEN: the least NEXT over all planes (R306). -/
def Handle.len (h : Handle) : Nat :=
  match (List.range h.planes).map fun q => (h.nextOf q).toNat with
  | [] => 0
  | n :: ns => ns.foldl min n

/-- CLEN of a bound handle follows LEN and the RPOS last noticed (R329). -/
def Handle.settleClen (h : Handle) : Handle :=
  match h.slot with
  | some _ => { h with clen := BitVec.ofNat 32 (min h.len h.rpos.toNat) }
  | none => h

/-- The directory key of a page of a plane. -/
def pageKey (q j : Nat) : Nat := q * 2 ^ 20 + j

/-- The descriptor of a page (R304). -/
def Handle.page (h : Handle) (k : Nat) : PageDesc := (kget h.pages k).getD PageDesc.none

/-- The descriptor of a page replaced. -/
def Handle.setPage (h : Handle) (k : Nat) (d : PageDesc) : Handle := { h with pages := kput h.pages k d }

/-! The page store (R303, R305) -/

/-- Bytes of a page of a size class (R303). -/
def classBytes (c : Nat) : Nat := 4096 * 2 ^ c

/-- The smallest size class that holds some bytes (R303). -/
def classFor (n : Nat) : Nat := ((List.range 4).find? fun c => n ≤ classBytes c).getD 3

/-- The size class of a handle's pages as they are first stored (R303). -/
def Handle.cls (h : Handle) : Nat := classFor (64 + 32 * h.elems)

/-- Whether an address is a slab of a die's own stack (R188, R305). -/
def slabOk (d a : Nat) : Bool := a % 2 ^ 21 == 0 && a < hbmEnd && a / 2 ^ 21 % 24 == d

/-- A die's page store before any page was taken: the slabs granted to it (R305; log 21). -/
def Store.granted (d : Nat) : Store := ⟨((Config.grantedSlabs d).filter (slabOk d)).eraseDups, []⟩

/-- The page store of a die. -/
def State.pool (s : State) (d : Nat) : Store := (kget s.stores d).getD (Store.granted d)

/-- The page store of a die replaced. -/
def State.setPool (s : State) (d : Nat) (x : Store) : State := { s with stores := kput s.stores d x }

/-- Pages of a class on their free list. -/
def Store.freeOf (x : Store) (c : Nat) : List Nat := (kget x.free c).getD []

/-- A page of a class taken from its list, which an empty list fills by carving a slab; none when no slab is left
(R305). -/
def Store.take (x : Store) (c : Nat) : Option (Nat × Store) :=
  match x.freeOf c with
  | p :: ps => some (p, { x with free := kput x.free c ps })
  | [] =>
    match x.slabs with
    | [] => none
    | a :: as =>
      let more := (List.range (2 ^ 21 / classBytes c - 1)).map fun i => (a + (i + 1) * classBytes c) / 4096
      some (a / 4096, { slabs := as, free := kput x.free c more })

/-- A page put back on its list; a slab whose pages are all free returns to the pool (R305). -/
def Store.put (x : Store) (c p : Nat) : Store :=
  let l := p :: x.freeOf c
  let inSlab := fun (r : Nat) => r / 512 == p / 512
  if (l.filter inSlab).length = 2 ^ 21 / classBytes c then
    { slabs := x.slabs ++ [p / 512 * 2 ^ 21], free := kput x.free c (l.filter fun r => !inSlab r) }
  else { x with free := kput x.free c l }

/-- A page of a handle freed, but a poisoned one is withheld from every list (R305, R312). -/
def freePage (s : State) (i : Nat) (d : PageDesc) : State :=
  if d.fill = 0 || d.pois || s.anyPoison (d.pfn * 4096) (classBytes d.cls.toNat) then s
  else s.setPool (handleDie i) ((s.pool (handleDie i)).put d.cls.toNat d.pfn)

/-- Descriptors in a 4 KiB page of a directory (R304). -/
def dirEntries : Nat := 256

/-- The page that a handle's directory takes to hold one more descriptor, and the store without it: descriptors stand in
the order in which their pages were first used (R304 does not say; DESIGN CHOICE, log 78). None when no slab is left. -/
def Handle.dirPage (h : Handle) (k : Nat) (x : Store) : Option (Option Nat × Store) :=
  if (kget h.pages k).isSome || h.pages.length < dirEntries * h.dir.length then some (none, x)
  else match x.take 0 with | some (p, x) => some (some p, x) | none => none

/-! Rows in HBM (R303) -/

/-- The key under which a handle's pages lie: that of its owner's context (R199, R303). -/
def Handle.key (s : State) (h : Handle) : Option (BitVec 256) := s.keyOf h.ctx

/-- ZMASK of a stored page (R303). -/
def zmask (s : State) (h : Handle) (d : PageDesc) : Nat :=
  if d.cmp then s.numUnder (h.key s) (d.pfn * 4096 + 4) 4 else 0

/-- The place of a row; none for an omitted one (R303). -/
def rowPlace (s : State) (h : Handle) (d : PageDesc) (r : Nat) : Option Nat :=
  let z := zmask s h d
  if bit z r then none
  else some (d.pfn * 4096 + 64 + h.elems * ((List.range r).filter fun i => !bit z i).length)

/-- A row's codes (R303). -/
def rowBytes (s : State) (h : Handle) (d : PageDesc) (r : Nat) : List Byte :=
  match rowPlace s h d r with
  | none => List.replicate h.elems 0
  | some a => s.bytesUnder (h.key s) a h.elems

/-- The rows a page holds. -/
def pageRows (s : State) (h : Handle) (d : PageDesc) : List (List Byte) := (List.range d.fill).map (rowBytes s h d)

/-- A page's bytes: the header, then the rows that are not omitted (R303). -/
def pageImage (scale f z : Nat) (rows : List (List Byte)) : List Byte :=
  leBytes 64 (scale + f * 2 ^ 8 + z * 2 ^ 32) ++
    ((List.range rows.length).filterMap fun r => if bit z r then none else rows[r]?).flatten

/-! Checksums (R310) -/

/-- One bit of CRC-32C, reflected (R310). -/
def crcBit (c : BitVec 32) : BitVec 32 := if c.getLsbD 0 then (c >>> 1) ^^^ 0x82F6_3B78 else c >>> 1

/-- One byte of CRC-32C (R310). -/
def crcByte (c : BitVec 32) (b : Byte) : BitVec 32 :=
  crcBit (crcBit (crcBit (crcBit (crcBit (crcBit (crcBit (crcBit (c ^^^ b.setWidth 32))))))))

/-- The CRC-32C of some bytes (R310). -/
def crc32c (bs : List Byte) : BitVec 32 := bs.foldl crcByte 0xFFFF_FFFF ^^^ 0xFFFF_FFFF

/-- The CRC of a page's logical content (R310). -/
def pageCrc (scale : Nat) (rows : List (List Byte)) : BitVec 32 := crc32c (BitVec.ofNat 8 scale :: rows.flatten)

/-! Scales (R307) -/

/-- A real scaled by 2^n. -/
def Dyadic.scale (v : Dyadic) (n : Int) : Dyadic := ⟨v.m, v.e + n⟩

/-- The largest magnitude of a row. -/
def largest (x : List Dyadic) : Dyadic :=
  x.foldl (fun m v => let a : Dyadic := ⟨v.m.natAbs, v.e⟩; if m.lt a then a else m) Dyadic.zero

/-- MaxFinite of a binary8 format (R66). -/
def maxFinite (f : Nat) : Dyadic := (B8.grid f).value (B8.grid f).top

/-- FirstScale; none when no code qualifies (R307). -/
def firstScale (f : Nat) (x : List Dyadic) : Option Nat :=
  let m := largest x
  if m.m = 0 then some 0x7F
  else (List.range 0xFF).find? fun c => !((maxFinite f).scale ((c : Int) - 128)).lt m

/-- The code of a value under a scale, when it lies within MaxFinite (R307). -/
def scaledCode (f s : Nat) (v : Dyadic) : Option Nat :=
  let c := narrow8 (.fin (v.scale (127 - (s : Int)))) f false
  match value8 f c with
  | .fin _ => some c
  | _ => none

/-- Fits (R307). -/
def fits (f s : Nat) (x : List Dyadic) : Bool := x.all fun v => (scaledCode f s v).isSome

/-- A stored code requantised under a scale raised by `k` (R307). -/
def requantise (f k : Nat) (e : Byte) : Byte :=
  match value8 f e.toNat with
  | .fin v => BitVec.ofNat 8 (narrow8 (.fin (v.scale (-(k : Int)))) f false)
  | _ => e

/-- The values of a source row; none for a NaN, an infinity, or a negative value in an unsigned format (R307). -/
def rowValues (f : Nat) : List Nat → Option (List Dyadic)
  | [] => some []
  | a :: as =>
    match value32 a, rowValues f as with
    | .fin v, some vs => if B8.uns f && v.m < 0 then none else some (v :: vs)
    | _, _ => none

/-- The scale of a page after a row is appended, and by how much it rises: FirstScale for an empty page; none when no
scale serves (R307). -/
def nextScale (f : Nat) (d : PageDesc) (x : List Dyadic) : Option (Nat × Nat) :=
  let s0 := if d.fill = 0 then firstScale f x else some d.scale.toNat
  match s0 with
  | none => none
  | some s =>
    if fits f s x then some (s, 0)
    else
      match (List.range (0xFE - s)).find? fun k => fits f (s + k + 1) x with
      | some k => some (s + k + 1, k + 1)
      | none => none

/-! Publication (R308) -/

/-- A descriptor published: its version advances (R308). -/
def PageDesc.publish (d : PageDesc) : PageDesc := { d with ver := d.ver + 1 }

/-- Cuts every plane of a handle to a position: NEXT, LEN and the pages under R312 (R319). -/
def cutPage (s : State) (i : Nat) (h : Handle) (k : Nat) (d : PageDesc) : State × PageDesc :=
  let keep := (h.nextOf (k / 2 ^ 20)).toNat - 32 * (k % 2 ^ 20)
  if d.fill ≤ keep then (s, d)
  else if keep = 0 then (freePage s i d, { PageDesc.none with ver := d.ver }.publish)
  else
    let d' := { d with fill := keep }
    (s, { d' with crc := pageCrc d.scale.toNat (pageRows s h d') }.publish)

/-- The pages of a list cut one after another. -/
def cutPages (i : Nat) (h : Handle) : List (Nat × PageDesc) → State → State × List (Nat × PageDesc)
  | [], s => (s, [])
  | (k, d) :: ps, s =>
    let (s, d') := if d.fill = 0 then (s, d) else cutPage s i h k d
    let (s, r) := cutPages i h ps s
    (s, (k, d') :: r)

/-- COMMIT 0 of `kv.cut`: a handle cut to a position (R319). -/
def cutTo (s : State) (i pos : Nat) : State :=
  let h := s.handle i
  let lower := fun (p : Nat × BitVec 32) => (p.1, if pos < p.2.toNat then BitVec.ofNat 32 pos else p.2)
  let h := { h with next := (h.next.map lower).filter fun p => p.2 != 0 }
  let (s, ps) := cutPages i h h.pages s
  s.setHandle i { h with pages := ps }.settleClen

/-- The table slot of a handle that is freed, or its context ends: its pages and those of its directory freed, its
generation advanced (R302, R304, R305). -/
def freeHandle (s : State) (i : Nat) : State :=
  let h := s.handle i
  let s := h.pages.foldl (fun s p => freePage s i p.2) s
  let s := s.setPool (handleDie i) (h.dir.foldl (fun x p => x.put 0 p) (s.pool (handleDie i)))
  s.setHandle i { Handle.reset with state := if h.gen.toNat + 1 = 0xFFF then .retired else .free, gen := h.gen + 1 }

/-! Uncorrectable errors (R311) -/

/-- The 64-byte units of a row. -/
def rowUnits (s : State) (h : Handle) (d : PageDesc) (r : Nat) : List Nat :=
  match rowPlace s h d r with
  | none => []
  | some a => (List.range ((a + h.elems + 63) / 64 - a / 64)).map fun j => a / 64 + j

/-- The earliest row that an error met in reading some rows of a page damages: every row when the header fails, else those
that share a failing unit (R311). -/
def damagedRow (s : State) (h : Handle) (d : PageDesc) (rows : List Nat) : Option Nat :=
  let failing := fun (u : Nat) => s.anyPoison (u * 64) 64
  if s.anyPoison (d.pfn * 4096) 64 then some 0
  else
    let bad := (rows.flatMap (rowUnits s h d)).filter failing
    match bad with
    | [] => none
    | _ => (List.range d.fill).find? fun r => (rowUnits s h d r).any bad.contains

/-! Cuts and the errors they meet (R310, R311, R319) -/

/-- The errors that a cut of a handle to a position meets in the rows it reads again for the CRC of a page it keeps in part:
each page with the earliest row damaged (R310, R311; DESIGN CHOICE, log 95). -/
def cutErrors (s : State) (i pos : Nat) : List (Nat × Nat) :=
  let h := s.handle i
  h.pages.filterMap fun x =>
    let keep := min (h.nextOf (x.1 / 2 ^ 20)).toNat pos - 32 * (x.1 % 2 ^ 20)
    if keep = 0 || x.2.fill ≤ keep || x.2.pois then none
    else (damagedRow s h x.2 (List.range keep)).map fun r => (x.1, r)

/-- A page whose error lies below CLEN is poisoned (R311). -/
def poisonPage (s : State) (i k : Nat) : State :=
  let h := s.handle i
  s.setHandle i (h.setPage k { h.page k with pois := true }.publish)

/-- A handle cut to a position, with what the errors that the cut meets do: one below CLEN poisons its page, and one from
CLEN on is counted and cuts deeper; the position cut to in the end (R311, R319). `fuel` bounds how often: a page has 32
rows. -/
def cutSound : Nat → State → Nat → Nat → State × Nat
  | fuel, s, i, pos =>
    let h := s.handle i
    let place := fun (e : Nat × Nat) => 32 * (e.1 % 2 ^ 20) + e.2
    let errs := cutErrors s i pos
    let deep := errs.filter fun e => h.clen.toNat ≤ place e
    let s := (errs.filter fun e => place e < h.clen.toNat).foldl (fun s e => poisonPage s i e.1) s
    let s := deep.foldl (fun s e => s.countLf h.ctx (loftUnit ((h.page e.1).pfn * 4096)) 0x10) s
    let s := cutTo s i pos
    match fuel, deep.map place with
    | fuel + 1, p :: ps => cutSound fuel s i (ps.foldl min p)
    | _, _ => (s, pos)
termination_by structural fuel => fuel

/-- A handle cut to a position, and the errors met acted on (R311, R319). -/
def cutAll (s : State) (i pos : Nat) : State := (cutSound 32 s i pos).1

end Sys2Proof.Machine
end

