-- ==== Sys2Proof/Machine/Slots.lean ====
section
/-! DEFINITION. The retirement unit: request slots, the retire step, rewinds, requests that leave or are held, and the forms that wait on a slot (R327 to R335). -/

namespace Sys2Proof.Machine

/-- A request slot. -/
def State.req (s : State) (n : Nat) : ReqSlot := (kget s.hub.slots n).getD ReqSlot.reset

/-- A request slot replaced. -/
def State.setReq (s : State) (n : Nat) (r : ReqSlot) : State :=
  { s with hub := { s.hub with slots := kput s.hub.slots n r } }

/-- Request slots (R327). -/
def reqSlots : Nat := 65536

namespace ReqSlot
/-- UNRET (R329). -/
def unret (r : ReqSlot) : Nat := r.toks.length
/-- NPOS (R329). -/
def npos (r : ReqSlot) : BitVec 32 := r.rpos + BitVec.ofNat 32 r.toks.length
/-- DEPTH (R330). -/
def depth (r : ReqSlot) : Nat := r.levels.length
/-- Whether a token or request tagged `t` is ready (R331). -/
def ready (r : ReqSlot) (t : Nat) : Bool := (r.levels.take t).all (·.confirmed)
/-- The result of a form that a rewind has overtaken (R339). -/
def stale (r : ReqSlot) : Word := word (2 ^ 63 + r.npos.toNat)
/-- The read-only requests still live that a test names become dead (R332). -/
def kill (r : ReqSlot) (p : BitVec 32 × Nat → Bool) : ReqSlot :=
  { r with dead := r.dead ++ (r.ronly.filter p).map (·.1), ronly := r.ronly.filter fun x => !p x }
/-- A number added to a saturating count of 32 bits (R342). -/
def addSat (a : BitVec 32) (n : Nat) : BitVec 32 := BitVec.ofNat 32 (min (a.toNat + n) (2 ^ 32 - 1))
/-- The held requests that a test names are dropped and counted (R332). -/
def dropHeld (r : ReqSlot) (p : Outward → Bool) : ReqSlot :=
  { r with held := r.held.filter fun x => !p x, edrop := addSat r.edrop (r.held.filter p).length }
/-- The draft tree cleared (R345). -/
def noTree (r : ReqSlot) : ReqSlot := { r with tree := [], stack := [] }
/-- The confirmed level at the top popped (R330). -/
def pop (r : ReqSlot) : ReqSlot :=
  let l := r.depth
  let tok := fun (x : Token) => if x.tag == l then { x with tag := l - 1 } else x
  let out := fun (x : Outward) => if x.cur == l then { x with cur := l - 1 } else x
  { r with levels := r.levels.dropLast, toks := r.toks.map tok, held := r.held.map out }
/-- Confirmed levels popped from the top, at most `n` (R331). -/
def pops (r : ReqSlot) : Nat → ReqSlot
  | 0 => r
  | n + 1 => if r.levels.getLast?.any (·.confirmed) then pops r.pop n else r
end ReqSlot

/-! Requests that leave (R334, R335) -/

/-- A request leaves its slot for the egress ring (R334). -/
def ReqSlot.leave (r : ReqSlot) (x : Outward) : ReqSlot :=
  { r with leaving := r.leaving ++ [x], ronly := if x.cls = 1 then r.ronly ++ [(x.serial, x.cur)] else r.ronly }

/-- A request of a slot leaves (R334). -/
def leaveOne (s : State) (n : Nat) (x : Outward) : State :=
  let r := s.req n
  let s := s.setReq n (r.leave x)
  { s with hub := { s.hub with egress := s.hub.egress ++ [(r.ctx.toNat, n)] } }

/-- The held requests of a slot that are eligible leave in serial order, at most `k` (R331, R334). -/
def releaseHeld (s : State) (n : Nat) : Nat → State
  | 0 => s
  | k + 1 =>
    match (s.req n).held with
    | x :: xs =>
      if (s.req n).ready x.cur then releaseHeld (leaveOne (s.setReq n { s.req n with held := xs }) n x) n k else s
    | [] => s

/-! Retirement (R331) -/

/-- The commit-log entry of a position, written by the hub; a refusal is reported to the context handler, its record after
the strand's operations before it (R331, R357, R358). -/
def writeLog (s : State) (w : Sender) (n : Nat) (r : ReqSlot) (id : BitVec 32) : State :=
  if r.log == 0 then s
  else
    let a := r.log.toNat + 8 * (r.rpos.toNat % 2 ^ r.logn)
    let refuse := fun (c : Cause) =>
      reportAfter s w { cause := c, addr := BitVec.ofNat 64 a, pc := some 0, msgId := some (word n) }
    match locateHub s r.ctx a .store with
    | .error c => refuse c
    | .ok p =>
      match reach s r.ctx p 8 with
      | .error c => refuse c
      | .ok q => (s.under (p.key s r.ctx) q 8).storeNum false q 8 (id.toNat + r.rpos.toNat * 2 ^ 32)

/-- Stop(p) of R331, once RPOS is past p. -/
def stopSlot (s : State) (n : Nat) : State :=
  let r := s.req n
  let r := ((r.dropHeld fun _ => true).kill fun _ => true).noTree
  let s := s.setReq n { r with state := .stopped, toks := [], levels := [] }
  match r.handle with
  | some i => cutAll s i r.rpos.toNat
  | none => s

/-- Ready tokens of a slot retire in order, at most `k`; a token of the stop set stops the slot (R331). -/
def retire (s : State) (w : Sender) (n : Nat) : Nat → State
  | 0 => s
  | k + 1 =>
    let r := s.req n
    match r.toks with
    | t :: ts =>
      if r.ready t.tag then
        let s := writeLog s w n r t.id
        let s := s.setReq n { r with toks := ts, rpos := r.rpos + 1 }
        if r.stops.contains t.id then stopSlot s n else retire s w n k
      else s
    | [] => s

/-- The step of R331 after a put, a confirm or a pop. -/
def retireStep (s : State) (w : Sender) (n : Nat) : State :=
  let r := s.req n
  let s := s.setReq n (r.pops r.depth)
  let s := retire s w n r.unret
  releaseHeld s n (s.req n).held.length

/-! Rewinds (R332, R333) -/

/-- The forms that wait to put tokens, and the others. -/
def SlotWait.puts : SlotWait → Bool
  | .emit _ _ => false
  | _ => true

/-- Every waiting put and `dt.accept` of a slot completes STALE (R332, R346). -/
def staleAll (s : State) (n : Nat) : State × List (Sender × Answer) :=
  let r := s.req n
  (s.setReq n { r with waiting := r.waiting.filter fun x => !x.2.puts },
   (r.waiting.filter fun x => x.2.puts).map fun x => (x.1, .value r.stale))

/-- What a waiting strand is told (R160). -/
def tell (s : State) (x : Sender × Answer) : State :=
  s.modSlot x.1.unit x.1.slot fun sl =>
    if x.1.names sl.st && sl.asked then { sl with answer := some x.2 } else sl

/-- A notice of RPOS applied at the home die: CLEN follows, and the forms it completes are told (R329). -/
def applyRpos (s : State) (i : Nat) (r : BitVec 32) (ts : List (Sender × Answer)) : State :=
  ts.foldl tell (s.setHandle i { s.handle i with rpos := r }.settleClen)

/-- The notices of RPOS to a handle that are on their way applied in order: a step of the hub at the home die comes after
those it has sent (R207, R329). -/
def flushRpos (s : State) (i : Nat) : State :=
  let mine := fun (m : Msg) => match m.body with | .rpos j _ _ => j == i | _ => false
  (s.fabric.filter mine).foldl (fun s m => match m.body with | .rpos _ r ts => applyRpos s i r ts | _ => s)
    { s with fabric := s.fabric.filter fun m => !mine m }

/-- The tokens that positions skipped by a speculative cut hold: NPOS becomes the damaged position, and the manual gives no
token for a position that no put has taken (log 56). -/
def skipped (s : State) (depth n : Nat) : List Token :=
  (List.range n).map fun j => ⟨(Config.freeWord (s.fresh + j)).setWidth 32, depth⟩

/-- What a slot discards for a damaged position of its handle: the tokens from the position on, which becomes NPOS, and the
levels, requests and draft tree that depend on it. A position before RPOS discards every token, and NPOS is RPOS (R333; log
56). -/
def discardFrom (s : State) (n p : Nat) : State :=
  let r := s.req n
  let at_ := BitVec.ofNat 32 p
  let keep := if after32 r.rpos at_ then 0 else (at_ - r.rpos).toNat
  let d := (r.levels.filter fun l => !(after32 l.cpos at_ || l.cpos == at_)).length
  let r' := ((r.dropHeld fun x => d < x.cur).kill fun x => d < x.2).noTree
  let more := skipped s d (keep - r.toks.length)
  { s.setReq n { r' with toks := r.toks.take keep ++ more, levels := r.levels.take d } with
    fresh := s.fresh + more.length }

/-- `tr.miss` at level `l`: the slot rewound in one step; a CONFIRMED level that is then on top is popped (R330 to
R332). -/
def rewind (s : State) (w : Sender) (n l : Nat) : State × List (Sender × Answer) :=
  let r := s.req n
  match r.levels[l - 1]? with
  | none => (s, [])
  | some lv =>
    let keep := (lv.cpos + 1 - r.rpos).toNat
    let r' := ((r.dropHeld fun x => l ≤ x.cur).kill fun x => l ≤ x.2).noTree
    let s := s.setReq n { r' with toks := r.toks.take keep, levels := r.levels.take (l - 1) }
    let s := match r.handle with
      | some i =>
        let s := flushRpos s i
        let pos := max lv.kvlen.toNat (s.handle i).clen.toNat
        let (s, p) := cutSound 32 s i pos
        if p < pos then discardFrom s n p else s
      | none => s
    let (s, ts) := staleAll s n
    (retireStep s w n, ts)

/-! Forms that wait on a slot (R336) -/

/-- The tokens of a put or `dt.accept` put at NPOS, and the step of R331: the first position and the tag (R339, R346). -/
def putTokens (s : State) (w : Sender) (n : Nat) (ids : List (BitVec 32)) : State :=
  let r := s.req n
  let new := ids.map fun id => (⟨id, r.depth⟩ : Token)
  retireStep (s.setReq n { r with toks := r.toks ++ new }) w n

/-- The result of a put: its position and tag (R339). -/
def putResult (r : ReqSlot) : Word := word (r.depth * 2 ^ 32 + r.npos.toNat)

/-- The result of a `dt.accept`: the path's length and first position (R346). -/
def acceptResult (r : ReqSlot) (len : Nat) : Word := word (len * 2 ^ 32 + r.npos.toNat)

/-- A request emitted takes its serial, and leaves or is held (R334, R344). -/
def emitRequest (s : State) (n : Nat) (cls : BitVec 2) (body : BitVec 448) : State :=
  let r := s.req n
  let x : Outward := ⟨r.serial, cls, r.depth, r.depth, cls != 2 && 0 < r.depth, body⟩
  let s := s.setReq n { r with serial := r.serial + 1 }
  if cls = 2 && !r.ready r.depth then s.setReq n { s.req n with held := (s.req n).held ++ [x] } else leaveOne s n x

/-- The refusal of a form by the state of its slot (R327). -/
def slotRefusal (r : ReqSlot) : Option Cause :=
  match r.state with
  | .opened => none
  | .stopped => some .slotClosed
  | .free => some .slotBad

/-- What a waiting form gives when it can be performed now; none while it waits on (R334, R339, R346). -/
def tryWait (s : State) (n : Nat) (w : Sender) (x : SlotWait) : Option (State × Answer) :=
  let r := s.req n
  match slotRefusal r with
  | some c => some (s, .fault c 0 0)
  | none =>
    match x with
    | .put id => if r.unret < r.limit then some (putTokens s w n [id], .value (putResult r)) else none
    | .accept path =>
      if r.limit < path.length then some (s, .fault .dtLimit 0 0)
      else if r.unret + path.length ≤ r.limit then
        some (putTokens (s.setReq n r.noTree) w n path, .value (acceptResult r path.length))
      else none
    | .emit cls body =>
      if cls = 2 && 16 ≤ r.held.length then none
      else some (emitRequest s n cls body, .value (r.serial.setWidth 64))

/-- The first of some forms that wait on a slot whose own condition holds, performed; the others wait on (R334, R336,
R339, R346). -/
def serveOne (s : State) (n : Nat) : List (Sender × SlotWait) → Option (State × Sender × Answer)
  | [] => none
  | (w, x) :: l =>
    let r := s.req n
    match tryWait (s.setReq n { r with waiting := r.waiting.erase (w, x) }) n w x with
    | some (s, a) => some (s, w, a)
    | none => serveOne s n l

/-- The forms that wait on a slot served in their order of arrival, at most `k`, and what each is told. -/
def serveSlot (n : Nat) : Nat → State → State × List (Sender × Answer)
  | 0, s => (s, [])
  | k + 1, s =>
    match serveOne s n (s.req n).waiting with
    | none => (s, [])
    | some (s, w, a) =>
      let (s, r) := serveSlot n k s
      (s, (w, a) :: r)

/-! Completion (R329) -/

/-- The forms that complete are told: at once, or with the notice of RPOS when the slot is bound and `old` was its RPOS
before (R329). -/
def settleSlot (s : State) (w : Sender) (n : Nat) (old : BitVec 32) (ts : List (Sender × Answer)) : State :=
  let r := s.req n
  match r.handle with
  | some i =>
    if r.rpos == old then ts.foldl tell s
    else
      let s := ts.foldl (fun s t => tell s (t.1, .performed)) s
      s.post mgmtUnit (0x100000 + handleDie i * 2 ^ 15) w [] none (.rpos i r.rpos ts)
  | none => ts.foldl tell s

/-! Speculative errors (R311, R333) -/

/-- A speculative error at position `p` of a handle: the handle is cut, the event is counted, and the bound slot discards
what depends on the position and takes it as NPOS; a CONFIRMED level that is then on top is popped (R311, R330, R331,
R333). -/
def speculativeCut (s : State) (i p u : Nat) : State :=
  let h := s.handle i
  let (s, p) := cutSound 32 (s.countLf h.ctx u 0x10) i p
  match h.slot with
  | none => s
  | some n =>
    let r := s.req n
    let s := discardFrom s n p
    let (s, ts) := staleAll s n
    let w := hubSender h.ctx
    let s := if (s.req n).depth = r.depth then s else retireStep s w n
    let (s, us) := serveSlot n (s.req n).waiting.length s
    settleSlot s w n r.rpos (ts ++ us)

end Sys2Proof.Machine
end

