-- ==== Sys2Proof/Machine/Kv.lean ====
section
/-! DEFINITION. The key-value forms, the Fuller, the scrubber and the notices of RPOS (R309 to R319, R329). -/

namespace Sys2Proof.Machine

/-- A form that names a handle: its operand fields, then checks 1 and 2 of R301, then `body` with the table slot (R313). -/
def withHandle (s : State) (h : Word) (body : Nat → Run) : Run :=
  match checkHandle s s.st.ctx h with
  | .error c => fail c
  | .ok i => body i

/-- A blocking form of group C: it stands behind an acquire of its strand (R160, R209). -/
def blocking (s : State) (body : State → Run) : Host.Outcome State Fault Refusal :=
  performSeq s fun s => do
    let _ ← if s.me.acquires.isEmpty then .ok () else .error .hold
    body s

/-! `kv.new` and `kv.drop` (R314, R315) -/

/-- Whether a geometry word or a bound breaks R314. -/
def geometryBad (g b : Nat) : Bool :=
  let home := bits g 44 40
  bits g 63 45 != 0 || bits g 27 22 != 0 || bits g 15 5 != 0 || bits g 21 16 == 0 || bits g 4 0 < 4 ||
    (24 ≤ home && home != 31) || b == 0 || 0xF_FFFF < b

/-- The lowest FREE table slot of a die (R314). -/
def freeSlot (s : State) (d : Nat) : Option Nat :=
  ((List.range 4096).find? fun i => (s.handle (i * 24 + d)).state == .free).map fun i => i * 24 + d

/-- The table slot for a HOME field: of the die it names, or of the lowest-numbered die that has one (R314). -/
def homeSlot (s : State) (home : Nat) : Option Nat :=
  if home = 31 then (List.range 24).findSome? (freeSlot s) else freeSlot s home

/-- R314. -/
def execKvNew (s : State) := blocking s fun s => do
  let (a, b, s) ← srcAB s
  let g := a.toNat
  let _ ← failIf (geometryBad g b.toNat) .kvArg
  match homeSlot s (bits g 44 40) with
  | none => fail .kvFull
  | some i =>
    let h : Handle :=
      { Handle.reset with
        state := .live, gen := (s.handle i).gen, ctx := s.st.ctx, planes := bits g 39 28 + 1, rb := bits g 21 16,
        fmt := BitVec.ofNat 5 g, bound := b.toNat }
    dstLong s.ir.d (handleWord i h) (s.setHandle i h)

/-- R315. -/
def execKvDrop (s : State) := blocking s fun s => do
  let (a, s) ← src s.ir.a s
  withHandle s a fun i => do
    let _ ← failIf (s.handle i).slot.isSome .kvBound
    return landLong [] (freeHandle s i)

/-! Errors (R311) -/

/-- A page's error at a row: a speculative cut, or POIS (R311). The notices of RPOS on their way to a bound handle are
applied first, so that CLEN is the minimum of LEN and RPOS that R333 starts from (R329). -/
def pageError (s : State) (i k row : Nat) : State :=
  let s := if (s.handle i).slot.isSome then flushRpos s i else s
  let h := s.handle i
  let d := h.page k
  let p := 32 * (k % 2 ^ 20) + row
  if h.clen.toNat ≤ p then speculativeCut s i p (loftUnit (d.pfn * 4096))
  else poisonPage s i k

/-- The KV.POISON of a form on a handle at a position: the form's own, NEXT or POS, where R311 says only the position (R357;
DESIGN CHOICE, log 54). -/
def kvPoisonTrap (h : Word) (p : Nat) : Trap := { cause := .kvPoison, addr := h, msgId := some (word p) }

/-! `kv.app` (R307, R308, R316) -/

/-- A page with a row appended: where it fits under the page's scale the row is written behind the others, else, and for
an empty page, a fresh page of the handle's class is written (R307, R308). -/
def appendRow (s : State) (i : Nat) (d : PageDesc) (scale rise : Nat) (row : List Byte) (fresh : Option Nat) :
    State × PageDesc :=
  let h := s.handle i
  let f := h.fmt.toNat
  let old := pageRows s h d
  let rows := (if rise = 0 then old else old.map fun r => r.map (requantise f rise)) ++ [row]
  let d' : PageDesc :=
    { d with crc := pageCrc scale rows, scale := BitVec.ofNat 8 scale, fill := d.fill + 1 }.publish
  match fresh with
  | none =>
    match rowPlace s h d d.fill with
    | some a => (s.setBytesUnder (h.key s) a row, d')
    | none => (s, d')
  | some p =>
    let s := s.setBytesUnder (h.key s) (p * 4096) (pageImage scale f 0 rows)
    (freePage s i d, { d' with pfn := p, cls := BitVec.ofNat 2 h.cls, cmp := false })

/-- The pages a form takes from its die's store: one for the directory when that has to grow, and a fresh one for the data;
none when no slab is left (R304, R305). -/
def takePages (h : Handle) (k : Nat) (isFresh : Bool) (x : Store) : Option (Option Nat × Option Nat × Store) :=
  match h.dirPage k x with
  | none => none
  | some (dir, x) =>
    if isFresh then match x.take h.cls with | some (p, x) => some (dir, some p, x) | none => none
    else some (dir, none, x)

/-- The step of `kv.app` at the home: RANGE, VAL, NOMEM, POISON and NOKEY, then the append; an error met in a rescale is
acted on first (R311, R316). `fuel` bounds how often. A fault leaves the state `z`, in which no source has been read
(R59). -/
def appendAt (hw : Word) (i q : Nat) (codes : List Nat) : Nat → State → State → Except Stop (Nat × State)
  | fuel, z, s =>
    let h := s.handle i
    let f := h.fmt.toNat
    let p := (h.nextOf q).toNat
    let k := pageKey q (p / 32)
    let d := h.page k
    let stop := fun (t : Trap) => (.error (.trap t (some z)) : Except Stop (Nat × State))
    if 32 * h.bound ≤ p then stop { cause := .kvRange }
    else
      match rowValues f codes with
      | none => stop { cause := .kvVal }
      | some x =>
        match nextScale f d x with
        | none => stop { cause := .kvVal }
        | some (scale, rise) =>
          let isFresh := d.fill = 0 || rise != 0 || d.cmp
          match takePages h k isFresh (s.pool (handleDie i)) with
          | none => stop { cause := .kvNomem }
          | some (dir, page, pool) =>
            if d.pois then stop (kvPoisonTrap hw p)
            else if (h.key s).isNone then stop { cause := .memNokey }
            else
              let hurt := if d.fill != 0 && isFresh then damagedRow s h d (List.range d.fill) else none
              match hurt, fuel with
              | some r, fuel + 1 => appendAt hw i q codes fuel (pageError z i k r) (pageError s i k r)
              | _, _ =>
                let row := x.map fun v => BitVec.ofNat 8 ((scaledCode f scale v).getD 0)
                let s := s.setPool (handleDie i) pool
                let (s, d') := appendRow s i d scale rise row page
                let h := { (s.handle i).setPage k d' with dir := (s.handle i).dir ++ dir.toList }
                let h := { h with next := sset 0 h.next q (BitVec.ofNat 32 (p + 1)) }.settleClen
                .ok (p, s.setHandle i h)
termination_by structural fuel => fuel

/-- R316: the row is read in L once the home has given E, and appended in one step there; the strand hears KNOW of its die
in reading it (R207 rule 5). -/
def execKvApp (s : State) := blocking s fun z => do
  let (a, b, d, s) ← srcABD z
  let from_ := b.toNat
  let _ ← failIf (from_ % 16 != 0 || regionOf from_ != .l) .kvArg
  withHandle s a fun i => do
    let h := s.handle i
    let n := 4 * h.elems
    let _ ← failIf (h.planes ≤ d.toNat || schedBase < from_ + n) .kvArg
    let _ ← if mayReach s s.focusU s.focusU s.st.ctx .l then .ok () else failAt .pfOwn from_
    if s.early s.focusU false then .error .hold
    else
      let bs ← readRun s s.focusU from_ from_ n
      let codes := (List.range h.elems).map fun j => leNat ((bs.drop (4 * j)).take 4)
      let (p, s) ← appendAt a i d.toNat codes 2 z s.hear
      dstLong s.ir.d (word p) s

/-! `kv.len` and `kv.cut` (R317, R319) -/

/-- R317. -/
def execKvLen (s : State) := blocking s fun s => do
  let (a, s) ← src s.ir.a s
  withHandle s a fun i =>
    let h := s.handle i
    dstLong s.ir.d (word (h.clen.toNat * 2 ^ 32 + h.len)) s

/-- R319: KV.BOUND after the range of the position (R313). -/
def execKvCut (s : State) := blocking s fun s => do
  let (a, b, s) ← srcAB s
  let pos := bits b.toNat 31 0
  let _ ← failIf (b.toNat / 2 ^ 33 != 0) .kvArg
  withHandle s a fun i => do
    let h := s.handle i
    let _ ← failIf (pos < h.clen.toNat || h.len < pos) .kvRange
    let _ ← failIf h.slot.isSome .kvBound
    return landLong [] (if bit b.toNat 32 then s.setHandle i { h with clen := BitVec.ofNat 32 pos } else cutAll s i pos)

/-! `kv.ref` (R318) -/

/-- Granules of rows and scales pushed in order from a frame's offsets; a refused one ends the push and is reported. -/
def pushFrom (s : State) (u off a : Nat) (tag : BitVec 8) (first : Bool) : List (Nat × List Byte) → State
  | [] => s
  | (o, bs) :: gs =>
    let p := ownPlace s u (off + o)
    match pushGranule s s.st.ctx s.st.dep p bs (if first then some tag else none) with
    | .error c => report s u s.self { cause := c, addr := BitVec.ofNat 64 (a + o) }
    | .ok s => pushFrom s u off a tag false gs

/-- A push that the hub makes at a frame's home in one step: its granules bear what the strand depends on, and across dies
a serial of the strand's die (R207, R318, R325). -/
def pushFrame (s : State) (u off a : Nat) (tag : BitVec 8) (first : Bool) (gs : List (Nat × List Byte)) : State :=
  pushFrom (s.stepWrite s.focusU s.focusK u) u off a tag first gs

/-- The granules that rows put in a frame from an offset on. -/
def rowGranules (o : Nat) (bs : List Byte) : List (Nat × List Byte) :=
  (List.range (bs.length / 16)).map fun j => (o + 16 * j, (bs.drop (16 * j)).take 16)

/-- The scale granules of a frame, with the scales of blocks `lo` to `hi` set (R186, R318). -/
def scaleGranules (s : State) (u off lo hi scale : Nat) : List (Nat × List Byte) :=
  (List.range (hi / 16 + 1 - lo / 16)).map fun j =>
    let o := 3840 + (lo / 16 + j) * 16
    let p := match settleFill s (ownPlace s u (off + o)) with | .ok a => a | .error _ => localPlace u (off + o)
    (o, (List.range 16).map fun b =>
      let n := o - 3840 + b
      if lo ≤ n && n ≤ hi then BitVec.ofNat 8 scale else s.byte (p + b))

/-- The tests of `kv.ref`'s destination: those of R183 over its granules, with BUF.STATE (R196, R318). -/
def refDest (s : State) (a : Nat) (gs : List (Nat × Nat)) : Except Stop Nat := do
  let u ← pushDest s a 16
  let _ ← gs.forM fun g => do
    let _ ← pushDest s (a - a % 4096 + g.1) g.2
    return ()
  return u

/-- Whether a granule of the destination would be refused by its buffer's state. -/
def fillRefused (s : State) (u off : Nat) : Bool :=
  match settleFill s (ownPlace s u off) with | .ok _ => false | .error _ => true

/-- The snapshot and the writes of `kv.ref`, once every test but those of the page has passed: an error met in the read
is acted on, and the tests are made again (R308, R311, R318). A fault leaves the state `z`, in which no source has been
read (R59). -/
def refAt (hw : Word) (i k row cnt a : Nat) (tests : State → Except Stop Nat) : Nat → State → State → Run
  | fuel, z, s => do
    let u ← match tests s with
      | .ok u => .ok u
      | .error (.trap t _) => .error (.trap t (some z))
      | .error e => .error e
    let h := s.handle i
    let d := h.page k
    match damagedRow s h d ((List.range cnt).map (row + ·)), fuel with
    | some r, fuel + 1 => refAt hw i k row cnt a tests fuel (pageError z i k r) (pageError s i k r)
    | _, _ =>
      let o := a % 4096
      let base := (match localOf s.focusU a with | some (_, off) => off | none => 0) - o
      let bs := ((List.range cnt).map fun r => rowBytes s h d (row + r)).flatten
      let tag := BitVec.ofNat 8 (h.fmt.toNat * 8 + 1)
      let gs := rowGranules o bs ++
        scaleGranules s u base (o / 16) ((o + bs.length - 1) / 16) d.scale.toNat
      .ok (landLong [] (pushFrame s u base (a - o) tag true gs))
termination_by structural fuel => fuel

/-- R318: once the strand's earlier writes have been performed, the push is made in the step of the snapshot. -/
def execKvRef (s : State) := blocking s fun z => do
  let (h, b, d, s) ← srcABD z
  let sel := b.toNat
  let a := d.toNat
  let cnt := bits sel 49 44
  let pos := bits sel 31 0
  let plane := bits sel 43 32
  let o := a % 4096
  let near := regionOf a == .l || regionOf a == .w || regionOf a == .m
  let _ ← failIf (sel / 2 ^ 50 != 0 || cnt == 0 || o % 16 != 0 || !near) .kvArg
  if !s.st.writes.isEmpty || !s.st.asked.isEmpty then .error (.block none)
  else
    withHandle s h fun i => do
      let x := s.handle i
      let n := cnt * x.elems
      let _ ← failIf (x.planes ≤ plane || 3840 < o + n) .kvArg
      let k := pageKey plane (pos / 32)
      let scales := (3840 + o / 16 / 16 * 16, ((o + n - 1) / 16 / 16 - o / 16 / 16 + 1) * 16)
      let tests := fun (s : State) => do
        let x := s.handle i
        let _ ← failIf (x.len < pos + cnt || pos / 32 != (pos + cnt - 1) / 32) .kvRange
        let _ ← if (x.page k).pois then .error (.trap (kvPoisonTrap h pos)) else .ok ()
        let u ← refDest s a [(o, n), scales]
        let base := (match localOf s.focusU a with | some (_, off) => off | none => 0) - o
        let gran := (List.range (n / 16)).map (fun j => o + 16 * j) ++ (List.range (scales.2 / 16)).map fun j => scales.1 + 16 * j
        let _ ← match gran.find? fun g => fillRefused s u (base + g) with
          | some g => failAt .bufState (a - o + g)
          | none => .ok ()
        let _ ← failIf (s.keyOf s.st.ctx).isNone .memNokey
        let _ ← if s.crossing s.focusU s.focusK u then .error (.block none) else .ok ()
        return u
      refAt h i k (pos % 32) cnt a tests 2 z s

/-! The Fuller and the scrubber (R309, R310) -/

/-- ZMASK of rows: those whose every element is zero (R303). -/
def zeroRows (rows : List (List Byte)) : Nat :=
  ((List.range rows.length).map fun r => if (rows.getD r []).all (· == 0) then 2 ^ r else 0).foldl (· + ·) 0

/-- R309: a full page whose rows are all committed recopied into the smallest class that holds it without its zero rows,
when that class is smaller or its slab is less than half occupied, and published. -/
def execFullerCompaction (s : State) : Host.Outcome State Fault Refusal :=
  match s.ev with
  | some (.fullerCompaction i k) =>
    let h := s.handle i
    let d := h.page k
    if h.state == .live && d.fill = 32 && !d.pois && 32 * (k % 2 ^ 20) + 32 ≤ h.clen.toNat then
      let rows := pageRows s h d
      let z := zeroRows rows
      let img := pageImage d.scale.toNat h.fmt.toNat z rows
      let c := classFor img.length
      let pool := s.pool (handleDie i)
      let left := ((pool.freeOf d.cls.toNat).filter fun p => p / 512 == d.pfn / 512).length
      let sparse := 2 ^ 21 / classBytes d.cls.toNat < 2 * left
      if c < d.cls.toNat || sparse then
        match pool.take c, damagedRow s h d (List.range 32) with
        | some (p, st), none =>
          let s := (s.setPool (handleDie i) st).setBytesUnder (h.key s) (p * 4096) img
          let s := freePage s i d
          let d' : PageDesc := { d with pfn := p, cls := BitVec.ofNat 2 c, cmp := true }.publish
          .next (s.setHandle i ((s.handle i).setPage k d'))
        | _, some r => .next (pageError s i k r)
        | none, none => .next s
      else .next s
    else .next s
  | _ => .next s

/-- R310, R311: a page of a LIVE handle read and its CRC recomputed; a failing unit damages the rows that share it, a
mismatch every row. -/
def execScrubCheck (s : State) : Host.Outcome State Fault Refusal :=
  match s.ev with
  | some (.scrubCheck i k) =>
    let h := s.handle i
    let d := h.page k
    if h.state == .live && 0 < d.fill && !d.pois then
      match damagedRow s h d (List.range d.fill) with
      | some r => .next (pageError s i k r)
      | none => if pageCrc d.scale.toNat (pageRows s h d) == d.crc then .next s else .next (pageError s i k 0)
    else .next s
  | _ => .next s

/-- R329: a notice of RPOS applied at the home die: CLEN follows, and the forms it completes are told. -/
def execRposNotice (s : State) : Host.Outcome State Fault Refusal :=
  match s.ev with
  | some (.rposNotice m) =>
    match s.arriving m with
    | some x =>
      match x.body with
      | .rpos i r ts =>
        .next (applyRpos (s.unpost m) i r ts)
      | _ => .next s
    | none => .next s
  | _ => .next s

end Sys2Proof.Machine
end

