-- ==== Sys2Proof/Machine/Lf.lean ====
section
/-! DEFINITION. The logit-filter forms and the stop sets (R320 to R326). -/

namespace Sys2Proof.Machine

/-! `lf.arm` (R324) -/

/-- Whether a descriptor breaks R324. -/
def filterBad (b : Nat) : Bool :=
  bits b 63 48 != 0 || bits b 39 38 == 3 || bits b 37 21 != 0 || bits b 20 0 == 0 || 2 ^ 20 < bits b 20 0

/-- The frames of a region from an address on, `n` of them, each translated for STORE: its address and place, or fault
(R183, R324). -/
def regionPlaces (s : State) : Nat → Nat → List (Nat × Except Cause Place)
  | _, 0 => []
  | a, n + 1 =>
    (a, match locate s s.focusU s.st.ctx a .store with
      | .error c => .error c
      | .ok p => if noKey s s.st.ctx p then .error .memNokey else .ok p) ::
        regionPlaces s ((a / 4096 + 1) * 4096 % 2 ^ 56) n

/-- A frame of a region whose page is no page of logits (R324). -/
def noLogits (x : Nat × Except Cause Place) : Bool := match x.2 with | .ok p => !p.smp | .error _ => false

/-- The place of a frame of a region, or its fault. -/
def framePlace (x : Nat × Except Cause Place) : Except Stop Place :=
  match x.2 with | .ok p => .ok p | .error c => failAt c x.1

/-- Bytes of a filter's region. -/
def Filter.size (f : Filter) : Nat := f.n * efSize f.ef

/-- The lowest IDLE filter of a context (R320). -/
def Context.idleFilter (x : Context) : Option Nat := (List.range 16).find? fun k => (kget x.filters k).isNone

/-- R324: LF.ARG, then the other faults in the order of the entry's list: LF.REGION, for a page that translates and is no
page of logits or for an overlap, LF.FID, and those of R183 (R313). -/
def execLfArm (s : State) := blocking s fun s => do
  let (a, b, s) ← srcAB s
  let ef := BitVec.ofNat 2 (bits b.toNat 39 38)
  let n := bits b.toNat 20 0
  let size := n * efSize ef
  let base := a.toNat % 2 ^ 56
  let _ ← failIf (filterBad b.toNat || base % efSize ef != 0) .lfArg
  let fs := regionPlaces s base ((base % 4096 + size + 4095) / 4096)
  let x := s.context s.st.ctx
  let meets := fun (p : Nat × Filter) => overlaps base size p.2.base.toNat p.2.size
  let _ ← failIf (fs.any noLogits) .lfRegion
  let _ ← failHubIf (x.filters.any meets) .lfRegion
  match x.idleFilter with
  | none => failHub .lfFid
  | some k =>
    let ps ← fs.mapM framePlace
    let f : Filter :=
      { base := word base, pages := ps.map (·.place / 4096 * 4096), k := bits b.toNat 47 40 + 1, ef := ef, n := n,
        written := [], parts := [] }
    dstLong s.ir.d (word k) (s.setFilter s.st.ctx k f)

/-! Results (R322, R323) -/

/-- The parts of the dies that have taken an element, in ascending die (R323). -/
def Filter.taken (f : Filter) : List FilterPart := (f.parts.map (·.2)).filter fun p => p.seen != 0

/-- M and S combined over parts in order; of two zeros +0 is the greater (R323; DESIGN CHOICE, log 55). -/
def combine (ps : List (Nat × Nat)) : Nat × Nat :=
  match ps with
  | [] => (inf32 true, 0)
  | p :: r =>
    let m := r.foldl (fun m q => if order32 m < order32 q.1 then q.1 else m) p.1
    (m, ps.foldl (fun s q => add32 s (round32 ((value32 q.2).mul (weight q.1 m)) false)) 0)

/-- The first `k` elements over every die's list, as (index, code), best first (R322). -/
def Filter.merged (f : Filter) : List (Nat × BitVec 32) :=
  ((f.parts.flatMap fun p => p.2.best).foldl (fun l e => shortlist f.ef e.1 e.2.toNat l) []).take f.k

/-- The block that `lf.top` writes (R325). -/
def Filter.block (f : Filter) : List Byte :=
  let l := f.merged
  let sum := fun (g : FilterPart → BitVec 32) => f.parts.foldl (fun n p => n + (g p.2).toNat) 0
  let body := leBytes 4 l.length ++ leBytes 4 (sum (·.seen)) ++ leBytes 4 (sum (·.nans)) ++ leBytes 4 0 ++
    (l.map fun e => leBytes 4 e.1 ++ leBytes 4 e.2.toNat).flatten
  body ++ List.replicate ((16 + 8 * f.k + 15) / 16 * 16 - body.length) 0

/-- A filter number of Src(A): LF.ARG above 15 (R325). -/
def filterArg (a : Word) : Except Stop Nat := if 15 < a.toNat then fail .lfArg else .ok a.toNat

/-- An ARMED filter of the context, or LF.FID (R325). -/
def armed (s : State) (k : Nat) : Except Stop Filter :=
  match kget (s.context s.st.ctx).filters k with
  | some f => .ok f
  | none => failHub .lfFid

/-- The wait before `lf.top` and `lf.sum` leave (R325). -/
def writesFirst (s : State) : Except Stop Unit := if s.settledIn .module true then .ok () else .error (.block none)

/-- R325: the merged shortlist written as a push. -/
def execLfTop (s : State) := blocking s fun s => do
  let _ ← whole [s.ir.a, s.ir.d] s
  let (a, s) ← src s.ir.a s
  let (d, s) ← src s.ir.d s
  let to_ := d.toNat % 2 ^ 56
  let k ← filterArg a
  let _ ← if to_ % 16 = 0 then .ok () else failAt .align to_
  let _ ← if (localOf s.focusU to_).isSome then .ok () else failAt .pfHole to_
  let _ ← writesFirst s
  let f ← armed s k
  let bs := f.block
  let u ← pushDest s to_ bs.length
  let off := to_ % 2 ^ 19
  let _ ← match (List.range (bs.length / 16)).find? fun j => fillRefused s u (off + 16 * j) with
    | some j => failAt .bufState (to_ + 16 * j)
    | none => .ok ()
  let s := s.hear
  let _ ← if s.crossing s.focusU s.focusK u then .error (.block none) else .ok ()
  let base := off - off % 4096
  return landLong [] (pushFrame s u base (to_ - off % 4096) 0 false (rowGranules (off % 4096) bs))

/-- R325: M and S. -/
def execLfSum (s : State) := blocking s fun s => do
  let (a, s) ← src s.ir.a s
  let k ← filterArg a
  let _ ← writesFirst s
  let f ← armed s k
  let (m, t) := combine (f.taken.map fun p => (p.m.toNat, p.s.toNat))
  dstLong s.ir.d (word (m * 2 ^ 32 + t)) s.hear

/-- R325. -/
def execLfEnd (s : State) := blocking s fun s => do
  let (a, s) ← src s.ir.a s
  let k ← filterArg a
  let _ ← armed s k
  let x := s.context s.st.ctx
  return landLong [] (s.setContext s.st.ctx { x with filters := kdel x.filters k })

/-! Stop sets (R326) -/

/-- A slot that is open under the issuing context, or SLOT.BAD (R326). -/
def openReq (s : State) (a : Word) : Except Stop ReqSlot :=
  let r := s.req a.toNat
  if reqSlots ≤ a.toNat || r.state != .opened || r.ctx != s.st.ctx then failHub .slotBad else .ok r

/-- R326. -/
def execStopSet (s : State) := blocking s fun s => do
  let (a, b, s) ← srcAB s
  let _ ← failIf (bits b.toNat 63 32 != 0) .slotBad
  let r ← openReq s a
  let id := b.setWidth 32
  if r.stops.contains id then return landLong [] s
  else
    let _ ← failHubIf (16 ≤ r.stops.length) .stopFull
    return landLong [] (s.setReq a.toNat { r with stops := r.stops ++ [id] })

/-- R326. -/
def execStopClr (s : State) := blocking s fun s => do
  let (a, s) ← src s.ir.a s
  let r ← openReq s a
  return landLong [] (s.setReq a.toNat { r with stops := [] })

end Sys2Proof.Machine
end

