-- ==== Sys2Proof/Machine/Retire.lean ====
section
/-! DEFINITION. The forms of group D: request slots, prediction levels, outward requests and draft trees (R327 to R347). -/

namespace Sys2Proof.Machine

/-- The slot a form names: SLOT.BAD for one that is FREE, foreign or out of range, SLOT.CLOSED for a STOPPED one unless
the form takes it (R327, R336). -/
def slotArg (s : State) (a : Word) (stopped : Bool) : Except Stop Nat :=
  let r := s.req a.toNat
  if reqSlots ≤ a.toNat || r.state == .free || r.ctx != s.st.ctx then failHub .slotBad
  else if r.state == .stopped && !stopped then failHub .slotClosed
  else .ok a.toNat

/-- The end of a form's step at the hub: the forms that wait are served, and this one completes with `own`, or waits when
it has none; its result goes where `given` puts it (R160, R329, R336). -/
def settleForm (given : Word → State → Run) (n : Nat) (old : BitVec 32) (own : Option Answer)
    (ts : List (Sender × Answer)) (s : State) : Run :=
  let (s, us) := serveSlot n (s.req n).waiting.length s
  let ts := ts ++ us
  let r := s.req n
  let asks := s.modMe fun sl => { sl with asked := true }
  match own with
  | none => .error (.block (some (settleSlot asks asks.self n old ts)))
  | some a =>
    if r.handle.isSome && r.rpos != old then
      .error (.block (some (settleSlot asks asks.self n old (ts ++ [(asks.self, a)]))))
    else
      let s := settleSlot s s.self n old ts
      match a with
      | .value v => given v s
      | .fault c _ _ => .error (.trap { cause := c, unit := some mgmtUnit } (some s))
      | _ => given 0 s

/-- A result with no destination (R160). -/
def empty (_ : Word) (s : State) : Run := .ok (landLong [] s)

/-- A result in D (R160). -/
def inD (v : Word) (s : State) : Run := dstLong s.ir.d v s

/-- A form of group D: what it was given while it waited, or its step at the hub (R160, R336). -/
def hubForm (s : State) (given : Word → State → Run) (body : State → Run) : Host.Outcome State Fault Refusal :=
  blocking s fun s => untaking s (served s given body)

/-! Opening and closing (R328, R329, R337, R341) -/

/-- Whether a parameter block breaks R328. -/
def blockBad (v : Nat) : Bool :=
  let log := bits v 63 0
  let limit := bits v 110 104
  v / 2 ^ 111 != 0 || limit == 0 || 64 < limit || 20 < bits v 103 96 ||
    (log != 0 && (log % 8 != 0 || bits log 63 56 != 0 || !(regionOf log == .m || regionOf log == .h)))

/-- The handle of a `tr.open` by its table slot, with its checks in order (R337). -/
def boundHandle (s : State) (h : Word) : Except Stop (Option Nat) :=
  if h == 0 then .ok none
  else
    match checkHandle s s.st.ctx h with
    | .error c => fail c
    | .ok i => do
      let x := s.handle i
      let _ ← failIf x.slot.isSome .kvBound
      let _ ← failIf (x.len != x.clen.toNat) .trArg
      return some i

/-- R337. -/
def execTrOpen (s : State) := blocking s fun s => do
  let (a, b, s) ← srcAB s
  let (bs, s) ← readBlock s (b.toNat % 2 ^ 56)
  let v := leNat bs
  let _ ← failIf (blockBad v) .trArg
  let h ← boundHandle s a
  match (List.range reqSlots).find? fun n => (s.req n).state == .free with
  | none => failHub .trFull
  | some n =>
    let r := s.req n
    let start := match h with | some i => (s.handle i).clen | none => BitVec.ofNat 32 (bits v 95 64)
    let s := match h with
      | some i => s.setHandle i { s.handle i with slot := some n, rpos := start }
      | none => s
    let r' : ReqSlot :=
      { ReqSlot.reset with
        state := .opened, ctx := s.st.ctx, start := start, rpos := start, limit := bits v 110 104, logn := bits v 103 96,
        log := word (bits v 63 0), handle := h, serial := r.serial, first := r.serial, leaving := r.leaving }
    dstLong s.ir.d (word n) (s.setReq n r')

/-- A slot freed: with a binding, LEN is cut to CLEN and the handle unbound (R327, R329). -/
def freeReq (s : State) (n : Nat) : State :=
  let r := s.req n
  let s := match r.handle with
    | some i =>
      let s := flushRpos s i
      let s := cutAll s i (s.handle i).clen.toNat
      s.setHandle i { s.handle i with slot := none }
    | none => s
  s.setReq n { ReqSlot.reset with serial := r.serial, leaving := r.leaving, waiting := r.waiting }

/-- R341: the forms still waiting then raise SLOT.BAD. -/
def execTrClose (s : State) := hubForm s empty fun s => do
  let (a, s) ← src s.ir.a s
  let n ← slotArg s a true
  let s := freeReq s n
  settleForm empty n (s.req n).rpos (some .done) [] s

/-! Levels (R330, R338, R340) -/

/-- R338: KVLEN is read once the strand's earlier writes are acknowledged. -/
def execTrCall (s : State) := hubForm s inD fun s => do
  let (a, s) ← src s.ir.a s
  let _ ← if s.st.writes.isEmpty && !s.st.asked.any (·.writes) then .ok () else .error (.block none)
  let n ← slotArg s a false
  let r := s.req n
  let _ ← failHubIf (r.depth == 8) .trDeep
  let _ ← failHubIf (r.npos == r.start) .trArg
  let kvlen := match r.handle with | some i => BitVec.ofNat 32 (s.handle i).len | none => 0
  let s := s.setReq n { r with levels := r.levels ++ [⟨r.npos - 1, kvlen, false⟩] }
  settleForm inD n r.rpos (some (.value (word (r.depth + 1)))) [] s

/-- An OPEN level named by Src(B), or TR.LEVEL (R340). -/
def openLevel (r : ReqSlot) (b : Word) : Except Stop Level :=
  if b == 0 || r.depth < b.toNat then failHub .trLevel
  else
    match r.levels[b.toNat - 1]? with
    | some l => if l.confirmed then failHub .trLevel else .ok l
    | none => failHub .trLevel

/-- R340. -/
def execTrConf (s : State) := hubForm s empty fun s => do
  let (a, b, s) ← srcAB s
  let n ← slotArg s a false
  let r := s.req n
  let l ← openLevel r b
  let s := s.setReq n { r with levels := r.levels.set (b.toNat - 1) { l with confirmed := true } }
  settleForm empty n r.rpos (some .done) [] (retireStep s s.self n)

/-- R332, R340. -/
def execTrMiss (s : State) := hubForm s empty fun s => do
  let (a, b, s) ← srcAB s
  let n ← slotArg s a false
  let r := s.req n
  let _ ← openLevel r b
  let (s, ts) := rewind s s.self n b.toNat
  settleForm empty n r.rpos (some .done) ts s

/-! Puts, limits and queries (R339, R342, R343) -/

/-- A form that may wait on its slot: performed at once where its own condition holds, whatever waits there (R334, R339,
R346). -/
def standOrWait (s : State) (n : Nat) (x : SlotWait) : Run :=
  let r := s.req n
  match tryWait s n s.self x with
  | some (s, a) => settleForm inD n r.rpos (some a) [] s
  | none => settleForm inD n r.rpos none [] (s.setReq n { r with waiting := r.waiting ++ [(s.self, x)] })

/-- R339. -/
def execTrPut (s : State) := hubForm s inD fun s => do
  let (a, b, s) ← srcAB s
  let _ ← failIf (bits b.toNat 63 32 != 0) .trArg
  let n ← slotArg s a false
  standOrWait s n (.put (b.setWidth 32))

/-- The slot word (R342). -/
def slotWord (r : ReqSlot) : Nat :=
  let conf := ((List.range r.depth).filter fun i => r.levels[i]?.any (·.confirmed)).foldl (fun n i => n + 2 ^ i) 0
  (if r.state == .stopped then 2 else 1) * 2 ^ 62 + r.depth * 2 ^ 56 + r.handle.isSome.toNat * 2 ^ 55 + r.limit * 2 ^ 48 +
    r.unret % 2 ^ 7 * 2 ^ 40 + r.held.length * 2 ^ 32 + conf * 2 ^ 24 + r.tree.length * 2 ^ 16

/-- R342. -/
def execTrQry (s : State) := hubForm s inD fun s => do
  let (a, b, s) ← srcAB s
  let sel := bits b.toNat 7 0
  let _ ← failIf (3 < sel || bits b.toNat 63 12 != 0 || (sel != 2 && bits b.toNat 11 8 != 0)) .trArg
  let n ← slotArg s a true
  let r := s.req n
  match sel with
  | 0 => inD (word (slotWord r)) s
  | 1 => inD (word (r.rpos.toNat * 2 ^ 32 + r.npos.toNat)) s
  | 2 =>
    let l := bits b.toNat 11 8
    match (if l = 0 then none else r.levels[l - 1]?) with
    | some lv => inD (word (lv.cpos.toNat * 2 ^ 32 + lv.kvlen.toNat)) s
    | none => failHub .trLevel
  | _ => inD (word (r.rdrop.toNat * 2 ^ 32 + r.edrop.toNat)) s

/-- Whether a `dt.accept` that waits has a path longer than a limit (R346). -/
def SlotWait.beyond (limit : Nat) : SlotWait → Bool
  | .accept path => decide (limit < path.length)
  | _ => false

/-- R343: a raised limit serves the forms that wait, and one below the path of a `dt.accept` that waits completes it with
DT.LIMIT (R346). -/
def execTrLim (s : State) := hubForm s inD fun s => do
  let (a, b, s) ← srcAB s
  let _ ← failIf (b == 0 || 64 < b.toNat) .trArg
  let n ← slotArg s a false
  let r := s.req n
  let above := fun (x : Sender × SlotWait) => x.2.beyond b.toNat
  settleForm inD n r.rpos (some (.value (word r.limit)))
    ((r.waiting.filter above).map fun x => (x.1, .fault .dtLimit 0 0))
    (s.setReq n { r with limit := b.toNat, waiting := r.waiting.filter fun x => !above x })

/-! `emit` (R334, R344) -/

/-- R344: the record is read, the form waits as a release of system scope, and the request leaves or is held. -/
def execEmit (s : State) := hubForm s inD fun z => do
  let (a, b, s) ← srcAB z
  let at_ := b.toNat
  let _ ← failIf (at_ % 64 != 0 || schedBase ≤ at_) .trArg
  let _ ← if mayReach s s.focusU s.focusU s.st.ctx .l then .ok () else failAt .pfOwn at_
  if s.early s.focusU false then .error .hold
  else
    let v := leNat (← readRun s s.focusU at_ at_ 64)
    let _ ← failIf (bits v 63 2 != 0 || bits v 1 0 == 3) .egrArg
    let _ ← releaseWait z .system
    let n ← slotArg s a false
    standOrWait s n (.emit (BitVec.ofNat 2 v) (BitVec.ofNat 448 (v / 2 ^ 64)))

/-! Draft trees (R345 to R347) -/

/-- The ancestry row of a new node: its parent is the node last entered at the depth above (R345). -/
def nodeRow (r : ReqSlot) (h : Nat) : BitVec 64 :=
  let up : BitVec 64 :=
    if h = 0 then 0
    else match kget r.stack (h - 1) with
      | some p => match r.tree[p]? with | some n => n.row | none => 0
      | none => 0
  up ||| BitVec.ofNat 64 (2 ^ r.tree.length)

/-- R345. -/
def execDtNode (s : State) := hubForm s inD fun s => do
  let (a, b, s) ← srcAB s
  let h := bits b.toNat 3 0
  let _ ← failIf (bits b.toNat 31 4 != 0) .trArg
  let n ← slotArg s a false
  let r := s.req n
  let k := r.tree.length
  let _ ← failHubIf (k == 64) .dtFull
  let limit := match r.tree.getLast? with | some x => x.depth + 1 | none => 0
  let _ ← failHubIf (limit < h) .dtDepth
  let row := nodeRow r h
  let s := s.setReq n
    { r with tree := r.tree ++ [⟨BitVec.ofNat 32 (bits b.toNat 63 32), h, row⟩], stack := kput r.stack h k }
  inD row s

/-- The tokens on the path of a node, from root to node (R346). -/
def pathOf (r : ReqSlot) (row : BitVec 64) : List (BitVec 32) :=
  (List.range r.tree.length).filterMap fun i => if row.getLsbD i then r.tree[i]?.map (·.tok) else none

/-- R346. -/
def execDtAccept (s : State) := hubForm s inD fun s => do
  let (a, b, s) ← srcAB s
  let n ← slotArg s a false
  let r := s.req n
  match (if b.toNat < 64 then r.tree[b.toNat]? else none) with
  | none => failHub .dtNode
  | some x =>
    let path := pathOf r x.row
    let _ ← failHubIf (r.limit < path.length) .dtLimit
    standOrWait s n (.accept path)

/-- R347. -/
def execDtReset (s : State) := hubForm s empty fun s => do
  let (a, s) ← src s.ir.a s
  let n ← slotArg s a false
  return landLong [] (s.setReq n (s.req n).noTree)

end Sys2Proof.Machine
end

