-- ==== Sys2Proof/Machine/Commands.lean ====
section
/-! DEFINITION. The command that each class-11 row makes when it is issued, for the commands that a resumed object brings back (R376, R385). -/

namespace Sys2Proof.Machine

/-- A selection command accepted, to register later (R289). -/
def selectionCmd (make : Option (Fin 8 × Bool) → State → Except Stop Cmd) (bound : Option (Fin 8 × Bool)) (s : State) : Run := do
  let x ← make bound s
  accept x s

/-- The tests and acceptance of a class-11 row (R249); none for any other row. -/
def commandOf : Instr → Option (Option (Fin 8 × Bool) → State → Run)
  | .vadd => some cmdVadd
  | .vsub => some cmdVsub
  | .vmul => some cmdVmul
  | .vdiv => some cmdVdiv
  | .vfma => some cmdVfma
  | .vmin => some cmdVmin
  | .vmax => some cmdVmax
  | .vabs => some cmdVabs
  | .vneg => some cmdVneg
  | .vrcp => some cmdVrcp
  | .vrsq => some cmdVrsq
  | .vexp2 => some cmdVexp2
  | .vand => some cmdVand
  | .vor => some cmdVor
  | .vxor => some cmdVxor
  | .vnot => some cmdVnot
  | .vshl => some cmdVshl
  | .vshr => some cmdVshr
  | .vsar => some cmdVsar
  | .vceq => some cmdVceq
  | .vcne => some cmdVcne
  | .vclt => some cmdVclt
  | .vcle => some cmdVcle
  | .vsel => some cmdVsel
  | .vmov => some cmdVmov
  | .vbcast => some cmdVbcast
  | .vcvt => some cmdVcvt
  | .vpush => some cmdVpush
  | .vpop => some cmdVpop
  | .vrsum => some cmdVrsum
  | .vrmax => some cmdVrmax
  | .vtrn => some cmdVtrn
  | .vshf => some cmdVshf
  | .mand => some cmdMand
  | .mor => some cmdMor
  | .mxor => some cmdMxor
  | .mnot => some cmdMnot
  | .mset => some cmdMset
  | .mclr => some cmdMclr
  | .vld => some cmdVld
  | .vst => some cmdVst
  | .vldd => some cmdVldd
  | .mld => some cmdMld
  | .mst => some cmdMst
  | .mmaB8 => some cmdMmaB8
  | .mmaF16 => some cmdMmaF16
  | .mmaBf16 => some cmdMmaBf16
  | .mzero => some cmdMzero
  | .acld => some cmdAcld
  | .acst => some cmdAcst
  | .acmv => some cmdAcmv
  | .rstat => some cmdRstat
  | .cpy => some cmdCpy
  | .cpyFill => some cmdCpyFill
  | .cpy2d => some cmdCpy2d
  | .cpyGth => some cmdCpyGth
  | .crdOpen => some (selectionCmd makeCrdOpen)
  | .crdDig => some (selectionCmd makeCrdDig)
  | .crdWdig => some (selectionCmd makeCrdWdig)
  | .crdPlane => some (selectionCmd makeCrdPlane)
  | .crdElim => some (selectionCmd makeCrdElim)
  | .crdRes => some (selectionCmd makeCrdRes)
  | .crdWait => some (selectionCmd makeCrdWait)
  | .crdClose => some (selectionCmd makeCrdClose)
  | _ => none

end Sys2Proof.Machine
end

