-- ==== Sys2Proof/Machine/Par.lean ====
section
/-! DEFINITION. The meanings of group 7: tasks, messages, join cells, weight, groups, barriers, handler tables and the stealing domain (R159 to R175), and the arrivals at their homes. -/

namespace Sys2Proof.Machine

/-- Entries of a send buffer (R132). -/
def sendsRoom : Nat := 16

/-- A record and weight put in the send buffer of the strand in focus: SEND.FULL, then WGT.EXH (R132, R146, R162). -/
def bufferSend (r : Rec) (o : Origin) (target : Nat) (idx : BitVec 8) (s : State) : Run := do
  let st := s.st
  let _ ← failIf (sendsRoom ≤ st.sends.length) .sendFull
  let _ ← failIf (st.wgt.toNat < 2) .wgtExh
  let h := BitVec.ofNat 64 (st.wgt.toNat / 2)
  let q : Queued := ⟨r, h, o, 0, st.launch, st.ctx, st.dep, none, false, false, none⟩
  return s.modSt fun st => { st with sends := st.sends ++ [⟨q, target, idx⟩], wgt := st.wgt - h }

/-- The record that `fork` and `callat` make (R162). -/
def forkRec (s : State) (code budget : Word) : Rec :=
  ⟨budget.setWidth 32, s.st.key, #v[s.st.x[0], s.st.x[1], s.st.x[2], s.st.x[3]], 0, s.st.x[14], code⟩

/-- REC.BAD for a record made at issue with a 64-bit budget operand (R126, R162). -/
def recBad (r : Rec) (budget : Word) : Bool := r.bad || budget.toNat / 2 ^ 32 != 0

/-- R162. -/
def execFork (s : State) := performSeq s fun s => do
  let (a, b, s) ← srcAB s
  let r := forkRec s a b
  let _ ← failIf (recBad r b) .recBad
  bufferSend r .fork 0 0 s

/-- Whether a target operand names no unit for the strand: bits 63:21, a number that is no compute or loft core, or a
core whose memory its context does not own (R163, R164, R179). -/
def unitBad (s : State) (d : Word) : Bool :=
  d.toNat / 2 ^ 21 != 0 || !isWorker d.toNat || s.owner d.toNat != some s.st.ctx

/-- R163. -/
def execCallat (s : State) := performSeq s fun s => do
  let (a, b, d, s) ← srcABD s
  let _ ← failIf (unitBad s d) .unitBad
  let r := forkRec s a b
  let _ ← failIf (recBad r b) .recBad
  bufferSend r .callat d.toNat 0 s

/-- R164: the code, budget and key come from the handler entry when the message arrives. -/
def execSend (s : State) := performSeq s fun s => do
  let _ ← whole [s.ir.a, s.ir.d] s
  let (a, s) ← src s.ir.a s
  let (d, s) ← src s.ir.d s
  let _ ← failIf (unitBad s d) .unitBad
  let _ ← failIf (255 < a.toNat) .hndIdx
  bufferSend { forkRec s 0 0 with dkey := 0 } .send d.toNat (a.setWidth 8) s

/-- R165: in a handler the task is dropped; else its entries are released and its weight returned. -/
def execDone (s : State) := perform s fun s => do
  let s ← endWait s s
  if s.me.mode == .handler then .ok (s.dropTask s.focusU s.focusK) else release s

/-! Join cells (R147, R148, R166, R167) -/

/-- A step at an object's home waits for the strand's earlier stores and atomics and for its requests to that home, and at
the ingress of the home's die (R166, R167, R172, R207, R413, R414). -/
def awaitWrites (s : State) (home : Nat) : Except Stop Unit := do
  let _ ← if s.me.acquires.isEmpty then .ok () else .error .hold
  if s.early home true || s.crossing s.focusU s.focusK home then .error (.block none) else .ok ()

/-- The place of an object of a form: its faults are precise (R161). -/
def objectPlace (s : State) (a : Nat) (k : Access) : Except Stop Place :=
  match locate s s.focusU s.st.ctx a k with
  | .ok p => .ok p
  | .error c => failAt c a

/-- The place of an object behind buffers, as its home reads it. -/
def objectAt (s : State) (p : Place) (a n : Nat) : Except Stop Nat :=
  match reach s s.st.ctx p n with
  | .ok q => .ok q
  | .error c => failThere s p.home c a

/-- The places of a join cell's two granules at its home; a failure as the caller reports it (R147, R194). -/
def cellAt {ε : Type} (s : State) (ctx : BitVec 12) (p : Place) (bad : Cause × Nat → Except ε (List Nat)) :
    Except ε (List Nat) :=
  match reachAll s ctx p 2 with
  | .ok ps => .ok ps
  | .error e => bad e

/-- A join cell's fields as a number of 32 bytes (R147). -/
def cellNum (state count launch recaddr weight : Nat) : Nat :=
  state + count * 2 ^ 64 + launch * 2 ^ 96 + recaddr * 2 ^ 128 + weight * 2 ^ 192

/-- R166: D is read first; the homes of cell and record are found before the count is looked at, and an object that is
in no local memory is misplaced (R147, R161). -/
def execJinit (s : State) := performSeq s fun s => do
  let (a, b, d, s) ← srcDAB s
  let c := d.toNat % 2 ^ 56
  let r := a.toNat % 2 ^ 56
  let n := b.toNat
  let bad : Except Stop Unit := failAt .joinAddr c
  let _ ← if c % 32 != 0 || r % 64 != 0 then bad else .ok ()
  let pc ← objectPlace s c .atomic
  let pr ← objectPlace s r .load
  let _ ← if pc.home != pr.home || n == 0 || 2 ^ 32 ≤ n || d.toNat != c || a.toNat != r then bad else .ok ()
  let _ ← if pc.off.isNone || pr.off.isNone then bad else .ok ()
  let w := s.st.wgt
  let _ ← failIf (w.toNat < 2) .wgtExh
  let _ ← awaitWrites s pc.home
  let bs ← match readAll s s.st.ctx pr 4 with | .ok bs => .ok bs | .error (c, i) => failThere s pr.home c (r + 16 * i)
  let _ ← if (Rec.ofNum (leNat bs)).bad then failThere s pc.home .recBad r else .ok ()
  let qc ← cellAt s s.st.ctx pc fun e => failThere s pc.home e.1 (c + 16 * e.2)
  let state := leNat (s.gather qc) % 2 ^ 32
  let _ ← if state == 1 || 2 < state then failThere s pc.home .joinState c else .ok ()
  let h := w.toNat / 2
  let s := s.scatterRaw qc (leBytes 32 (cellNum 1 n s.st.launch.toNat r h))
  let s := (s.stepWrite s.focusU s.focusK pc.home).stepRead s.focusU s.focusK pc.home
  return landLong [] (s.modSt fun st => { st with wgt := w - BitVec.ofNat 64 h })

/-- R167: the strand goes on; an arrival at no cell is refused as on a FREE one (log 17); a translation failure is
precise (R161). -/
def execJarv (s : State) := performSeq s fun s => do
  let (a, s) ← src s.ir.a s
  let c := a.toNat % 2 ^ 56
  let _ ← if s.me.acquires.isEmpty && !(s.st.asked.any (·.writes)) then .ok () else .error .hold
  let refuse := fun (_ : Unit) =>
    if s.st.writes.isEmpty then .ok (report s s.focusU s.self { cause := .joinState, addr := a }) else .error .hold
  if c % 32 != 0 || a.toNat != c then refuse ()
  else
    match locate s s.focusU s.st.ctx c .atomic with
    | .error .pfHole => refuse ()
    | .error e => failAt e c
    | .ok p => if p.off.isNone then refuse () else return s.sendWrite p.home a false (.arrival a)

/-- The record of a released cell read at its home: REC.BAD, or the fault of reading it. -/
def releasedRec (s : State) (u : Nat) (ctx : BitVec 12) (a : Nat) : Except Cause Rec :=
  match locate s u ctx a .load with
  | .error c => .error c
  | .ok p =>
    match readAll s ctx p 4 with
    | .error e => .error e.1
    | .ok bs => if (Rec.ofNum (leNat bs)).bad then .error .recBad else .ok (Rec.ofNum (leNat bs))

/-- Whether an arrival at an ARMED cell whose 32 bytes are `v` releases its record (R148); a cell that a program left
ARMED with COUNT 0 is released as with COUNT 1 (DESIGN CHOICE, log 82). -/
def releases (v : Nat) : Bool := bits v 95 64 ≤ 1

/-- An arrival at an ARMED cell whose granules lie at `q` (R148, R167; a record that cannot be read is treated as a
malformed one: log 18). A task released on a loft core is queued there, the cell's home (DESIGN CHOICE, log 87). A RECADDR
that a program has overwritten is read modulo 2^56 and not tested again (DESIGN CHOICE, log 82). -/
def arriveAt (s : State) (m : Msg) (cell : Word) (q : List Nat) : State :=
  let v := leNat (s.gather q)
  let launch := BitVec.ofNat 32 (bits v 127 96)
  let recaddr := bits v 191 128
  let weight := BitVec.ofNat 64 (bits v 255 192)
  if !releases v then
    s.scatterRaw q (leBytes 32 (cellNum 1 (bits v 95 64 - 1) launch.toNat recaddr weight.toNat))
  else
    let s := s.scatterRaw q (leBytes 32 (cellNum 2 0 launch.toNat recaddr 0))
    match releasedRec s m.dst m.sender.ctx (recaddr % 2 ^ 56) with
    | .error c => (report s m.dst m.sender { cause := c, addr := cell }).returned launch weight
    | .ok r =>
      if s.launchLive launch then
        s.modCore m.dst fun c => c.pushReady
          ⟨r, weight, .join, 0, launch, m.sender.ctx, s.heard (dieOf m.dst) m.dep, none, false, false, none⟩
      else s

/-- R148, R167: an arrival at its cell's home; one that would release a record waits while that finds no room (R137). -/
def execJarvArrival (s : State) : Host.Outcome State Fault Refusal :=
  match s.ev with
  | some (.jarvArrival i) =>
    match s.arriving i with
    | some m =>
      match m.body with
      | .arrival cell =>
        let ack := fun (s : State) =>
          (s.unpost i).post m.dst m.src m.sender (s.heard (dieOf m.dst) m.dep) none (.ack m.id cell m.sender.pc m.dst none)
        if !s.launchLive m.sender.launch then .next (s.unpost i)
        else
          let s := s.learnFrom m.src m.dst m.dep
          let refuse := fun (c : Cause) => Host.Outcome.next (ack (report s m.dst m.sender { cause := c, addr := cell }))
          match locate s m.src m.sender.ctx cell.toNat .atomic with
          | .error c => refuse c
          | .ok p =>
            match reachAll s m.sender.ctx p 2 with
            | .error e => refuse e.1
            | .ok q =>
              let v := leNat (s.gather q)
              if v % 2 ^ 32 != 1 then refuse .joinState
              else if releases v && !(s.core m.dst).hasRoom then .next s
              else .next (ack ((arriveAt s m cell q).learn (dieOf m.dst) m.dep))
      | _ => .next s
    | none => .next s
  | _ => .next s

/-- R168: ISSUED and WGT grow in one step at the hub. -/
def execWmint (s : State) := performSeq s fun s => do
  let (a, s) ← src s.ir.a s
  let _ ← failIf (2 ^ 64 ≤ s.st.wgt.toNat + a.toNat) .wgtOvf
  return landLong [] ((s.issue s.st.launch a).modSt fun st => { st with wgt := st.wgt + a })

/-! Groups (R149, R169, R170) -/

/-- The compute cores of a yard that a context owns, in ascending unit number (R149, R151, R179). -/
def ownedCores (s : State) (ctx : BitVec 12) (yard : Nat) : List Nat :=
  (s.owners.filter fun p => isCompute p.1 && dieOf p.1 == yard && p.2 == ctx).flatMap fun p =>
    (List.range 16).map fun i => p.1 + i

/-- The cores from the first at or above `u` on, wrapping round. -/
def rotateTo (u : Nat) (cs : List Nat) : List Nat := cs.filter (u ≤ ·) ++ cs.filter (· < u)

/-- A member bound for a core put in its inbound strand queue; with all 8 entries taken it waits as a message of its
maker's (R138, R149; DESIGN CHOICE, log 75). -/
def State.queueMember (s : State) (src : Nat) (w : Sender) (u : Nat) (dep : Clock) (x : Inbound) : State :=
  if (s.core u).inbound.length < inboundRoom then
    (s.learnFrom src u dep).modCore u fun c => { c with inbound := c.inbound ++ [x] }
  else s.post src u w dep none (.member x)

/-- Members `i` on, one on each core in turn, bound for their cores (R149). -/
def placeMembers (src : Nat) (w : Sender) (cs : List Nat) (q : Queued) : List Nat → State → State
  | [], s => s
  | i :: is, s =>
    placeMembers src w cs q is
      (s.queueMember src w (cs.getD (i % cs.length) 0) q.dep (.member { q with member := some i }))

/-- A group of a launch formed from a record by a maker on unit `src`: its `n` members placed on the cores in turn
(R149, R169). -/
def formGroup (s : State) (src : Nat) (w : Sender) (l : BitVec 32) (yard n : Nat) (cs : List Nat) (q : Queued) : State :=
  let s := match s.launch l with
    | some x =>
      s.setLaunch l { x with group := some ⟨yard, n, List.range n, (cs.take n)⟩ }
    | none => s
  placeMembers src w cs q (List.range n) s

/-- Whether the launch holds a group (R169). -/
def State.hasGroup (s : State) (l : BitVec 32) : Bool :=
  match s.launch l with
  | some x => x.group.isSome
  | none => false

/-- R169: members start only after the issuer's earlier writes have been performed (R203, R206). Bits 63:56 of the record's
address are not read (DESIGN CHOICE, log 92). -/
def execGform (s : State) := performSeq s fun s => do
  let _ ← if s.me.acquires.isEmpty then .ok () else .error .hold
  let (a, b, s) ← srcAB s
  let (r, s) ← readRec s (a.toNat % 2 ^ 56)
  let n := b.toNat
  let st := s.st
  let _ ← failIf r.bad .recBad
  let _ ← failIf (n == 0 || 256 < n) .groupSize
  let _ ← failIf (!isCompute s.focusU) .groupYard
  let _ ← failIf (s.hasGroup st.launch) .groupBusy
  let each := st.wgt.toNat / 2 / n
  let _ ← failIf (each == 0) .wgtExh
  let _ ← if st.writes.isEmpty && !(st.asked.any (·.writes)) then .ok () else .error (.block none)
  let yard := dieOf s.focusU
  let owned := ownedCores s st.ctx yard
  let cs := if owned.isEmpty then [s.focusU] else rotateTo (barnOf s.focusU) owned
  let q : Queued := ⟨r, BitVec.ofNat 64 each, .fork, 0, st.launch, st.ctx, st.dep, none, false, false, none⟩
  let s := formGroup s s.focusU s.self st.launch yard n cs q
  return landLong [] (s.modSt fun st => { st with wgt := st.wgt - BitVec.ofNat 64 (n * each) })

/-- A strand's new STRID put wherever its old one names it: in messages, waiting requests, commands and sessions. -/
def State.renumber (s : State) (w : Sender) (n : BitVec 32) : State :=
  let f := fun (x : Sender) => if x.same w then { x with strid := n, member := false } else x
  let core := fun (c : Nat × Core) => (c.1,
    { c.2 with cmds := c.2.cmds.map fun x => { x with sender := f x.sender }
               waiters := c.2.waiters.map fun x => { x with sender := f x.sender } })
  let sess := fun (x : Nat × Session) =>
    (x.1, if x.2.isFor w then { x.2 with strid := n, member := false } else x.2)
  let barn := fun (b : Nat × Barn) => (b.1, { b.2 with sessions := b.2.sessions.map sess })
  { s with fabric := s.fabric.map fun m => { m with sender := f m.sender }
           cores := s.cores.map core
           barns := s.barns.map barn }

/-- R170: a non-member STRID is taken on the present core; while no serial is free the strand waits (R129). -/
def execGleave (s : State) := performSeq s fun s =>
  match s.st.member with
  | none => fail .groupNone
  | some m =>
    match s.here.freeSerial with
    | none => .error (.block none)
    | some n =>
      let u := s.focusU
      let s := ((s.modCore u fun c => c.setSerial n).leaveGroup s.st.launch m).renumber s.self (freeStrid u n)
      .ok (landLong [] (s.modSt fun st =>
        { st with member := none, strid := freeStrid u n, numbered := some (u, n) }))

/-! Barriers (R171 to R173) -/

/-- MEMBER, ARRIVED, PHASE and BASE of a barrier object (R171). -/
structure Barrier where
  member  : Nat
  arrived : Nat
  phase   : Nat
  base    : Nat

/-- The fields of a barrier object; none when it is malformed (R171). -/
def Barrier.ofNum (v : Nat) : Option Barrier :=
  let member := bits v 47 0
  let arrived := bits v 95 48
  let base := bits v 127 120
  if bits v 119 112 != 0 || (member ||| arrived) / 2 ^ (256 - base) != 0 || arrived &&& (2 ^ 48 - 1 - member) != 0 then
    none
  else some ⟨member, arrived, bits v 111 96, base⟩

/-- A barrier object's 16 bytes (R171). -/
def Barrier.num (b : Barrier) : Nat :=
  b.member + b.arrived * 2 ^ 48 + b.phase * 2 ^ 96 + b.base * 2 ^ 120

/-- The place of a barrier object at an address: BAR.ADDR when it is misplaced, once its home is found (R161, R171). A
bit of 63:56 that is set misplaces it, these bits and its alignment are tested first, and its page is reached as for an
atomic, by `bar.wait` and `bar.qry` too (DESIGN CHOICE, log 83). -/
def barrierPlace (s : State) (a : Nat) : Except Stop Place := do
  let _ ← if a % 16 != 0 || 2 ^ 56 ≤ a then failAt .barAddr a else .ok ()
  let p ← objectPlace s a .atomic
  if p.off.isNone then failAt .barAddr a else .ok p

/-- The bytes and fields of a barrier object as its home finds them: BAR.ADDR when it is malformed (R171). -/
def barrierAt (s : State) (p : Place) (a : Nat) : Except Stop (Nat × Barrier) := do
  let q ← objectAt s p a 16
  match Barrier.ofNum (s.num q 16) with
  | none => failThere s p.home .barAddr a
  | some b => return (q, b)

/-- A phase that is complete moves on (R172). -/
def Barrier.complete (b : Barrier) : Barrier :=
  if b.arrived = b.member then { b with arrived := 0, phase := (b.phase + 1) % 2 ^ 16 } else b

/-- An arrival or drop of the strand in focus: the phase arrived in goes to D (R172). -/
def arrival (s : State) (f : Barrier → Nat → Barrier) : Host.Outcome State Fault Refusal :=
  performSeq s fun s => do
    let (a, s) ← src s.ir.a s
    let p ← barrierPlace s a.toNat
    let _ ← awaitWrites s p.home
    let (q, b) ← barrierAt s p a.toNat
    let id := s.st.strid.toNat
    let i := id - b.base
    let _ ← if id < b.base || 47 < i || !bit b.member i || bit b.arrived i then failThere s p.home .barOver a.toNat
      else .ok ()
    let s := s.storeNum false q 16 (f b i).complete.num
    let s := (s.stepWrite s.focusU s.focusK p.home).stepRead s.focusU s.focusK p.home
    dstLong s.ir.d (word b.phase) s

/-- R172. -/
def execBarArv (s : State) := arrival s fun b i => { b with arrived := b.arrived ||| 2 ^ i }
/-- R172: arrives now, and takes no part in later phases. -/
def execBarDrop (s : State) := arrival s fun b i => { b with member := b.member - 2 ^ i }

/-- R173: waits until PHASE differs from Src(B)[15:0]. -/
def execBarWait (s : State) := performSeq s fun s => do
  let _ ← if s.me.acquires.isEmpty then .ok () else .error .hold
  let (a, b, s) ← srcAB s
  let p ← barrierPlace s a.toNat
  if s.early p.home false then .error .hold
  else if s.crossing s.focusU s.focusK p.home then .error (.block none)
  else
    let (_, o) ← barrierAt s p a.toNat
    if o.phase = b.toNat % 2 ^ 16 then .error (.block none)
    else return landLong [] (s.stepRead s.focusU s.focusK p.home)

/-- R173: PHASE and the members that have not arrived. -/
def execBarQry (s : State) := performSeq s fun s => do
  let _ ← if s.me.acquires.isEmpty then .ok () else .error .hold
  let (a, s) ← src s.ir.a s
  let p ← barrierPlace s a.toNat
  if s.early p.home false then .error .hold
  else if s.crossing s.focusU s.focusK p.home then .error (.block none)
  else
    let (_, o) ← barrierAt s p a.toNat
    dstLong s.ir.d (word (o.phase * 2 ^ 48 + (o.member - (o.member &&& o.arrived)))) (s.stepRead s.focusU s.focusK p.home)

/-! Handler tables (R156, R174) -/

/-- The strand in focus as the holder of a lock (R174). -/
def State.holder (s : State) : Holder := ⟨s.st.launch, s.st.strid⟩

/-- A refusal of HND.LOCK that ends the strand's lapsed hold (R156, R174). -/
def lapsedLock (s : State) (ctx : BitVec 12) (i : Nat) (e : HandlerEntry) : Stop :=
  .trap { cause := .hndLock, unit := some mgmtUnit } (some (s.setHandler ctx i { e with lapsed := e.lapsed.filter (· != s.holder) }))

/-- R174: an entry's fields written from a record, or the entry made EMPTY. -/
def execHset (s : State) := performSeq s fun s => do
  let _ ← if s.me.acquires.isEmpty then .ok () else .error .hold
  let (a, b, s0) ← srcAB s
  let _ ← failIf (255 < a.toNat) .hndIdx
  let ctx := s0.st.ctx
  let i := a.toNat
  let s := s.lapseLock ctx i
  let s0 := s0.lapseLock ctx i
  let (r, s1) ← if b = 0 then .ok (Rec.zero, s0) else readRec s0 (b.toNat % 2 ^ 56)
  let _ ← failIf (b != 0 && r.bad) .recBad
  let e := (s1.context ctx).handler i
  if e.lapsed.contains s.holder then .error (lapsedLock s ctx i e)
  else
    match e.lock with
    | some (h, _) =>
      if h != s.holder then failHub .hndLock
      else
        let s := s1.setHandler ctx i { e with valid := b != 0, code := r.code, budget := r.budget, key := r.dkey, lock := none }
        return landLong [] (dispatchParked s ctx i)
    | none =>
      return landLong [] (s1.setHandler ctx i { e with valid := b != 0, code := r.code, budget := r.budget, key := r.dkey })

/-- R174: the entry LOCKED; the state before the lock is kept. -/
def execHlock (s : State) := performSeq s fun s => do
  let (a, s) ← src s.ir.a s
  let _ ← failIf (255 < a.toNat) .hndIdx
  let s := s.lapseLock s.st.ctx a.toNat
  let e := (s.context s.st.ctx).handler a.toNat
  let _ ← failHubIf e.lock.isSome .hndLock
  return landLong [] (s.setHandler s.st.ctx a.toNat { e with lock := some (s.holder, s.now) })

/-- R174: the holder unlocks its entry; parked messages are dispatched (R156). -/
def execHunlock (s : State) := performSeq s fun s => do
  let (a, s1) ← src s.ir.a s
  let _ ← failIf (255 < a.toNat) .hndIdx
  let ctx := s.st.ctx
  let i := a.toNat
  let s := s.lapseLock ctx i
  let s1 := s1.lapseLock ctx i
  let e := (s1.context ctx).handler i
  if e.lapsed.contains s.holder then .error (lapsedLock s ctx i e)
  else
    match e.lock with
    | some (h, _) =>
      if h != s.holder then failHub .hndLock
      else return landLong [] (dispatchParked (s1.setHandler ctx i { e with lock := none }) ctx i)
    | none => failHub .hndLock

/-- R156: a lock that has stood for 64 cycles lapses; the state before it is kept and parked messages are dispatched. -/
def execHandlerLockLapse (s : State) : Host.Outcome State Fault Refusal :=
  match s.ev with
  | some (.handlerLockLapse ctx idx) => .next (s.lapseLock ctx idx.toNat)
  | _ => .next s

/-- R175: the launch's stealing domain read and replaced. -/
def execSdom (s : State) := performSeq s fun s => do
  let _ ← if s.me.acquires.isEmpty then .ok () else .error .hold
  let (a, s) ← src s.ir.a s
  let _ ← failIf (3 < a.toNat) .domBad
  match s.launch s.st.launch with
  | some x =>
    dstLong s.ir.d (x.domain.setWidth 64) (s.setLaunch s.st.launch { x with domain := a.setWidth 3 })
  | none => dstLong s.ir.d 0 s

/-! Message arrivals (R156, R163, R164) -/

/-- R163: a `callat` message queued at its target, while the target has room (R137). -/
def execCallatArrival (s : State) : Host.Outcome State Fault Refusal :=
  match s.ev with
  | some (.callatArrival i) =>
    match s.arriving i with
    | some m =>
      match m.body with
      | .callat q =>
        if !s.launchLive q.launch then .next (s.unpost i)
        else if (s.core m.dst).hasRoom then
          .next (((s.unpost i).learnFrom m.src m.dst m.dep).modCore m.dst fun c => c.pushReady q)
        else .next s
      | _ => .next s
    | none => .next s
  | _ => .next s

/-- R156: a `send` message at its target: queued under a VALID entry, parked under a LOCKED one, parked and reported
under an EMPTY one; it waits while there is no room (R137, R157). -/
def execSendArrival (s : State) : Host.Outcome State Fault Refusal :=
  match s.ev with
  | some (.sendArrival i) =>
    match s.arriving i with
    | some m =>
      match m.body with
      | .send q idx =>
        let s := s.lapseLock q.ctx idx.toNat
        let e := (s.context q.ctx).handler idx.toNat
        let c := s.core m.dst
        let park := fun (s : State) =>
          (s.learnFrom m.src m.dst m.dep).modCore m.dst fun c => { c with overflow := c.overflow ++ [.send q idx] }
        if !s.launchLive q.launch then .next (s.unpost i)
        else if e.lock.isSome then
          if c.overflow.length < overflowRoom then .next (park (s.unpost i)) else .next s
        else if e.valid then
          if c.hasRoom then
            .next (((s.unpost i).learnFrom m.src m.dst m.dep).modCore m.dst fun c => c.pushReady (handlerTask q e))
          else .next s
        else if c.overflow.length < overflowRoom then
          .next (missing (park (s.unpost i)) m.dst { m.sender with msgId := q.msgId } q)
        else .next s
      | _ => .next s
    | none => .next s
  | _ => .next s

end Sys2Proof.Machine
end

