-- ==== Sys2Proof/Machine/Sched.lean ====
section
/-! DEFINITION. What an EMPTY slot takes, stealing, and the notices that go to the hub, to cores and between dies (R129, R138 to R146, R207). -/

namespace Sys2Proof.Machine

/-! Selection (R138) -/

/-- Queued work and migrants of launches that are no longer LIVE leave a core (R364). -/
def State.dropDead (s : State) (u : Nat) : State :=
  let c := s.core u
  let live := fun (x : Inbound) => match x with
    | .migrant st _ => s.launchLive st.launch
    | .member q => s.launchLive q.launch
    | .resumed st .. => s.launchLive st.launch
  let s' := s.setCore u
    { c with
      deque := c.deque.filter fun q => s.launchLive q.launch
      ready := c.ready.filter fun q => s.launchLive q.launch
      inbound := c.inbound.filter live }
  (c.inbound.filter fun x => !live x).foldl (fun s x => match x with
    | .migrant st _ => s.dropMigrant u st
    | _ => s) s'

/-- Whether the group of a launch is held quiesced (R381). -/
def State.quiescing (s : State) (l : BitVec 32) : Bool := s.hub.suspended.any fun x => x.launch == l

/-- A strand that takes its slot while its group is held quiesced is QUIESCED there (R381). -/
def State.holdArrival (s : State) (u k : Nat) : State :=
  let sl := s.slot u k
  if sl.st.member.isSome && s.quiescing sl.st.launch then
    s.modSlot u k fun sl => { sl with mode := .quiesced, back := .issuing }
  else s

/-! Members of a resumed object (R385) -/

/-- A register that a captured value goes back to; other operands take none (R251). -/
def Slot.setOpd (sl : Slot) (o : Opd) (v : Word) : Slot :=
  match o with
  | .x i => { sl with st := { sl.st with x := sl.st.x.set i v } }
  | .o i => { sl with o := sl.o.set i ⟨v, true⟩ }
  | .z i => { sl with z := sl.z.set i ⟨v, true⟩ }
  | .b i => { sl with b := sl.b.set i ⟨v, true⟩ }
  | _ => sl

/-- The slot in which a recorded command is checked again: its captured values, VSHAPE, MXCFG and sequence number
(R385). -/
def CmdRec.slot (r : CmdRec) (o : Operands) (sl : Slot) : Slot :=
  let pair := fun (f : Opd) (v : Word) (sl : Slot) => match f with
    | .x i => if i.val % 2 = 0 then sl.setOpd (.x (i + 1)) v else sl
    | _ => sl
  let sl := (pair o.a r.va2 (pair o.b r.vb2 sl)).setOpd o.d r.vd
  let sl := (sl.setOpd o.b r.vb).setOpd o.a r.va
  { sl with vshape := r.vshape, mxcfg := r.mxcfg, acquires := [], st := { sl.st with cseq := r.seq } }

/-- A recorded command requeued on the core of its member: checked under R249, ENG.OWN first, and accepted with the values
of its record; a fault is deferred (R385). -/
def requeueCmd (s : State) (u k : Nat) (r : CmdRec) : State :=
  match decode (some (profileOf u)) (leBytes 12 r.w.toNat) with
  | .error _ => s
  | .ok i =>
    match commandOf i.row with
    | none => s
    | some f =>
      let bound := if r.bound then some (i.ops.hd.gidx, i.ops.hd.gsns) else none
      let t := { (s.modSlot u k (r.slot i.ops)).modCore u fun c => { c with cmds := [] } with
        focusU := u, focusK := k, ir := i.ops }
      match (do let _ ← failIf (engOwn t) .engOwn; f bound t : Run) with
      | .ok t =>
        s.modCore u fun c => { c with cmds := c.cmds ++ (t.core u).cmds, accepted := c.accepted + 1 }
      | .error (.trap e _) =>
        s.modSlot u k fun sl => { sl with deferred := sl.deferred ++ [⟨e.cause, e.addr, r.seq, e.unit⟩] }
      | .error _ => s

/-- A member of a resumed object takes a slot with all its records restore (R385). Its object has no DKEY, and the core's
CKEY stays that of the last task started (DESIGN CHOICE, log 91). -/
def seatResumed (s : State) (u k : Nat) (st : Strand) (vshape mxcfg : Word) (qs : List (Fin 8 × Word))
    (cmds : List CmdRec) : State :=
  let entry := fun (p : Fin 8 × Word) => (⟨p.1, k, .word p.2⟩ : QEntry)
  let s := s.modCore u fun c =>
    { c with qs := c.qs ++ qs.map entry }.setSlot k
      { Slot.reset with mode := .issuing, st := st, vshape := vshape, mxcfg := mxcfg, lastIssue := c.cyc }
  cmds.foldl (fun s r => requeueCmd s u k r) s

/-- The task of smallest rank taken by a slot, unless it needs a serial and every one is taken (R129, R138). -/
def selectTask (s : State) (u k : Nat) : State :=
  let c := s.core u
  match c.pick with
  | none => s
  | some p =>
    match c.queuedAt p with
    | none => s
    | some q =>
      if q.needsSerial && c.freeSerial.isNone then s
      else (s.setCore u (c.takeOut p)).startTask u k q

/-- Work under items 1 and 2 of R138 ends a back-off and a run of failures; the visiting order then starts again in the
thief's own barn, which R142 does not say (DESIGN CHOICE, log 76). -/
def Core.gotWork (c : Core) : Core := { c with stealFails := 0, backoff := none }

/-- R138: an EMPTY slot that no steal has reserved takes the oldest migrant, else the task of smallest rank. -/
def execSlotSelect (s : State) : Host.Outcome State Fault Refusal :=
  match s.ev with
  | some (.slotSelect u k) =>
    let s := s.dropDead u
    let c := s.core u
    if k < c.slots.length && !(c.slot k).live && !(c.steal.any fun x => x.slot == k) then
      match c.inbound with
      | .migrant st q7 :: rest =>
        .next (((s.setCore u { c.gotWork with inbound := rest }).seatMigrant u k st q7).holdArrival u k)
      | .member q :: rest => .next (((s.setCore u { c.gotWork with inbound := rest }).startTask u k q).holdArrival u k)
      | .resumed st v m qs cs :: rest =>
        .next ((seatResumed (s.setCore u { c.gotWork with inbound := rest }) u k st v m qs cs).holdArrival u k)
      | [] => if c.deque.isEmpty && c.ready.isEmpty then .next s else .next (selectTask (s.setCore u c.gotWork) u k)
    else .next s
  | _ => .next s

/-! Stealing (R141 to R144) -/

/-- Whether a thief lies in a stealing domain measured from a victim (R143). -/
def inDomain (d : BitVec 3) (victim thief : Nat) : Bool :=
  if d = 0 then barnOf victim == barnOf thief
  else if dieOf victim = dieOf thief then
    d != 1 || (bit victim 14 == bit thief 14 && bit victim 9 == bit thief 9)
  else d == 3

/-- The domain of a launch. -/
def State.domain (s : State) (l : BitVec 32) : BitVec 3 := match s.launch l with | some x => x.domain | none => 0

/-- The widest domain among the launches with work queued in the barn of a core (R142). -/
def widest (s : State) (u : Nat) : BitVec 3 :=
  (List.range 16).foldl (fun d i =>
    let c := s.core (barnOf u + i)
    (c.deque ++ c.ready).foldl (fun d q => if d < s.domain q.launch then s.domain q.launch else d) d) 0

/-- Whether a core may be the victim of a thief's next attempt: first the other cores of its barn in turn, then cores
of the rest of the widest domain, or the barn again when there is none wider (R142). -/
def victimOk (s : State) (u v : Nat) : Bool :=
  let n := (s.core u).stealFails
  let inTurn := barnOf u + (u + 1 + n % 15) % 16
  let w := widest s u
  if n < 15 || w == 0 then v == inTurn
  else isCompute v && barnOf v != barnOf u && inDomain w v u

/-- The first EMPTY slot of a core. -/
def Core.emptySlot (c : Core) : Option Nat := (List.range c.slots.length).find? fun k => !(c.slot k).live

/-- R141: a compute core with an EMPTY slot and nothing to take reserves the slot and asks a victim. -/
def execStealAttempt (s : State) : Host.Outcome State Fault Refusal :=
  match s.ev with
  | some (.stealAttempt u v) =>
    let s := s.dropDead u
    let c := s.core u
    match c.emptySlot with
    | some k =>
      if isCompute u && c.inbound.isEmpty && c.deque.isEmpty && c.ready.isEmpty && c.steal.isNone && c.backoff.isNone &&
          victimOk s u v then
        .next ((s.setCore u { c with steal := some ⟨v, c.cyc, k⟩ }).post u v (s.sender u k) [] none (.stealRequest k))
      else .next s
    | none => .next s
  | _ => .next s

/-- Whether a queued task may be stolen by a thief (R141, R143, R179). -/
def stealable (s : State) (victim thief : Nat) (q : Queued) : Bool :=
  (q.origin == .fork || q.origin == .join) && !q.requeued && s.launchLive q.launch &&
    inDomain (s.domain q.launch) victim thief && s.owner thief == some q.ctx

/-- The entry a victim offers: of smallest rank among those that may be stolen, the deque's oldest first, then the ready
set's earliest (R141). -/
def offer (s : State) (victim thief : Nat) : Option Spot :=
  let c := s.core victim
  let ok := stealable s victim thief
  match leastRank c ((c.deque ++ c.ready).filter ok) with
  | none => none
  | some r =>
    let at_ := fun (q : Queued) => ok q && c.rank q.crec.dkey == r
    match c.deque.findIdx? at_ with
    | some i => some (.deque i)
    | none => (c.ready.findIdx? at_).map .ready

/-- R144: in one step at the victim, an entry is handed over or the request refused. -/
def execStealRequestAtVictim (s : State) : Host.Outcome State Fault Refusal :=
  match s.ev with
  | some (.stealRequestAtVictim i) =>
    match s.arriving i with
    | some m =>
      match m.body with
      | .stealRequest _ =>
        let s' := s.unpost i
        match offer s m.dst m.src with
        | none => .next (s'.post m.dst m.src m.sender [] none (.stealGrant none))
        | some p =>
          match (s.core m.dst).queuedAt p with
          | none => .next s
          | some q => .next ((s'.modCore m.dst fun c => c.takeOut p).post m.dst m.src m.sender q.dep none (.stealGrant (some q)))
      | _ => .next s
    | none => .next s
  | _ => .next s

/-- A steal attempt that fails; after 64 in a row the thief waits (R142). -/
def stealFailed (s : State) (u : Nat) : State :=
  let s := s.modCore u fun c =>
    { c with steal := none, stealFails := c.stealFails + 1,
             backoff := if 64 ≤ c.stealFails + 1 then some c.cyc else c.backoff }
  s.count u 0 0x06 1

/-- R144: a grant enters the thief's ready set, also after the attempt has run out; a refusal ends the attempt. -/
def execStealGrantArrival (s : State) : Host.Outcome State Fault Refusal :=
  match s.ev with
  | some (.stealGrantArrival i) =>
    match s.arriving i with
    | some m =>
      let mine := (s.core m.dst).steal.any fun x => x.victim == m.src
      match m.body with
      | .stealGrant none => if mine then .next (stealFailed (s.unpost i) m.dst) else .next (s.unpost i)
      | .stealGrant (some q) =>
        if !s.launchLive q.launch then .next (if mine then stealFailed (s.unpost i) m.dst else s.unpost i)
        else if (s.core m.dst).hasRoom then
          .next ((((s.unpost i).learnFrom m.src m.dst m.dep).modCore m.dst fun c =>
            let c := c.gotWork.pushReady q
            if mine then { c with steal := none } else c).count m.dst q.ctx 0x05 1)
        else .next s
      | _ => .next s
    | none => .next s
  | _ => .next s

/-- R144: an attempt ends 400 cycles after its request. -/
def execStealTimeout (s : State) : Host.Outcome State Fault Refusal :=
  match s.ev with
  | some (.stealTimeout u) =>
    match (s.core u).steal with
    | some x => if x.sentAt + 400 ≤ (s.core u).cyc then .next (stealFailed s u) else .next s
    | none => .next s
  | _ => .next s

/-- R142: the thief tries again 4,096 cycles after its 64th failure. -/
def execStealBackoffExpiry (s : State) : Host.Outcome State Fault Refusal :=
  match s.ev with
  | some (.stealBackoffExpiry u) =>
    match (s.core u).backoff with
    | some t => if t + 4096 ≤ (s.core u).cyc then .next (s.modCore u Core.gotWork) else .next s
    | none => .next s
  | _ => .next s

/-! Notices -/

/-- R146: weight reaches the hub; with the last of it the launch is complete. -/
def execWeightReturn (s : State) : Host.Outcome State Fault Refusal :=
  match s.ev with
  | some (.weightReturn i) =>
    match s.arriving i with
    | some m =>
      match m.body with
      | .weight w => .next ((s.unpost i).returned m.sender.launch w)
      | _ => .next s
    | none => .next s
  | _ => .next s

/-- R129: a serial bit clears on the core that numbered the strand. -/
def execSerialNoticeArrival (s : State) : Host.Outcome State Fault Refusal :=
  match s.ev with
  | some (.serialNoticeArrival i) =>
    match s.arriving i with
    | some m =>
      match m.body with
      | .serial n => .next ((s.unpost i).modCore m.dst fun c => c.clearSerial n)
      | _ => .next s
    | none => .next s
  | _ => .next s

/-- A unit that stands for a die as the end of a clock notice (R16, R17). -/
def dieUnit (d : Nat) : Nat :=
  if d < 32 then d * 2 ^ 15 else if d < 56 then 0x100000 + (d - 32) * 2 ^ 15 else mgmtUnit

/-- R207 rule 2: a die whose SER has changed sends it to every other die. -/
def execClockNoticeSend (s : State) : Host.Outcome State Fault Refusal :=
  match s.ev with
  | some (.clockNoticeSend d) =>
    let x := s.die d
    if d < 57 && x.ser != x.told then
      let s := s.setDie d { x with told := x.ser }
      .next ((List.range 57).foldl (fun s e =>
        if e = d then s else s.post (dieUnit d) (dieUnit e) ⟨dieUnit d, 0, 0, 0, 0, 0, false, 0⟩ [] none (.clock x.ser)) s)
    else .next s
  | _ => .next s

/-- R207 rule 2: a clock notice sets APP at the receiver. -/
def execClockNoticeArrival (s : State) : Host.Outcome State Fault Refusal :=
  match s.ev with
  | some (.clockNoticeArrival i) =>
    match s.arriving i with
    | some m =>
      match m.body with
      | .clock ser =>
        let d := dieOf m.dst
        let x := s.die d
        .next ((s.unpost i).setDie d { x with app := sset 0 x.app (dieOf m.src) ser })
      | _ => .next s
    | none => .next s
  | _ => .next s

end Sys2Proof.Machine
end

