-- ==== Sys2Proof/Machine/Coll.lean ====
section
/-! DEFINITION. Collectives: descriptors, contributions, folds, outcomes, watchdogs (R398, R399). -/

namespace Sys2Proof.Machine

/-! Exponentials of any argument (R323, R399) -/

/-- Bounds of e^a for a > 0, rounded to FP32, at a precision (log 11). -/
def expPosBounds (a : Dyadic) (w : Nat) : Nat × Nat :=
  let v := 2 * w
  let lo := ln2Sum v v
  let hi := lo + v + 2
  let x := a.m.natAbs
  let scaled := fun (d : Nat) => if 0 ≤ a.e then x * 2 ^ a.e.toNat * 2 ^ (v + w) / d else x * 2 ^ (v + w) / d / 2 ^ (-a.e).toNat
  let power := fun (t : Nat) (upper : Bool) =>
    let r := exp2Bounds w w (t % 2 ^ w)
    encode32 false (if upper then r.2 else r.1) ((t / 2 ^ w : Nat) - (w : Int))
  (power (scaled hi) false, power (scaled lo + 2) true)

/-- E(y) of R323 for any y; the manual gives it no value at NaN and at +inf, where it is the free value. -/
def expAny (free : Nat) (y : Real) : Nat :=
  match y with
  | .nan => free
  | .inf neg => if neg then 0 else free
  | .fin v =>
    if v.m ≤ 0 then expNeg y
    else if v.lt ⟨128, 0⟩ then agree (expPosBounds v) [128, 256, 512]
    else inf32 false

/-- The value of E(x − m) as a factor, 1 when x = m (R323, R399). -/
def factor (free x m : Nat) : Real :=
  if eq32 x m then .fin ⟨1, 0⟩ else value32 (expAny free ((value32 x).add (value32 m).neg))

/-- The larger of two codes; of a NaN the manual names no larger, and the free value stands for it. -/
def larger (free a b : Nat) : Nat := if unordered a b then free else pick32 true a b

/-- Round32 of a product of values (an exact zero is +0, as R323 gives it). -/
def timesRound (a b : Real) : Nat := round32 (a.mul b) false

/-- Round32 of a sum of FP32 codes. -/
def plusRound (a b : Nat) : Nat := round32 ((value32 a).add (value32 b)) false

/-! The fold of `coll.smp` (R399) -/

/-- M and S over members in ascending index (R323, R399). -/
def memberSums (free : Nat → Nat) : List (Nat × Nat) → Nat × Nat
  | [] => (inf32 true, 0)
  | p :: r =>
    let m := r.foldl (fun m q => larger (free 0) m q.1) p.1
    (m, (p :: r).foldl (fun s q => plusRound s (timesRound (value32 q.2) (factor (free 1) q.1 m))) 0)

/-- MS of a contribution as (M, S) (R398). -/
def Contribution.sums (c : Contribution) : Nat × Nat := (c.ms.toNat / 2 ^ 32, c.ms.toNat % 2 ^ 32)

/-- A number in the data of a contribution. -/
def Contribution.at_ (c : Contribution) (o : Nat) : Nat := leNat ((c.data.drop o).take 4)

/-- The candidates of a member: identifier BASE + index, and code (R399). -/
def Contribution.entries (c : Contribution) : List (Nat × Nat) :=
  (List.range (c.at_ 0)).map fun i => ((c.base.toNat + c.at_ (16 + 8 * i)) % 2 ^ 32, c.at_ (20 + 8 * i))

/-- The candidates of every member in their order (R399). -/
def candidatesOf (ef : BitVec 2) (cs : List Contribution) : List (Nat × BitVec 32) :=
  (cs.flatMap Contribution.entries).foldl (fun l e => shortlist ef e.1 (if ef = 0 then e.2 else e.2 % 2 ^ 16) l) []

/-- p of a candidate; where the quotient has no value it is free (R399). -/
def candidateProb (free : Nat) (ef : BitVec 2) (m s code : Nat) : Nat :=
  let e := expAny free ((value32 (efWiden ef code)).add (value32 m).neg)
  match value32 s with
  | .fin v => if v.m = 0 then free else div32 e s
  | _ => free

/-- The first candidate at which the running sum exceeds the threshold, or the last one: identifier and probability
(R399). -/
def nucleusPick (prob : Nat → Nat → Nat) (u : Nat) : Nat → Nat → Nat × Nat → List (Nat × BitVec 32) → Nat × Nat
  | _, _, last, [] => last
  | i, c, _, e :: es =>
    let p := prob i e.2.toNat
    let c := plusRound c p
    let past := match value32 c with
      | .fin v => Dyadic.lt ⟨u, -32⟩ v
      | .inf neg => !neg
      | .nan => false
    if past then (e.1, p) else nucleusPick prob u (i + 1) c (e.1, p) es

/-- The outcome of a `coll.smp` whose members are given in ascending index (R399). -/
def foldSmp (free : Nat → Nat) (cs : List Contribution) : Outcome :=
  match cs with
  | [] => ⟨2, 0, 0, []⟩
  | c :: _ =>
    let (m, s) := memberSums free (cs.map Contribution.sums)
    let prob := fun (i code : Nat) => candidateProb (free (i + 2)) c.ef m s code
    match candidatesOf c.ef cs with
    | [] => ⟨2, 0, 0, []⟩
    | e :: es =>
      let (t, p) := if c.nucleus then nucleusPick prob c.u.toNat 0 0 (0, 0) (e :: es) else (e.1, prob 0 e.2.toNat)
      ⟨0, BitVec.ofNat 32 t, BitVec.ofNat 32 p, []⟩

/-! The fold of `coll.red` (R399) -/

/-- A triple (m, s, o). -/
structure Triple where
  m : Nat
  s : Nat
  o : List Nat

/-- The triple of a contribution: N is in BASE (R398, R399). -/
def Contribution.triple (c : Contribution) : Triple :=
  ⟨c.at_ 0, c.at_ 4, (List.range c.base.toNat).map fun j => c.at_ (16 + 4 * j)⟩

/-- A later triple joined to the accumulator (R399). -/
def Triple.join (free : Nat) (a t : Triple) : Triple :=
  let m := larger free a.m t.m
  let fa := factor free a.m m
  let f := factor free t.m m
  let mix := fun (x y : Nat) => plusRound (timesRound (value32 x) fa) (timesRound (value32 y) f)
  ⟨m, mix a.s t.s, List.zipWith mix a.o t.o⟩

/-- The outcome of a `coll.red`: the bytes written back over the data (R399). -/
def foldRed (free : Nat → Nat) (cs : List Contribution) : Outcome :=
  match cs with
  | [] => ⟨3, 0, 0, []⟩
  | c :: r =>
    let t := (r.zipIdx.foldl (fun a x => a.join (free x.2) x.1.triple) c.triple)
    ⟨0, 0, 0, leBytes 4 t.m ++ leBytes 4 t.s ++ leBytes 8 0 ++ (t.o.map (leBytes 4)).flatten⟩

/-! Members that wait (R399) -/

/-- Bytes written to a core's local memory, a granule or less each time; a refused write is reported. -/
def localWrite (w : Sender) : Nat → List Byte → Nat → State → State
  | _, _, 0, s => s
  | off, bs, n + 1, s =>
    if bs.isEmpty then s
    else
      let now := bs.take (16 - off % 16)
      let s := match reach s w.ctx (ownPlace s w.unit off) now.length with
        | .ok p => s.store true p now
        | .error c => report s w.unit w { cause := c, addr := word off }
      localWrite w (off + now.length) (bs.drop now.length) n s

/-- The wait of a strand. -/
def Hub.collWait (h : Hub) (w : Sender) : Option CollWait := h.collWaits.find? fun x => x.sender.same w

/-- A member's wait is over: its results are written, it hears what the hub knows, and it gets its status or fault
(R399). -/
def answerColl (s : State) (x : CollWait) (o : Outcome) : State :=
  let w := x.sender
  let s := { s with hub := { s.hub with collWaits := s.hub.collWaits.filter fun y => !y.sender.same w } }
  let sl := s.slot w.unit w.slot
  if sl.live && w.names sl.st && sl.asked then
    let s := if o.status != 0 then s
      else if x.smp then localWrite w (x.desc + 20) (leBytes 4 o.token.toNat ++ leBytes 4 o.prob.toNat) 1 s
      else localWrite w x.area o.data (o.data.length / 16 + 1) s
    let s := s.modSlot w.unit w.slot fun sl =>
      { sl with st := { sl.st with dep := s.heard (dieOf mgmtUnit) sl.st.dep } }
    tell s (w, match o.status with
      | 4 => .fault .collStep 0 0
      | 5 => .fault .collDup 0 0
      | n => .value (word n))
  else s

/-! The home (R399) -/

/-- The key of a collective: its context and CID. -/
def collKey (ctx : BitVec 12) (cid : BitVec 16) : Nat := ctx.toNat * 2 ^ 16 + cid.toNat

/-- The outcome of failure as a form reads it: PARTIAL or ABANDONED (R399). -/
def failStatus (smp : Bool) : Nat := if smp then 1 else 3

/-- The outcome a contribution gets: a failure reads as its own form names it. -/
def Outcome.for_ (o : Outcome) (smp : Bool) : Outcome :=
  if o.status = 1 || o.status = 3 then { o with status := failStatus smp } else o

/-- The strand of a contribution answered, when it is one of this module. -/
def answerMember (o : Outcome) (s : State) (c : Contribution) : State :=
  match c.waits with
  | none => s
  | some w =>
    match s.hub.collWait w with
    | some x => answerColl s x (o.for_ c.smp)
    | none => s

/-- A collective decided: its outcome is kept, its contributions go, and its members are answered (R399, R403). -/
def decideColl (s : State) (ctx : BitVec 12) (key : Nat) (x : Collective) (o : Outcome) : State :=
  let y : Collective := { x with members := [], outcome := some o }
  let s := { s with hub := { s.hub with colls := kput s.hub.colls key y } }
  let s := if o.status = 1 || o.status = 3 then s.countHub ctx 0x14 1 else s
  x.members.foldl (answerMember o) s

/-- A collective decided without a token (R399). -/
def failColl (s : State) (ctx : BitVec 12) (key : Nat) (x : Collective) : State :=
  decideColl s ctx key x ⟨failStatus (x.members.all (·.smp)), 0, 0, []⟩

/-- Whether two contributions agree in MASK, EF, MODE, U and N (R399). -/
def Contribution.agrees (c d : Contribution) : Bool :=
  c.smp == d.smp && c.mask == d.mask && c.ef == d.ef && c.nucleus == d.nucleus && c.u == d.u &&
    (c.smp || c.base == d.base)

/-- The members of a collective in ascending index. -/
def Collective.inOrder (x : Collective) : List Contribution :=
  (List.range 64).filterMap fun i => x.members.find? fun c => c.self == i

/-- What the latest contribution decides, if it does (R399). -/
def settleColl (s : State) (ctx : BitVec 12) (key : Nat) (x : Collective) : State :=
  match x.members with
  | [] => s
  | c :: r =>
    if r.any fun d => !c.agrees d then failColl s ctx key x
    else if (List.range 64).all fun i => c.mask.getLsbD i == x.members.any fun d => d.self == i then
      let free := fun (i : Nat) => (Config.freeWord (s.fresh + i)).toNat % 2 ^ 32
      let cs := x.inOrder
      let o := if c.smp then foldSmp free cs else foldRed free cs
      decideColl { s with fresh := s.fresh + 2 ^ 15 } ctx key x o
    else { s with hub := { s.hub with colls := kput s.hub.colls key x } }

/-- Undecided collectives a home holds (R399). -/
def collRoom : Nat := 4096

/-- A contribution at its home; none while it waits for room (R399). -/
def contribute (s : State) (ctx : BitVec 12) (cid : BitVec 16) (step : BitVec 32) (c : Contribution) (dep : Clock) :
    Option State :=
  let key := collKey ctx cid
  let s := s.learn (dieOf mgmtUnit) dep
  let fresh := fun (s : State) => settleColl s ctx key ⟨step, [c], none⟩
  match kget s.hub.colls key with
  | none =>
    if (s.hub.colls.filter fun p => p.2.outcome.isNone).length < collRoom then some (fresh s) else none
  | some x =>
    if x.step = step then
      match x.outcome with
      | some o => some (answerMember o s c)
      | none =>
        if x.members.any fun d => d.self == c.self then some (answerMember ⟨5, 0, 0, []⟩ s c)
        else some (settleColl s ctx key { x with members := x.members ++ [c] })
    else if after32 step x.step then
      match x.outcome with
      | some _ =>
        if (s.hub.colls.filter fun p => p.2.outcome.isNone).length < collRoom then some (fresh s) else none
      | none => some (fresh (failColl s ctx key x))
    else some (answerMember ⟨4, 0, 0, []⟩ s c)

/-- An ABANDON at a home (R399). -/
def abandon (s : State) (ctx : BitVec 12) (cid : BitVec 16) (step : BitVec 32) : State :=
  let key := collKey ctx cid
  match kget s.hub.colls key with
  | some x => if x.step = step && x.outcome.isNone then failColl s ctx key x else s
  | none => s

/-- Undecided collectives with a contribution of a device that has become unreachable are decided (R397, R399). -/
def abandonDevice (s : State) (dev : Nat) : State :=
  s.hub.colls.foldl (fun s p =>
    if p.2.outcome.isNone && p.2.members.any fun c => c.dev == dev then
      failColl s (BitVec.ofNat 12 (p.1 / 2 ^ 16)) p.1 p.2
    else s) s

/-! The forms (R398, R399) -/

/-- Whether a descriptor breaks R398; its Reserved bits are ignored (R5). -/
def collDescBad (smp : Bool) (v : Nat) : Bool :=
  let base := bits v 383 352
  bits v 511 448 == 0 || bits v 447 416 == 0 ||
    !bit v (448 + bits v 5 0) ||
    (if smp then bits v 327 326 == 3 || (!bit v 325 && bits v 255 224 != 0)
     else base == 0 || 512 < base || bits v 327 325 != 0 || bits v 319 256 != 0 || bits v 255 224 != 0)

/-- A contribution from its descriptor and data (R398). -/
def Contribution.make (dev : Nat) (smp : Bool) (v : Nat) (data : List Byte) (w : Option Sender) : Contribution :=
  { dev := dev, self := bits v 5 0, smp := smp, mask := word (bits v 511 448), ef := BitVec.ofNat 2 (bits v 327 326),
    nucleus := bit v 325, u := BitVec.ofNat 32 (bits v 255 224), base := BitVec.ofNat 32 (bits v 383 352),
    ms := word (bits v 319 256), data := data, waits := w }

/-- `n` bytes in L for a collective or checkpoint form, read when the tests of L pass; `bad` when they do not lie in L
below the scheduler region (R398, R401). -/
def readL (s : State) (a n al : Nat) (bad : Cause) : Except Stop (List Byte) := do
  let _ ← failIf (a % al != 0 || schedBase < a + (n + 15) / 16 * 16) bad
  let _ ← if mayReach s s.focusU s.focusU s.st.ctx .l then .ok () else failAt .pfOwn a
  if s.early s.focusU false then .error .hold
  else do
    let bs ← readRun s s.focusU a a ((n + 15) / 16 * 16)
    return bs.take n

/-- A collective form: descriptor and data are checked, the strand waits as for a release of system scope, the
contribution leaves, and the strand waits for its outcome (R399, R409). -/
def collForm (smp : Bool) (s : State) : Host.Outcome State Fault Refusal := blocking s fun s => served s inD fun z => do
  let (a, b, s) ← srcAB z
  let v := leNat (← readL s a.toNat 64 64 .collArg)
  let _ ← failIf (collDescBad smp v) .collArg
  let n ← (if smp then do
      let c := leNat (← readL s b.toNat 4 16 .collArg)
      let _ ← failIf (256 < c) .collArg
      return 16 + 8 * c
    else .ok (16 + 4 * bits v 383 352))
  let data ← readL s b.toNat n 16 .collArg
  let _ ← releaseWait z .system
  if s.hub.stage < 4 then .error (.block none)
  else
    let hdev := bits v 335 328
    let cid := BitVec.ofNat 16 (bits v 351 336)
    let step := BitVec.ofNat 32 (bits v 415 384)
    let c := Contribution.make s.hub.device.toNat smp v data (some s.self)
    let x : CollWait := ⟨s.self, hdev, cid, step, smp, a.toNat, b.toNat, s.cyc + bits v 447 416, false⟩
    let s := s.postPlain s.focusU s.focusK mgmtUnit (.contribution hdev cid step c)
    let s := { s with hub := { s.hub with collWaits := s.hub.collWaits ++ [x] } }
    .error (.block (some (s.modMe fun sl => { sl with asked := true, answer := some .performed })))

/-- R399. -/
def execCollSmp (s : State) := collForm true s
/-- R399. -/
def execCollRed (s : State) := collForm false s

/-! The events (R399) -/

/-- R399: a contribution reaches a hub: it is applied at its home, goes on to another device, or comes from one; or the
outcome of a home on another device reaches its member. What comes from another device comes over the link that the
static route takes, and only while that is up (R397). -/
def execCollContributionArrival (s : State) : Host.Outcome State Fault Refusal :=
  match s.ev with
  | some (.collContributionArrival (.here i)) =>
    match s.arriving i with
    | some m =>
      match m.body with
      | .contribution hdev cid step c =>
        if hdev != s.hub.device.toNat then .next (s.unpost i)
        else .next ((contribute (s.unpost i) m.sender.ctx cid step c m.dep).getD s)
      | _ => .next s
    | none => .next s
  | some (.collContributionArrival (.peer ctx dev desc smp data)) =>
    let v := desc.toNat
    if s.hub.stage < 4 || !s.linkTo dev || bits v 335 328 != s.hub.device.toNat || collDescBad smp v then .next s
    else
      let c := Contribution.make dev smp v data none
      .next ((contribute s ctx (BitVec.ofNat 16 (bits v 351 336)) (BitVec.ofNat 32 (bits v 415 384)) c []).getD s)
  | some (.collContributionArrival (.outcome u k status token prob data)) =>
    let left := fun (x : CollWait) => !s.fabric.any fun m => m.sender.same x.sender && (match m.body with
      | .contribution _ _ _ _ => true
      | _ => false)
    match s.hub.collWait (s.sender u k) with
    | some x => if x.hdev != s.hub.device.toNat && s.linkTo x.hdev && left x then .next (answerColl s x ⟨status, token, prob, data⟩) else .next s
    | none => .next s
  | _ => .next s

/-- R399: the watchdog of the strand in a slot that waits expires: ABANDON goes to the home. -/
def execCollWatchdogExpiry (s : State) : Host.Outcome State Fault Refusal :=
  match s.ev with
  | some (.collWatchdogExpiry u k) =>
    match s.hub.collWait (s.sender u k) with
    | some x =>
      if x.deadline ≤ (s.core u).cyc && !x.abandoned then
        let f := fun (y : CollWait) => if y.sender.same x.sender then { y with abandoned := true } else y
        let s := { s with hub := { s.hub with collWaits := s.hub.collWaits.map f } }
        .next (s.postPlain u k mgmtUnit (.abandon x.hdev x.cid x.step))
      else .next s
    | none => .next s
  | _ => .next s

/-- R397, R399: an ABANDON reaches a hub, from this module or over a link that is up. -/
def execCollAbandonArrival (s : State) : Host.Outcome State Fault Refusal :=
  match s.ev with
  | some (.collAbandonArrival (.here i)) =>
    match s.arriving i with
    | some m =>
      match m.body with
      | .abandon hdev cid step =>
        let s' := s.unpost i
        if hdev != s.hub.device.toNat then .next s' else .next (abandon s' m.sender.ctx cid step)
      | _ => .next s
    | none => .next s
  | some (.collAbandonArrival (.peer ctx dev cid step)) =>
    .next (if s.linkTo dev then abandon s ctx cid step else s)
  | _ => .next s

end Sys2Proof.Machine
end

