-- ==== Sys2Proof/Machine/Issue.lean ====
section
/-! DEFINITION. A core's cycle: fetching a word (R40), the choice of the slot that issues (R134), the counting of budgets (R145, R354), and the rows of the table that stand for a word or strand that cannot issue. -/

namespace Sys2Proof.Machine

/-! Fetch (R40, R183, R363) -/

/-- The fetch cause of a translation's fault. -/
def fetchCause : Cause → FetchCause
  | .pfNone => .none
  | .pfFmt => .fmt
  | .pfPerm => .perm
  | .pfOwn => .own
  | .memNokey => .noKey
  | .memPoison => .poison
  | _ => .hole

/-- The cause a fetch fault's record carries (R40, R182, R363). -/
def fetchFaultCause : FetchCause → Cause
  | .hole => .pfHole
  | .own => .pfOwn
  | .none => .pfNone
  | .fmt => .pfFmt
  | .perm => .pfPerm
  | .noKey => .memNokey
  | .poison => .memPoison

/-- The place of a byte for fetch and the key its page lies under: only region H with X holds code; L, W and M raise
PF.PERM and a hole PF.HOLE (R182, R199). -/
def fetchPlace (s : State) (u : Nat) (ctx : BitVec 12) (a : Nat) : Except Cause (Nat × Option (BitVec 256)) :=
  if regionOf a == .h then
    match translateAt s u ctx a .fetch with
    | .ok m =>
      if m.enc && (s.keyOf ctx).isNone then .error .memNokey
      else .ok (m.pa, if m.enc then s.keyOf ctx else none)
    | .error c => .error c
  else if (localOf u a).isSome then .error .pfPerm
  else .error .pfHole

/-- The first of `n` bytes from a place that lies in a poisoned ECC unit, by its number (R363). -/
def State.firstPoison (s : State) (p n : Nat) : Option Nat := (List.range n).find? fun i => s.anyPoison (p + i) 1

/-- The bytes of the part of a word that lies in one page: `n` bytes from an address on; the first byte that fails, with
its cause (R40, R357, R363). -/
def fetchPart (s : State) (u : Nat) (ctx : BitVec 12) (a n : Nat) : Except (FetchCause × Nat) (List Byte) :=
  match fetchPlace s u ctx a with
  | .error c => .error (fetchCause c, a)
  | .ok (p, key) =>
    match s.firstPoison p n with
    | some i => .error (.poison, a + i)
    | none => .ok ((s.under key p n).bytes p n)

/-- The bytes of a word from an address on as memory holds them, each page translated (R40). -/
def fetchBytes (s : State) (u : Nat) (ctx : BitVec 12) (a : Nat) : Except (FetchCause × Nat) (List Byte) :=
  let n := min 12 (4096 - a % 4096)
  match fetchPart s u ctx a n with
  | .error e => .error e
  | .ok bs =>
    if n = 12 then .ok bs
    else
      match fetchPart s u ctx (a + n) (12 - n) with
      | .error e => .error e
      | .ok cs => .ok (bs ++ cs)

/-! The instruction cache (R9, R10, R218; log 32) -/

/-- Words an instruction cache holds: 48 KiB (R9, R10). -/
def icacheRoom : Nat := 4096

/-- The word that a core's instruction cache holds for a launch at an address. -/
def Core.cached (c : Core) (l : BitVec 32) (a : Word) : Option (BitVec 96) :=
  (c.icache.find? fun x => x.launch == l && x.addr == a).map (·.word)

/-- The word a launch's fetch at an address takes when memory holds `w` there: it may still be the one the cache holds
from an earlier fetch of that launch (R218). -/
def Core.fetched (c : Core) (u : Nat) (l : BitVec 32) (a : Word) (w : BitVec 96) : BitVec 96 :=
  match c.cached l a with
  | some v => if v != w && Config.oldCode c.cyc u a.toNat then v else w
  | none => w

/-- A fetched word held by the cache, which drops its oldest when it is full. -/
def Core.hold (c : Core) (l : BitVec 32) (a : Word) (w : BitVec 96) : Core :=
  if c.cached l a = some w then c
  else { c with icache := (⟨l, a, w⟩ :: c.icache.filter fun x => !(x.launch == l && x.addr == a)).take icacheRoom }

/-- The word at a strand's PC, or the byte whose fetch fails (R40); one that stands at issue already is not fetched
again. -/
def fetchWord (s : State) (u k : Nat) : Except (FetchCause × Nat) (BitVec 96) :=
  let sl := s.slot u k
  let st := sl.st
  match sl.hand with
  | some w => .ok w
  | none =>
    match fetchBytes s u st.ctx st.pc.toNat with
    | .error e => .error e
    | .ok bs => .ok ((s.core u).fetched u st.launch st.pc (BitVec.ofNat 96 (leNat bs)))

/-- What a fetch gives, decoded for the profile of its core: the row to perform and its operands. A word that cannot be
fetched or is no instruction gives the row that says so (R40, R47, R48). -/
def rowOf (u : Nat) (r : Except (FetchCause × Nat) (BitVec 96)) : Instr × Operands × Option Event :=
  match r with
  | .error (c, b) => (.fetchFault, { hd := Hdr.plain }, some (.fetchFault c (BitVec.ofNat 64 b)))
  | .ok w =>
    match decode (some (profileOf u)) (leBytes 12 w.toNat) with
    | .error e => (.illegalInstruction, { hd := Hdr.plain }, some (.illegalInstruction e))
    | .ok i => (i.row, i.ops, none)

/-- The state that has fetched the word at a strand's PC: the core's cache holds it, and it stands at issue. -/
def State.fetching (s : State) (u k : Nat) : State :=
  match fetchWord s u k with
  | .error _ => s
  | .ok w =>
    (s.modCore u fun c => c.hold (s.slot u k).st.launch (s.slot u k).st.pc w).modSlot u k fun sl => { sl with hand := some w }

/-! Rows for words and strands that cannot issue -/

/-- R40, R182: the fetch fault of the word at PC, FETCH set, with the failing byte's address. -/
def execFetchFault (s : State) : Host.Outcome State Fault Refusal :=
  match s.ev with
  | some (.fetchFault c b) =>
    .next (if s.me.live then s.trapHere { cause := fetchFaultCause c, flags := { fetch := true }, addr := b } else s)
  | _ => .next s

/-- R47, R48: the illegal-instruction trap of the word at PC; ILL.FORM carries its detail code as the address. -/
def execIllegalInstruction (s : State) : Host.Outcome State Fault Refusal :=
  match s.ev with
  | some (.illegalInstruction w) =>
    .next (if s.me.live then s.trapHere (match w with
        | .opc => { cause := .illOpc }
        | .prof => { cause := .illProf }
        | .form d => { cause := .illForm, addr := BitVec.ofNat 64 d }) else s)
  | _ => .next s

/-- What a waiting strand has registered at its home or object is withdrawn, and the queue entries its instruction took stand
again; a killed strand waits for no collective or checkpoint any more (R160, R193, R289, R336, R364, R399). -/
def State.withdraw (s : State) (u k : Nat) : State :=
  let w := s.sender u k
  let mine := fun (x : Sender) => x.same w
  let h := s.hub
  let s := { s with
    cores := s.cores.map fun (p : Nat × Core) =>
      (p.1, { p.2 with waiters := p.2.waiters.filter fun x => !(x.blocks && mine x.sender) }),
    hub := { h with
      slots := h.slots.map fun (p : Nat × ReqSlot) => (p.1, { p.2 with waiting := p.2.waiting.filter fun x => !mine x.1 }),
      collWaits := h.collWaits.filter fun x => !mine x.sender
      ckptWaits := h.ckptWaits.filter fun x => !mine x.sender } }
  let gone := fun (x : Cmd) => x.awaited && x.slot == k && !x.registered
  let n := ((s.core u).cmds.filter gone).length
  let s := (s.modCore u fun c => { c with cmds := c.cmds.filter fun x => !gone x }).giveBack u k
  s.modSlot u k fun sl => { sl with asked := false, st := { sl.st with cseq := sl.st.cseq - BitVec.ofNat 32 n } }

/-- Whether a slot issues: ISSUING, or HANDLER and not blocked (R133, R134), with no record of its trap waiting (R358). -/
def Slot.runs (sl : Slot) : Bool := (sl.mode == .issuing || (sl.mode == .handler && !sl.blocked)) && sl.due.isNone

/-- Whether a strand that waits has not issued the instruction it waits in (R44, R97). -/
def Slot.unissued (sl : Slot) : Bool := sl.long.isNone && !sl.asked && sl.answer.isNone

/-- R254, R351: the oldest deferred fault of a strand, taken on the next instruction it would issue; what that
instruction has asked for while it waited is withdrawn. A strand that waits to issue, and whose budget is spent, takes it
there, ahead of the budget trap. -/
def execDeferredFault (s : State) : Host.Outcome State Fault Refusal :=
  match s.ev with
  | some (.deferredFault u k) =>
    let sl := s.slot u k
    match sl.deferred with
    | d :: ds =>
      let t : Trap := { cause := d.cause, flags := { deferred := true }, addr := d.addr, dseq := d.dseq, unit := d.unit }
      let s' := { (s.withdraw u k).modSlot u k fun sl => { sl with deferred := ds } with focusU := u, focusK := k }
      if sl.runs && sl.answer.isNone then .next (s'.trapHere t)
      else if sl.mode == .waiting && sl.due.isNone && sl.st.bud == 0 && sl.unissued then .next (takeTrap s' u k t)
      else .next s
    | [] => .next s
  | _ => .next s

/-- A long load that has not come is taken back: its results do not land, the queue entries it took stand where they
stood, and its strand stands at it again (R145). -/
def State.unload (s : State) (u k : Nat) (w : LongWait) : State :=
  (s.modCore u fun c => { c with qs := w.taken ++ c.qs }).modSlot u k fun sl =>
    { sl with inflight := sl.inflight.take (sl.inflight.length - w.results), st := { sl.st with pc := w.pc }, long := none }

/-- Whether a budget trap may strike a strand that waits: its instruction has not been performed (R145, R160). -/
def Slot.unserved (sl : Slot) : Bool :=
  sl.answer.isNone && match sl.long with | some w => !w.performed | none => true

/-- A slot whose awaited value has come: it is ISSUING again, and its wait for a turn counts from now (R133, R134). -/
def Slot.awake (sl : Slot) (cyc : Nat) : Slot :=
  { sl with mode := if sl.mode == .waiting then .issuing else sl.mode, blocked := false, lastIssue := cyc, long := none }

/-- The result of a long access put in its register, and its strand goes on (R30, R133, R187). -/
def State.longDone (s : State) (u k : Nat) (regs : List RegName) (v : Nat) : State :=
  let s := s.modCore u fun c => regs.foldl (fun c r => c.landOne k ⟨c.cyc, r, word v⟩) c
  s.modSlot u k fun sl => { sl.awake (s.core u).cyc with answer := none, asked := false }

/-- A long access that its home refuses: a precise trap on its instruction, which has no effect (R145, R183). -/
def State.longFault (s : State) (u k : Nat) (w : LongWait) (home : Nat) (c : Cause) (a : Word) : State :=
  takeTrap ((s.withdraw u k).unload u k w) u k { cause := c, addr := a, unit := if home = u then none else some home }

/-- The strand in a slot hears KNOW of its die when it has read (R207 rule 5). -/
def State.longHear (s : State) (u k : Nat) : State :=
  s.modSlot u k fun sl => { sl with st := { sl.st with dep := s.heard (dieOf u) sl.st.dep } }

/-- A full/empty load that finds its granule empty registers at its home and waits there; one more than the home keeps
waits at its sender (R193). -/
def State.register (s : State) (u k : Nat) (me : Sender) (op : MemOp) (x : LongAccess) : State :=
  if waitersRoom ≤ (s.core x.place.home).waiters.length then s
  else
    let y : Waiter := ⟨⟨op, x.addr, x.place.place, false⟩, me, s.nextId, (s.slot u k).st.dep, true⟩
    let s := s.modCore x.place.home fun c => { c with waiters := c.waiters ++ [y] }
    { s.modSlot u k fun sl => { sl with asked := true } with nextId := s.nextId + 1 }

/-- `hrd` performed: 64 bytes of HBM written to local memory from an offset on; or the fault, the unit it is found at and
its address. A poisoned granule of the local side refuses the write (R191, R194, R199, R207, R236). -/
def State.copyIn (s : State) (u k off : Nat) (me : Sender) (x : LongAccess) : Except (Nat × Cause × Word) State :=
  let st := (s.slot u k).st
  match reach s st.ctx x.place 64, settleAll s (ownPlace s u off) 4 0 with
  | .error c, _ => .error (x.place.home, c, x.addr)
  | _, .error (c, i) => .error (u, c, BitVec.ofNat 64 (off + 16 * i))
  | .ok q, .ok ps =>
    let bs := (s.under (x.place.key s st.ctx) q 64).bytes q 64
    let s := if (ps.any fun p => s.anyPoison p 16) then
        { s with nextId := s.nextId + 1 }.refuse s.nextId u me u (BitVec.ofNat 64 off) .memPoison
      else (s.scatterRaw ps bs).learn (dieOf u) st.dep
    .ok (s.longHear u k)

/-- Whether a register takes a result now: only a full queue does not (R44). -/
def Core.takes (c : Core) (r : RegName) : Bool :=
  match r with
  | .q i => c.qlen i + c.coming i < qdepth i
  | _ => true

/-- The access that a strand in a slot waits for: what its home gave it when it waited there; or, once its time has come,
performed by its home, in one step with the end of the wait (R145, R187, R193, R201). -/
def longCome (u k : Nat) (w : LongWait) (x : LongAccess) (s : State) : State :=
  let sl := s.slot u k
  let home := x.place.home
  let me : Sender := { s.sender u k with pc := w.pc }
  match x.op, sl.answer with
  | _, some (.fault c a _) => s.longFault u k w home c a
  | .mem _ regs, some (.value v) => s.longDone u k regs v.toNat
  | .mem op regs, _ =>
    if sl.asked || (s.core u).cyc < sl.readyAt || !regs.all (s.core u).takes then s
    else if mustWait s x.place op then s.register u k me op x
    else
      match performFor s sl.st.ctx sl.st.dep x.place op with
      | .ok (v, s) => (if op.replies then s.longHear u k else s).longDone u k regs v
      | .error c =>
        if !op.replies && c == .memPoison then
          ({ s with nextId := s.nextId + 1 }.refuse s.nextId home me home x.addr c).longDone u k [] 0
        else s.longFault u k w home c x.addr
  | .copyIn off, _ =>
    if (s.core u).cyc < sl.readyAt then s
    else
      match s.copyIn u k off me x with
      | .ok s => s.longDone u k [] 0
      | .error (v, c, a) => s.longFault u k w v c a

/-- R145, R160, R351: BUD is zero. A strand that could issue takes the BUDGET trap on its next instruction, which uses the
issue turn; one that waits takes it on the instruction it waits in, which then has no effect, unless that has been
performed. A deferred fault of an instruction that has not issued goes first. -/
def execBudgetExhausted (s : State) : Host.Outcome State Fault Refusal :=
  match s.ev with
  | some (.budgetExhausted u k) =>
    let sl := s.slot u k
    if sl.st.bud != 0 || sl.due.isSome then .next s
    else if sl.mode == .issuing && sl.answer.isNone && sl.deferred.isEmpty then
      .next (({ s.withdraw u k with focusU := u, focusK := k }.count u sl.st.ctx 0x04 1).trapHere { cause := .budget })
    else if sl.mode == .waiting && sl.unserved && (sl.deferred.isEmpty || !sl.unissued) then
      let s := s.withdraw u k
      let s := match sl.long with | some w => s.unload u k w | none => s
      .next (takeTrap (s.count u sl.st.ctx 0x04 1) u k { cause := .budget })
    else .next s
  | _ => .next s

/-- R354: HBUD is zero: one record with cause HND.BUDGET and KILL, DETAIL the cause of trap frame 1, and the launch is
killed. -/
def execHandlerBudgetExpiry (s : State) : Host.Outcome State Fault Refusal :=
  match s.ev with
  | some (.handlerBudgetExpiry u k) =>
    let sl := s.slot u k
    if sl.mode == .handler && sl.due.isNone && sl.hbud == 0 && s.launchLive sl.st.launch then
      let outer := match sl.frames.getLast? with | some f => f.ecause.toNat % 2 ^ 16 | none => 0
      .next (fatal s u k { cause := .hndBudget, detail := BitVec.ofNat 32 outer })
    else .next s
  | _ => .next s

/-- R33: a strand that has issued 256 instructions without a switch is switched away. -/
def execForcedSwitch (s : State) : Host.Outcome State Fault Refusal :=
  match s.ev with
  | some (.forcedSwitch u k) =>
    let sl := s.slot u k
    if 256 ≤ sl.run && (sl.mode == .issuing || sl.mode == .handler) then
      .next (((s.modSlot u k Slot.switchAway).count u sl.st.ctx 0x03 1).modCore u fun c => c.passTurn k)
    else .next s
  | _ => .next s

/-! Ending in Clear (R364) -/

/-- The queued commands of a slot are discarded; those executing complete (R253, R364). -/
def Core.discardQueued (c : Core) (k : Nat) : Core :=
  { c with cmds := c.cmds.filter fun x => !(x.slot == k && x.phase == .queued) }

/-- The strand of a killed launch ends: buffered sends and queued commands are discarded and nothing is returned
(R130, R364). -/
def State.clearSlot (s : State) (u k : Nat) : State :=
  ((s.withdraw u k).modCore u fun c => c.discardQueued k).vacate u k

/-! The cycle -/

/-- Whether a slot waits (R133). -/
def Slot.waits (sl : Slot) : Bool := sl.mode == .waiting || (sl.mode == .handler && sl.blocked)

/-- Slot numbers from the one after the holder, wrapping round; the holder is last (R134). -/
def Core.ring (c : Core) : List Nat :=
  let n := c.slots.length
  (List.range n).map fun i => (c.holder + 1 + i) % n

/-- The slot that issues first: the earlier last issue before the later, and in the order of the ring when equal
(R134). -/
def insertWait (c : Core) (k : Nat) : List Nat → List Nat
  | [] => [k]
  | j :: js => if (c.slot k).lastIssue < (c.slot j).lastIssue then k :: j :: js else j :: insertWait c k js

/-- The slots a core tries in a cycle, in order: the holder, then the other slots that issue, longest wait first (R134). -/
def Core.candidates (c : Core) : List Nat :=
  let ready := fun k => decide ((c.slot k).readyAt ≤ c.cyc)
  let rest := c.ring.filter fun k => k != c.holder && (c.slot k).runs && ready k
  (if (c.slot c.holder).runs && ready c.holder then [c.holder] else []) ++
    rest.foldl (fun l k => insertWait c k l) []

/-- The instruction in hand of a slot performed by `run`: a deferred fault first, then a spent budget, then what the
word at PC gives (R351). -/
def attempt (run : Instr → State → Host.Outcome State Fault Refusal) (u k : Nat) (s : State) :
    Host.Outcome State Fault Refusal :=
  let s := { s with focusU := u, focusK := k }
  let sl := s.me
  if !sl.deferred.isEmpty && sl.runs && sl.answer.isNone then run .deferredFault { s with ev := some (.deferredFault u k) }
  else if sl.st.bud == 0 && sl.mode == .issuing && sl.answer.isNone then
    run .budgetExhausted { s with ev := some (.budgetExhausted u k) }
  else
    let f := rowOf u (fetchWord s u k)
    run f.1 { s.fetching u k with ir := f.2.1, ev := f.2.2 }

/-- The candidates tried in order, until one uses the issue turn (R134). -/
def tryAll (run : Instr → State → Host.Outcome State Fault Refusal) (u : Nat) :
    List Nat → State → Host.Outcome State Fault Refusal
  | [], s => .next s
  | k :: ks, s =>
    if (s.slot u k).runs then
      match attempt run u k s with
      | .next t => if (t.core u).turns == (s.core u).turns then tryAll run u ks t else .next t
      | .fault r => .fault r
      | .refused r => .refused r
    else tryAll run u ks s

/-- A function applied to the numbers of a core's slots in turn, each giving an outcome. -/
def eachSlot (f : Nat → State → Host.Outcome State Fault Refusal) : List Nat → State → Host.Outcome State Fault Refusal
  | [], s => .next s
  | k :: ks, s =>
    match f k s with
    | .next t => eachSlot f ks t
    | .fault r => .fault r
    | .refused r => .refused r

/-- A waiting slot looks again for what it waits for: it is awake when its instruction would now use an issue turn, and
otherwise goes on waiting, with what its request has come to meanwhile (R133, R160). -/
def recheck (run : Instr → State → Host.Outcome State Fault Refusal) (u k : Nat) (s : State) :
    Host.Outcome State Fault Refusal :=
  match attempt run u k s with
  | .next t =>
    if (t.core u).turns == (s.core u).turns then .next t
    else .next (s.modSlot u k fun sl => sl.awake (s.core u).cyc)
  | o => o

/-- What a slot does at the start of a cycle whether or not it issues: an EMPTY one selects, results land, the record of
a trap or of an earlier refusal is appended, a killed launch's strand ends, a spent budget strikes a strand that waits or is in a handler, a switch
is forced, a long load comes, and a strand that waits looks again (R29, R33, R133, R138, R145, R354, R358, R364). -/
def beginSlot (run : Instr → State → Host.Outcome State Fault Refusal) (u k : Nat) (s : State) :
    Host.Outcome State Fault Refusal :=
  let s := settleOwed (s.modCore u fun c => c.land k) u k
  let sl := s.slot u k
  if !sl.live then run .slotSelect { s with ev := some (.slotSelect u k) }
  else if sl.due.isSome then .next (settleDue s u k)
  else if s.launchKilled sl.st.launch then .next (s.clearSlot u k)
  else if sl.mode == .waiting && sl.st.bud == 0 && sl.unserved then
    if sl.unissued && !sl.deferred.isEmpty then run .deferredFault { s with ev := some (.deferredFault u k) }
    else run .budgetExhausted { s with ev := some (.budgetExhausted u k) }
  else if sl.mode == .handler && sl.hbud == 0 then
    run .handlerBudgetExpiry { s with ev := some (.handlerBudgetExpiry u k) }
  else if 256 ≤ sl.run then run .forcedSwitch { s with ev := some (.forcedSwitch u k) }
  else if sl.waits && sl.long.isSome then
    .next (match sl.long.bind fun w => w.access.map fun x => (w, x) with
      | some (w, x) => longCome u k w x s
      | none => if sl.readyAt ≤ (s.core u).cyc then s.modSlot u k fun sl => sl.awake (s.core u).cyc else s)
  else if sl.waits && decide (sl.readyAt ≤ (s.core u).cyc) then recheck run u k s
  else .next s

/-- The issue turn goes to a slot that can hold it (R134). -/
def Core.fixHolder (c : Core) : Core := if (c.slot c.holder).holds then c else { c with holder := c.nextHolder c.holder }

/-- The budgets at the end of a cycle: BUD of a strand that began it, or took the slot in it, and ended it in ISSUING or
WAITING, HBUD of one in HANDLER (R145, R354). The cycle in which a strand enters or leaves HANDLER counts against neither,
and that of an instruction that writes BUD counts against the written value (DESIGN CHOICE, log 29). -/
def tickSlot (before after : Slot) : Slot :=
  let counts := fun (m : SlotMode) => m == .issuing || m == .waiting
  if (counts before.mode || before.mode == .empty) && counts after.mode then
    { after with st := { after.st with bud := if after.st.bud == 0 then 0 else after.st.bud - 1 } }
  else if (before.mode == .handler || before.mode == .empty) && after.mode == .handler then
    { after with hbud := if after.hbud == 0 then 0 else after.hbud - 1 }
  else after

/-- A cycle counted: at the core and its loft core, at its barn by the barn's first core, and at the hub by how far the
furthest core has come (R403; log 7). -/
def countCycle (s : State) (u more : Nat) : State :=
  let bump := fun (n : Nat) (l : List EventCounter) => l.map (bumpOne 0x01 n)
  let s := s.modCore u fun c => { c with counters := bump 1 c.counters }
  let s :=
    if isCompute u then
      if u % 16 = 0 then
        let b := s.barn u
        s.setBarn u { b with counters := bump 1 b.counters }
      else s
    else
      match kget s.lofts u with
      | some x => { s with lofts := kput s.lofts u { x with counters := bump 1 x.counters } }
      | none => s
  { s with hub := { s.hub with counters := { s.hub.counters with counters := bump more s.hub.counters.counters } } }

/-- The end of a core's cycle: budgets counted, CYC advanced (R22, R145). -/
def endCycle (before : Core) (u : Nat) (s : State) : State :=
  let c := s.core u
  let s := s.setCore u { c with slots := List.zipWith tickSlot before.slots c.slots, cyc := c.cyc + 1 }
  countCycle { s with now := max s.now (c.cyc + 1) } u (c.cyc + 1 - s.now)

/-- Whether a unit number names a core that runs instructions (R17). -/
def isUnit (u : Nat) : Bool := isWorker u || u == mgmtUnit

/-- One cycle of a core, with `run` as the meaning of rows (R28, R134). -/
def cycle (run : Instr → State → Host.Outcome State Fault Refusal) (u : Nat) (s : State) :
    Host.Outcome State Fault Refusal :=
  if s.hub.power.stopped || !isUnit u then .next s
  else
    let before := s.core u
    match eachSlot (beginSlot run u) (List.range before.slots.length) s with
    | .next s =>
      let s := s.modCore u Core.fixHolder
      match tryAll run u (s.core u).candidates s with
      | .next s => .next (endCycle before u s)
      | o => o
    | o => o

end Sys2Proof.Machine
end

