-- ==== Sys2Proof/Machine/Contin.lean ====
section
/-! DEFINITION. Continuation objects: their layout, suspension, resume, copy, discard, inspection and rights (R372 to R387). -/

namespace Sys2Proof.Machine

/-! The header (R372, R373) -/

/-- MAGIC (R373). -/
def contMagic : Nat := 0x4742_4F42_4A43_0001

/-- Bytes of an engine block (R372). -/
def engineBytes : Nat := 12800

/-- The header's fields (R373). -/
structure ContHead where
  state   : Nat
  serial  : Nat
  owgt    : Nat
  record  : Bool
  eng     : Bool
  copy    : Bool
  rights  : Nat
  ctx     : Nat
  launch  : Nat
  members : Nat
  foot    : Nat
  pend    : Nat
  size    : Nat
  written : Nat
  poff    : Nat

/-- EOFF (R372). -/
def ContHead.eoff (h : ContHead) : Nat := 256 + 192 * h.members
/-- FOFF (R372). -/
def ContHead.foff (h : ContHead) : Nat := h.eoff + h.eng.toNat * engineBytes * h.members
/-- DOFF (R372). -/
def ContHead.doff (h : ContHead) : Nat := h.foff + 16 * h.foot

/-- The header's 256 bytes as a number (R373). -/
def ContHead.num (h : ContHead) : Nat :=
  contMagic + h.state * 2 ^ 64 + h.serial * 2 ^ 128 + h.owgt * 2 ^ 192 + 2 ^ 256 + h.record.toNat * 2 ^ 272 +
  h.eng.toNat * 2 ^ 273 + h.copy.toNat * 2 ^ 274 + h.rights * 2 ^ 280 + h.ctx * 2 ^ 288 + h.launch * 2 ^ 320 +
  h.members * 2 ^ 352 + h.foot * 2 ^ 368 + h.pend * 2 ^ 384 + h.size * 2 ^ 416 + h.written * 2 ^ 448 +
  h.eoff * 2 ^ 512 + h.foff * 2 ^ 544 + h.doff * 2 ^ 576 + h.poff * 2 ^ 608

/-- Whether the footprint data of `n` entries can occupy `size` bytes (R372, R375). An entry of k granules, with k from 1
to 0x5B00, takes 16 × (k + ceil(k / 128)) bytes: every multiple of 16 from 32 to 16 × 23,478 but those of 16 × (129 m + 1);
several entries together take every multiple of 16 from their least to their greatest sum. -/
def dataFits (n size : Nat) : Bool :=
  let t := size / 16
  size % 16 == 0 && 2 * n ≤ t && t ≤ 23478 * n && (n != 1 || t % 129 != 1)

/-- The header in 256 bytes, its Reserved bits ignored (R5); none when it breaks R372, R373 or R378. -/
def ContHead.ofNum (v : Nat) : Option ContHead :=
  let h : ContHead :=
    { state := bits v 127 64, serial := bits v 191 128, owgt := bits v 255 192, record := bit v 272, eng := bit v 273,
      copy := bit v 274, rights := bits v 283 280, ctx := bits v 299 288, launch := bits v 351 320,
      members := bits v 360 352, foot := bits v 374 368, pend := bits v 399 384, size := bits v 447 416,
      written := bits v 479 448, poff := bits v 639 608 }
  if bits v 63 0 != contMagic || bits v 271 256 != 1 || h.state == 0 || 4 < h.state || h.members == 0 ||
      256 < h.members || 64 < h.foot || bits v 543 512 != h.eoff || bits v 575 544 != h.foff ||
      bits v 607 576 != h.doff || h.poff < h.doff || !dataFits h.foot (h.poff - h.doff) ||
      h.size != h.poff + 128 * h.pend then none
  else some h

/-! Reading and writing an object where it lies (R379, R382) -/

/-- The granule at an address as a load of the strand reads it: a cause with the home it was found at, or its bytes
(R183, R199). -/
def readPiece (s : State) (a : Nat) : Except (Nat × Cause) (List Byte) :=
  match locate s s.focusU s.st.ctx a .load with
  | .error c => .error (s.focusU, c)
  | .ok p =>
    match readAll s s.st.ctx p 1 with
    | .error e => .error (p.home, e.1)
    | .ok bs => .ok bs

/-- The homes of `n` granules from an address on, of those that have one. -/
def homesOf (s : State) (a n : Nat) (k : Access) : List Nat :=
  (List.range n).filterMap fun i =>
    match locate s s.focusU s.st.ctx (a + 16 * i) k with
    | .ok p => some p.home
    | .error _ => none

/-- Reads or writes of granules at homes wait for the strand's earlier accesses, and at the ingress of another die (R207,
R413, R414). -/
def homesReady (s : State) (us : List Nat) (writes : Bool) : Except Stop Unit :=
  if us.any fun u => s.early u writes || s.crossing s.focusU s.focusK u then .error (.block none) else .ok ()

/-- The strand has read at homes (R207 rules 4 and 5). -/
def State.heardAt (s : State) (us : List Nat) : State := us.foldl (fun s u => s.stepRead s.focusU s.focusK u) s

/-- Granules read in order from an address on; the first that fails is precise (R379). -/
def readPieces (s : State) : Nat → Nat → Except Stop (List Byte)
  | _, 0 => .ok []
  | a, n + 1 =>
    match readPiece s a with
    | .error e => failThere s e.1 e.2 a
    | .ok bs =>
      match readPieces s (a + 16) n with
      | .error e => .error e
      | .ok r => .ok (bs ++ r)

/-- The bytes of an object from an address on, `n` granules, each read at its home: the faults of R183 and MEM.POISON are
precise (R379). -/
def readObject (s : State) (a n : Nat) : Except Stop (List Byte) := do
  let _ ← homesReady s (homesOf s a n .load) false
  readPieces s a n

/-- A read of the state to be written that failed: the object offset it would have supplied, its address and cause
(R382). -/
structure ReadFailure where
  off   : Nat
  addr  : Nat
  cause : Cause

/-- Granules of a source read in order, the first at offset `o` of its object: what comes before the first that fails, and
that failure (R382, R386). -/
def readSource (s : State) : Nat → Nat → Nat → List Byte × Option ReadFailure
  | _, _, 0 => ([], none)
  | a, o, n + 1 =>
    match readPiece s a with
    | .error e => (List.replicate (16 * (n + 1)) 0, some ⟨o, a, e.2⟩)
    | .ok bs =>
      let (r, e) := readSource s (a + 16) (o + 16) n
      (bs ++ r, e)

/-- `n` bytes at an address written by the strand's instruction at their home in one step (R377, R382). -/
def writePiece (s : State) (a : Nat) (bs : List Byte) : Except Cause State := do
  let p ← locate s s.focusU s.st.ctx a .store
  let q ← reach s s.st.ctx p bs.length
  return ((s.under (p.key s s.st.ctx) q bs.length).store false q bs).stepWrite s.focusU s.focusK p.home

/-- Bytes written by the hardware in ascending address from `a` on, a granule at a time at their homes: how many were
written, and the cause that stopped the rest (R382). `fuel` bounds the granules. -/
def writeObject : Nat → Nat → List Byte → State → State × Nat × Option Cause
  | 0, _, _, s => (s, 0, none)
  | fuel + 1, a, bs, s =>
    if bs.isEmpty then (s, 0, none)
    else
      let now := bs.take (16 - a % 16)
      match writePiece s a now with
      | .error c => (s, 0, some c)
      | .ok s =>
        let (s, n, e) := writeObject fuel (a + now.length) (bs.drop now.length) s
        (s, now.length + n, e)

/-- The next object serial of the issuing context (R378). -/
def takeSerial (s : State) : Nat × State :=
  let x := s.context s.st.ctx
  (x.serial.toNat, s.setContext s.st.ctx { x with serial := x.serial + 1 })

/-- CONT.SAVE of R357 and R382. -/
def contSave (a n addr : Nat) (cause : Option Cause) : Trap :=
  { cause := .contSave, addr := word (a + n), detail := BitVec.ofNat 32 n, msgId := some (word addr),
    dseq := BitVec.ofNat 32 (match cause with | some c => c.code | none => 0) }

/-- An object written at `a` within `len` bytes, its STATE WRITING and its WRITTEN 0, then WRITTEN and STATE SEALED; or
as far as it could be, with CONT.SAVE (R377, R382). -/
def writeAll (a len : Nat) (blob : List Byte) (bad : Option ReadFailure) (s : State) :
    State × Option Trap :=
  let room := min blob.length len
  let (stop, addr, cause) := match bad with
    | some f => if f.off < room then (f.off, f.addr, some f.cause) else (room, 0, none)
    | none => (room, 0, none)
  let (s, n, e) := writeObject (stop + 1) a (blob.take stop) s
  let put := fun (o k v : Nat) (s : State) => (writeObject 1 (a + o) (leBytes k v) s).1
  match e with
  | some c => (if 60 ≤ n then put 56 4 n s else s, some (contSave a n (a + n) (some c)))
  | none =>
    if n < blob.length then (if 60 ≤ n then put 56 4 n s else s, some (contSave a n addr cause))
    else (put 8 8 2 (put 56 4 n s), none)

/-! Who the members are (R149, R381) -/

/-- Where a member of a launch stands: its number, core and slot. -/
structure Standing where
  num  : Nat
  unit : Nat
  slot : Nat
  deriving DecidableEq, Repr

/-- The members of a launch that stand in slots. -/
def standing (s : State) (l : BitVec 32) : List Standing :=
  s.cores.flatMap fun c => (List.range c.2.slots.length).filterMap fun k =>
    let sl := c.2.slot k
    match sl.st.member with
    | some m => if sl.live && sl.st.launch == l then some ⟨m, c.1, k⟩ else none
    | none => none

/-- Whether a standing member is the strand in focus. -/
def Standing.isMe (m : Standing) (s : State) : Bool := m.unit == s.focusU && m.slot == s.focusK

/-- A member stopped at an instruction boundary: what it waits for is withdrawn unless it has been performed, its results
land, and its slot is QUIESCED (R133, R145, R381). -/
def quiesceSlot (s : State) (m : Standing) : State :=
  let sl := s.slot m.unit m.slot
  let stop :=
    let s := s.withdraw m.unit m.slot
    let s := match sl.long with | some w => s.unload m.unit m.slot w | none => s
    let s := s.modCore m.unit fun c => c.landAll m.slot
    let s := s.modSlot m.unit m.slot fun sl => { sl with mode := .quiesced, back := sl.mode, answer := none, asked := false, hand := none }
    s.modCore m.unit fun c => c.passTurn m.slot
  if (sl.mode == .issuing || sl.mode == .waiting) && sl.unserved then stop else s

/-- Whether every member of a group but the issuer is QUIESCED, and every write and request of the members and of the
issuer has been performed or has arrived (R381, R384). -/
def allStill (s : State) (g : Group) (ms : List Standing) : Bool :=
  let quiet := fun (sl : Slot) => sl.st.writes.isEmpty && sl.st.asked.isEmpty && sl.due.isNone && sl.owed.isEmpty
  quiet s.me && g.members.all fun n =>
    match ms.find? fun m => m.num == n with
    | some m => m.isMe s || ((s.slot m.unit m.slot).mode == .quiesced && quiet (s.slot m.unit m.slot))
    | none => false

/-- The commands of a member on its core, in the order they were accepted. -/
def cmdsOf (s : State) (m : Standing) : List Cmd := (s.core m.unit).cmds.filter fun x => x.slot == m.slot

/-! What a suspension writes (R374 to R376, R382) -/

/-- The weight a member has when its buffered sends have given theirs back (R146, R382). -/
def wholeWeight (s : State) (m : Standing) : Nat :=
  let st := (s.slot m.unit m.slot).st
  (st.wgt + st.sendWeight).toNat

/-- The weight a member gives the object (R383). -/
def givenWeight (s : State) (m : Standing) : Nat :=
  if m.isMe s then wholeWeight s m / 2 else wholeWeight s m

/-- A member record (R374); an issuer's continues where its trap frame says (R380). -/
def memberNum (s : State) (m : Standing) : Nat :=
  let sl := s.slot m.unit m.slot
  let st := sl.st
  let outer := if m.isMe s then sl.frames.head? else none
  let pc := match outer with | some f => f.epc | none => st.pc
  let prep := match outer with | some f => f.brmode | none => st.brmode
  leNat ((st.x.toList.map fun v => leBytes 8 v.toNat).flatten) + pc.toNat * 2 ^ 1024 + st.bud.toNat * 2 ^ 1088 +
    st.key.toNat * 2 ^ 1120 + givenWeight s m * 2 ^ 1152 + sl.vshape.toNat * 2 ^ 1216 + sl.mxcfg.toNat * 2 ^ 1280 +
    st.msgId.toNat * 2 ^ 1344 + st.cseq.toNat * 2 ^ 1408 + m.unit * 2 ^ 1459 +
    ((List.finRange 8).foldl (fun n i => n + (st.guard i).code * 4 ^ i.val) 0) * 2 ^ 1480 +
    prep.toNat % 2 * 2 ^ 1496 + m.num * 2 ^ 1504

/-- The engine block of a core (R375). -/
def engineBlock (c : Core) : List Byte :=
  (c.v.toList.map fun v => leBytes 512 v.toNat).flatten ++ (c.m.toList.map fun v => leBytes 64 v.toNat).flatten ++
    (c.t.toList.map fun v => leBytes 1024 v.toNat).flatten

/-- The pad of a footprint entry's bitmap, in bytes (R372). -/
def bitmapBytes (len : Nat) : Nat := 16 * ((len + 2047) / 2048)

/-- The place of an offset in a member's local memory, as a program's access reaches it. -/
def memberPlace (u off : Nat) : Place := ⟨u, localPlace u off, some off, 0, false, false, false⟩

/-- The granules of a footprint entry read in order, with their full/empty bits, each where a declared buffer has its
storage, and the first that fails, as an offset in the entry (R194, R375, R382). -/
def footRead (s : State) (u : Nat) : Nat → Nat → Nat → List Byte × List Bool × Option ReadFailure
  | _, _, 0 => ([], [], none)
  | off, o, n + 1 =>
    let (bs, fs, e) := footRead s u (off + 16) (o + 16) n
    match reach s s.st.ctx (memberPlace u off) 16 with
    | .ok p => (s.bytes p 16 ++ bs, s.isFull p :: fs, e)
    | .error c => (List.replicate 16 0 ++ bs, false :: fs, some ⟨o, localPlace u off, c⟩)

/-- A footprint entry's data: its bytes, then the full/empty bits of its granules (R375). -/
def footData (s : State) (u off len : Nat) : List Byte × Option ReadFailure :=
  let (bs, fs, e) := footRead s u off 0 (len / 16)
  (bs ++ leBytes (bitmapBytes len) (fs.foldr (fun f n => f.toNat + 2 * n) 0), e)

/-- The code of a command's engine in a COMMAND record (R376). -/
def engineCode : Engine → Nat
  | .vector => 0
  | .array => 1
  | .row => 1
  | .copy => 2
  | .selection => 3

/-- A pending record (R376). -/
def pendNum (type mnum sub seq body : Nat) : Nat :=
  type + mnum * 2 ^ 8 + sub * 2 ^ 16 + seq % 2 ^ 32 * 2 ^ 32 + body * 2 ^ 64

/-- The COMMAND record of an unstarted command; a field its row has no use for has no value (R43, R376). -/
def commandNum (m : Nat) (x : Cmd) : Nat :=
  let hd := x.ops.hd
  let used := fun (f : Row → KSet) (v : Word) => match x.row.opc.bind opRow with
    | some r => if f r == .no then 0 else v.toNat
    | none => 0
  let sub := engineCode x.engine + x.bound.isSome.toNat * 4 + hd.gidx.val * 8 + hd.gsns.toNat * 64
  pendNum 1 m sub x.dseq.toNat
    (encodeWord ⟨x.row, x.ops⟩ + used Row.d x.sd * 2 ^ 96 + used Row.a x.sa * 2 ^ 160 + used Row.b x.sb * 2 ^ 224 +
      x.vshape.toNat * 2 ^ 288 + x.mxcfg.toNat * 2 ^ 352 + x.sa2.toNat * 2 ^ 416 + x.sb2.toNat * 2 ^ 480)

/-- The QUEUE records of one queue of a member; the manual gives a failure entry no form, and its word is free. -/
def queueNums (s : State) (m : Standing) (q : Fin 8) : List Nat :=
  let es := (s.core m.unit).qs.filter fun e => e.q == q && e.slot == m.slot
  es.zipIdx.map fun e =>
    let v := match e.1.val with
      | .word v => v
      | .failure _ _ _ _ => Config.freeWord (s.fresh + e.2)
    pendNum 2 m.num q.val e.2 v.toNat

/-- The SEND records of a member (R376). -/
def sendNums (m : Nat) (es : List SendEntry) : List Nat :=
  es.zipIdx.map fun e =>
    let kind := match e.1.q.origin with | .fork => 0 | .callat => 1 | _ => 2
    pendNum 3 m kind e.2 (e.1.q.crec.num + e.1.target * 2 ^ 576 + e.1.index.toNat * 2 ^ 608)

/-- The pending records of a member, in order (R382). -/
def pendingOf (s : State) (record : Bool) (m : Standing) : List Nat :=
  (if record then (cmdsOf s m).map (commandNum m.num) else []) ++ (List.finRange 8).flatMap (queueNums s m) ++
    sendNums m.num (s.slot m.unit m.slot).st.sends

/-- A whole object as a suspension writes it, and the first read that failed (R372, R382). -/
def objectOf (s : State) (record : Bool) (ctl serial : Nat) (list : List (Nat × Nat × Nat)) (ms : List Standing) :
    List Byte × Option ReadFailure :=
  let foot := list.filterMap fun e => (ms.find? fun m => m.num == e.1).map fun m => (m, e.2)
  let datas := foot.map fun e => footData s e.1.unit e.2.1 e.2.2
  let pend := ms.flatMap (pendingOf s record)
  let eng := bit ctl 36
  let h : ContHead :=
    { state := 1, serial := serial, owgt := ms.foldl (fun n m => n + givenWeight s m) 0 % 2 ^ 64, record := record,
      eng := eng, copy := false, rights := bits ctl 35 32, ctx := s.st.ctx.toNat, launch := s.st.launch.toNat,
      members := ms.length, foot := foot.length, pend := pend.length, size := 0, written := 0, poff := 0 }
  let poff := datas.foldl (fun n d => n + d.1.length) h.doff
  let h := { h with poff := poff, size := poff + 128 * pend.length }
  let bad := (datas.foldl (fun (p : Nat × Option ReadFailure) d =>
      (p.1 + d.1.length, p.2.orElse fun _ => d.2.map fun f => { f with off := p.1 + f.off })) (h.doff, none)).2
  let blob := leBytes 256 h.num ++ (ms.map fun m => leBytes 192 (memberNum s m)).flatten ++
    (if eng then (ms.map fun m => engineBlock (s.core m.unit)).flatten else []) ++
    (foot.map fun e => leBytes 16 (e.2.1 + e.2.2 * 2 ^ 64 + e.1.num * 2 ^ 120)).flatten ++
    (datas.map (·.1)).flatten ++ (pend.map (leBytes 128)).flatten
  (blob, bad)

/-! Sealing (R383) -/

/-- What a member has recorded leaves its core: its commands, queue entries and buffered sends (R383). -/
def stripMember (s : State) (m : Standing) : State :=
  let s := s.modCore m.unit fun c =>
    { c with cmds := c.cmds.filter (fun x => x.slot != m.slot), qs := c.qs.filter fun e => e.slot != m.slot }
  s.modSlot m.unit m.slot fun sl => { sl with st := { sl.st with sends := [] } }

/-- A member's end at the seal: SAVED, its slot EMPTY; the issuer stays in HANDLER, detached, with the weight it keeps, a
STRID of no member, and the valid bits that a suspension clears (R20, R129, R383). -/
def saveMember (serial : Nat) (s : State) (m : Standing) : State :=
  if m.isMe s then
    let u := s.focusU
    let keep := wholeWeight s m - givenWeight s m
    let s := ((stripMember s m).closeSessions s.st).modMe Slot.clearValid
    (s.modCore u fun c => c.setSerial serial).modSt fun st =>
      { st with wgt := word keep, member := none, strid := freeStrid u serial, numbered := some (u, serial) }
  else (stripMember s m).endStrand m.unit m.slot

/-- The seal's one step after the SEALED store (R383). -/
def sealObject (s : State) (ms : List Standing) (serial : Nat) : State :=
  let s := ms.foldl (saveMember serial) s
  let s := if ms.any fun m => m.isMe s then s.modMe fun sl => { sl with detached := true } else s
  let l := s.st.launch
  let s := match s.launch l with | some x => s.setLaunch l { x with group := none } | none => s
  let s := (ms.map (·.unit)).foldl tidyLine s
  { s with hub := { s.hub with suspended := s.hub.suspended.filter fun x => x.launch != l } }

/-! `suspend.drain`, `suspend.record` (R380) -/

/-- Whether a control word or area breaks R380. -/
def controlBad (a b : Nat) : Bool :=
  bits b 39 37 != 0 || bits b 63 48 != 0 || 64 < bits b 47 40 || a % 64 != 0 || 2 ^ 56 ≤ a

/-- A footprint entry, its Reserved bits ignored (R5); none when it breaks R375 or R380. -/
def footEntry (n v : Nat) : Option (Nat × Nat × Nat) :=
  let off := bits v 19 0
  let len := bits v 95 64
  let m := bits v 127 120
  if n ≤ m || len < 16 || len % 16 != 0 || off % 16 != 0 ||
      schedBase < off + len then none
  else some (m, off, len)

/-- The footprint list at Src(D), read with ordinary loads, whose faults are those of R183 (R380, R416). -/
def readList (s : State) (d n f : Nat) : Except Stop (List (Nat × Nat × Nat)) := do
  if f = 0 then return []
  else
    let _ ← if d % 16 = 0 then .ok () else failAt .align d
    let bs ← readObject s d f
    let es := (List.range f).map fun i => footEntry n (leNat ((bs.drop (16 * i)).take 16))
    match es.mapM id with
    | some l => return l
    | none => fail .contLayout

/-- The suspension that holds a launch's group, replaced. -/
def State.setSuspension (s : State) (x : Suspension) : State :=
  { s with hub := { s.hub with suspended := (s.hub.suspended.filter fun y => y.launch != x.launch) ++ [x] } }

/-- A step of a suspension that has begun: quiesce, then drain, then write and seal; it waits while members move or
commands run. `s0` is the state before the operands were read (R380 to R383). -/
def suspendStep (record : Bool) (a b : Word) (x : Suspension) (s0 s : State) : Run :=
  let l := s.st.launch
  match s.launch l with
  | none => .error (.block none)
  | some ln =>
    match ln.group with
    | none =>
      let gone := { s0 with hub := { s0.hub with suspended := s0.hub.suspended.filter fun y => y.launch != l } }
      .error (.trap { cause := .groupNone } (some gone))
    | some g =>
      let stop := fun (s : State) =>
        (standing s l).foldl (fun s m => if m.isMe s then s else quiesceSlot s m) s
      let s0 := stop s0
      let s := stop s
      let here := standing s l
      let ms := g.members.filterMap fun n => here.find? fun m => m.num == n
      let failed := s0.setSuspension { x with failed := true }
      if !allStill s g here then .error (.block (some s0))
      else if !record && ms.any (fun m => (cmdsOf s m).any fun c => c.bound.isSome) then
        .error (.trap { cause := .contState } (some failed))
      else if ms.any (fun m => (cmdsOf s m).any fun c => !record || c.phase == .executing) then
        .error (.block (some s0))
      else
        let needs := ms.any fun m => m.isMe s
        match (if needs then s.here.freeSerial else some 0) with
        | none => .error (.block (some s0))
        | some n =>
          let after := fun (s : State) => ms.foldl (fun s m =>
            s.modSt fun st => { st with dep := Clock.join st.dep (s.slot m.unit m.slot).st.dep }) s
          let (serial, s) := takeSerial (after s)
          let (blob, bad) := objectOf s record b.toNat serial x.list ms
          let len := bits b.toNat 31 0
          if (homesOf s a.toNat (min len blob.length / 16) .store).any fun u => s.crossing s.focusU s.focusK u then
            .error (.block (some s0))
          else
            let write := writeAll a.toNat len blob bad
            match write s with
            | (s, none) => .ok (landLong [] (sealObject { s with fresh := s.fresh + 8 } ms n))
            | (_, some t) => .error (.trap t (some (write (takeSerial (after failed)).2).1))

/-- The tests of a suspension before it quiesces, and the one it begins (R380). -/
def suspendTests (record : Bool) (a b d : Word) (s : State) : Except Stop Suspension := do
  let l := s.st.launch
  match (match s.launch l with | some x => x.group | none => none) with
  | none => fail .groupNone
  | some g =>
    let _ ← failIf (s.hub.suspended.any fun x => x.launch == l && !(x.failed && x.issuer.same s.self)) .contState
    let mine := s.st.member.isSome
    let _ ← failIf (mine && !(s.me.mode == .handler && s.me.depth == 1)) .contState
    let _ ← failIf (controlBad a.toNat b.toNat) .contLayout
    let list ← readList s d.toNat g.size (bits b.toNat 47 40)
    let _ ← failIf (mine && s.st.wgt == 1) .wgtExh
    return ⟨l, s.self, false, record, list⟩

/-- A suspension of the issuer's group (R380): once its quiescing has begun it counts as performed, and a budget trap
waits for its end. -/
def suspend (record : Bool) (s : State) : Host.Outcome State Fault Refusal := blocking s fun s0 => do
  let (a, b, d, s) ← srcABD s0
  let l := s.st.launch
  let going := if s.me.asked then s.hub.suspended.find? fun x => x.launch == l else none
  match going with
  | some x => suspendStep record a b x s0 s
  | none =>
    let x ← suspendTests record a b d s
    let start := fun (s : State) =>
      ((s.heardAt (homesOf s d.toNat (bits b.toNat 47 40) .load)).setSuspension x).modMe fun sl => { sl with asked := true, answer := some .performed }
    suspendStep record a b x (start s0) (start s)

/-- R380: the members' accepted commands run to their end first. -/
def execSuspendDrain (s : State) := suspend false s
/-- R380: the members' unstarted commands are recorded. -/
def execSuspendRecord (s : State) := suspend true s

/-! Reading an object's header (R379) -/

/-- An object's address: CONT.LAYOUT unless it is 64-byte aligned with bits 63:56 zero (R379). -/
def objectArg (a : Word) : Except Stop Unit := failIf (a.toNat % 64 != 0 || 2 ^ 56 ≤ a.toNat) .contLayout

/-- The strand's step at the STATE of an object waits for its earlier stores and atomics and for its requests to that home
(R377, R413, R414). -/
def awaitObject (s : State) (a : Word) : Except Stop Unit :=
  match homesOf s a.toNat 1 .load with
  | u :: _ => awaitWrites s u
  | [] => .ok ()

/-- The header of the object at Src(A): CONT.LAYOUT, then CONT.RIGHTS for another context or a clear right (R378, R379). -/
def readHead (s : State) (a : Word) (right : Option Nat) : Except Stop ContHead := do
  let bs ← readObject s a.toNat 16
  match ContHead.ofNum (leNat bs) with
  | none => fail .contLayout
  | some h =>
    let _ ← failIf (h.ctx != s.st.ctx.toNat || (match right with | some r => !bit h.rights r | none => false)) .contRights
    return h

/-- The unit that a record names for what the step at an object's STATE refuses: its home (R356, R377). -/
def State.stateUnit (s : State) (a : Word) : Option Nat := (homesOf s (a.toNat + 8) 1 .load).head?.bind s.foundAt

/-- The refusals of R377 at a STATE that is not SEALED, found by the step at its home. -/
def sealedOnly (s : State) (a : Word) (double : Bool) (h : ContHead) : Except Stop Unit :=
  let refuse := fun (c : Cause) => (.error (.trap { cause := c, unit := s.stateUnit a }) : Except Stop Unit)
  if h.state == 1 then refuse .contIncomplete
  else if h.state == 3 && double then refuse .contDouble
  else if h.state != 2 then refuse .contState
  else .ok ()

/-- A field of a header written at its home in one step; a refusal is precise (R377, R379). -/
def writeField (a off n v : Nat) (s : State) : Run :=
  match writePiece s (a + off) (leBytes n v) with
  | .ok s => .ok s
  | .error c =>
    match homesOf s (a + off) 1 .store with
    | u :: _ => failThere s u c (a + off)
    | [] => failAt c (a + off)

/-! `resume` (R385) -/

/-- A member record read back, with what the rest of the object holds for the member (R374 to R376). -/
structure MemberRec where
  num  : Nat
  v    : Nat
  eng  : Option (List Byte)
  foot : List (Nat × List Byte × Nat)
  cmds : List CmdRec
  qs   : List (Fin 8 × Nat × Word)
  sends : List (Nat × Nat × Nat)

/-- Whether a member record's fields are what a strand can hold (R21, R40, R247, R270, R374); its Reserved bits are ignored
(R5). -/
def memberOk (v : Nat) : Bool :=
  bits v 1087 1080 == 0 &&
    bits v 1025 1024 == 0 && !vshapeBad (bits v 1279 1216) && !mxcfgBad (bits v 1343 1280) &&
    isWorker (bits v 1479 1459) && (List.range 8).all fun i => bits v (1481 + 2 * i) (1480 + 2 * i) != 3

/-- A COMMAND record read back; none when its word is no command of its engine (R376). -/
def commandRec (v : Nat) : Option CmdRec :=
  match decodeWord none (bits v 159 64) with
  | .error _ => none
  | .ok i =>
    if (commandOf i.row).isNone then none
    else
      let f := fun (lo : Nat) => word (bits v (lo + 63) lo)
      some ⟨BitVec.ofNat 96 (bits v 159 64), bit v 18, BitVec.ofNat 32 (bits v 63 32), f 160, f 224, f 288, f 480, f 544,
        f 352, f 416⟩

/-- A pending record put with its member, its Reserved and unused bits ignored (R5); none when it is malformed, as where the
record of a fork or `callat` is (R126, R376). The record of a `send` takes its code, budget and key from the handler entry
when its message arrives, and is not tested (R164). -/
def takePending (ms : List MemberRec) (v : Nat) : Option (List MemberRec) :=
  let n := bits v 15 8
  let seq := bits v 63 32
  let put := fun (f : MemberRec → MemberRec) =>
    if ms.any fun m => m.num == n then some (ms.map fun m => if m.num == n then f m else m) else none
  match bits v 7 0 with
  | 1 => match commandRec v with | some c => put fun m => { m with cmds := m.cmds ++ [c] } | none => none
  | 2 => put fun m => { m with qs := m.qs ++ [(Fin.ofNat 8 (bits v 18 16), seq, word (bits v 127 64))] }
  | 3 =>
    if bits v 17 16 == 3 || (bits v 17 16 != 2 && (Rec.ofNum (bits v 575 64)).bad) then none
    else put fun m => { m with sends := m.sends ++ [(bits v 17 16, seq, v)] }
  | _ => none

/-- Footprint entries and their data put with their members, from the table and data offsets on; none when one is
malformed or the data does not end at POFF (R372, R375). -/
def takeFoot (blob : List Byte) (poff : Nat) : Nat → Nat → Nat → List MemberRec → Option (List MemberRec)
  | _, d, 0, ms => if d = poff then some ms else none
  | t, d, n + 1, ms =>
    match footEntry 256 (leNat ((blob.drop t).take 16)) with
    | none => none
    | some (m, off, len) =>
      if ms.any fun x => x.num == m then
        let bs := (blob.drop d).take len
        let full := leNat ((blob.drop (d + len)).take (bitmapBytes len))
        takeFoot blob poff (t + 16) (d + len + bitmapBytes len) n
          (ms.map fun x => if x.num == m then { x with foot := x.foot ++ [(off, bs, full)] } else x)
      else none

/-- Whether numbers rise strictly. -/
def rising : List Nat → Bool
  | a :: b :: l => a < b && rising (b :: l)
  | _ => true

/-- A whole object parsed: its member records with all that belongs to them; none when a record or entry is malformed
(R385). -/
def parseObject (h : ContHead) (blob : List Byte) : Option (List MemberRec) :=
  let ms := (List.range h.members).map fun i =>
    let v := leNat ((blob.drop (256 + 192 * i)).take 192)
    let eng := if h.eng then some ((blob.drop (h.eoff + engineBytes * i)).take engineBytes) else none
    (⟨bits v 1511 1504, v, eng, [], [], [], []⟩ : MemberRec)
  if !rising (ms.map (·.num)) || ms.any (fun m => !memberOk m.v) then none
  else
    match takeFoot blob h.poff h.foff h.doff h.foot ms with
    | none => none
    | some ms =>
      (List.range h.pend).foldlM (fun ms i => takePending ms (leNat ((blob.drop (h.poff + 128 * i)).take 128))) ms

/-- An insertion that keeps records in ascending sequence, records of one number in their order. -/
def insertSeq {α : Type} (key : α → Nat) (x : α) : List α → List α
  | [] => [x]
  | y :: ys => if key x < key y then x :: y :: ys else y :: insertSeq key x ys

/-- Records in ascending sequence. -/
def sortSeq {α : Type} (key : α → Nat) (l : List α) : List α := l.foldl (fun r x => insertSeq key x r) []

/-- The buffered sends that SEND records restore from a weight, and the weight left (R385). -/
def restoreSends (l : BitVec 32) (ctx : BitVec 12) (dep : Clock) : List (Nat × Nat × Nat) → Word → List SendEntry × Word
  | [], w => ([], w)
  | (kind, _, v) :: es, w =>
    let half := BitVec.ofNat 64 (w.toNat / 2)
    let origin : Origin := match kind with | 0 => .fork | 1 => .callat | _ => .send
    let q : Queued := ⟨Rec.ofNum (bits v 575 64), half, origin, 0, l, ctx, dep, none, false, false, none⟩
    let (r, w) := restoreSends l ctx dep es (w - half)
    (⟨q, bits v 660 640, BitVec.ofNat 8 (bits v 679 672)⟩ :: r, w)

/-- A record of which nothing is known but that it is well formed (R126). -/
def freeRec (n : Nat) : Rec :=
  let r := Rec.ofNum (Config.freeBits 512 n).toNat
  { r with code := word (bits r.code.toNat 55 2 * 4), budget := BitVec.ofNat 32 (r.budget.toNat % (2 ^ 32 - 1) + 1) }

/-- What a record restores in the inbound strand queue of its new core (R385); the 64-byte record of the task, which a
requeue would use, is a free value, well formed as every queued record is, since an object holds none. -/
def MemberRec.inbound (m : MemberRec) (u : Nat) (w : Nat) (s : State) : Inbound :=
  let v := m.v
  let f := fun (lo : Nat) => word (bits v (lo + 63) lo)
  let (sends, wgt) := restoreSends s.st.launch s.st.ctx s.st.dep (sortSeq (·.2.1) m.sends) (word w)
  let st : Strand :=
    { Strand.reset with
      x := Vector.ofFn fun (i : Fin 16) => f (64 * i.val)
      g := Vector.ofFn fun (i : Fin 8) => GState.decode (bits v (1481 + 2 * i.val) (1480 + 2 * i.val))
      pc := f 1024
      bud := BitVec.ofNat 32 (bits v 1119 1088)
      key := BitVec.ofNat 32 (bits v 1151 1120)
      wgt := wgt
      strid := BitVec.ofNat 32 m.num
      launch := s.st.launch
      ctx := s.st.ctx
      brmode := word (bits v 1496 1496)
      crec := freeRec (s.fresh + m.num)
      origin := .fork
      msgId := f 1344
      member := some m.num
      started := u
      sends := sends
      dep := s.st.dep
      cseq := BitVec.ofNat 32 (bits v 1439 1408) }
  .resumed st (f 1216) (f 1280)
    ((List.finRange 8).flatMap fun q => (sortSeq (·.2.1) (m.qs.filter fun e => e.1 == q)).map fun e => (e.1, e.2.2))
    (sortSeq (·.seq.toNat) m.cmds)

/-- A footprint entry's granules written at a core, with their full/empty bits; a refused one is reported (R360, R385). -/
def writeFoot (u : Nat) : Nat → List Byte → Nat → Nat → State → State
  | _, _, _, 0, s => s
  | off, bs, full, n + 1, s =>
    let s := match reach s s.st.ctx (memberPlace u off) 16 with
      | .ok p => ((s.store false p (bs.take 16)).setFull p (full % 2 == 1)).stepWrite s.focusU s.focusK u
      | .error c => report s u s.self { cause := c, addr := word (localPlace u off) }
    writeFoot u (off + 16) (bs.drop 16) (full / 2) n s

/-- An engine block loaded into a core's registers (R375, R385). -/
def loadEngine (bs : List Byte) (c : Core) : Core :=
  let f := fun (o n : Nat) => leNat ((bs.drop o).take n)
  { c with
    v := Vector.ofFn fun (i : Fin 16) => BitVec.ofNat 4096 (f (512 * i.val) 512)
    m := Vector.ofFn fun (i : Fin 8) => BitVec.ofNat 512 (f (8192 + 64 * i.val) 64)
    t := Vector.ofFn fun (i : Fin 4) => BitVec.ofNat 8192 (f (8704 + 1024 * i.val) 1024) }

/-- A forwarding entry left for a member at the core its record names; a core with none free gets none, and the event is
counted (R158, R385). -/
def leaveForward (u strid launch dest : Nat) (s : State) : State :=
  let id := BitVec.ofNat 32 strid
  let l := BitVec.ofNat 32 launch
  let c := s.core u
  let rest := c.forwards.filter fun f => !(f.strid == id && f.launch == l && f.member)
  if rest.length < forwardsRoom then s.setCore u { c with forwards := rest ++ [⟨id, l, true, dest, c.cyc⟩] }
  else s.countHub s.st.ctx 0x13 1

/-- Members placed on cores in turn: footprint, engine block, the place in the inbound queue, and the forwarding entry
(R385). -/
def placeAll (h : ContHead) (cs : List Nat) (w : Nat) : Nat → List MemberRec → State → State
  | _, [], s => s
  | i, m :: ms, s =>
    let u := cs.getD (i % cs.length) 0
    let s := m.foot.foldl (fun s e => writeFoot u e.1 e.2.1 e.2.2 (e.2.1.length / 16) s) s
    let s := match m.eng with | some bs => s.modCore u (loadEngine bs) | none => s
    let s := s.serve u
    let s := s.queueMember s.focusU s.self u s.st.dep (m.inbound u w s)
    let s := if h.copy then s else leaveForward (bits m.v 1479 1459) m.num h.launch u s
    placeAll h cs w (i + 1) ms s

/-- R385: with what the reads of the object have brought, the members and what is written for them wait at the ingress of
their die (R207). -/
def execResume (s : State) := blocking s fun s => do
  let (a, b, s) ← srcAB s
  let _ ← objectArg a
  let _ ← awaitObject s a
  let h ← readHead s a (some 0)
  let _ ← sealedOnly s a true h
  let u := b.toNat
  let _ ← failIf (2 ^ 21 ≤ u || !isCompute u || s.owner u != some s.st.ctx) .unitBad
  let _ ← failIf (s.hasGroup s.st.launch) .groupBusy
  let q := s.st.wgt.toNat / 2 / h.members
  let _ ← failIf (q < 2 ^ 16) .wgtExh
  let blob ← readObject s a.toNat (h.size / 16)
  let _ ← awaitWrites s u
  match parseObject h blob with
  | none => fail .contLayout
  | some ms =>
    let s := s.heardAt (homesOf s a.toNat (h.size / 16) .load)
    let _ ← if s.crossing s.focusU s.focusK u then .error (.block none) else .ok ()
    let s ← writeField a.toNat 8 8 3 s
    let s := s.modSt fun st => { st with wgt := st.wgt - BitVec.ofNat 64 (h.members * q) }
    let s := s.returned (BitVec.ofNat 32 h.launch) (word h.owgt)
    let yard := dieOf u
    let cs := rotateTo u (ownedCores s s.st.ctx yard)
    let s := match s.launch s.st.launch with
      | some x =>
        let size := (ms.map (·.num)).foldl max 0 + 1
        s.setLaunch s.st.launch { x with group := some ⟨yard, size, ms.map (·.num), cs.take h.members⟩ }
      | none => s
    let s := { placeAll h cs q 0 ms s with fresh := s.fresh + 256 }
    dstLong s.ir.d (word h.members) s

/-! `ccopy`, `cdisc`, `cinsp`, `crights`, `gthaw` (R386, R387) -/

/-- The header of a copy: the source's, with the fields of R386 set anew. -/
def copiedHead (v serial launch half : Nat) : Nat :=
  let put := fun (hi lo x v : Nat) => v - bits v hi lo * 2 ^ lo + x * 2 ^ lo
  put 479 448 0 (put 351 320 launch (put 274 274 1 (put 255 192 half (put 191 128 serial (put 127 64 1 v)))))

/-- R386: the source's bytes as they are in its step, with the fields set anew. Nothing is written before the strand's
earlier writes are performed, and at the ingress of another die none before what the reads have brought (R207); a read of the
source past its header that fails stops the writing (R382, R414). -/
def execCcopy (s : State) := blocking s fun s0 => do
  let (a, b, d, s) ← srcABD s0
  let _ ← objectArg a
  let _ ← objectArg b
  let _ ← awaitObject s a
  let h ← readHead s a (some 1)
  let _ ← failIf (s.st.wgt.toNat < 2) .wgtExh
  let _ ← sealedOnly s a false h
  let from_ := homesOf s a.toNat (h.size / 16) .load
  let _ ← homesReady s from_ false
  let _ ← homesReady (s.heardAt from_) (homesOf s b.toNat (min h.size d.toNat / 16) .store) true
  let (blob, bad) := readSource s a.toNat 0 (h.size / 16)
  let half := s.st.wgt.toNat / 2
  let (serial, t) := takeSerial (s.heardAt from_)
  let head := copiedHead (leNat (blob.take 256)) serial s.st.launch.toNat half
  let write := writeAll b.toNat d.toNat (leBytes 256 head ++ blob.drop 256) bad
  match write t with
  | (s, none) => dstLong s.ir.d (word serial) (s.modSt fun st => { st with wgt := st.wgt - word half })
  | (_, some e) => .error (.trap e (some (write (takeSerial (s0.heardAt from_)).2).1))

/-- R387: SEALED to DISCARDED; the weight it held is returned. -/
def execCdisc (s : State) := blocking s fun s => do
  let (a, s) ← src s.ir.a s
  let _ ← objectArg a
  let _ ← awaitObject s a
  let h ← readHead s a (some 2)
  let _ ← sealedOnly s a false h
  let s ← writeField a.toNat 8 8 4 (s.heardAt (homesOf s a.toNat 16 .load))
  return landLong [] (s.returned (BitVec.ofNat 32 h.launch) (word h.owgt))

/-- The word of a header that a selector of `cinsp` names (R387); its Reserved bits read as zero (R5). -/
def inspected (v sel : Nat) : Option Nat :=
  match sel with
  | 0 => some (bits v 127 64)
  | 1 => some (bits v 191 128)
  | 2 => some (bits v 319 256)
  | 3 => some (bits v 383 320)
  | 4 => some (bits v 447 384)
  | 5 => some (bits v 255 192)
  | 6 => some (bits v 479 448)
  | _ => none

/-- R387. -/
def execCinsp (s : State) := blocking s fun s => do
  let (a, b, s) ← srcAB s
  let _ ← objectArg a
  let h ← readHead s a (some 3)
  match inspected h.num b.toNat with
  | none => fail .contLayout
  | some v => dstLong s.ir.d (word v) (s.heardAt (homesOf s a.toNat 16 .load))

/-- R387: RIGHTS AND the mask, in one step. -/
def execCrights (s : State) := blocking s fun s => do
  let (a, b, s) ← srcAB s
  let _ ← objectArg a
  let _ ← awaitObject s a
  let h ← readHead s a none
  let _ ← failIf (15 < b.toNat) .contLayout
  let s ← writeField a.toNat 35 1 (h.rights &&& b.toNat) (s.heardAt (homesOf s a.toNat 16 .load))
  dstLong s.ir.d (word h.rights) s

/-- A QUIESCED slot returned to its state before; its wait for a turn counts from now (R133, R134, R387). -/
def thawSlot (s : State) (m : Standing) : State :=
  s.modSlot m.unit m.slot fun sl =>
    if sl.mode == .quiesced then { sl with mode := sl.back, lastIssue := (s.core m.unit).cyc } else sl

/-- R387. -/
def execGthaw (s : State) := blocking s fun s => do
  let l := s.st.launch
  let _ ← failIf (!s.hub.suspended.any fun x => x.launch == l && x.failed) .contState
  let s := { s with hub := { s.hub with suspended := s.hub.suspended.filter fun x => x.launch != l } }
  return landLong [] ((standing s l).foldl thawSlot s)

end Sys2Proof.Machine
end

