-- ==== Sys2Proof/Machine/Launch.lean ====
section
/-! DEFINITION. Host queues: descriptors and their states, notifies, launches and their loading, completions (R149 to R155). -/

namespace Sys2Proof.Machine

/-! The hub's own accesses -/

/-- The hub as the sender of what no strand asked for, for a launch. -/
def hubFor (l : BitVec 32) (ctx : BitVec 12) : Sender := { hubSender ctx with launch := l }

/-- The place of `n` bytes of region H in a context for an access of the hub, and the key they lie under (R199). -/
def hubPlace (s : State) (ctx : BitVec 12) (a n : Nat) (k : Access) : Option (Nat × Option (BitVec 256)) :=
  if regionOf a == .h then
    match translate s ctx a k with
    | .ok m =>
      if m.enc && (s.keyOf ctx).isNone then none
      else if s.anyPoison m.pa n then none else some (m.pa, if m.enc then s.keyOf ctx else none)
    | .error _ => none
  else none

/-- The number in `n` bytes at a place of the hub. -/
def State.hubNum (s : State) (p : Nat × Option (BitVec 256)) (o n : Nat) : Nat := s.numUnder p.2 (p.1 + o) n

/-- A number written at a place of the hub. -/
def State.setHubNum (s : State) (p : Nat × Option (BitVec 256)) (o n v : Nat) : State :=
  (s.under p.2 (p.1 + o) n).storeNum false (p.1 + o) n v

/-- The bytes of `n` granules of region H from an address on, each translated (R151). -/
def hubGranules (s : State) (ctx : BitVec 12) : Nat → Nat → Option (List Byte)
  | _, 0 => some []
  | a, n + 1 =>
    match hubPlace s ctx a 16 .load, hubGranules s ctx (a + 16) n with
    | some p, some bs => some (s.bytesUnder p.2 p.1 16 ++ bs)
    | _, _ => none

/-! Descriptors (R152) -/

/-- A queue's descriptor: its place and owning context. -/
structure Desc where
  place : Nat × Option (BitVec 256)
  ctx   : BitVec 12
  deriving DecidableEq, Repr

/-- The descriptor of an ACTIVE queue, when its address still resolves. -/
def State.desc (s : State) (q : Nat) : Option Desc :=
  match kget s.hub.queues q with
  | some (.active ctx a) => (hubPlace s ctx a.toNat 64 .store).map fun p => ⟨p, ctx⟩
  | _ => none

/-- QSTATE (R152). -/
def Desc.qstate (d : Desc) (s : State) : Nat := s.hubNum d.place 0 8
/-- EN (R152). -/
def Desc.en (d : Desc) (s : State) : Bool := bit (d.qstate s) 0
/-- RUN (R152). -/
def Desc.run (d : Desc) (s : State) : Bool := bit (d.qstate s) 2
/-- NTAIL (R152). -/
def Desc.ntail (d : Desc) (s : State) : Nat := bits (d.qstate s) 63 32
/-- HEAD (R152). -/
def Desc.head (d : Desc) (s : State) : Nat := s.hubNum d.place 44 4
/-- LOGSIZE (R152). -/
def Desc.log (d : Desc) (s : State) : Nat := s.hubNum d.place 39 1
/-- RING (R152). -/
def Desc.ring (d : Desc) (s : State) : Nat := s.hubNum d.place 56 8
/-- CPL (R152). -/
def Desc.cpl (d : Desc) (s : State) : Nat := s.hubNum d.place 48 8
/-- CPLCNT (R152). -/
def Desc.cplcnt (d : Desc) (s : State) : Nat := s.hubNum d.place 40 4
/-- CPLRD (R152). -/
def Desc.cplrd (d : Desc) (s : State) : Nat := s.hubNum d.place 32 4

/-- QSTATE written from its fields (R152). -/
def Desc.setQstate (d : Desc) (s : State) (en mapped run : Bool) (ntail : Nat) : State :=
  s.setHubNum d.place 0 8 (en.toNat + 2 * mapped.toNat + 4 * run.toNat + ntail % 2 ^ 32 * 2 ^ 32)

/-! Queue states (R154) -/

/-- Whether a queue holds a hardware slot. -/
def Hub.isMapped (h : Hub) (q : Nat) : Bool := h.mapped.any fun x => x.queue == q

/-- A queue joins the runnable ones when it is enabled, unmapped, has a notify latched and is not among them (R154). -/
def State.makeRunnable (s : State) (q : Nat) : State :=
  match s.desc q with
  | some d =>
    if d.en s && d.run s && !s.hub.isMapped q && !s.hub.runnable.contains q then
      { s with hub := { s.hub with runnable := s.hub.runnable ++ [q] } }
    else s
  | none => s

/-- When a mapped queue became idle (R154). -/
def State.markIdle (s : State) (q : Nat) : State :=
  let f := fun (x : Mapped) => if x.queue == q then { x with idleAt := s.now } else x
  { s with hub := { s.hub with mapped := s.hub.mapped.map f } }

/-- Latch of R154: one step at QSTATE. -/
def latch (s : State) (q : Nat) (t : BitVec 32) : State :=
  match s.desc q with
  | none => s
  | some d =>
    let wasIdle := d.ntail s == d.head s
    let s := d.setQstate s (d.en s) (s.hub.isMapped q) true t.toNat
    let s := if !wasIdle && d.ntail s == d.head s then s.markIdle q else s
    s.makeRunnable q

/-- Whether the host reaches a context: one of its functions is mapped to it, is in D0, and its link is up (R14, R394). -/
def hostReaches (s : State) (ctx : BitVec 12) : Bool :=
  s.hub.hosts.any fun l => l.up && l.functions.any fun f => f.2.ctx == ctx && !f.2.d3hot

/-- Whether the host reaches the context that owns a queue (R395). -/
def queueReached (s : State) (q : Nat) : Bool :=
  match kget s.hub.queues q with
  | some (.active ctx _) => hostReaches s ctx
  | _ => false

/-- R154: a notify of a queue that is not ACTIVE is dropped; none is latched before stage 3 (R155, R394, R409). -/
def execNotify (s : State) : Host.Outcome State Fault Refusal :=
  match s.ev with
  | some (.notify q t) => if s.hub.stage < 3 || !queueReached s q then .next s else .next (latch s q t)
  | _ => .next s

/-- Queues the hub keeps mapped (R154). -/
def mappedRoom : Nat := 1024

/-- R154: the longest-runnable queue takes a free hardware slot. One whose descriptor no longer translates takes none, and
those runnable behind it wait (DESIGN CHOICE, log 45). -/
def execQueueMap (s : State) : Host.Outcome State Fault Refusal :=
  match s.ev with
  | some (.queueMap q) =>
    match s.desc q with
    | some d =>
      if s.hub.runnable.head? == some q && s.hub.mapped.length < mappedRoom then
        let s := d.setQstate s (d.en s) true false (d.ntail s)
        .next { s with hub := { s.hub with runnable := s.hub.runnable.tail,
                                           mapped := s.hub.mapped ++ [⟨q, s.now, false, s.now⟩] } }
      else .next s
    | none => .next s
  | _ => .next s

/-- Unmap of R154: the queue stays runnable when a notify is latched or entries remain. -/
def unmap (s : State) (q : Nat) : State :=
  match s.desc q with
  | none => s
  | some d =>
    let run := d.run s || d.ntail s != d.head s
    let s := d.setQstate s (d.en s) false run (d.ntail s)
    ({ s with hub := { s.hub with mapped := s.hub.mapped.filter fun x => x.queue != q } }).makeRunnable q

/-- R154: a mapped queue that has been idle for 16,384 cycles is unmapped. -/
def execQueueIdleUnmap (s : State) : Host.Outcome State Fault Refusal :=
  match s.ev with
  | some (.queueIdleUnmap q) =>
    match s.hub.mapped.find? (fun x => x.queue == q), s.desc q with
    | some x, some d => if d.head s == d.ntail s && x.idleAt + 16384 ≤ s.now then .next (unmap s q) else .next s
    | _, _ => .next s
  | _ => .next s

/-- R154: with a runnable queue waiting and no slot free, the queue mapped longest that has started a launch since. -/
def execQueueEvict (s : State) : Host.Outcome State Fault Refusal :=
  match s.ev with
  | some (.queueEvict q) =>
    if !s.hub.runnable.isEmpty && mappedRoom ≤ s.hub.mapped.length &&
        ((s.hub.mapped.find? fun x => x.started).any fun x => x.queue == q) then
      .next (unmap s q)
    else .next s
  | _ => .next s

/-! QCTL (R155) -/

/-- The outcome that QCTL reads (R155). -/
def State.setQctl (s : State) (ctx : BitVec 12) (v : Nat) : State :=
  let x := s.context ctx
  s.setContext ctx { x with page := { x.page with qctl := BitVec.ofNat 32 v } }

/-- Whether an address lies in an exchange page of a context: one listed as such, mapped with R = W = 1 and ENC = 0 (R155,
R199, R395). -/
def inExchange (s : State) (ctx : BitVec 12) (a : Nat) : Bool :=
  (s.context ctx).exchange.any (fun p => p.toNat == a / 4096 * 4096) &&
    (match hubPlace s ctx a 1 .atomic with | some p => p.2.isNone | none => false)

/-- The owner of a queue number, when the context holds it (R155). -/
def ownsQueue (s : State) (ctx : BitVec 12) (q : Nat) : Bool :=
  match kget s.hub.queues q with
  | some (.assigned c) => c == ctx
  | some (.active c _) => c == ctx
  | _ => false

/-- Whether any launch of a queue is LIVE (R155). -/
def queueLive (s : State) (q : Nat) : Bool :=
  s.hub.launches.any fun p => p.2.queue == some q && p.2.state == .live

/-- The checks of a create: 0x8000_0002 for an address or mapping fault, 0x8000_0003 for a field fault (R155). Where
several fail, the outcome is that of the first in the order of R155's list: the descriptor's address, CTX and LOGSIZE, RING
and CPL; a misaligned or badly placed RING or CPL counts as an address fault (DESIGN CHOICE, log 80). -/
def createCheck (s : State) (ctx : BitVec 12) (a : Nat) : Except Nat Nat :=
  if a % 64 != 0 || !inExchange s ctx a then .error 0x80000002
  else
    match hubPlace s ctx a 64 .atomic with
    | none => .error 0x80000002
    | some p =>
      let v := s.hubNum p 0 64
      let log := bits v 319 312
      if bits v 311 300 != ctx.toNat || log < 4 || 16 < log then .error 0x80000003
      else
        let ring := bits v 511 448
        let cpl := bits v 447 384
        let lies := fun (base bytes : Nat) =>
          (List.range ((base % 4096 + bytes + 4095) / 4096)).all fun i => inExchange s ctx (base / 4096 * 4096 + 4096 * i)
        if ring % 128 != 0 || cpl % 16 != 0 || !lies ring (128 * 2 ^ log) || !lies cpl (16 * 2 ^ log) then
          .error 0x80000002
        else .ok p.1

/-- QCTL 1 (R155). -/
def qctlCreate (s : State) (ctx : BitVec 12) (q : Nat) (desc : Word) : State :=
  if !ownsQueue s ctx q then s.setQctl ctx 0x80000001
  else
    let enable := fun (s : State) =>
      match s.desc q with
      | some d => ((d.setQstate s true (s.hub.isMapped q) (d.run s) (d.ntail s)).setQctl ctx 1).makeRunnable q
      | none => s.setQctl ctx 0x80000002
    match kget s.hub.queues q with
    | some (.active _ _) => enable s
    | _ =>
      match createCheck s ctx desc.toNat with
      | .error c => s.setQctl ctx c
      | .ok _ => enable { s with hub := { s.hub with queues := kput s.hub.queues q (.active ctx desc) } }

/-- QCTL 2 (R154, R155). R155 has no row for a queue that is ASSIGNED, or whose descriptor no longer translates: nothing
happens, and QCTL reads the outcome it read before; a disabled queue leaves the runnable list, and joins it last once it is
enabled (DESIGN CHOICE, log 80). -/
def qctlDisable (s : State) (ctx : BitVec 12) (q : Nat) : State :=
  if !ownsQueue s ctx q then s.setQctl ctx 0x80000001
  else
    match s.desc q with
    | some d =>
      let s := (d.setQstate s false (s.hub.isMapped q) (d.run s) (d.ntail s)).setQctl ctx 2
      { s with hub := { s.hub with runnable := s.hub.runnable.filter (· != q) } }
    | none => s

/-- A queue destroyed: unmapped, its address cleared (R155). Its completions that wait at the hub stay there, and go to the
ring of the next descriptor that its number gets (DESIGN CHOICE, log 45). -/
def destroyQueue (s : State) (q : Nat) (st : QueueState) : State :=
  let s := unmap s q
  { s with hub := { s.hub with queues := kput s.hub.queues q st,
                               runnable := s.hub.runnable.filter (· != q),
                               mapped := s.hub.mapped.filter fun x => x.queue != q } }

/-- QCTL 3 (R155); a queue that is ASSIGNED, or whose descriptor no longer translates, stays as it is (DESIGN CHOICE, log 80). -/
def qctlDestroy (s : State) (ctx : BitVec 12) (q : Nat) : State :=
  if !ownsQueue s ctx q then s.setQctl ctx 0x80000001
  else
    match s.desc q with
    | some d =>
      if d.en s || queueLive s q then s.setQctl ctx 0x80000004
      else (destroyQueue s q (.assigned ctx)).setQctl ctx 3
    | none => s

/-- The registers of a context page that a QCTL write acts on (R155). -/
def State.qregs (s : State) (ctx : BitVec 12) (q : Nat) (desc : Option Word) : State :=
  let x := s.context ctx
  s.setContext ctx { x with page :=
    { x.page with qsel := BitVec.ofNat 14 q, qdesc := desc.getD x.page.qdesc } }

/-- R155: create, on the queue number and descriptor address written before. -/
def execQctlCreate (s : State) : Host.Outcome State Fault Refusal :=
  match s.ev with
  | some (.qctlCreate ctx q desc) =>
    if hostReaches s ctx then
      let s := s.qregs ctx q (some desc)
      .next (qctlCreate s ctx (s.context ctx).page.qsel.toNat desc)
    else .next s
  | _ => .next s

/-- R155: disable. -/
def execQctlDisable (s : State) : Host.Outcome State Fault Refusal :=
  match s.ev with
  | some (.qctlDisable ctx q) =>
    if hostReaches s ctx then
      let s := s.qregs ctx q none
      .next (qctlDisable s ctx (s.context ctx).page.qsel.toNat)
    else .next s
  | _ => .next s

/-- R155: destroy. -/
def execQctlDestroy (s : State) : Host.Outcome State Fault Refusal :=
  match s.ev with
  | some (.qctlDestroy ctx q) =>
    if hostReaches s ctx then
      let s := s.qregs ctx q none
      .next (qctlDestroy s ctx (s.context ctx).page.qsel.toNat)
    else .next s
  | _ => .next s

/-! Launching (R150, R151) -/

/-- What a launch header asks for (R150). -/
structure Header where
  dimg   : Nat
  dlen   : Nat
  timg   : Nat
  place  : Nat
  group  : Option Nat
  domain : Nat
  deriving DecidableEq, Repr

/-- Whether an image's address is one of region H at a multiple of 16, or 0 for none (R150). -/
def imageOk (a : Nat) : Bool := a == 0 || (a % 16 == 0 && regionOf a == .h)

/-- A launch header; none for an invalid field (R150). -/
def Header.ofNum (v : Nat) : Option Header :=
  let place := bits v 47 32
  let dimg := bits v 511 448
  let dlen := bits v 447 416
  let timg := bits v 415 352
  if bits v 351 48 != 0 || bits v 31 16 != 0 || bits v 7 5 != 0 || bit v 3 then none
  else if (place != 0xFFFF && 31 < place) || 3 < bits v 2 0 then none
  else if !imageOk dimg || !imageOk timg || dlen % 16 != 0 || schedBase < dlen || (dimg == 0 && dlen != 0) then none
  else some ⟨dimg, dlen, timg, place, if bit v 4 then some (bits v 15 8 + 1) else none, bits v 2 0⟩

/-- The bytes of the data image and of the frame-tag list; none when a page fails or a tag breaks R182 (R151). -/
def Header.images (h : Header) (s : State) (ctx : BitVec 12) : Option (List Byte × List Byte) :=
  match hubGranules s ctx h.dimg (h.dlen / 16),
    (if h.timg = 0 then some (List.replicate 96 0) else hubGranules s ctx h.timg 6) with
  | some data, some tags =>
    if tags.any tagBad || (tags.drop 91).any (· != 0) then none else some (data, tags)
  | _, _ => none

/-- Strand slots of a core that hold strands. -/
def State.occupied (s : State) (u : Nat) : Nat := ((s.core u).slots.filter Slot.live).length

/-- The first of some candidates that has the least measure. -/
def leastBy (f : Nat → Nat) : List Nat → Option Nat
  | [] => none
  | x :: xs =>
    match leastBy f xs with
    | some y => if f y < f x then some y else some x
    | none => some x

/-- The yard of a launch: the one PLACE names, or the one with the most free strand slots on cores the context owns
(R151). -/
def launchYard (s : State) (ctx : BitVec 12) (place : Nat) : Option Nat :=
  let has := fun y => !(ownedCores s ctx y).isEmpty
  if place != 0xFFFF then (if has place then some place else none)
  else leastBy (fun y => (ownedCores s ctx y).foldl (fun n u => n + s.occupied u) 0 + 4 * (32768 - (ownedCores s ctx y).length))
    ((List.range 32).filter has)

/-- The `.buffer` declarations of a launch image made on a core in order, each as `bdecl` makes it (R233; DESIGN
CHOICE, log 88). -/
def declareAll (s : State) (u : Nat) (bufs : List (Nat × Nat)) : State :=
  bufs.foldl (fun s b => match (s.core u).declare b.1 b.2 with | some (_, c) => s.setCore u c | none => s) s

/-- The data image copied to a core from local offset 0, its granules left empty, the core's frame tags set, and the
image's buffers declared there (R151, R233). -/
def loadImage (s : State) (u : Nat) (data tags : List Byte) (bufs : List (Nat × Nat)) : State :=
  let s := s.setBytes (localPlace u 0) data
  let s := (List.range (data.length / 16)).foldl (fun s i => s.setFull (localPlace u (16 * i)) false) s
  let s := (List.range 96).foldl (fun s f => s.setTag (localPlace u (4096 * f)) (tags.getD f 0)) s
  declareAll s u bufs

/-- A completion that waits at the hub (R153). -/
def State.complete (s : State) (c : Completion) : State := { s with hub := { s.hub with done := s.hub.done ++ [c] } }

/-- A launch begun from a checked header and root record: its image loaded, its weight issued, its root or members
queued (R146, R149, R151); none while the root's core has no room (R137). -/
def beginLaunch (s : State) (q : Nat) (ctx : BitVec 12) (entry : Nat) (h : Header) (r : Rec) (yard : Nat)
    (data tags : List Byte) (bufs : List (Nat × Nat)) : Option State :=
  let cs := ownedCores s ctx yard
  let l := BitVec.ofNat 32 s.hub.nextLaunch
  let root := match h.group with | some _ => cs.head? | none => leastBy s.occupied cs
  match root with
  | none => none
  | some u =>
    let each := if h.group.isSome then 2 ^ 55 else 2 ^ 63
    let n := h.group.getD 1
    let task : Queued :=
      ⟨r, BitVec.ofNat 64 each, .host, 0, l, ctx, [], none, h.group.isNone, false, none⟩
    if h.group.isNone && !(s.core u).hasRoom then none
    else
      let s := { s with hub := { s.hub with nextLaunch := s.hub.nextLaunch + 1 } }
      let s := s.setLaunch l
        { state := .live, ctx := ctx, issued := BitVec.ofNat 96 (n * each), returned := 0,
          domain := BitVec.ofNat 3 h.domain, group := none, root := u, queue := some q, entry := BitVec.ofNat 32 entry }
      let s := loadImage s u data tags bufs
      some (match h.group with
        | some n => formGroup s mgmtUnit (hubFor l ctx) l yard n cs task
        | none => s.modCore u fun c => c.pushReady task)

/-- What an entry of 128 bytes begins; none for an entry that completes with status BAD (R150, R151). -/
def entryLaunch (s : State) (ctx : BitVec 12) (bs : List Byte) :
    Option (Header × Rec × Nat × List Byte × List Byte) :=
  let r := Rec.ofNum (leNat (bs.drop 64))
  match Header.ofNum (leNat (bs.take 64)) with
  | none => none
  | some h =>
    if r.bad then none
    else
      match h.images s ctx, launchYard s ctx h.place with
      | some (data, tags), some yard => some (h, r, yard, data, tags)
      | _, _ => none

/-- HEAD moved past an entry that was taken (R154). -/
def takeHead (s : State) (q : Nat) (d : Desc) (started : Bool) : State :=
  let s := s.setHubNum d.place 44 4 ((d.head s + 1) % 2 ^ 32)
  let f := fun (x : Mapped) => if x.queue == q then { x with started := x.started || started } else x
  let s := { s with hub := { s.hub with mapped := s.hub.mapped.map f } }
  if d.head s == d.ntail s then s.markIdle q else s

/-- R151, R154: entry HEAD of a mapped, enabled queue is taken; the launch begins, or the entry completes BAD (an entry
that cannot be read too: log 20). The buffers that the launch image declares come with the event (log 88). -/
def execLaunchStart (s : State) : Host.Outcome State Fault Refusal :=
  match s.ev with
  | some (.launchStart q bufs) =>
    match s.desc q with
    | some d =>
      if s.hub.isMapped q && d.en s && d.head s != d.ntail s && !s.hub.power.stopped then
        let head := d.head s
        let bs := (hubGranules s d.ctx (d.ring s + 128 * (head % 2 ^ d.log s)) 8).getD []
        match (if bs.isEmpty then none else entryLaunch s d.ctx bs) with
        | none => .next ((takeHead s q d false).complete ⟨q, 0, 2, BitVec.ofNat 32 head⟩)
        | some (h, r, yard, data, tags) =>
          match beginLaunch s q d.ctx head h r yard data tags bufs with
          | some s => .next (takeHead s q d true)
          | none => .next s
      else .next s
    | none => .next s
  | _ => .next s

/-! Completions (R153) -/

/-- The place of the next completion of a queue, while its ring has room (R153). -/
def Desc.cplPlace (d : Desc) (s : State) : Option (Nat × Option (BitVec 256)) :=
  if (d.cplcnt s + 2 ^ 32 - d.cplrd s) % 2 ^ 32 < 2 ^ d.log s then
    hubPlace s d.ctx (d.cpl s + 16 * (d.cplcnt s % 2 ^ d.log s)) 16 .store
  else none

/-- The first waiting completion that can be posted, with its place; completions of one queue keep their order, and one
whose ring is full, or whose descriptor or completion ring no longer translates, waits without holding up those of other
queues (R153, which does not speak of a ring that no longer translates; DESIGN CHOICE, log 45). -/
def postable (s : State) : List Completion → List Nat → Option (Completion × Desc × (Nat × Option (BitVec 256)))
  | [], _ => none
  | c :: cs, held =>
    match (if held.contains c.queue then none else s.desc c.queue) with
    | none => postable s cs held
    | some d =>
      match d.cplPlace s with
      | some p => some (c, d, p)
      | none => postable s cs (c.queue :: held)

/-- R153: a completion written, then CPLCNT advanced, for the first that has room in its ring. -/
def execCompletionPost (s : State) : Host.Outcome State Fault Refusal :=
  match s.ev with
  | some .completionPost =>
    match postable s s.hub.done [] with
    | none => .next s
    | some (c, d, p) =>
      let cnt := d.cplcnt s
      let s := s.setHubNum p 0 16 (c.launch.toNat + c.status.toNat * 2 ^ 32 + c.entry.toNat * 2 ^ 64)
      let s := s.setHubNum d.place 40 4 ((cnt + 1) % 2 ^ 32)
      .next { s with hub := { s.hub with done := s.hub.done.erase c } }
  | _ => .next s

end Sys2Proof.Machine
end

