-- ==== Sys2Proof/Machine/Ckpt.lean ====
section
/-! DEFINITION. Checkpoints and event counters (R400 to R404). -/

namespace Sys2Proof.Machine

/-! Descriptors (R401) -/

/-- A checkpoint descriptor (R401). -/
structure CkptDesc where
  step   : BitVec 32
  nrange : Nat
  tout   : Nat

/-- A descriptor of 64 bytes; none when it breaks R401. -/
def CkptDesc.ofNum (v : Nat) : Option CkptDesc :=
  let n := bits v 463 448
  if bits v 479 464 != 0 || bits v 415 0 != 0 || n == 0 || 256 < n then none
  else some ⟨BitVec.ofNat 32 (bits v 511 480), n, bits v 447 416⟩

/-- The descriptor at Src(A), or CKPT.ARG (R401). -/
def readCkpt (s : State) (a : Word) : Except Stop CkptDesc := do
  let bs ← readL s a.toNat 64 64 .ckptArg
  match CkptDesc.ofNum (leNat bs) with
  | some d => return d
  | none => fail .ckptArg

/-- Bytes of a slot before its data: the data may take CKSZ less 8 KiB (R401; log 22). -/
def ckptHead : Nat := 8192

/-- The ranges of a list, or CKPT.ARG (R401). -/
def readRanges (s : State) (b : Word) (n size : Nat) : Except Stop (List (Nat × Nat)) := do
  let _ ← failIf (b.toNat % 16 != 0) .ckptArg
  let bs ← readObject s b.toNat n
  let rs := (List.range n).map fun i =>
    let v := leNat ((bs.drop (16 * i)).take 16)
    (v % 2 ^ 64, v / 2 ^ 64)
  let bad := rs.any fun r => r.1 % 4096 != 0 || regionOf r.1 != .h || r.2 % 4096 != 0
  let _ ← failIf (bad || size < ckptHead + rs.foldl (fun n r => n + r.2) 0) .ckptArg
  return rs

/-! Saving (R401) -/

/-- The page frames of ranges in list order. -/
def rangePages (rs : List (Nat × Nat)) : List Nat :=
  rs.flatMap fun r => (List.range (r.2 / 4096)).map fun i => r.1 + 4096 * i

/-- The bytes of ranges in list order, each 64-byte unit read once; none when a read fails. -/
def rangeBytes (s : State) (ctx : BitVec 12) : List Nat → Option (List Byte)
  | [] => some []
  | a :: as =>
    match hubPlace s ctx a 4096 .load, rangeBytes s ctx as with
    | some p, some bs => some (s.bytesUnder p.2 p.1 4096 ++ bs)
    | _, _ => none

/-- Bytes of a checkpoint slot written: an encrypted page of its owner (R199, R400). -/
def State.putSlot (s : State) (ctx : BitVec 12) (p : Nat) (bs : List Byte) : State :=
  (s.under (s.keyOf ctx) p bs.length).store false p bs

/-- The home slot of a step in this device's own HBM (R400). -/
def Context.ckSlot (x : Context) (step : BitVec 32) : Nat := x.ckSlots.getD (step.toNat % 2) 0

/-- Whether a write to a slot in this device's HBM is performed: the owner has a key and no unit is poisoned (R199,
R363). -/
def homeTakes (s : State) (ctx : BitVec 12) (a n : Nat) : Bool := (s.keyOf ctx).isSome && !s.anyPoison a n

/-- Whether writes to a checkpoint slot and its buddy's are performed: the buddy's device can be reached (R397, R400). -/
def slotTakes (s : State) (ctx : BitVec 12) (a n : Nat) : Bool :=
  homeTakes s ctx a n && match (s.context ctx).ckBuddy with | none => true | some d => s.linkTo d

/-- Bytes written to a slot in this device's HBM, where the write is performed. -/
def State.putHome (s : State) (ctx : BitVec 12) (p : Nat) (bs : List Byte) : State :=
  if homeTakes s ctx p bs.length then s.putSlot ctx p bs else s

/-- The pages of ranges copied to a slot in this device's HBM one after another, but those whose read or write is not
performed (R401). -/
def copyParts (ctx : BitVec 12) : Nat → List Nat → State → State
  | _, [], s => s
  | p, a :: as, s =>
    copyParts ctx (p + 4096) as
      (match rangeBytes s ctx [a] with | some bs => s.putHome ctx p bs | none => s)

/-- The copy of a save whose barrier is passed, and its status: 0 SAVED, or 2 FAILED when a write was not performed; the
commit word of the home slot is zeroed and the ranges are copied there all the same (R401). -/
def saveStep (s : State) (ctx : BitVec 12) (step : BitVec 32) (rs : List (Nat × Nat)) : State × Nat :=
  let x := s.context ctx
  let p := x.ckSlot step
  let reached := slotTakes s ctx p 8
  let s := s.putHome ctx p (leBytes 8 0)
  let failed := (copyParts ctx (p + ckptHead) (rangePages rs) s, 2)
  match rangeBytes s ctx (rangePages rs) with
  | none => failed
  | some bs =>
    if !(reached && slotTakes s ctx (p + ckptHead) bs.length) then failed
    else
      let s := s.putSlot ctx (p + ckptHead) bs
      let e : Saved := ⟨crc32c bs, rs, false⟩
      (s.setContext ctx { s.context ctx with ckSaved := (step.toNat, e) :: x.ckSaved }, 0)

/-- The save of a step by this device, if it has saved it (R401). -/
def Context.savedStep (x : Context) (step : BitVec 32) : Option Saved :=
  (x.ckSaved.find? fun p => p.1 == step.toNat).map (·.2)

/-- R401: with no other device in the set the barrier is passed at once. -/
def execCkptSave (s : State) := blocking s fun s => served s inD fun z => do
  let (a, b, s) ← srcAB z
  let x := s.context s.st.ctx
  let d ← readCkpt s a
  let rs ← readRanges s b d.nrange x.ckSize
  let _ ← failHubIf ((x.savedStep d.step).isSome || (match x.ckCommitted with | some c => d.step ≤ c | none => false)) .ckptStep
  let _ ← releaseWait z .system
  let s := s.heardAt (homesOf s b.toNat d.nrange .load)
  if s.hub.stage < 4 then .error (.block none)
  else if x.ckSet.isEmpty then
    let (s, n) := saveStep s.hear s.st.ctx d.step rs
    dstLong s.ir.d (word n) s
  else
    let w : CkptWait := ⟨s.self, d.step, rs, s.cyc + d.tout⟩
    .error (.block (some ({ s with hub := { s.hub with ckptWaits := s.hub.ckptWaits ++ [w] } }.modMe fun sl =>
      { sl with asked := true })))

/-- R401: the linked barrier of a save is passed, and the copy follows; or TOUT is over, and the status is 1. -/
def execCkptBarrierTimeout (s : State) : Host.Outcome State Fault Refusal :=
  match s.ev with
  | some (.ckptBarrierTimeout u k reached) =>
    match s.hub.ckptWaits.find? fun x => x.sender.unit == u && x.sender.slot == k with
    | some x =>
      let s' := { s with hub := { s.hub with ckptWaits := s.hub.ckptWaits.filter fun y => !y.sender.same x.sender } }
      if reached then
        let (t, n) := saveStep s' x.sender.ctx x.step x.ranges
        .next (tell t (x.sender, .value (word n)))
      else if x.deadline ≤ (s.core u).cyc then .next (tell s' (x.sender, .value 1))
      else .next s
    | none => .next s
  | _ => .next s

/-- R401: the commit word written, and given. -/
def execCkptCommit (s : State) := blocking s fun s => do
  let (a, s) ← src s.ir.a s
  let d ← readCkpt s a
  let ctx := s.st.ctx
  let x := s.context ctx
  match x.savedStep d.step with
  | none => failHub .ckptStep
  | some e =>
    let p := x.ckSlot d.step
    if (s.keyOf ctx).isNone then fail .memNokey
    else if s.anyPoison p 8 then fail .memPoison
    else if !slotTakes s ctx p 8 then .error (.block none)
    else
      let w := d.step.toNat * 2 ^ 32 + e.crc.toNat
      let saved := x.ckSaved.map fun q => if q.1 == d.step.toNat then (q.1, { q.2 with committed := true }) else q
      let last := match x.ckCommitted with | some c => if c < d.step then d.step else c | none => d.step
      let s := (s.putSlot ctx p (leBytes 8 w)).setContext ctx { x with ckSaved := saved, ckCommitted := some last }
      dstLong s.ir.d (word w) s

/-! Recovery (R402) -/

/-- Ranges loaded from the data of a slot, page by page. -/
def loadPages (ctx : BitVec 12) : List Nat → List Byte → State → State
  | [], _, s => s
  | a :: as, bs, s =>
    let s := match hubPlace s ctx a 4096 .store with
      | some q => (s.under q.2 q.1 4096).store false q.1 (bs.take 4096)
      | none => s
    loadPages ctx as (bs.drop 4096) s

/-- A context's shard loaded from its home slot of step S, when that slot is valid (R400, R402). -/
def loadShard (s : State) (ctx : BitVec 12) (step : BitVec 32) : State :=
  let x := s.context ctx
  let p := x.ckSlot step
  let word_ := s.numUnder (s.keyOf ctx) p 8
  match x.savedStep step with
  | some e =>
    let pages := rangePages e.ranges
    if word_ != 0 && word_ / 2 ^ 32 == step.toNat then
      loadPages ctx pages (s.bytesUnder (s.keyOf ctx) (p + ckptHead) (4096 * pages.length)) s
    else s
  | none => s

/-- Launches of a context that have not ended. -/
def unended (s : State) (ctx : BitVec 12) : List Nat :=
  (s.hub.launches.filter fun l => l.2.ctx == ctx && (l.2.state == .live || l.2.state == .killing)).map (·.1)

/-- R402: a device of a checkpoint set has failed: the launches of the set's contexts are killed; once they have ended,
each context's shard is loaded from its home slot of step S. -/
def execDeviceRecovery (s : State) : Host.Outcome State Fault Refusal :=
  match s.ev with
  | some (.deviceRecovery dev step) =>
    let mine := (s.hub.contexts.filter fun c => c.2.ckSet.contains dev).map fun c => BitVec.ofNat 12 c.1
    let ls := mine.flatMap (unended s)
    if ls.isEmpty then .next (mine.foldl (fun s c => loadShard s c step) s)
    else .next (ls.foldl (fun s l => s.kill (BitVec.ofNat 32 l)) s)
  | _ => .next s

/-! Event counters (R403, R404) -/

/-- A counter: its set and index (R403). -/
structure CounterId where
  set   : Nat
  index : Nat

/-- Counters of a set (R403). -/
def setSize : Nat → Nat
  | 0 => 4
  | 1 => 8
  | 2 => 8
  | _ => 16

/-- Whether an event code is listed for a set (R403). -/
def codeListed (set code : Nat) : Bool :=
  if code ≤ 0x01 then true
  else if code ≤ 0x04 then set ≤ 2
  else if code ≤ 0x06 then set ≤ 1
  else if code = 0x07 then set ≤ 2
  else if code = 0x08 then set ≤ 1
  else if code ≤ 0x0A then set ≤ 2
  else if code ≤ 0x0C then set ≤ 1
  else if code = 0x0D then set ≤ 2
  else if code < 0x10 then false
  else if code ≤ 0x12 then 2 ≤ set
  else if code ≤ 0x17 then set == 3
  else false

/-- The counter of Src(A): ECNT.ARG for a malformed one, or one the core has not (R403, R404). -/
def counterArg (s : State) (a : Word) : Except Stop CounterId := do
  let v := a.toNat
  let set := bits v 7 6
  let i := bits v 3 0
  let u := s.focusU
  let _ ← failIf (2 ^ 8 ≤ v || bits v 5 4 != 0 || setSize set ≤ i) .ecntArg
  let _ ← failIf ((set == 2 && !isLoft u) || (u == mgmtUnit && set != 3) || (set == 1 && !isCompute u)) .ecntArg
  return ⟨set, i⟩

/-- Whether the context of the strand in focus may use a counter's set (R403). -/
def mayCount (s : State) (c : CounterId) : Bool :=
  let u := s.focusU
  match c.set with
  | 0 => s.owner u == some s.st.ctx
  | 1 => s.owner u == some s.st.ctx
  | 2 => match kget s.lofts u with | some x => x.owner == some s.st.ctx | none => false
  | _ => s.hub.counters.owner == some s.st.ctx

/-- The counters of a set, as the core in focus reaches them (R404). -/
def countersOf (s : State) (set : Nat) : List EventCounter :=
  match set with
  | 0 => s.here.counters
  | 1 => (s.barn (barnOf s.focusU)).counters
  | 2 => match kget s.lofts s.focusU with | some x => x.counters | none => []
  | _ => s.hub.counters.counters

/-- The counters of a set replaced. -/
def setCounters (s : State) (set : Nat) (l : List EventCounter) : State :=
  match set with
  | 0 => s.modCore s.focusU fun c => { c with counters := l }
  | 1 => s.setBarn (barnOf s.focusU) { s.barn (barnOf s.focusU) with counters := l }
  | 2 => match kget s.lofts s.focusU with
    | some x => { s with lofts := kput s.lofts s.focusU { x with counters := l } }
    | none => s
  | _ => { s with hub := { s.hub with counters := { s.hub.counters with counters := l } } }

/-- R404: the old event code; the new one is set and the counter cleared. -/
def execEcntSel (s : State) := performSeq s fun s => do
  let (a, b, s) ← srcAB s
  let c ← counterArg s a
  let _ ← failIf (2 ^ 8 ≤ b.toNat || !codeListed c.set b.toNat) .ecntArg
  let _ ← failIf (!mayCount s c) .ecntOwn
  let l := countersOf s c.set
  let old := (l.getD c.index EventCounter.reset).code
  dstLong s.ir.d (old.setWidth 64) (setCounters s c.set (l.set c.index ⟨BitVec.ofNat 16 b.toNat, 0⟩))

/-- R404. -/
def execEcntRd (s : State) := performSeq s fun s => do
  let (a, s) ← src s.ir.a s
  let c ← counterArg s a
  let _ ← failIf (!mayCount s c) .ecntOwn
  dstLong s.ir.d (((countersOf s c.set).getD c.index EventCounter.reset).count.setWidth 64) s

end Sys2Proof.Machine
end

