-- ==== Sys2Proof/Machine/Control.lean ====
section
/-! DEFINITION. The meanings of group 2: guards, branches, calls and returns (R96 to R108). -/

namespace Sys2Proof.Machine

/-- The target of an offset form (R103): PC plus 12 words' bytes times the offset, modulo 2^56. -/
def offsetTarget (s : State) : Nat := (s.st.pc + 12 * s.ir.imm.signExtend 64).toNat % 2 ^ 56

/-- x15 linked to the next word, at latency 1 (R104). R104 extends PC + 12 to 64 bits and gives PC no width: PC is kept, and
advances, in 64 bits, without wrapping modulo 2^56 above the last word of region H (DESIGN CHOICE, log 79). -/
def link (s : State) : State := s.fly 1 (.x 15) (word ((s.st.pc + 12).toNat % 2 ^ 64))

/-- R103. -/
def execBrOffset (s : State) := performBranch s (.imm 0) fun s => .ok (offsetTarget s, s)
/-- R103: bits 63:56 of the target register are ignored. -/
def execBrRegister (s : State) := performBranch s s.ir.a fun s => do
  let (a, s) ← src s.ir.a s
  return (a.toNat % 2 ^ 56, s)
/-- R104. -/
def execCallOffset (s : State) := performBranch s (.imm 0) fun s => .ok (offsetTarget s, link s)
/-- R104: the target is read before x15 is linked. -/
def execCallRegister (s : State) := performBranch s s.ir.a fun s => do
  let (a, s) ← src s.ir.a s
  return (a.toNat % 2 ^ 56, link s)
/-- R105: as a branch to x15. -/
def execRet (s : State) := performBranch s (.x 15) fun s => .ok (s.st.x[15].toNat % 2 ^ 56, s)

/-- The issue cycle of a `pbr` remembered for its b-register (R35). -/
def State.markPbr (s : State) (o : Opd) : State :=
  match o with
  | .b i => s.modMe fun sl => { sl with pbrAt := sl.pbrAt.set i s.cyc }
  | _ => s

/-- R106: a branch target from an offset. -/
def execPbrOffset (s : State) := performSeq s fun s => dst s.ir.d 1 (word (offsetTarget s)) (s.markPbr s.ir.d)
/-- R106: a branch target from a register. -/
def execPbrRegister (s : State) := performSeq s fun s => do
  let (a, s) ← src s.ir.a s
  dst s.ir.d 1 a (s.markPbr s.ir.d)

/-- R99: a guard set whatever its state. -/
def execGset (s : State) := performSeq s fun s => do
  let (a, s) ← src s.ir.a s
  dstGuard s.ir.d (GState.ofBool (a != 0)) s
/-- R99: a pending guard resolved; any other raises GUARD.STATE, which is tested before A is read. -/
def execGres (s : State) := performSeq s fun s => do
  let _ ← whole [s.ir.a] s
  let _ ← failIf (s.st.guard (guardIdx s.ir.d) != .p) .guardState
  let (a, s) ← src s.ir.a s
  dstGuard s.ir.d (GState.ofBool (a != 0)) s

/-- A guard written from the guards A and B (R100). -/
def guardOp (s : State) (f : GState → GState → GState) : Host.Outcome State Fault Refusal :=
  performSeq s fun s => dstGuard s.ir.d (f (s.st.guard (guardIdx s.ir.a)) (s.st.guard (guardIdx s.ir.b))) s

/-- R100. -/
def execGand (s : State) := guardOp s GState.and
/-- R100. -/
def execGor (s : State) := guardOp s GState.or
/-- R100. -/
def execGxor (s : State) := guardOp s GState.xor
/-- R100. -/
def execGnot (s : State) := guardOp s fun a _ => a.not
/-- R101: the guard becomes pending; g0 stays true. -/
def execGpend (s : State) := performSeq s fun s => dstGuard s.ir.d .p s
/-- R102: the state of a guard as a number. -/
def execGget (s : State) := performSeq s fun s => dst s.ir.d 1 (word (s.st.guard (guardIdx s.ir.a)).code) s
/-- R108: nothing beyond the issue. -/
def execNop (s : State) := performSeq s fun s => .ok s

end Sys2Proof.Machine
end

