-- ==== Sys2Proof/Machine/Engines.lean ====
section
/-! DEFINITION. The two events of an accepted engine command, its start and its completion (R248, R271, R272, R286). -/

namespace Sys2Proof.Machine

/-- Whether the command at the head of an engine's queue starts: also, for the Carder, only in registration order, one
at a time for the barn (R248, R286). -/
def starts (s : State) (x : Cmd) : Bool :=
  mayStart s x && (x.engine != .selection || (x.registered && carderAt s x))

/-- R248, R271: the command at the head of an engine's queue starts; a command of the array path reads its operands. -/
def execEngineCommandStart (s : State) : Host.Outcome State Fault Refusal :=
  match s.ev with
  | some (.engineCommandStart u e) =>
    match (s.core u).head e with
    | some x =>
      if starts s x then
        match e with
        | .array => .next (startArray s x)
        | .selection => .next (tidyLine (s.setCmd { x with phase := .executing }) u)
        | _ => .next (s.setCmd { x with phase := .executing })
      else .next s
    | none => .next s
  | _ => .next s

/-- What an executing command of an engine does when the engine goes on with it; none while it waits. -/
def engineEffect (e : Engine) (s : State) (x : Cmd) : Option State :=
  match e with
  | .vector => vectorEffect s x
  | .array => arrayStep s x
  | .row => rowStep s x
  | .copy => copyEffect s x
  | .selection => carderEffect s x

/-- R248, R272: the executing command of an engine completes; on the two matrix paths it goes on by one row, and
completes with the last. -/
def execEngineCommandComplete (s : State) : Host.Outcome State Fault Refusal :=
  match s.ev with
  | some (.engineCommandComplete u e) =>
    match (s.core u).executing e with
    | some x => .next ((engineEffect e s x).getD s)
    | none => .next s
  | _ => .next s

end Sys2Proof.Machine
end

