-- ==== Sys2Proof/Machine/Float.lean ====
section
/-! DEFINITION. The meanings of group 3: FP32 arithmetic and conversions (R110 to R124). -/

namespace Sys2Proof.Machine

/-- An FP32 instruction of one source: bits 31:0 of it (R110). -/
def unary32 (s : State) (lat : Nat) (f : Nat → Nat) : Host.Outcome State Fault Refusal :=
  unary s lat fun a => f (a % 2 ^ 32)
/-- An FP32 instruction of two sources: bits 31:0 of each (R110). -/
def binary32 (s : State) (lat : Nat) (f : Nat → Nat → Nat) : Host.Outcome State Fault Refusal :=
  binary s lat fun a b => f (a % 2 ^ 32) (b % 2 ^ 32)
/-- An FP32 comparison (R119). -/
def compare32 (s : State) (f : Nat → Nat → Bool) : Host.Outcome State Fault Refusal :=
  compare s fun a b => f (a.toNat % 2 ^ 32) (b.toNat % 2 ^ 32)

/-- R113. -/
def execAddF32 (s : State) := binary32 s 4 add32
/-- R113. -/
def execSubF32 (s : State) := binary32 s 4 sub32
/-- R113. -/
def execMulF32 (s : State) := binary32 s 4 mul32
/-- R113. -/
def execDivF32 (s : State) := binary32 s 14 div32
/-- R114: D is the addend and the destination. -/
def execFmaF32 (s : State) := addInto s 4 fun c a b => fma32 (c % 2 ^ 32) (a % 2 ^ 32) (b % 2 ^ 32)
/-- R114. -/
def execFmsF32 (s : State) := addInto s 4 fun c a b => fms32 (c % 2 ^ 32) (a % 2 ^ 32) (b % 2 ^ 32)
/-- R115. -/
def execSqrtF32 (s : State) := unary32 s 14 sqrt32
/-- R116. -/
def execRcpF32 (s : State) := unary32 s 6 rcp32
/-- R116. -/
def execRsqF32 (s : State) := unary32 s 6 rsq32
/-- R116. -/
def execExp2F32 (s : State) := unary32 s 6 exp232
/-- R116. -/
def execLog2F32 (s : State) := unary32 s 6 log232
/-- R117. -/
def execMinF32 (s : State) := binary32 s 1 (pick32 false)
/-- R117. -/
def execMaxF32 (s : State) := binary32 s 1 (pick32 true)
/-- R118: bit 31 cleared. -/
def execAbsF32 (s : State) := unary32 s 1 fun a => a % 2 ^ 31
/-- R118: bit 31 inverted. -/
def execNegF32 (s : State) := unary32 s 1 fun a => (a + 2 ^ 31) % 2 ^ 32
/-- R119. -/
def execCeqF32 (s : State) := compare32 s eq32
/-- R119. -/
def execCltF32 (s : State) := compare32 s lt32
/-- R119. -/
def execCleF32 (s : State) := compare32 s le32
/-- R119. -/
def execCunF32 (s : State) := compare32 s unordered
/-- R120. -/
def execClassF32 (s : State) := unary32 s 1 class32
/-- R121. -/
def execCvtF32FromInt (f : IForm) (s : State) := unary s 3 fun a => ofInt32 (val (formSigned f) (formBits f) a)
/-- R122. -/
def execCvtIntFromF32 (f : IForm) (s : State) := unary32 s 3 (toInt32 (formSigned f) (formBits f))
/-- R123: bits 15:0. -/
def execCvtF32F16 (s : State) := unary s 3 fun a => widen16 fp16 (a % 2 ^ 16)
/-- R123. -/
def execCvtF16F32 (s : State) := unary32 s 3 (narrow16 fp16)
/-- R123: bits 15:0. -/
def execCvtF32Bf16 (s : State) := unary s 3 fun a => widen16 bf16 (a % 2 ^ 16)
/-- R123. -/
def execCvtBf16F32 (s : State) := unary32 s 3 (narrow16 bf16)

/-- The format operand of R124: FMT.BAD when it names no binary8 format, or `sat` where none is accepted. -/
def formatBad (f : Nat) (satAllowed : Bool) : Bool :=
  f / 2 ^ 6 != 0 || f % 2 ^ 5 < 4 || (!satAllowed && bit f 5)

/-- A conversion to or from binary8: B, its format, is read and tested before A (R124). -/
def convert8 (s : State) (satAllowed : Bool) (f : Nat → Nat → Nat) : Host.Outcome State Fault Refusal :=
  performSeq s fun s => do
    let _ ← whole [s.ir.a, s.ir.b] s
    let (b, s) ← src s.ir.b s
    let _ ← failIf (formatBad b.toNat satAllowed) .fmtBad
    let (a, s) ← src s.ir.a s
    dst s.ir.d 3 (word (f a.toNat b.toNat)) s

/-- R124. -/
def execCvtF32B8 (s : State) := convert8 s false fun a f => widen8 (f % 32) (a % 256)
/-- R124. -/
def execCvtB8F32 (s : State) := convert8 s true fun a f => narrow8 (value32 (a % 2 ^ 32)) (f % 32) (bit f 5)

end Sys2Proof.Machine
end

