-- ==== Sys2Proof/Machine/Module.lean ====
section
/-! DEFINITION. What the management core, the links, the cooling and the security block do to the module: contexts, ownership, page tables, keys, links, power, attestation, reset (R155, R179, R184, R199, R364, R397, R402 to R409). -/

namespace Sys2Proof.Machine

/-! Contexts (R155, R302, R320, R327, R378, R395, R400, R403) -/

/-- Whether a checkpoint set is laid down as R400 has it: CKSZ a multiple of 2 MiB, and slots 0 and 1 page-aligned in this
device's HBM, its own and those reserved for other devices. -/
def CkSetup.fits (k : CkSetup) : Bool :=
  let pair := fun (l : List Nat) => l.length == 2 && l.all fun p => p % 4096 == 0 && p + k.size ≤ hbmEnd
  k.size != 0 && k.size % 2 ^ 21 == 0 && pair k.slots && k.held.all fun h => pair h.2

/-- R155, R378, R395, R400, R409: a context created with what the management core gives it; only queue numbers of the
table that are FREE become its own. -/
def execContextCreate (s : State) : Host.Outcome State Fault Refusal :=
  match s.ev with
  | some (.contextCreate ctx x) =>
    if s.hub.stage < 5 || (s.context ctx).live || !(x.ck.all CkSetup.fits) then .next s
    else
      let c : Context :=
        { Context.none with live := true, troot := x.troot, serial := 1, exchange := x.exchange }
      let c := match x.ck with
        | some k => { c with ckSize := k.size, ckSlots := k.slots, ckSet := k.set, ckBuddy := k.buddy,
                             ckHeld := k.held }
        | none => c
      let s := s.setContext ctx c
      let give := fun (qs : List (Nat × QueueState)) (q : Nat) =>
        match kget qs q with
        | none => if q < 16384 then kput qs q (.assigned ctx) else qs
        | some .free => kput qs q (.assigned ctx)
        | some _ => qs
      let counters := if x.hubCounters then ⟨some ctx, s.hub.counters.counters⟩ else s.hub.counters
      let free8 := List.replicate 8 EventCounter.reset
      let loft := fun (l : List (Nat × CounterSet)) (u : Nat) =>
        kput l u ⟨some ctx, match kget l u with | some y => y.counters | none => free8⟩
      .next { s with
        hub := { s.hub with queues := x.queues.foldl give s.hub.queues, counters := counters }
        lofts := x.loftCounters.foldl loft s.lofts }
  | _ => .next s

/-- The requests of a context that have left and wait at the hub, dropped from the slots they left (R335; log 65). The
entries of the egress order that name a slot are its leaving requests, one for one. -/
def dropLeaving (s : State) (ctx : BitVec 12) : State :=
  let kept := fun (n : Nat) (xs : List Outward) =>
    ((s.hub.egress.filter fun e => e.2 == n).zip xs).filterMap fun p => if p.1.1 == ctx.toNat then none else some p.2
  { s with hub := { s.hub with
      slots := s.hub.slots.map fun (p : Nat × ReqSlot) => (p.1, { p.2 with leaving := kept p.1 p.2.leaving })
      egress := s.hub.egress.filter fun e => e.1 != ctx.toNat } }

/-! Pages of HBM that the management core has mapped (R199, R363) -/

/-- Whether a mapped page covers a 4 KiB frame. -/
def MappedPage.covers (p : MappedPage) (f : Nat) : Bool := p.base ≤ 4096 * f && 4096 * f < p.base + p.size

/-- The latest mapping of a frame. -/
def State.lastMapped (s : State) (f : Nat) : Option MappedPage := s.hub.pages.find? (·.covers f)

/-- Frames of HBM zeroed by plain writes of the management core: of a unit that something has written no byte is left
(R199). -/
def State.wipe (s : State) (frame : Nat → Bool) : State :=
  { s with
    mem := s.mem.filter fun p => !(p.1 < hbmEnd && frame (p.1 / 4096))
    seals := s.seals.map fun p => if frame (p.1 / 64) then (p.1, some none) else p }

/-- The page that a page-table entry of a context maps, when it is a valid leaf (R181, R182). -/
def newPage (ctx : BitVec 12) (v : BitVec 64) : Option MappedPage :=
  let e : Pte := ⟨v.toNat⟩
  if e.v && pageSize e.size != 0 && e.base + pageSize e.size ≤ hbmEnd then
    some ⟨e.base, pageSize e.size, some ctx, !e.enc⟩
  else none

/-- A page mapped into a context: a plain page of another context that it takes over is zeroed first (R199; DESIGN CHOICE, log 96). -/
def mapPage (s : State) (p : MappedPage) : State :=
  let s := s.wipe fun f => p.covers f && (s.lastMapped f).any fun q => q.plain && q.ctx != p.ctx
  let inside := fun (q : MappedPage) => p.base ≤ q.base && q.base + q.size ≤ p.base + p.size
  { s with hub := { s.hub with pages := p :: s.hub.pages.filter fun q => !inside q } }

/-- The poisoned frames of a context's pages retired: the units are cleared, and the frames are mapped no more (R363;
DESIGN CHOICE, log 96). -/
def retirePages (s : State) (ctx : BitVec 12) : State :=
  let mine := fun (f : Nat) => (s.lastMapped f).any fun p => p.ctx == some ctx
  let bad := s.poison.filterMap fun p => if 16 * p.1 < hbmEnd && mine (p.1 / 256) then some (p.1 / 256) else none
  let ended := fun (p : MappedPage) => if p.ctx == some ctx then { p with ctx := none } else p
  { s with
    poison := s.poison.filter fun p => !(16 * p.1 < hbmEnd && bad.contains (p.1 / 256))
    hub := { s.hub with retired := (s.hub.retired ++ bad).eraseDups, pages := s.hub.pages.map ended } }

/-- Everything the hub and the loft dies keep for a context removed (R155, R199, R302, R320, R327, R363). -/
def removeContext (s : State) (ctx : BitVec 12) : State :=
  let s := dropLeaving s ctx
  let s := s.hub.slots.foldl (fun s p => if p.2.ctx == ctx && p.2.state != .free then freeReq s p.1 else s) s
  let s := s.handles.foldl (fun s p => if p.2.ctx == ctx && p.2.state == .live then freeHandle s p.1 else s) s
  let mine := s.hub.queues.filter fun p => match p.2 with
    | .assigned c => c == ctx
    | .active c _ => c == ctx
    | .free => false
  let s := mine.foldl (fun s p => destroyQueue s p.1 .free) s
  let s := retirePages (s.dropPages fun _ p => p.ctx == ctx) ctx
  let gone := fun (q : Nat) => mine.any fun p => p.1 == q
  let disown := fun (c : CounterSet) => if c.owner == some ctx then { c with owner := none } else c
  { s with
    lofts := s.lofts.map fun (p : Nat × CounterSet) => (p.1, disown p.2)
    hub := { s.hub with
      contexts := kdel s.hub.contexts ctx.toNat
      done := s.hub.done.filter fun c => !gone c.queue
      colls := s.hub.colls.filter fun p => p.1 / 2 ^ 16 != ctx.toNat
      counters := disown s.hub.counters
      security := { s.hub.security with keys := kdel s.hub.security.keys ctx.toNat } } }

/-- R364: a context that ends has its launches killed; once they have ended, all it holds is freed. -/
def execContextEnd (s : State) : Host.Outcome State Fault Refusal :=
  match s.ev with
  | some (.contextEnd ctx) =>
    if !(s.context ctx).live then .next s
    else
      match unended s ctx with
      | [] => .next (removeContext s ctx)
      | ls => .next (ls.foldl (fun s l => s.kill (BitVec.ofNat 32 l)) s)
  | _ => .next s

/-! Ownership (R179, R185, R195, R245, R269, R363) -/

/-- A core's local memory, full/empty bits, frame tags and poison cleared, with its descriptors and engine registers
(R179, R185, R195, R245, R269, R363). -/
def clearCore (s : State) (u : Nat) : State :=
  let lo := localPlace u 0
  let out := fun (d k : Nat) => k < lo / d || (lo + 2 ^ 19) / d ≤ k
  { s with
    mem := s.mem.filter fun p => out 1 p.1
    full := s.full.filter fun p => out 16 p.1
    tags := s.tags.filter fun p => out 4096 p.1
    poison := s.poison.filter fun p => out 16 p.1 }.modCore u fun c =>
      { c with bufs := Vector.replicate 16 0, v := Vector.replicate 16 0, m := Vector.replicate 8 0,
               t := Vector.replicate 4 0 }

/-- Whether a compute core holds nothing of its owner: no strand, queued work, parked message or command. -/
def Core.vacant (c : Core) : Bool :=
  c.slots.all (fun sl => !sl.live) && c.deque.isEmpty && c.ready.isEmpty && c.inbound.isEmpty && c.overflow.isEmpty &&
    c.cmds.isEmpty && c.steal.isNone && c.waiters.isEmpty

/-- The cores that change owner together: those of a barn, or one loft core (R179). -/
def ownedTogether (t : Nat) : List Nat := if isCompute t then (List.range 16).map fun i => barnOf t + i else [t]

/-- R179: a barn with nothing of its owner left, or a loft core, passes to a new owner; the old owner's cached translations
are dropped. -/
def execOwnershipChange (s : State) : Host.Outcome State Fault Refusal :=
  match s.ev with
  | some (.ownershipChange t owner) =>
    let us := ownedTogether t
    if s.hub.stage < 5 || !isWorker t || (isCompute t && us.any fun u => !(s.core u).vacant) then .next s
    else
      let s := us.foldl clearCore s
      let key := if isCompute t then barnOf t else t
      let s := s.dropPages fun u p => us.contains u && s.owner t == some p.ctx
      .next { s with owners := match owner with | some c => kput s.owners key c | none => kdel s.owners key }
  | _ => .next s

/-! Page tables (R184) -/

/-- Whether an access that a context has translated is still to be performed (R184). -/
def translating (s : State) (ctx : BitVec 12) : Bool :=
  s.fabric.any (fun m => m.sender.ctx == ctx && match m.body with
    | .request _ => true
    | .subbyte _ => true
    | .push _ _ _ _ => true
    | _ => false) ||
  s.cores.any fun c => (c.2.cmds.any fun x => x.sender.ctx == ctx && x.engine == .copy) ||
    c.2.slots.any fun sl => sl.st.ctx == ctx && sl.long.any fun w => w.access.isSome

/-- A page-table entry of a context written at its address: a page it maps is prepared for the context, and one that
covers a retired frame is not mapped (R180, R199, R363). -/
def writeEntry (s : State) (ctx : BitVec 12) (a : Nat) (v : BitVec 64) : State :=
  let put := fun (s : State) => (s.under (s.keyOf ctx) a 8).storeNum false a 8 v.toNat
  match newPage ctx v with
  | some p => if s.hub.retired.any p.covers then s else put (mapPage s p)
  | none => put s

/-- The page tables of a context changed, in pages encrypted for it: until the shootdown completes, the translation caches
may still hold what the change has replaced (R184, R199; log 34). -/
def changeTables (s : State) (ctx : BitVec 12) (troot : Option (BitVec 41)) (entries : List (Nat × BitVec 64)) : State :=
  let s := entries.foldl (fun s e => writeEntry s ctx e.1 e.2) s
  let x := s.context ctx
  s.setContext ctx { x with changing := true, troot := troot.getD x.troot }

/-- R184: the management core changes a context's page tables and begins a shootdown; the shootdown of a change that has
been made completes when no access translated before is left, and then no cache holds an entry of the context. -/
def execTranslationShootdown (s : State) : Host.Outcome State Fault Refusal :=
  match s.ev with
  | some (.translationShootdown ctx troot entries) =>
    let x := s.context ctx
    if !x.changing then .next (changeTables s ctx troot entries)
    else if translating s ctx then .next s
    else .next ((s.setContext ctx { x with changing := false }).dropPages fun _ p => p.ctx == ctx)
  | _ => .next s

/-! Device links (R397) -/

/-- R397: the replay of a flit that failed its CRC, good or failed; after 32 failed in a row the link goes down, and the
collectives of devices behind it are decided. -/
def execFlitReplay (s : State) : Host.Outcome State Fault Refusal :=
  match s.ev with
  | some (.flitReplay i good) =>
    match s.hub.links[i]? with
    | some l =>
      if !l.up then .next s
      else
        let n := if good then 0 else l.failed + 1
        let down := 32 ≤ n
        let s := { s with hub := { s.hub with links := s.hub.links.set i ⟨!down, n⟩ } }
        if down then
          let s := match s.hub.counters.owner with | some c => s.countHub c 0x17 1 | none => s
          .next ((s.hub.routes.filter fun r => r.2 == i).foldl (fun s r => abandonDevice s r.1) s)
        else .next s
    | none => .next s
  | _ => .next s

/-! Power and cooling (R406, R407) -/

/-- R406: the estimate of a millisecond, in milliwatts, moves n. -/
def execPowerEstimate (s : State) : Host.Outcome State Fault Refusal :=
  match s.ev with
  | some (.powerEstimate mw) =>
    let p := s.hub.power
    let n := if p.plim < mw then max 1 (p.allow - 1) else if 100 * mw < 95 * p.plim then min 16 (p.allow + 1) else p.allow
    .next { s with hub := { s.hub with power := { p with allow := n } } }
  | _ => .next s

/-- R407: above 100 °C on any die n is halved. -/
def execThermalThrottle (s : State) : Host.Outcome State Fault Refusal :=
  match s.ev with
  | some (.thermalThrottle c) =>
    let p := s.hub.power
    if 100 < c then .next { s with hub := { s.hub with power := { p with allow := max 1 (p.allow / 2) } } } else .next s
  | _ => .next s

/-- R407: at 110 °C every launch ends KILLED, links go down, and the module waits for reset. -/
def execThermalStop (s : State) : Host.Outcome State Fault Refusal :=
  match s.ev with
  | some (.thermalStop c) =>
    if 110 ≤ c then
      let stop := fun (p : Nat × Launch) =>
        (p.1, if p.2.state == .live || p.2.state == .killing then { p.2 with state := .killed, group := none } else p.2)
      .next { s with hub := { s.hub with
        launches := s.hub.launches.map stop
        links := s.hub.links.map fun (l : Link) => { l with up := false }
        hosts := s.hub.hosts.map fun (l : HostPort) => { l with up := false }
        power := { s.hub.power with stopped := true } } }
    else .next s
  | _ => .next s

/-! Attestation (R408) -/

/-- A request of the SPDM connection, taken when the connection is at one of some stages: the stage moves, and the
response is bytes that R408 leaves to SPDM and to the part's keys. -/
def spdm (s : State) (from_ : List Spdm) (next : Option Spdm) : Host.Outcome State Fault Refusal :=
  let x := s.hub.security
  if s.hub.stage < 3 || !from_.contains x.spdm then .next s
  else
    let (n, s) := s.draw
    .next { s with hub := { s.hub with security :=
      { x with spdm := next.getD x.spdm, response := [Config.freeBits 512 n] } } }

/-- Every stage of a connection. -/
def anyStage : List Spdm := [.start, .version, .capabilities, .negotiated, .keyed, .session]

/-- R408: a connection begins anew. -/
def execGetVersion (s : State) : Host.Outcome State Fault Refusal := spdm s anyStage (some .version)
/-- R408. -/
def execGetCapabilities (s : State) : Host.Outcome State Fault Refusal := spdm s [.version] (some .capabilities)
/-- R408. -/
def execNegotiateAlgorithms (s : State) : Host.Outcome State Fault Refusal := spdm s [.capabilities] (some .negotiated)
/-- R408. -/
def execGetDigests (s : State) : Host.Outcome State Fault Refusal := spdm s [.negotiated, .session] none
/-- R408. -/
def execGetCertificate (s : State) : Host.Outcome State Fault Refusal := spdm s [.negotiated, .session] none
/-- R408. -/
def execChallenge (s : State) : Host.Outcome State Fault Refusal := spdm s [.negotiated] none
/-- R408: measurements signed with SM2 over SM3. -/
def execGetMeasurements (s : State) : Host.Outcome State Fault Refusal := spdm s [.negotiated, .session] none
/-- R408: SM2 key exchange. -/
def execKeyExchange (s : State) : Host.Outcome State Fault Refusal := spdm s [.negotiated] (some .keyed)

/-- R408: the session is secured when the handshake verifies. -/
def execFinish (s : State) : Host.Outcome State Fault Refusal :=
  match s.ev with
  | some (.finish ok) => spdm s [.keyed] (some (if ok then .session else .negotiated))
  | _ => .next s

/-- R408. -/
def execEndSession (s : State) : Host.Outcome State Fault Refusal := spdm s [.session] (some .negotiated)
/-- R408. -/
def execHeartbeat (s : State) : Host.Outcome State Fault Refusal := spdm s [.session] none

/-- R199, R408, R409: a context's key pair, delivered inside a secured session. -/
def execKeyPairDelivery (s : State) : Host.Outcome State Fault Refusal :=
  match s.ev with
  | some (.keyPairDelivery ctx key) =>
    let x := s.hub.security
    if x.spdm == .session && 5 ≤ s.hub.stage then
      .next { s with hub := { s.hub with security := { x with keys := kput x.keys ctx.toNat key } } }
    else .next s
  | _ => .next s

/-! Reset (R26, R409) -/

/-- R26, R409: the module as reset leaves it, before its bring-up; the host's own memory, and what the agenda holds, are no
part of it and stay. -/
def execModuleReset (s : State) : Host.Outcome State Fault Refusal :=
  match s.ev with
  | some .moduleReset =>
    .next { State.reset with hostMem := s.hostMem, agenda := s.agenda, fresh := s.fresh }
  | _ => .next s

end Sys2Proof.Machine
end

