-- ==== Sys2Proof/Machine/HostLink.lean ====
section
/-! DEFINITION. The host's accesses to the module, and the egress and reply rings (R335, R394 to R396). -/

namespace Sys2Proof.Machine

/-! The host's memory (R396) -/

/-- The bytes of the host's memory from a bus address. -/
def State.hostBytes (s : State) (a : Nat) : Nat → List Byte
  | 0 => []
  | n + 1 => sget blank s.hostMem a :: State.hostBytes s (a + 1) n

/-- Bytes written to the host's memory from a bus address. -/
def State.setHostBytes (s : State) (a : Nat) : List Byte → State
  | [] => s
  | b :: bs => State.setHostBytes { s with hostMem := sset blank s.hostMem a b } (a + 1) bs

/-! Functions (R394) -/

/-- The context of a host link's function that is in D0, while the link is up (R394). -/
def hostFunction (s : State) (i f : Nat) : Option (BitVec 12) := do
  let l ← s.hub.hosts[i]?
  if l.up then
    let x ← kget l.functions f
    if x.d3hot then none else some x.ctx
  else none

/-! Egress (R334, R335, R396) -/

/-- The 64 bytes of a request (R335). -/
def Outward.bytes (x : Outward) (slot : Nat) : List Byte :=
  leBytes 8 (x.cls.toNat + x.prov.toNat * 4 + x.tag * 16 + slot * 2 ^ 8 + x.serial.toNat * 2 ^ 32) ++ leBytes 56 x.body.toNat

/-- Whether a ring of 2^log entries has room (R396). -/
def ringRoom (prod cons : BitVec 32) (log : Nat) : Bool := (prod - cons).toNat < 2 ^ log

/-- R396: the first request of a slot that waits at the hub is written to its context's egress ring, while a host link
reaches the context, and EGPROD advances. -/
def execEgressWrite (s : State) : Host.Outcome State Fault Refusal :=
  match s.ev with
  | some (.egressWrite n) =>
    match s.hub.egress.find? fun p => p.2 == n, (s.req n).leaving with
    | some e, x :: xs =>
      let ctx := BitVec.ofNat 12 e.1
      let c := s.context ctx
      let p := c.page
      if p.egbase == 0 || !hostReaches s ctx || !ringRoom p.egprod p.egcons p.eglog.toNat then .next s
      else
        let a := p.egbase.toNat + 64 * (p.egprod.toNat % 2 ^ p.eglog.toNat)
        let s := s.setHostBytes a (x.bytes n)
        let s := s.setContext ctx { c with page := { p with egprod := p.egprod + 1 } }
        let s := s.setReq n { s.req n with leaving := xs }
        .next ({ s with hub := { s.hub with egress := s.hub.egress.erase e } }.countHub ctx 0x15 1)
    | _, _ => .next s
  | _ => .next s

/-! Replies (R335, R396) -/

/-- RPTAIL written (R396). -/
def setTail (s : State) (ctx : BitVec 12) (t : BitVec 32) : State :=
  let c := s.context ctx
  s.setContext ctx { c with page := { c.page with rptail := t } }

/-- R396: the host's doorbell. -/
def execReplyDoorbell (s : State) : Host.Outcome State Fault Refusal :=
  match s.ev with
  | some (.replyDoorbell ctx t) => .next (if hostReaches s ctx then setTail s ctx t else s)
  | _ => .next s

/-- Whether a reply to a slot's serial is delivered (R335). -/
def replyLive (r : ReqSlot) (serial : BitVec 32) : Bool :=
  r.state != .free && (serial - r.first).toNat < (r.serial - r.first).toNat && !r.dead.contains serial

/-- A reply entry as the hub writes it: the Reserved bits 31:24 and 3 of its header are zero (R5, R335). -/
def replyNum (v : Nat) : Nat := v - bits v 31 24 * 2 ^ 24 - bits v 3 3 * 2 ^ 3

/-- R335, R396: the next reply entry of a context is fetched and dropped, or appended to the delivery ring; while that
ring is full it is held. -/
def execReplyDeliver (s : State) : Host.Outcome State Fault Refusal :=
  match s.ev with
  | some (.replyDeliver ctx) =>
    let c := s.context ctx
    let p := c.page
    if p.rpdone == p.rptail || !hostReaches s ctx then .next s
    else
      let bs := s.hostBytes (p.rpbase.toNat + 64 * (p.rpdone.toNat % 2 ^ p.rplog.toNat)) 64
      let v := leNat bs
      let n := bits v 23 8
      let serial := BitVec.ofNat 32 (bits v 63 32)
      let r := s.req n
      let step := fun (s : State) =>
        let c := s.context ctx
        s.setContext ctx { c with page := { c.page with rpdone := c.page.rpdone + 1 } }
      if replyLive r serial then
        match hubPlace s ctx p.dlbase.toNat 64 .store with
        | none => .next s
        | some h =>
          let cnt := s.hubNum h 0 4
          if ringRoom (BitVec.ofNat 32 cnt) (BitVec.ofNat 32 (s.hubNum h 4 4)) p.dllog.toNat then
            match hubPlace s ctx (p.dlbase.toNat + 64 + 64 * (cnt % 2 ^ p.dllog.toNat)) 64 .store with
            | none => .next s
            | some q => .next (step ((s.setHubNum q 0 64 (replyNum v)).setHubNum h 0 4 ((cnt + 1) % 2 ^ 32)))
          else .next s
      else
        let s := if r.state != .free then s.setReq n { r with rdrop := ReqSlot.addSat r.rdrop 1 } else s
        .next (step (s.countHub ctx 0x16 1))
  | _ => .next s

/-! The host's windows (R394, R395, R396) -/

/-- Byte `o` of BAR4: its place, when a page is mapped there with ENC = 0 (R395). -/
def windowPlace (s : State) (ctx : BitVec 12) (o : Nat) (k : Access) : Option Nat :=
  match (s.context ctx).exchange[o / 4096]? with
  | some a =>
    match translate s ctx (a.toNat + o % 4096) k with
    | .ok m => if regionOf a.toNat != .h || m.enc then none else some m.pa
    | .error _ => none
  | none => none

/-- Bytes of BAR4 read; zero beyond the last mapped page (R395). -/
def windowRead (s : State) (ctx : BitVec 12) (o n : Nat) : List Byte :=
  (List.range n).map fun i => match windowPlace s ctx (o + i) .load with
    | some p => if s.anyPoison p 1 then 0 else (s.bytesUnder none p 1).headD 0
    | none => 0

/-- Bytes written one after another from a place on, but for those in a poisoned unit (R363). -/
def State.setSound (s : State) (p : Nat) : List Byte → State
  | [] => s
  | b :: bs => State.setSound (if s.anyPoison p 1 then s else (s.under none p 1).setByte p b) (p + 1) bs

/-- Bytes of BAR4 written, one page after another, each part of a page as one write; dropped beyond the last mapped page
(R321, R395). A packet of the host lies in one page. `fuel` bounds the pages. -/
def windowWrite (ctx : BitVec 12) : Nat → Nat → List Byte → State → State
  | 0, _, _, s => s
  | fuel + 1, o, bs, s =>
    if bs.isEmpty then s
    else
      let now := bs.take (4096 - o % 4096)
      let s := match windowPlace s ctx o .store with
        | some p => filtersWrite false p now.length (s.setSound p now)
        | none => s
      windowWrite ctx fuel (o + now.length) (bs.drop now.length) s

/-- A register of a context page read (R396). -/
def HostPage.read (p : HostPage) (o : Nat) : Nat :=
  match o with
  | 0x000 => p.egbase.toNat
  | 0x008 => p.eglog.toNat
  | 0x010 => p.egprod.toNat
  | 0x018 => p.egcons.toNat
  | 0x020 => p.rpbase.toNat
  | 0x028 => p.rplog.toNat
  | 0x030 => p.rptail.toNat
  | 0x038 => p.rpdone.toNat
  | 0x040 => p.dlbase.toNat
  | 0x048 => p.dllog.toNat
  | 0x050 => p.qsel.toNat
  | 0x058 => p.qdesc.toNat
  | 0x060 => p.qctl.toNat
  | _ => 0

/-- A register of a context page written, but for QCTL; a write of a read-only register or of no register has no effect
(R396). -/
def HostPage.write (p : HostPage) (o v : Nat) : HostPage :=
  match o with
  | 0x000 => { p with egbase := word v }
  | 0x008 => { p with eglog := BitVec.ofNat 8 v }
  | 0x018 => { p with egcons := BitVec.ofNat 32 v }
  | 0x020 => { p with rpbase := word v }
  | 0x028 => { p with rplog := BitVec.ofNat 8 v }
  | 0x030 => { p with rptail := BitVec.ofNat 32 v }
  | 0x040 => { p with dlbase := word v }
  | 0x048 => { p with dllog := BitVec.ofNat 8 v }
  | 0x050 => { p with qsel := BitVec.ofNat 14 v }
  | 0x058 => { p with qdesc := word v }
  | _ => p

/-- A write of a register of a context page: a write of QCTL acts on QSEL and QDESC (R155, R396). -/
def pageWrite (s : State) (ctx : BitVec 12) (o v : Nat) : State :=
  let c := s.context ctx
  let p := c.page
  if o = 0x060 then
    match v with
    | 1 => qctlCreate s ctx p.qsel.toNat p.qdesc
    | 2 => qctlDisable s ctx p.qsel.toNat
    | 3 => qctlDestroy s ctx p.qsel.toNat
    | _ => s
  else s.setContext ctx { c with page := p.write o v }

/-- The first offset of BAR0, of BAR2 and of the host's own memory in the numbering of a host access (log 23). -/
def bar0Base : Nat := 2 ^ 36
/-- BAR2 (log 23). -/
def bar2Base : Nat := 2 ^ 37
/-- The host's own memory (log 23). -/
def hostBase : Nat := 2 ^ 40

/-- A write by the host through a function (R395, R396). -/
def hostWrite (s : State) (ctx : BitVec 12) (o : Nat) (bs : List Byte) : State :=
  if o < bar0Base then windowWrite ctx (bs.length / 4096 + 2) o bs s
  else if o < bar2Base then (if o < bar0Base + 2 ^ 16 then pageWrite s ctx (o - bar0Base) (leNat bs) else s)
  else
    let q := (o - bar2Base) / 4096
    if (o - bar2Base) % 4096 = 0 && q < 16384 && ownsQueue s ctx q then latch s q (BitVec.ofNat 32 (leNat bs)) else s

/-- Bytes a read by the host returns (log 23). -/
def hostReadSize : Nat := 8

/-- What a read by the host returns (R395, R396). -/
def hostRead (s : State) (ctx : BitVec 12) (o : Nat) : List Byte :=
  if o < bar0Base then windowRead s ctx o hostReadSize
  else if o < bar2Base then leBytes hostReadSize ((s.context ctx).page.read (o - bar0Base))
  else leBytes hostReadSize 0

/-- R217, R394 to R396: an access of the host through a function of a link, which reaches that function's context while
the link is up and the function in D0; or an access to the host's own memory. -/
def execHostWindowAccess (s : State) : Host.Outcome State Fault Refusal :=
  match s.ev with
  | some (.hostWindowAccess i f o data) =>
    let answer := fun (bs : List Byte) => Host.Outcome.next { s with hub := { s.hub with hostRead := bs } }
    if hostBase ≤ o then
      match data with
      | some bs => .next (s.setHostBytes (o - hostBase) bs)
      | none => answer (s.hostBytes (o - hostBase) hostReadSize)
    else
      match hostFunction s i f, data with
      | some ctx, some bs => .next (hostWrite s ctx o bs)
      | some ctx, none => answer (hostRead s ctx o)
      | none, _ => .next s
  | _ => .next s

end Sys2Proof.Machine
end

