-- ==== Sys2Proof/Machine/Int.lean ====
section
/-! DEFINITION. The meanings of groups 0 and 1: integer, bit and packed instructions (R81 to R95). -/

namespace Sys2Proof.Machine

/-- R81: add modulo 2^W. -/
def execAdd (w : Width) (s : State) := binary s 1 fun a b => (a + b) % 2 ^ widthBits w
/-- R81: subtract modulo 2^W. -/
def execSub (w : Width) (s : State) := binary s 1 fun a b => wrap (widthBits w) ((a : Int) - b)
/-- R81: the low W bits of the product. -/
def execMul (w : Width) (s : State) := binary s 3 fun a b => a * b % 2 ^ widthBits w
/-- R82: the high W bits of the product. -/
def execMulh (f : IForm) (s : State) := binary s 3 (mulHigh (formSigned f) (formBits f))
/-- R83: the quotient. -/
def execDiv (f : IForm) (s : State) := binary s 18 (quotient (formSigned f) (formBits f))
/-- R83: the remainder. -/
def execRem (f : IForm) (s : State) := binary s 18 (remainder (formSigned f) (formBits f))
/-- R84: the smaller. -/
def execMin (f : IForm) (s : State) := binary s 1 (lesser (formSigned f) (formBits f))
/-- R84: the larger. -/
def execMax (f : IForm) (s : State) := binary s 1 (greater (formSigned f) (formBits f))
/-- R85: saturating sum. -/
def execAdds (f : IForm) (s : State) := binary s 1 fun a b =>
  saturate (formSigned f) (formBits f) (val (formSigned f) (formBits f) a + val (formSigned f) (formBits f) b)
/-- R85: saturating difference. -/
def execSubs (f : IForm) (s : State) := binary s 1 fun a b =>
  saturate (formSigned f) (formBits f) (val (formSigned f) (formBits f) a - val (formSigned f) (formBits f) b)
/-- R86: negation modulo 2^W. -/
def execNeg (w : Width) (s : State) := unary s 1 fun a => wrap (widthBits w) (-(a : Int))
/-- R86: sign extension from W bits to 64. -/
def execSext (w : Narrow) (s : State) := unary s 1 fun a => wrap 64 (sgn (narrowBits w) a)

/-- R87: equal. -/
def execCeq (w : Wide) (s : State) := compare s fun a b => a.toNat % 2 ^ wideBits w == b.toNat % 2 ^ wideBits w
/-- R87: different. -/
def execCne (w : Wide) (s : State) := compare s fun a b => a.toNat % 2 ^ wideBits w != b.toNat % 2 ^ wideBits w
/-- R87: less. -/
def execClt (f : IForm) (s : State) := compare s fun a b =>
  decide (val (formSigned f) (formBits f) a.toNat < val (formSigned f) (formBits f) b.toNat)
/-- R87: at most. -/
def execCle (f : IForm) (s : State) := compare s fun a b =>
  decide (val (formSigned f) (formBits f) a.toNat ≤ val (formSigned f) (formBits f) b.toNat)

/-- R89: the sign-extended long immediate. -/
def execMov64LongImm (s : State) := performSeq s fun s => dst s.ir.d 1 (s.ir.imm.signExtend 64) s
/-- R89: an address relative to the instruction's own. -/
def execMov64PcRel (s : State) := performSeq s fun s =>
  dst s.ir.d 1 (word ((s.st.pc + s.ir.imm.signExtend 64).toNat % 2 ^ 56)) s
/-- R90: the top 16 bits replaced. -/
def execMovh64 (s : State) := performSeq s fun s => do
  let (d, s) ← src s.ir.d s
  dst s.ir.d 1 (word (s.ir.imm.toNat % 2 ^ 16 * 2 ^ 48 + d.toNat % 2 ^ 48)) s

/-- R91. -/
def execAnd64 (s : State) := binary s 1 fun a b => a &&& b
/-- R91. -/
def execOr64 (s : State) := binary s 1 fun a b => a ||| b
/-- R91. -/
def execXor64 (s : State) := binary s 1 fun a b => a ^^^ b
/-- R91: a AND NOT b. -/
def execAndn64 (s : State) := binary s 1 fun a b => a &&& (2 ^ 64 - 1 - b)
/-- R91. -/
def execNot64 (s : State) := unary s 1 fun a => 2 ^ 64 - 1 - a
/-- R91: zero extension from W bits. -/
def execZext (w : Narrow) (s : State) := unary s 1 fun a => a % 2 ^ narrowBits w

/-- R92. -/
def execShl (w : Width) (s : State) := binary s 1 (shiftLeft (widthBits w))
/-- R92. -/
def execShr (w : Width) (s : State) := binary s 1 (shiftRight (widthBits w))
/-- R92. -/
def execSar (w : Width) (s : State) := binary s 1 (shiftArith (widthBits w))
/-- R92. -/
def execRol (w : Width) (s : State) := binary s 1 (rotLeft (widthBits w))
/-- R92. -/
def execRor (w : Width) (s : State) := binary s 1 (rotRight (widthBits w))

/-- R93: set bits. -/
def execPopc (w : Width) (s : State) := unary s 1 (popCount (widthBits w))
/-- R93: leading clear bits. -/
def execClz (w : Width) (s : State) := unary s 1 (leadZeros (widthBits w))
/-- R93: trailing clear bits. -/
def execCtz (w : Width) (s : State) := unary s 1 (trailZeros (widthBits w))

/-- R94: a bit field extracted. -/
def execBext64 (s : State) := binary s 1 extract
/-- R94: a bit field inserted into D. -/
def execBins64 (s : State) := ternary s 1 insertField
/-- R94: bytes reversed. -/
def execBswap64 (s : State) := unary s 1 (reverseBytes 8)
/-- R94: bits reversed. -/
def execBrev64 (s : State) := unary s 1 (reverseBits 64)

/-- R95: lane sums. -/
def execPadd (l : Lane) (s : State) := binary s 1 (lanes (laneBits l) (· + ·) (64 / laneBits l))
/-- R95: lane differences. -/
def execPsub (l : Lane) (s : State) :=
  binary s 1 (lanes (laneBits l) (fun a b => wrap (laneBits l) ((a : Int) - b)) (64 / laneBits l))
/-- R95: lane shifts left. -/
def execPshl (l : Lane) (s : State) := binary s 1 (lanes (laneBits l) (shiftLeft (laneBits l)) (64 / laneBits l))
/-- R95: lane shifts right. -/
def execPshr (l : Lane) (s : State) := binary s 1 (lanes (laneBits l) (shiftRight (laneBits l)) (64 / laneBits l))
/-- R95: arithmetic lane shifts. -/
def execPsar (l : Lane) (s : State) := binary s 1 (lanes (laneBits l) (shiftArith (laneBits l)) (64 / laneBits l))
/-- R95: lane products. -/
def execPmul (l : Lane) (s : State) := binary s 3 (lanes (laneBits l) (· * ·) (64 / laneBits l))

end Sys2Proof.Machine
end

