-- ==== Sys2Proof/Machine/Traps.lean ====
section
/-! DEFINITION. The meanings of 0x380 to 0x385 and the end of a launch's Clear (R364 to R369). -/

namespace Sys2Proof.Machine

/-- R366: the handler entered with EPC at the next word. -/
def execTrap (s : State) := perform s fun s => do
  let (a, s) ← src s.ir.a s
  .error (.trap { cause := .trap, detail := a.setWidth 32, next := true } (some s))

/-- R366: the handler entered with EPC at the instruction. -/
def execBrk (s : State) := perform s fun s => do
  let (a, s) ← src s.ir.a s
  .error (.trap { cause := .brk, detail := a.setWidth 32 } (some s))

/-! `tret` (R367) -/

/-- Whether a parked entry is the one a message identifier names: a reply for an ORPHAN, a message for HANDLER.MISSING
(R156, R158, R367). -/
def Parked.isFor (p : Parked) (reply : Bool) (id : Word) : Bool :=
  match p with
  | .send q _ => !reply && q.msgId == id
  | .reply _ i _ => reply && i == id

/-- A parked message delivered once more at its core (R156); none while the core has no room for it. -/
def redeliverSend (s : State) (u : Nat) (q : Queued) (idx : BitVec 8) : Option State :=
  let e := (s.context q.ctx).handler idx.toNat
  let park := s.modCore u fun c => { c with overflow := c.overflow ++ [.send q idx] }
  if e.lock.isSome then some park
  else if e.valid then
    if (s.core u).hasRoom then some (s.modCore u fun c => c.pushReady (handlerTask q e)) else none
  else some (missing park u ⟨u, 0, 0, q.launch, q.ctx, 0, false, q.msgId⟩ q)

/-- A parked reply delivered once more at its core (R158); none while q7 has no room for it. -/
def redeliverReply (s : State) (u : Nat) (w : Sender) (id : Word) (v : QVal) : Option State :=
  match (s.core u).slotOf w with
  | some k =>
    if (s.core u).qlen 7 < qdepth 7 then some (s.modCore u fun c => c.putReply k id.toNat v []) else none
  | none =>
    match (s.core u).forwards.find? fun f => f.isFor w with
    | some f => some (s.post u f.dest w [] none (.reply id.toNat v))
    | none => some (orphan s u w id.toNat v)

/-- REDISPATCH (R367): the parked entry named by MSGID delivered; one already gone changes nothing. -/
def redispatch (s : State) (u : Nat) (reply : Bool) (id : Word) : Option State :=
  match (s.core u).overflow.find? fun p => p.isFor reply id with
  | none => some s
  | some p =>
    let s := s.modCore u fun c => { c with overflow := c.overflow.eraseP fun p => p.isFor reply id }
    match p with
    | .send q idx => redeliverSend s u q idx
    | .reply w i v => redeliverReply s u w i v

/-- DISCARD (R367): the parked entry removed; a message's weight joins RETURNED. -/
def discard (s : State) (u : Nat) (reply : Bool) (id : Word) : State :=
  match (s.core u).overflow.find? fun p => p.isFor reply id with
  | none => s
  | some p =>
    let s := s.modCore u fun c => { c with overflow := c.overflow.eraseP fun p => p.isFor reply id }
    match p with
    | .send q _ => s.returned q.launch q.weight
    | .reply _ _ _ => s

/-- REQUEUE (R130, R367): the task's record, its DKEY and BUDGET replaced, at the head of the ready set of the core it
started on, with the whole weight. A full ready set there, or the ingress of its die, makes the form wait in the state `z`;
KNOW of another die takes what the record bears (R207 rules 3 and 4). -/
def requeue (z s : State) (w : Word) : Run :=
  let u := s.focusU
  let st := s.st
  if (s.core st.started).hasRoom && !s.crossing u s.focusK st.started then
    let r := { st.crec with dkey := st.key, budget := if w == 0 then st.crec.budget else w.setWidth 32 }
    let q : Queued :=
      ⟨r, st.wgt + st.sendWeight, st.origin, st.msgId, st.launch, st.ctx, st.dep, none, st.root, true, none⟩
    .ok ((((s.turn u).endStrand u s.focusK).modCore st.started fun c => c.pushRequeued q).learnFrom u st.started st.dep)
  else .error (.block (some z))

/-- Whether a frame is that of an ORPHAN, whose parked entry is a reply (R367). -/
def Frame.orphan (f : Frame) : Bool := f.ecause.toNat % 2 ^ 16 == Cause.orphan.code

/-- Whether `tret` in a mode raises TRET.STATE (R367, R383). -/
def tretBad (s : State) (m w : Word) : Bool :=
  s.me.mode != .handler || 4 < m.toNat || (m != 0 && s.me.depth == 2) || (s.me.detached && m.toNat < 2) ||
  match s.me.frames with
  | f :: _ =>
    let cause := f.ecause.toNat % 2 ^ 16
    if f.async then m == 1 || (2 < m.toNat && cause != Cause.handlerMissing.code && cause != Cause.orphan.code)
    else 2 < m.toNat || (m == 1 && w.toNat / 2 ^ 32 != 0)
  | [] => true

/-- R367. -/
def execTret (s : State) := perform s fun s0 => do
  let (m, w, s) ← srcAB s0
  let _ ← failIf (tretBad s m w) .tretState
  let u := s.focusU
  match s.me.frames with
  | [] => fail .tretState
  | f :: _ =>
    if f.async then
      let s ← endWait s0 s
      if m == 3 then
        match redispatch s u f.orphan f.msgId with
        | some s => return s.dropTask u s.focusK
        | none => .error (.block none)
      else return (if m == 4 then discard s u f.orphan f.msgId else s).dropTask u s.focusK
    else if m == 0 then
      let s := (s.modMe Slot.resume).finish
      return if s.me.mode == .issuing then s.holdArrival u s.focusK else s
    else
      let s ← endWait s0 s
      if m == 1 then requeue s0 s w else return s.dropTask u s.focusK

/-! Killing (R364, R368) -/

/-- R368: the launch killed; `d` says whether this form moved it from LIVE, once its Clear has ended. -/
def execLkill (s : State) := performSeq s fun z => do
  let _ ← if z.me.acquires.isEmpty then .ok () else .error .hold
  let (a, s) ← src z.ir.a z
  let l : Nat := if a == 0 then s.st.launch.toNat else a.toNat
  match kget s.hub.launches l with
  | none => dstLong s.ir.d 0 s
  | some x =>
    let _ ← failHubIf (x.ctx != s.st.ctx) .lkillBad
    match x.state with
    | .live => .error (.block (some ((z.kill (BitVec.ofNat 32 l)).modMe fun sl =>
      { sl with asked := true, answer := some .performed })))
    | .killing => .error (.block none)
    | .killed => dstLong s.ir.d (if s.me.asked then 1 else 0) s
    | .done => dstLong s.ir.d 0 s

/-- Whether nothing of a killed launch is left that Clear waits for: no strand in a slot, no command executing, no write
in flight (R364, R368). -/
def clearDone (s : State) (l : BitVec 32) : Bool :=
  s.cores.all (fun c =>
    c.2.slots.all (fun sl => !(sl.live && sl.st.launch == l)) &&
    c.2.cmds.all (fun x => !(x.sender.launch == l && x.phase == .executing))) &&
  s.fabric.all fun m => !(m.sender.launch == l && m.body.writes)

/-- Whether a message of a killed launch is discarded: all but the notices that name none (R329, R364). -/
def Msg.ofLaunch (m : Msg) (l : BitVec 32) : Bool :=
  match m.body with
  | .serial _ => false
  | .clock _ => false
  | .rpos _ _ _ => false
  | .stealGrant (some q) => q.launch == l
  | .callat q => q.launch == l
  | .send q _ => q.launch == l
  | _ => m.sender.launch == l

/-- What a launch has queued, parked, waiting or registered at a core removed (R364). -/
def Core.sweep (c : Core) (l : BitVec 32) : Core :=
  { c with
    overflow := c.overflow.filter fun p => match p with
      | .send q _ => q.launch != l
      | .reply w _ _ => w.launch != l
    waiters := c.waiters.filter fun x => x.sender.launch != l
    cmds := c.cmds.filter fun x => x.sender.launch != l }

/-- The cores at which requests of a launch are outstanding that will not be answered, once for each: those on the fabric,
kept at their homes, or answered by a reply on its way (R190, R364). -/
def State.unanswered (s : State) (l : BitVec 32) : List Nat :=
  (s.fabric.filterMap fun m =>
    if m.sender.launch == l then
      match m.body with
      | .request r => if r.reply then some m.src else none
      | .reply _ _ => if m.dst = m.sender.unit then some m.dst else none
      | _ => none
    else none) ++
  s.cores.flatMap fun c => (c.2.waiters.filter fun x => x.sender.launch == l && !x.blocks).map fun x => x.sender.unit

/-- Every core's queued work of a launch that is no longer LIVE removed, its migrants on the way ended, and its messages
dropped (R364). -/
def sweep (s : State) (l : BitVec 32) : State :=
  let s := (s.unanswered l).foldl (fun s u => s.answered u) s
  let s := s.cores.foldl (fun s c => (s.dropDead c.1).modCore c.1 fun c => c.sweep l) s
  let s := s.fabric.foldl (fun s m => match m.body with
    | .migrant st _ => if st.launch == l then s.dropMigrant m.dst st else s
    | _ => s) s
  { s with fabric := s.fabric.filter fun m => !m.ofLaunch l,
           hub := { s.hub with suspended := s.hub.suspended.filter fun x => x.launch != l } }

/-- R364: Clear complete: the launch is KILLED, and its completion waits to be posted. -/
def execLaunchClearComplete (s : State) : Host.Outcome State Fault Refusal :=
  match s.ev with
  | some (.launchClearComplete n) =>
    let l := BitVec.ofNat 32 n
    match s.launch l with
    | some x =>
      if x.state == .killing && clearDone s l then
        let s := (sweep s l).setLaunch l { x with state := .killed, group := none }
        match x.queue with
        | some q => .next (s.complete ⟨q, l, 1, x.entry⟩)
        | none => .next s
      else .next s
    | none => .next s
  | _ => .next s

/-! TVEC and FREC (R369) -/

/-- R369. -/
def execTvset (s : State) := performSeq s fun s => do
  let (a, s) ← src s.ir.a s
  let _ ← failIf (bits a.toNat 63 56 != 0 || bits a.toNat 1 0 != 0) .vecBad
  return landLong [] (s.setContext s.st.ctx { s.context s.st.ctx with tvec := a })

/-- The first address of a fault area in local memory that lies in a buffer closed to its writes: `n` granules from `a` on
are looked at (R183, R194). -/
def areaClosed (s : State) (p : Place) (a n : Nat) : Except Stop Unit :=
  match settleAll s p n 0 with
  | .ok _ => .ok ()
  | .error (c, i) => failThere s p.home c (a + 16 * i)

/-- The pages of `n` bytes from an address on tested for STORE, first to last; the first address that fails. -/
def storable (s : State) : Nat → Nat → Except Stop Unit
  | _, 0 => .ok ()
  | a, n + 1 =>
    match locate s s.focusU s.st.ctx a .store with
    | .error c => failAt c a
    | .ok p => if noKey s s.st.ctx p then failAt .memNokey a else storable s ((a / 4096 + 1) * 4096) n

/-- R369: FREC set and the header of the fault area written. -/
def execFrset (s : State) := performSeq s fun s => do
  let (a, b, s) ← srcAB s
  let f := a.toNat
  let n := b.toNat
  let r := regionOf f
  let _ ← failIf (n < 4 || 16 < n || (f != 0 && (f % 64 != 0 || !(r == .h || r == .m)))) .vecBad
  let put := fun (s : State) => s.setContext s.st.ctx { s.context s.st.ctx with frec := a }
  if f = 0 then return landLong [] (put s)
  else
    let bytes := 64 * (1 + 2 ^ n)
    let _ ← storable s f ((f + bytes - 1) / 4096 - f / 4096 + 1)
    let p ← match locate s s.focusU s.st.ctx f .store with | .error c => failAt c f | .ok p => .ok p
    let _ ← if p.off.isSome then areaClosed s p f (bytes / 16) else .ok ()
    let _ ← awaitWrites s p.home
    match reachAll s s.st.ctx p 4 with
    | .error (c, i) => failThere s p.home c (f + 16 * i)
    | .ok ps => return landLong [] (put (s.setArea (p.key s s.st.ctx, ps) (areaHeader 0 0 0 n)))

end Sys2Proof.Machine
end

