-- ==== Sys2Proof/Machine/Dispatch.lean ====
section
/-! DEFINITION. The one dispatch from a row of the opcode table to its meaning: one arm for each constructor of Instr, no wildcard. -/

namespace Sys2Proof.Machine

def exec (i : Instr) (s : State) : Host.Outcome State Fault Refusal :=
  match i with
  | .add w => Sys2Proof.Machine.execAdd w s
  | .sub w => Sys2Proof.Machine.execSub w s
  | .mul w => Sys2Proof.Machine.execMul w s
  | .mulh f => Sys2Proof.Machine.execMulh f s
  | .div f => Sys2Proof.Machine.execDiv f s
  | .rem f => Sys2Proof.Machine.execRem f s
  | .min f => Sys2Proof.Machine.execMin f s
  | .max f => Sys2Proof.Machine.execMax f s
  | .adds f => Sys2Proof.Machine.execAdds f s
  | .subs f => Sys2Proof.Machine.execSubs f s
  | .neg w => Sys2Proof.Machine.execNeg w s
  | .sext w => Sys2Proof.Machine.execSext w s
  | .ceq w => Sys2Proof.Machine.execCeq w s
  | .cne w => Sys2Proof.Machine.execCne w s
  | .clt f => Sys2Proof.Machine.execClt f s
  | .cle f => Sys2Proof.Machine.execCle f s
  | .mov64Reg => Sys2Proof.Machine.execMov64Reg s
  | .mov64LongImm => Sys2Proof.Machine.execMov64LongImm s
  | .mov64PcRel => Sys2Proof.Machine.execMov64PcRel s
  | .movh64 => Sys2Proof.Machine.execMovh64 s
  | .and64 => Sys2Proof.Machine.execAnd64 s
  | .or64 => Sys2Proof.Machine.execOr64 s
  | .xor64 => Sys2Proof.Machine.execXor64 s
  | .andn64 => Sys2Proof.Machine.execAndn64 s
  | .not64 => Sys2Proof.Machine.execNot64 s
  | .zext w => Sys2Proof.Machine.execZext w s
  | .shl w => Sys2Proof.Machine.execShl w s
  | .shr w => Sys2Proof.Machine.execShr w s
  | .sar w => Sys2Proof.Machine.execSar w s
  | .rol w => Sys2Proof.Machine.execRol w s
  | .ror w => Sys2Proof.Machine.execRor w s
  | .popc w => Sys2Proof.Machine.execPopc w s
  | .clz w => Sys2Proof.Machine.execClz w s
  | .ctz w => Sys2Proof.Machine.execCtz w s
  | .bext64 => Sys2Proof.Machine.execBext64 s
  | .bins64 => Sys2Proof.Machine.execBins64 s
  | .bswap64 => Sys2Proof.Machine.execBswap64 s
  | .brev64 => Sys2Proof.Machine.execBrev64 s
  | .padd l => Sys2Proof.Machine.execPadd l s
  | .psub l => Sys2Proof.Machine.execPsub l s
  | .pshl l => Sys2Proof.Machine.execPshl l s
  | .pshr l => Sys2Proof.Machine.execPshr l s
  | .psar l => Sys2Proof.Machine.execPsar l s
  | .pmul l => Sys2Proof.Machine.execPmul l s
  | .brOffset => Sys2Proof.Machine.execBrOffset s
  | .brRegister => Sys2Proof.Machine.execBrRegister s
  | .callOffset => Sys2Proof.Machine.execCallOffset s
  | .callRegister => Sys2Proof.Machine.execCallRegister s
  | .ret => Sys2Proof.Machine.execRet s
  | .pbrOffset => Sys2Proof.Machine.execPbrOffset s
  | .pbrRegister => Sys2Proof.Machine.execPbrRegister s
  | .gset => Sys2Proof.Machine.execGset s
  | .gres => Sys2Proof.Machine.execGres s
  | .gand => Sys2Proof.Machine.execGand s
  | .gor => Sys2Proof.Machine.execGor s
  | .gxor => Sys2Proof.Machine.execGxor s
  | .gnot => Sys2Proof.Machine.execGnot s
  | .gpend => Sys2Proof.Machine.execGpend s
  | .gget => Sys2Proof.Machine.execGget s
  | .nop => Sys2Proof.Machine.execNop s
  | .addF32 => Sys2Proof.Machine.execAddF32 s
  | .subF32 => Sys2Proof.Machine.execSubF32 s
  | .mulF32 => Sys2Proof.Machine.execMulF32 s
  | .divF32 => Sys2Proof.Machine.execDivF32 s
  | .fmaF32 => Sys2Proof.Machine.execFmaF32 s
  | .fmsF32 => Sys2Proof.Machine.execFmsF32 s
  | .sqrtF32 => Sys2Proof.Machine.execSqrtF32 s
  | .rcpF32 => Sys2Proof.Machine.execRcpF32 s
  | .rsqF32 => Sys2Proof.Machine.execRsqF32 s
  | .exp2F32 => Sys2Proof.Machine.execExp2F32 s
  | .log2F32 => Sys2Proof.Machine.execLog2F32 s
  | .minF32 => Sys2Proof.Machine.execMinF32 s
  | .maxF32 => Sys2Proof.Machine.execMaxF32 s
  | .absF32 => Sys2Proof.Machine.execAbsF32 s
  | .negF32 => Sys2Proof.Machine.execNegF32 s
  | .ceqF32 => Sys2Proof.Machine.execCeqF32 s
  | .cltF32 => Sys2Proof.Machine.execCltF32 s
  | .cleF32 => Sys2Proof.Machine.execCleF32 s
  | .cunF32 => Sys2Proof.Machine.execCunF32 s
  | .classF32 => Sys2Proof.Machine.execClassF32 s
  | .cvtF32FromInt f => Sys2Proof.Machine.execCvtF32FromInt f s
  | .cvtIntFromF32 f => Sys2Proof.Machine.execCvtIntFromF32 f s
  | .cvtF32F16 => Sys2Proof.Machine.execCvtF32F16 s
  | .cvtF16F32 => Sys2Proof.Machine.execCvtF16F32 s
  | .cvtF32Bf16 => Sys2Proof.Machine.execCvtF32Bf16 s
  | .cvtBf16F32 => Sys2Proof.Machine.execCvtBf16F32 s
  | .cvtF32B8 => Sys2Proof.Machine.execCvtF32B8 s
  | .cvtB8F32 => Sys2Proof.Machine.execCvtB8F32 s
  | .ld w => Sys2Proof.Machine.execLd w s
  | .lds w => Sys2Proof.Machine.execLds w s
  | .ldp128 => Sys2Proof.Machine.execLdp128 s
  | .st w => Sys2Proof.Machine.execSt w s
  | .st4 => Sys2Proof.Machine.execSt4 s
  | .st2 => Sys2Proof.Machine.execSt2 s
  | .stp128 => Sys2Proof.Machine.execStp128 s
  | .ldd => Sys2Proof.Machine.execLdd s
  | .ldAcq w => Sys2Proof.Machine.execLdAcq w s
  | .stRel w => Sys2Proof.Machine.execStRel w s
  | .amadd w od => Sys2Proof.Machine.execAmadd w od s
  | .amin sg od => Sys2Proof.Machine.execAmin sg od s
  | .amax sg od => Sys2Proof.Machine.execAmax sg od s
  | .aand od => Sys2Proof.Machine.execAand od s
  | .aor od => Sys2Proof.Machine.execAor od s
  | .axor od => Sys2Proof.Machine.execAxor od s
  | .aswap od => Sys2Proof.Machine.execAswap od s
  | .acas w od => Sys2Proof.Machine.execAcas w od s
  | .fenceAcq => Sys2Proof.Machine.execFenceAcq s
  | .fenceRel => Sys2Proof.Machine.execFenceRel s
  | .fence => Sys2Proof.Machine.execFence s
  | .fenceTotal => Sys2Proof.Machine.execFenceTotal s
  | .ldfC w => Sys2Proof.Machine.execLdfC w s
  | .ldfK w => Sys2Proof.Machine.execLdfK w s
  | .stf w => Sys2Proof.Machine.execStf w s
  | .sete => Sys2Proof.Machine.execSete s
  | .setf => Sys2Proof.Machine.execSetf s
  | .tfe => Sys2Proof.Machine.execTfe s
  | .bdecl => Sys2Proof.Machine.execBdecl s
  | .bstat => Sys2Proof.Machine.execBstat s
  | .bfill => Sys2Proof.Machine.execBfill s
  | .bpub => Sys2Proof.Machine.execBpub s
  | .bdrain => Sys2Proof.Machine.execBdrain s
  | .bfree => Sys2Proof.Machine.execBfree s
  | .hrd => Sys2Proof.Machine.execHrd s
  | .hwr => Sys2Proof.Machine.execHwr s
  | .push => Sys2Proof.Machine.execPush s
  | .push2d => Sys2Proof.Machine.execPush2d s
  | .pushFill => Sys2Proof.Machine.execPushFill s
  | .hpf => Sys2Proof.Machine.execHpf s
  | .keysel => Sys2Proof.Machine.execKeysel s
  | .hfence => Sys2Proof.Machine.execHfence s
  | .fork => Sys2Proof.Machine.execFork s
  | .done => Sys2Proof.Machine.execDone s
  | .callat => Sys2Proof.Machine.execCallat s
  | .send => Sys2Proof.Machine.execSend s
  | .jinit => Sys2Proof.Machine.execJinit s
  | .jarv => Sys2Proof.Machine.execJarv s
  | .wmint => Sys2Proof.Machine.execWmint s
  | .gform => Sys2Proof.Machine.execGform s
  | .gleave => Sys2Proof.Machine.execGleave s
  | .barArv => Sys2Proof.Machine.execBarArv s
  | .barDrop => Sys2Proof.Machine.execBarDrop s
  | .barWait => Sys2Proof.Machine.execBarWait s
  | .barQry => Sys2Proof.Machine.execBarQry s
  | .hset => Sys2Proof.Machine.execHset s
  | .hlock => Sys2Proof.Machine.execHlock s
  | .hunlock => Sys2Proof.Machine.execHunlock s
  | .sdom => Sys2Proof.Machine.execSdom s
  | .vadd => Sys2Proof.Machine.execVadd s
  | .vsub => Sys2Proof.Machine.execVsub s
  | .vmul => Sys2Proof.Machine.execVmul s
  | .vdiv => Sys2Proof.Machine.execVdiv s
  | .vfma => Sys2Proof.Machine.execVfma s
  | .vmin => Sys2Proof.Machine.execVmin s
  | .vmax => Sys2Proof.Machine.execVmax s
  | .vabs => Sys2Proof.Machine.execVabs s
  | .vneg => Sys2Proof.Machine.execVneg s
  | .vrcp => Sys2Proof.Machine.execVrcp s
  | .vrsq => Sys2Proof.Machine.execVrsq s
  | .vexp2 => Sys2Proof.Machine.execVexp2 s
  | .vand => Sys2Proof.Machine.execVand s
  | .vor => Sys2Proof.Machine.execVor s
  | .vxor => Sys2Proof.Machine.execVxor s
  | .vnot => Sys2Proof.Machine.execVnot s
  | .vshl => Sys2Proof.Machine.execVshl s
  | .vshr => Sys2Proof.Machine.execVshr s
  | .vsar => Sys2Proof.Machine.execVsar s
  | .vceq => Sys2Proof.Machine.execVceq s
  | .vcne => Sys2Proof.Machine.execVcne s
  | .vclt => Sys2Proof.Machine.execVclt s
  | .vcle => Sys2Proof.Machine.execVcle s
  | .vsel => Sys2Proof.Machine.execVsel s
  | .vmov => Sys2Proof.Machine.execVmov s
  | .vbcast => Sys2Proof.Machine.execVbcast s
  | .vcvt => Sys2Proof.Machine.execVcvt s
  | .vld => Sys2Proof.Machine.execVld s
  | .vst => Sys2Proof.Machine.execVst s
  | .vldd => Sys2Proof.Machine.execVldd s
  | .vpush => Sys2Proof.Machine.execVpush s
  | .vpop => Sys2Proof.Machine.execVpop s
  | .vrsum => Sys2Proof.Machine.execVrsum s
  | .vrmax => Sys2Proof.Machine.execVrmax s
  | .vtrn => Sys2Proof.Machine.execVtrn s
  | .vshf => Sys2Proof.Machine.execVshf s
  | .mand => Sys2Proof.Machine.execMand s
  | .mor => Sys2Proof.Machine.execMor s
  | .mxor => Sys2Proof.Machine.execMxor s
  | .mnot => Sys2Proof.Machine.execMnot s
  | .mset => Sys2Proof.Machine.execMset s
  | .mclr => Sys2Proof.Machine.execMclr s
  | .mld => Sys2Proof.Machine.execMld s
  | .mst => Sys2Proof.Machine.execMst s
  | .mAny => Sys2Proof.Machine.execMAny s
  | .mPopc => Sys2Proof.Machine.execMPopc s
  | .mFirst => Sys2Proof.Machine.execMFirst s
  | .mmaB8 => Sys2Proof.Machine.execMmaB8 s
  | .mmaF16 => Sys2Proof.Machine.execMmaF16 s
  | .mmaBf16 => Sys2Proof.Machine.execMmaBf16 s
  | .mzero => Sys2Proof.Machine.execMzero s
  | .acld => Sys2Proof.Machine.execAcld s
  | .acst => Sys2Proof.Machine.execAcst s
  | .acmv => Sys2Proof.Machine.execAcmv s
  | .rstat => Sys2Proof.Machine.execRstat s
  | .cpy => Sys2Proof.Machine.execCpy s
  | .cpyFill => Sys2Proof.Machine.execCpyFill s
  | .cpy2d => Sys2Proof.Machine.execCpy2d s
  | .cpyGth => Sys2Proof.Machine.execCpyGth s
  | .crdOpen => Sys2Proof.Machine.execCrdOpen s
  | .crdDig => Sys2Proof.Machine.execCrdDig s
  | .crdWdig => Sys2Proof.Machine.execCrdWdig s
  | .crdPlane => Sys2Proof.Machine.execCrdPlane s
  | .crdElim => Sys2Proof.Machine.execCrdElim s
  | .crdRes => Sys2Proof.Machine.execCrdRes s
  | .crdWait => Sys2Proof.Machine.execCrdWait s
  | .crdClose => Sys2Proof.Machine.execCrdClose s
  | .kvNew => Sys2Proof.Machine.execKvNew s
  | .kvDrop => Sys2Proof.Machine.execKvDrop s
  | .kvApp => Sys2Proof.Machine.execKvApp s
  | .kvLen => Sys2Proof.Machine.execKvLen s
  | .kvRef => Sys2Proof.Machine.execKvRef s
  | .kvCut => Sys2Proof.Machine.execKvCut s
  | .lfArm => Sys2Proof.Machine.execLfArm s
  | .lfTop => Sys2Proof.Machine.execLfTop s
  | .lfSum => Sys2Proof.Machine.execLfSum s
  | .lfEnd => Sys2Proof.Machine.execLfEnd s
  | .stopSet => Sys2Proof.Machine.execStopSet s
  | .stopClr => Sys2Proof.Machine.execStopClr s
  | .trOpen => Sys2Proof.Machine.execTrOpen s
  | .trCall => Sys2Proof.Machine.execTrCall s
  | .trPut => Sys2Proof.Machine.execTrPut s
  | .trConf => Sys2Proof.Machine.execTrConf s
  | .trMiss => Sys2Proof.Machine.execTrMiss s
  | .trClose => Sys2Proof.Machine.execTrClose s
  | .trQry => Sys2Proof.Machine.execTrQry s
  | .trLim => Sys2Proof.Machine.execTrLim s
  | .emit => Sys2Proof.Machine.execEmit s
  | .dtNode => Sys2Proof.Machine.execDtNode s
  | .dtAccept => Sys2Proof.Machine.execDtAccept s
  | .dtReset => Sys2Proof.Machine.execDtReset s
  | .trap => Sys2Proof.Machine.execTrap s
  | .brk => Sys2Proof.Machine.execBrk s
  | .tret => Sys2Proof.Machine.execTret s
  | .lkill => Sys2Proof.Machine.execLkill s
  | .tvset => Sys2Proof.Machine.execTvset s
  | .frset => Sys2Proof.Machine.execFrset s
  | .suspendDrain => Sys2Proof.Machine.execSuspendDrain s
  | .suspendRecord => Sys2Proof.Machine.execSuspendRecord s
  | .resume => Sys2Proof.Machine.execResume s
  | .ccopy => Sys2Proof.Machine.execCcopy s
  | .cdisc => Sys2Proof.Machine.execCdisc s
  | .cinsp => Sys2Proof.Machine.execCinsp s
  | .gthaw => Sys2Proof.Machine.execGthaw s
  | .crights => Sys2Proof.Machine.execCrights s
  | .collSmp => Sys2Proof.Machine.execCollSmp s
  | .collRed => Sys2Proof.Machine.execCollRed s
  | .ckptSave => Sys2Proof.Machine.execCkptSave s
  | .ckptCommit => Sys2Proof.Machine.execCkptCommit s
  | .ecntSel => Sys2Proof.Machine.execEcntSel s
  | .ecntRd => Sys2Proof.Machine.execEcntRd s
  | .keyWrite => Sys2Proof.Machine.execKeyWrite s
  | .budWrite => Sys2Proof.Machine.execBudWrite s
  | .brmodeWrite => Sys2Proof.Machine.execBrmodeWrite s
  | .vshapeWrite => Sys2Proof.Machine.execVshapeWrite s
  | .mxcfgWrite => Sys2Proof.Machine.execMxcfgWrite s
  | .registerWrite => Sys2Proof.Machine.execRegisterWrite s
  | .migrantArrival => Sys2Proof.Machine.execMigrantArrival s
  | .stayRequestAtHome => Sys2Proof.Machine.execStayRequestAtHome s
  | .replyArrival => Sys2Proof.Machine.execReplyArrival s
  | .forwardingEntryLapse => Sys2Proof.Machine.execForwardingEntryLapse s
  | .subbyteStoreAtHome => Sys2Proof.Machine.execSubbyteStoreAtHome s
  | .pushGranuleWrite => Sys2Proof.Machine.execPushGranuleWrite s
  | .callatArrival => Sys2Proof.Machine.execCallatArrival s
  | .sendArrival => Sys2Proof.Machine.execSendArrival s
  | .jarvArrival => Sys2Proof.Machine.execJarvArrival s
  | .handlerLockLapse => Sys2Proof.Machine.execHandlerLockLapse s
  | .slotSelect => Sys2Proof.Machine.execSlotSelect s
  | .forcedSwitch => Sys2Proof.Machine.execForcedSwitch s
  | .stealAttempt => Sys2Proof.Machine.execStealAttempt s
  | .stealGrantArrival => Sys2Proof.Machine.execStealGrantArrival s
  | .stealTimeout => Sys2Proof.Machine.execStealTimeout s
  | .stealBackoffExpiry => Sys2Proof.Machine.execStealBackoffExpiry s
  | .budgetExhausted => Sys2Proof.Machine.execBudgetExhausted s
  | .weightReturn => Sys2Proof.Machine.execWeightReturn s
  | .serialNoticeArrival => Sys2Proof.Machine.execSerialNoticeArrival s
  | .notify => Sys2Proof.Machine.execNotify s
  | .queueMap => Sys2Proof.Machine.execQueueMap s
  | .launchStart => Sys2Proof.Machine.execLaunchStart s
  | .queueIdleUnmap => Sys2Proof.Machine.execQueueIdleUnmap s
  | .queueEvict => Sys2Proof.Machine.execQueueEvict s
  | .qctlCreate => Sys2Proof.Machine.execQctlCreate s
  | .qctlDisable => Sys2Proof.Machine.execQctlDisable s
  | .qctlDestroy => Sys2Proof.Machine.execQctlDestroy s
  | .completionPost => Sys2Proof.Machine.execCompletionPost s
  | .clockNoticeSend => Sys2Proof.Machine.execClockNoticeSend s
  | .clockNoticeArrival => Sys2Proof.Machine.execClockNoticeArrival s
  | .translationShootdown => Sys2Proof.Machine.execTranslationShootdown s
  | .ownershipChange => Sys2Proof.Machine.execOwnershipChange s
  | .engineCommandStart => Sys2Proof.Machine.execEngineCommandStart s
  | .engineCommandComplete => Sys2Proof.Machine.execEngineCommandComplete s
  | .deferredFault => Sys2Proof.Machine.execDeferredFault s
  | .carderRegistration => Sys2Proof.Machine.execCarderRegistration s
  | .fullerCompaction => Sys2Proof.Machine.execFullerCompaction s
  | .scrubCheck => Sys2Proof.Machine.execScrubCheck s
  | .rposNotice => Sys2Proof.Machine.execRposNotice s
  | .egressWrite => Sys2Proof.Machine.execEgressWrite s
  | .replyDoorbell => Sys2Proof.Machine.execReplyDoorbell s
  | .replyDeliver => Sys2Proof.Machine.execReplyDeliver s
  | .handlerBudgetExpiry => Sys2Proof.Machine.execHandlerBudgetExpiry s
  | .launchClearComplete => Sys2Proof.Machine.execLaunchClearComplete s
  | .collContributionArrival => Sys2Proof.Machine.execCollContributionArrival s
  | .collWatchdogExpiry => Sys2Proof.Machine.execCollWatchdogExpiry s
  | .collAbandonArrival => Sys2Proof.Machine.execCollAbandonArrival s
  | .ckptBarrierTimeout => Sys2Proof.Machine.execCkptBarrierTimeout s
  | .deviceRecovery => Sys2Proof.Machine.execDeviceRecovery s
  | .flitReplay => Sys2Proof.Machine.execFlitReplay s
  | .powerEstimate => Sys2Proof.Machine.execPowerEstimate s
  | .thermalThrottle => Sys2Proof.Machine.execThermalThrottle s
  | .thermalStop => Sys2Proof.Machine.execThermalStop s
  | .moduleReset => Sys2Proof.Machine.execModuleReset s
  | .getVersion => Sys2Proof.Machine.execGetVersion s
  | .getCapabilities => Sys2Proof.Machine.execGetCapabilities s
  | .negotiateAlgorithms => Sys2Proof.Machine.execNegotiateAlgorithms s
  | .getDigests => Sys2Proof.Machine.execGetDigests s
  | .getCertificate => Sys2Proof.Machine.execGetCertificate s
  | .challenge => Sys2Proof.Machine.execChallenge s
  | .getMeasurements => Sys2Proof.Machine.execGetMeasurements s
  | .keyExchange => Sys2Proof.Machine.execKeyExchange s
  | .finish => Sys2Proof.Machine.execFinish s
  | .endSession => Sys2Proof.Machine.execEndSession s
  | .heartbeat => Sys2Proof.Machine.execHeartbeat s
  | .illegalInstruction => Sys2Proof.Machine.execIllegalInstruction s
  | .fetchFault => Sys2Proof.Machine.execFetchFault s
  | .stealRequestAtVictim => Sys2Proof.Machine.execStealRequestAtVictim s
  | .writeAcknowledgement => Sys2Proof.Machine.execWriteAcknowledgement s
  | .hostWindowAccess => Sys2Proof.Machine.execHostWindowAccess s
  | .contextCreate => Sys2Proof.Machine.execContextCreate s
  | .contextEnd => Sys2Proof.Machine.execContextEnd s
  | .keyPairDelivery => Sys2Proof.Machine.execKeyPairDelivery s

end Sys2Proof.Machine
end

