-- ==== Sys2Proof/Machine/Outside.lean ====
section
/-! DEFINITION. What reaches the module from outside and no row of the table of steps names: its bring-up, its links and functions, the management core's settings, errors of memory, and the copies and the shard that checkpoints move between devices (R363, R394, R395, R397, R400 to R402, R406, R409). -/

namespace Sys2Proof.Machine

/-! Bring-up and links (R394, R397, R409) -/

/-- A host link with another state; it trains from stage 3 on (R394, R409). -/
def trainHost (s : State) (i : Nat) (up : Bool) : State :=
  if up && s.hub.stage < 3 then s
  else { s with hub := { s.hub with hosts := s.hub.hosts.modify i fun l => { l with up := up } } }

/-- The virtual functions mapped on both host links (R394). -/
def virtualFunctions (s : State) : Nat :=
  s.hub.hosts.foldl (fun n l => n + (l.functions.filter fun f => f.1 != 0).length) 0

/-- A function of a host link mapped to a context, in D0, or to none: the physical function is number 0, and both links
have at most 255 virtual functions (R394). -/
def mapFunction (s : State) (i f : Nat) (ctx : Option (BitVec 12)) : State :=
  let put := fun (l : HostPort) => match ctx with
    | some c => { l with functions := kput l.functions f ⟨c, false⟩ }
    | none => { l with functions := kdel l.functions f }
  let known := (s.hub.hosts[i]?.bind fun l => kget l.functions f).isSome
  let room := ctx.isNone || f == 0 || known || virtualFunctions s < 255
  if 3 ≤ s.hub.stage && f < 256 && room then { s with hub := { s.hub with hosts := s.hub.hosts.modify i put } } else s

/-- A function put in a power state by the host (R394). -/
def powerFunction (s : State) (i f : Nat) (d3hot : Bool) : State :=
  let put := fun (l : HostPort) => { l with functions := l.functions.map fun (x : Nat × HostFunction) =>
    (x.1, if x.1 == f then { x.2 with d3hot := d3hot } else x.2) }
  { s with hub := { s.hub with hosts := s.hub.hosts.modify i put } }

/-- A device link trained: from stage 4 on (R397, R409). -/
def trainDevice (s : State) (i : Nat) : State :=
  if 4 ≤ s.hub.stage && i < 16 then { s with hub := { s.hub with links := s.hub.links.set i ⟨true, 0⟩ } } else s

/-- The device number and the static routes loaded: each other device to one of the 16 links (R397, R409). -/
def loadGroup (s : State) (device : BitVec 8) (routes : List (Nat × Nat)) : State :=
  let ok := routes.all fun r => r.1 < 256 && r.1 != device.toNat && r.2 < 16
  if 4 ≤ s.hub.stage && ok then
    { s with hub := { s.hub with device := device, routes := routes.foldl (fun l r => kput l r.1 r.2) [] } }
  else s

/-! Settings (R395, R406) -/

/-- PLIM set, from 10 to 26 kW (R406). -/
def setLimit (s : State) (milliwatts : Nat) : State :=
  if 10_000_000 ≤ milliwatts && milliwatts ≤ 26_000_000 then
    { s with hub := { s.hub with power := { s.hub.power with plim := milliwatts } } }
  else s

/-- A page of region H mapped for exchange: it appears at the next 4 KiB step of BAR4 (R395). -/
def mapExchange (s : State) (ctx : BitVec 12) (page : BitVec 64) : State :=
  let x := s.context ctx
  if x.live && page.toNat % 4096 == 0 && regionOf page.toNat == .h then
    s.setContext ctx { x with exchange := x.exchange ++ [page] }
  else s

/-! Errors of memory (R363) -/

/-- An uncorrectable error: its ECC unit is poisoned (R363). -/
def poisonUnit (s : State) (place : Nat) : State :=
  if place < hbmEnd || (2 ^ 48 ≤ place && isWorker ((place - 2 ^ 48) / 2 ^ 19)) then
    { s with poison := sset false s.poison (eccUnit (place / 16)) true }
  else s

/-! Checkpoints of other devices (R400 to R402) -/

/-- Bytes of a copy written into a slot reserved here for another device of the set, over the link from it (R400). -/
def holdCopy (s : State) (ctx : BitVec 12) (dev k off : Nat) (bs : List Byte) : State :=
  let x := s.context ctx
  match (kget x.ckHeld dev).bind fun l => l[k]? with
  | some p =>
    if s.linkTo dev && off + bs.length ≤ x.ckSize && (s.keyOf ctx).isSome && !s.anyPoison (p + off) bs.length then
      s.putSlot ctx (p + off) bs
    else s
  | none => s

/-- This module, a spare with no launch of the context left, takes the number of a failed device and loads that device's
shard (R402). -/
def becomeSpare (s : State) (device : BitVec 8) (ctx : BitVec 12) (ranges : List (Nat × Nat)) (data : List Byte) : State :=
  if 5 ≤ s.hub.stage && (unended s ctx).isEmpty then
    loadPages ctx (rangePages ranges) data { s with hub := { s.hub with device := device } }
  else s

/-! Translation caches (R184; log 34) -/

/-- An entry that a translation cache drops: the one at an index of a core's, or of its barn's (R184). -/
def dropPage (s : State) (barn : Bool) (u i : Nat) : State :=
  if barn then
    let b := s.barn (barnOf u)
    s.setBarn (barnOf u) { b with tlb := b.tlb.eraseIdx i }
  else s.modCore u fun c => { c with tlb := c.tlb.eraseIdx i }

/-! Inputs -/

/-- What an input does. -/
def doInput (s : State) : Input → State
  | .nextStage => { s with hub := { s.hub with stage := min 5 (s.hub.stage + 1) } }
  | .hostLink i up => trainHost s i up
  | .function i f ctx => mapFunction s i f ctx
  | .functionPower i f d => powerFunction s i f d
  | .deviceLink i => trainDevice s i
  | .deviceGroup device routes => loadGroup s device routes
  | .powerLimit mw => setLimit s mw
  | .exchangePage ctx page => mapExchange s ctx page
  | .uncorrectable place => poisonUnit s place
  | .corrected u ctx => s.count u ctx 0x0A 1
  | .checkpointCopy ctx dev k off bytes => holdCopy s ctx dev k off bytes
  | .spare device ctx ranges data => becomeSpare s device ctx ranges data
  | .cachePage u ctx a => if isUnit u then s.cachePage u ctx a.toNat else s
  | .dropPage barn u i => if isUnit u then dropPage s barn u i else s

end Sys2Proof.Machine
end

