-- ==== Sys2Proof/Machine/Events.lean ====
section
/-! DEFINITION. The step of the machine: what the agenda names moves next, a core's cycle or an event; and the loading of one word where the next step fetches. -/

namespace Sys2Proof.Machine

/-- The row of the table of steps that an event performs. -/
def eventRow : Event → Instr
  | .migrantArrival .. => .migrantArrival
  | .stayRequestAtHome .. => .stayRequestAtHome
  | .replyArrival .. => .replyArrival
  | .forwardingEntryLapse .. => .forwardingEntryLapse
  | .subbyteStoreAtHome .. => .subbyteStoreAtHome
  | .pushGranuleWrite .. => .pushGranuleWrite
  | .callatArrival .. => .callatArrival
  | .sendArrival .. => .sendArrival
  | .jarvArrival .. => .jarvArrival
  | .handlerLockLapse .. => .handlerLockLapse
  | .slotSelect .. => .slotSelect
  | .forcedSwitch .. => .forcedSwitch
  | .stealAttempt .. => .stealAttempt
  | .stealGrantArrival .. => .stealGrantArrival
  | .stealTimeout .. => .stealTimeout
  | .stealBackoffExpiry .. => .stealBackoffExpiry
  | .budgetExhausted .. => .budgetExhausted
  | .weightReturn .. => .weightReturn
  | .serialNoticeArrival .. => .serialNoticeArrival
  | .notify .. => .notify
  | .queueMap .. => .queueMap
  | .launchStart .. => .launchStart
  | .queueIdleUnmap .. => .queueIdleUnmap
  | .queueEvict .. => .queueEvict
  | .qctlCreate .. => .qctlCreate
  | .qctlDisable .. => .qctlDisable
  | .qctlDestroy .. => .qctlDestroy
  | .completionPost .. => .completionPost
  | .clockNoticeSend .. => .clockNoticeSend
  | .clockNoticeArrival .. => .clockNoticeArrival
  | .translationShootdown .. => .translationShootdown
  | .ownershipChange .. => .ownershipChange
  | .engineCommandStart .. => .engineCommandStart
  | .engineCommandComplete .. => .engineCommandComplete
  | .deferredFault .. => .deferredFault
  | .carderRegistration .. => .carderRegistration
  | .fullerCompaction .. => .fullerCompaction
  | .scrubCheck .. => .scrubCheck
  | .rposNotice .. => .rposNotice
  | .egressWrite .. => .egressWrite
  | .replyDoorbell .. => .replyDoorbell
  | .replyDeliver .. => .replyDeliver
  | .handlerBudgetExpiry .. => .handlerBudgetExpiry
  | .launchClearComplete .. => .launchClearComplete
  | .collContributionArrival .. => .collContributionArrival
  | .collWatchdogExpiry .. => .collWatchdogExpiry
  | .collAbandonArrival .. => .collAbandonArrival
  | .ckptBarrierTimeout .. => .ckptBarrierTimeout
  | .deviceRecovery .. => .deviceRecovery
  | .flitReplay .. => .flitReplay
  | .powerEstimate .. => .powerEstimate
  | .thermalThrottle .. => .thermalThrottle
  | .thermalStop .. => .thermalStop
  | .moduleReset .. => .moduleReset
  | .getVersion .. => .getVersion
  | .getCapabilities .. => .getCapabilities
  | .negotiateAlgorithms .. => .negotiateAlgorithms
  | .getDigests .. => .getDigests
  | .getCertificate .. => .getCertificate
  | .challenge .. => .challenge
  | .getMeasurements .. => .getMeasurements
  | .keyExchange .. => .keyExchange
  | .finish .. => .finish
  | .endSession .. => .endSession
  | .heartbeat .. => .heartbeat
  | .illegalInstruction .. => .illegalInstruction
  | .fetchFault .. => .fetchFault
  | .stealRequestAtVictim .. => .stealRequestAtVictim
  | .writeAcknowledgement .. => .writeAcknowledgement
  | .hostWindowAccess .. => .hostWindowAccess
  | .contextCreate .. => .contextCreate
  | .contextEnd .. => .contextEnd
  | .keyPairDelivery .. => .keyPairDelivery

/-- Whether an event may act: once the module has stopped for its temperature, only a reset does (R407). -/
def mayAct (s : State) (e : Event) : Bool := !s.hub.power.stopped || e == .moduleReset

/-- One step with `run` as the meaning of rows (assumption log 1): the event, the input or the core's cycle at the head of
the agenda, or with an empty agenda the next cycle of the core in focus. -/
def stepWith (run : Instr → State → Host.Outcome State Fault Refusal) (s : State) :
    Host.Outcome State Fault Refusal :=
  match s.agenda with
  | [] => cycle run s.focusU s
  | .run u :: rest => cycle run u { s with agenda := rest }
  | .event e :: rest =>
    if mayAct s e then run (eventRow e) { s with agenda := rest, ev := some e } else .next { s with agenda := rest }
  | .input i :: rest =>
    let s := { s with agenda := rest }
    .next (if s.hub.power.stopped then s else doInput s i)

/-! Loading one word (assumption log 10) -/

/-- The places of the 12 bytes of the word at PC of the strand in focus, each with its key, when it issues and every byte
resolves. -/
def fetchPlaces (s : State) : Option (List (Nat × Option (BitVec 256))) :=
  if s.me.runs then
    (List.range 12).mapM fun i =>
      match fetchPlace s s.focusU s.st.ctx (s.st.pc.toNat + i) with
      | .ok p => some p
      | .error _ => none
  else none

/-- Bytes written one to each place, under its key. -/
def State.setBytesAt (s : State) : List (Nat × Option (BitVec 256)) → List Byte → State
  | (p, k) :: ps, b :: bs => State.setBytesAt ((s.under k p 1).setByte p b) ps bs
  | _, _ => s

/-- The instruction cache of the core in focus without the word at PC. -/
def State.forgetWord (s : State) : State :=
  let a := s.st.pc
  s.modCore s.focusU fun c => { c with icache := c.icache.filter fun x => x.addr != a }

/-- The first address of region H (R177). -/
def loadAddr : Nat := 2 ^ 55

/-- A context, a launch and one strand at the first address of region H, as a host and a queue entry would have made
them: context 1 with a page of code that fetch may read, its launch, and the strand in slot 0 of unit `u`. -/
def bootstrap (s : State) (u : Nat) : State :=
  let root := 0x10000
  let next := 0x14000
  let s := s.setNum root 8 (next + 1)
  let s := s.setNum next 8 (2 ^ 32 + 5 * 2 ^ 9 + 9)
  let s := s.setContext 1 { s.context 1 with live := true, troot := BitVec.ofNat 41 root }
  let s := s.setLaunch 1
    { state := .live, ctx := 1, issued := BitVec.ofNat 96 (2 ^ 63), returned := 0, domain := 0, group := none,
      root := u, queue := none, entry := 0 }
  let s := { s with owners := kput s.owners u 1, hub := { s.hub with nextLaunch := max s.hub.nextLaunch 2 } }
  let s := s.modCore u fun c => c.setSerial 0
  let s := s.modSlot u 0 fun _ =>
    { Slot.reset with
      mode := .issuing
      st := { Strand.reset with
        pc := BitVec.ofNat 64 loadAddr, bud := BitVec.ofNat 32 (2 ^ 20), wgt := BitVec.ofNat 64 (2 ^ 63),
        strid := freeStrid u 0, launch := 1, ctx := 1, numbered := some (u, 0), started := u } }
  { s with focusU := u, focusK := 0 }

/-- The unit a word is loaded for: the first loft core for an opcode that only a loft core runs, else unit 0. -/
def loadUnit (w : Nat) : Nat :=
  match opRow (w / 2 ^ 86 % 2 ^ 10) with
  | some r => if r.prof.has .compute then 0 else 0x100000
  | none => 0

/-- The word whose bits are `w` stored where the next step fetches, with nothing ahead of it on the agenda; a machine
that has no strand there gets one first. -/
def loadWord (s : State) (nbits w : Nat) : State :=
  let w := w % 2 ^ min nbits 96
  let s := { s with agenda := [] }
  match fetchPlaces s with
  | some ps => s.forgetWord.setBytesAt ps (leBytes 12 w)
  | none => (bootstrap s (loadUnit w)).setBytes (2 ^ 32) (leBytes 12 w)

end Sys2Proof.Machine
end

