-- ==== Sys2Proof/Machine/Step.lean ====
section
/-! DEFINITION. The step function of the module, and the placing of one word where it fetches next. -/

namespace Sys2Proof.Machine

/-- One step: what stands first on the agenda moves (assumption log 1). -/
def step (s : State) : Host.Outcome State Fault Refusal := stepWith exec s

/-- The state with the word whose bits are `w` stored where the next step fetches its instruction (log 10). -/
def State.withFetchWord (s : State) (nbits w : Nat) : State := loadWord s nbits w

end Sys2Proof.Machine
end

