-- ==== Sys2Proof/Safety.lean ====
section
/-! DEFINITION. The terms that claims are stated in: the canonical form of the state's maps, when an instruction stands ready at issue with its operands, what completing one leaves, and what leaves memory and the rest of the machine alone. -/

namespace Sys2Proof.Machine

/-! Safe states -/

/-- The maps of bytes, full/empty bits, frame tags, poison and the keys HBM was written under are in their one canonical
form. -/
def State.Canonical (s : State) : Prop :=
  Memory.wf s.mem = true ∧ Memory.wf s.hostMem = true ∧ swf false s.full = true ∧ swf 0 s.tags = true ∧
    swf false s.poison = true ∧ swf none s.seals = true

/-- A step answers a next state: the machine neither faults nor refuses. -/
def Answers (r : Host.Outcome State Fault Refusal) : Prop := ∃ t, r = .next t

/-! Ready at issue -/

/-- A strand stands in the slot in focus and the condition of the instruction in hand holds (R45). -/
def State.Ready (s : State) : Prop := s.me.live = true ∧ s.cond = some true

/-- Ready, no acquire of the strand is waited for (R209), and the instruction has not been performed in part: the first
attempt of a memory or blocking form. -/
def State.Standing (s : State) : Prop :=
  s.Ready ∧ s.me.acquires = [] ∧ s.me.answer = none ∧ s.me.asked = false

/-- Source A reads as `a`, leaving `t` (R44). -/
def State.ReadsA (s : State) (a : Word) (t : State) : Prop := src s.ir.a s = .ok (a, t)

/-- Source B reads as `b`, leaving `t` (R44). -/
def State.ReadsB (s : State) (b : Word) (t : State) : Prop := src s.ir.b s = .ok (b, t)

/-- Sources A and B read as `a` and `b`, leaving `t` (R44). -/
def State.ReadsAB (s : State) (a b : Word) (t : State) : Prop := srcAB s = .ok (a, b, t)

/-- Sources A, B and D read as `a`, `b` and `d`, leaving `t` (R44). -/
def State.ReadsABD (s : State) (a b d : Word) (t : State) : Prop := srcABD s = .ok (a, b, d, t)

/-- Sources D, A and B, of which D is read first, read as `d`, `a` and `b`, leaving `t` (R6, R114). -/
def State.ReadsDAB (s : State) (a b d : Word) (t : State) : Prop := srcDAB s = .ok (a, b, d, t)

/-- The queues that source fields name hold the entries the instruction needs (R44). -/
def State.Whole (s : State) (l : List Opd) : Prop := s.short l = false

/-- The destination has room: only a full queue has none (R44). -/
def State.Room (s : State) : Prop := s.destRoom s.ir.d = true

/-! Completing -/

/-- The result `v` on its way to D at a latency (R29); nothing for a field that names no register. -/
def State.put (s : State) (lat : Nat) (v : Word) : State :=
  match destReg s.ir.d with
  | some r => s.fly lat r v
  | none => s

/-- The result of a long load or blocking form on its way to D: it is there before the strand's next issue (R160, R187). -/
def State.putLong (s : State) (v : Word) : State := landLong ((destReg s.ir.d).toList.map fun r => (r, v)) s

/-- The wait of a long load or blocking form without a result (R160, R187). -/
def State.rest (s : State) : State := landLong [] s

/-- PC at the next word in sequence, and the instruction issued (R32, R40, R134). -/
def State.passed (s : State) : State := s.advance.finish

/-- PC at a target, and the branch issued, the strand's next issue `n` cycles later than it would come; `anew` says that the
branch redirects fetch, if without delay (R34, R35, R103). -/
def State.branched (s : State) (n target : Nat) (anew : Bool) : State :=
  (s.modSt fun st => { st with pc := BitVec.ofNat 64 target }).finish.redirect n anew

/-- The low `n` bits of a word, zero-extended. -/
def low (n : Nat) (v : Word) : Word := BitVec.ofNat 64 (v.toNat % 2 ^ n)

/-- V(x) of R80: the low bits of a word under an integer suffix, read signed or unsigned. -/
def readForm (f : IForm) (x : Word) : Int :=
  if formSigned f then (x.setWidth (formBits f)).toInt else ((x.setWidth (formBits f)).toNat : Int)

/-- An integer modulo 2^W for the W of an integer suffix, zero-extended. -/
def fitForm (f : IForm) (v : Int) : Word := (BitVec.ofInt (formBits f) v).setWidth 64

/-- Lane `i` of a packed word (R95). -/
def laneOf (l : Lane) (x : Word) (i : Nat) : BitVec (laneBits l) := x.extractLsb' (laneBits l * i) (laneBits l)

/-! Accesses to memory -/

/-- The address a memory form makes of Src(A) and its offset (R60). -/
def State.address (s : State) (b : Word) : Nat := ((b + s.ir.off.signExtend 64).setWidth 56).toNat

/-- A form of class 10 stands at issue, and Src(A) read to `t` gives it the address `a`, a multiple of `n`, which an access
of kind `k` finds at the place `p` (R60, R183). -/
def State.Finds (s : State) (k : Access) (n a : Nat) (p : Place) (t : State) : Prop :=
  s.Standing ∧ (∃ b, s.ReadsA b t ∧ a = s.address b) ∧ a % n = 0 ∧ locate t t.focusU t.st.ctx a k = .ok p

/-- The same for a form that stores from D, read after A as `v`. -/
def State.FindsD (s : State) (k : Access) (n a : Nat) (p : Place) (v : Word) (t : State) : Prop :=
  s.Standing ∧ (∃ b u, s.ReadsA b u ∧ a = s.address b ∧ src u.ir.d u = .ok (v, t)) ∧ a % n = 0 ∧
    locate t t.focusU t.st.ctx a k = .ok p

/-- The access is made through L or at its home in reach, and no earlier access of the strand is in its way (R187, R413,
R414). -/
def State.Direct (t : State) (p : Place) (writes : Bool) : Prop :=
  (routeOf t p = .near ∨ routeOf t p = .home) ∧ t.early p.home writes = false

/-- A release of the scope SC has nothing left to wait for: every earlier write of the strand is acknowledged and every
earlier read of the scope answered, and no write was refused (R206, R210, R213, R413). -/
def State.Released (t : State) (sc : Scope) : Prop := t.settledIn sc true = true ∧ t.st.refused = []

/-- A fence of a scope has nothing left to wait for, under `all` no write of any scope, and no write of the scope was
refused (R211 to R213). -/
def State.Fenced (t : State) (sc : Scope) (all : Bool) : Prop :=
  t.settledIn sc all = true ∧ ∀ r ∈ t.st.refused, inScope t.focusU r.home sc = false

/-- The result of an access on its way to D: at a latency through L, else as a long load's (R187, R220). -/
def State.give (s : State) (p : Place) (lat : Nat) (v : Word) : State := if p.near then s.put lat v else s.putLong v

/-- A plain load's result on its way to D: a long load has not been performed while the strand of `s` waits for it
(R145, R187, R221). -/
def State.giveLoad (s t : State) (p : Place) (lat : Nat) (v : Word) : State :=
  if p.near then t.put lat v else takeBack s (t.putLong v)

/-- An access sent as a long load from `t`, which its home performs when the wait of the strand of `s` is over (R145, R187,
R193, R223). -/
def State.sentLong (s t : State) (p : Place) (a : Nat) (op : MemOp) : State :=
  sendLong ⟨.mem op (if op.replies then (destReg t.ir.d).toList else []), BitVec.ofNat 64 a, p⟩ s t

/-- The strand in slot `k` of `u` waits for a long access, its home has not been asked, and its wait is over (R145, R187). -/
def State.Waited (s : State) (u k : Nat) (w : LongWait) (x : LongAccess) : Prop :=
  (s.slot u k).long = some w ∧ w.access = some x ∧ (s.slot u k).answer = none ∧ (s.slot u k).asked = false ∧
    (s.slot u k).readyAt ≤ (s.core u).cyc

/-- A request that an access under STAY leaves: it goes to its home and is outstanding at its core until it is answered;
one that acquires holds back the accesses after it (R190, R209). -/
def State.requested (t : State) (p : Place) (a : Nat) (op : MemOp) (atomic acq : Bool) : State :=
  let r : Payload := .request ⟨op, BitVec.ofNat 64 a, p.place, true⟩
  let s := if op.writes then t.postWrite t.focusU t.focusK p.home r else t.postPlain t.focusU t.focusK p.home r
  (s.modCore t.focusU fun c => { c with pending := c.pending + 1 }).modMe fun sl =>
    { sl with st := { sl.st with asked := sl.st.asked ++ [⟨t.nextId, p.home, atomic⟩] },
              acquires := if acq then sl.acquires ++ [t.nextId] else sl.acquires }

/-- Whether a place in memory lies outside the `n` bytes from `q`. -/
def Outside (q n r : Nat) : Prop := r < q ∨ q + n ≤ r

/-! Accepting an engine's command -/

/-- What a class-11 command accepted while its guard is pending is bound to: the guard and the sense that discards it
(R250). -/
def State.boundTo (s : State) : Option (Fin 8 × Bool) :=
  match s.cond with
  | none => some (s.ir.hd.gidx, s.ir.hd.gsns)
  | some _ => none

/-- A class-11 row stands at issue whose condition holds or is pending, on a core that no other group holds, with no
acquire of the strand waited for and room in queue `q` (R149, R209, R248, R249). -/
def State.Accepting (s : State) (q : Nat) : Prop :=
  s.me.live = true ∧ s.cond ≠ some false ∧ engOwn s = false ∧ s.me.acquires = [] ∧ (s.here.queued q).length < 2

/-- A command taken into its queue under the task's next sequence number (R248). -/
def State.took (s : State) (x : Cmd) : State :=
  (s.modCore s.focusU fun c => { c with cmds := c.cmds ++ [x], accepted := c.accepted + 1 }).modSt fun st =>
    { st with cseq := st.cseq + 1 }

/-! What stays -/

/-- Every byte, full/empty bit, frame tag, poisoned unit and key that HBM was written under, and the host's memory, are as
before. -/
def State.SameMemory (s t : State) : Prop :=
  (∀ p, t.byte p = s.byte p) ∧ (∀ p, t.isFull p = s.isFull p) ∧ (∀ p, t.tag p = s.tag p) ∧ t.poison = s.poison ∧
    t.seals = s.seals ∧ t.hostMem = s.hostMem

/-- Every part of the machine outside the core in focus and the counters of its barn or loft core is as before: the other
cores, memory, the messages, the hub, the dies, the handles, the pages, the owners, and which agent moves next. -/
def State.SameElsewhere (s t : State) : Prop :=
  s.SameMemory t ∧ (∀ u, u ≠ s.focusU → t.core u = s.core u) ∧ t.fabric = s.fabric ∧ t.hub = s.hub ∧ t.dies = s.dies ∧
    t.handles = s.handles ∧ t.stores = s.stores ∧ t.owners = s.owners ∧ t.agenda = s.agenda ∧
    (∀ b, (t.barn b).sessions = (s.barn b).sessions ∧ (t.barn b).line = (s.barn b).line) ∧ t.nextId = s.nextId

/-- What an instruction that only issues leaves of its core: the other slots, the engine registers, commands, queued work,
waiters and buffers; and of the queues' entries, those that it has not read. -/
def State.SameCore (s t : State) : Prop :=
  (∀ k, k ≠ s.focusK → t.slot s.focusU k = s.slot s.focusU k) ∧
  t.here.cyc = s.here.cyc ∧ t.here.qs.Sublist s.here.qs ∧ t.here.v = s.here.v ∧ t.here.m = s.here.m ∧ t.here.t = s.here.t ∧
  t.here.final = s.here.final ∧ t.here.cmds = s.here.cmds ∧ t.here.accepted = s.here.accepted ∧
  t.here.deque = s.here.deque ∧ t.here.ready = s.here.ready ∧ t.here.ckey = s.here.ckey ∧ t.here.inbound = s.here.inbound ∧
  t.here.serials = s.here.serials ∧ t.here.msgSerial = s.here.msgSerial ∧ t.here.forwards = s.here.forwards ∧
  t.here.overflow = s.here.overflow ∧ t.here.waiters = s.here.waiters ∧ t.here.pending = s.here.pending ∧
  t.here.bufs = s.here.bufs ∧ t.here.steal = s.here.steal

/-- What an instruction that only issues and writes D leaves of its slot: every register of the strand but PC, as they
are before the result lands, the o-, z- and b-registers, VSHAPE, MXCFG, PFMT, the trap frames, HBUD and the deferred
faults, and the records that wait; and a result comes only for the register D names. -/
def State.SameSlot (s t : State) : Prop :=
  t.st = { s.st with pc := s.st.pc + 12 } ∧ t.me.o = s.me.o ∧ t.me.z = s.me.z ∧ t.me.b = s.me.b ∧
  t.me.vshape = s.me.vshape ∧ t.me.mxcfg = s.me.mxcfg ∧ t.me.pfmt = s.me.pfmt ∧ t.me.frames = s.me.frames ∧
  t.me.hbud = s.me.hbud ∧ t.me.deferred = s.me.deferred ∧ t.me.acquires = s.me.acquires ∧ t.me.pbrAt = s.me.pbrAt ∧
  t.me.due = s.me.due ∧ t.me.owed = s.me.owed ∧ (∀ l ∈ t.me.inflight, l ∈ s.me.inflight ∨ destReg s.ir.d = some l.reg)

/-- What performing an instruction comes to when it has no effect of its own: a trap taken on it, its strand's wait, or
its standing at issue. -/
def State.Stopped (s t : State) : Prop :=
  (∃ f, t = s.trapHere f) ∨ t = s.blockSlot s.focusU s.focusK ∨ t = s

/-- The rows of groups 0 to 3 that read registers and write D and nothing else (R79 to R102, R108 to R124). -/
def registerForm : Instr → Bool
  | .add _ | .sub _ | .mul _ | .mulh _ | .div _ | .rem _ | .min _ | .max _ | .adds _ | .subs _ | .neg _ | .sext _ => true
  | .ceq _ | .cne _ | .clt _ | .cle _ | .mov64Reg | .mov64LongImm | .mov64PcRel | .movh64 => true
  | .and64 | .or64 | .xor64 | .andn64 | .not64 | .zext _ | .shl _ | .shr _ | .sar _ | .rol _ | .ror _ => true
  | .popc _ | .clz _ | .ctz _ | .bext64 | .bins64 | .bswap64 | .brev64 => true
  | .padd _ | .psub _ | .pshl _ | .pshr _ | .psar _ | .pmul _ => true
  | .gset | .gres | .gand | .gor | .gxor | .gnot | .gpend | .gget | .nop => true
  | .addF32 | .subF32 | .mulF32 | .divF32 | .fmaF32 | .fmsF32 | .sqrtF32 | .rcpF32 | .rsqF32 | .exp2F32 | .log2F32 => true
  | .minF32 | .maxF32 | .absF32 | .negF32 | .ceqF32 | .cltF32 | .cleF32 | .cunF32 | .classF32 => true
  | .cvtF32FromInt _ | .cvtIntFromF32 _ | .cvtF32F16 | .cvtF16F32 | .cvtF32Bf16 | .cvtBf16F32 | .cvtF32B8 | .cvtB8F32 => true
  | _ => false

/-- The rows that branch (R107). -/
def branchForm : Instr → Bool
  | .brOffset | .brRegister | .callOffset | .callRegister | .ret => true
  | _ => false

/-- The field that names the register a branch goes to: x15 for a return, and none for an offset (R103 to R105). -/
def targetField (i : Instr) (s : State) : Opd :=
  match i with
  | .brRegister | .callRegister => s.ir.a
  | .ret => .x 15
  | _ => .imm 0

/-- The rows of class 11, which enter an engine's queue (R41, R249). -/
def engineForm (i : Instr) : Bool :=
  match i.opc with
  | some c => match opRow c with | some r => r.cls == .engine | none => false
  | none => false

end Sys2Proof.Machine
end

