-- ==== Sys2Proof/Certificates/Slice0/Obligations.lean ====
section
/-! DEFINITION. The statements about this machine that the provers prove, each with the rules of spec/ it formalises. -/

open Sys2Proof Sys2Proof.Machine


/-- R81, R86, R91, R87: sums, differences, products, negation, extension and bitwise forms, each at its latency, and
the next word in sequence. The comparisons write the guard that D names at latency 1. -/
def Obligations.IntegerAndBitwise : Prop :=
  ((∀ (s t : State) (a b : Word) (w : Width), s.Ready → s.ReadsAB a b t → t.Room →
      exec (.add w) s = .next (t.put 1 (low (widthBits w) (a + b))).passed ∧
      exec (.sub w) s = .next (t.put 1 (low (widthBits w) (a - b))).passed ∧
      exec (.mul w) s = .next (t.put 3 (low (widthBits w) (a * b))).passed ∧
      exec .and64 s = .next (t.put 1 (a &&& b)).passed ∧
      exec .or64 s = .next (t.put 1 (a ||| b)).passed ∧
      exec .xor64 s = .next (t.put 1 (a ^^^ b)).passed ∧
      exec .andn64 s = .next (t.put 1 (a &&& ~~~b)).passed) ∧
    (∀ (s t : State) (a : Word) (w : Width) (n : Narrow), s.Ready → s.ReadsA a t → t.Room →
      exec (.neg w) s = .next (t.put 1 (low (widthBits w) (-a))).passed ∧
      exec .not64 s = .next (t.put 1 (~~~a)).passed ∧
      exec (.zext n) s = .next (t.put 1 ((a.setWidth (narrowBits n)).setWidth 64)).passed ∧
      exec (.sext n) s = .next (t.put 1 ((a.setWidth (narrowBits n)).signExtend 64)).passed)) ∧
  (∀ (s t : State) (a b : Word) (w : Wide) (f : IForm), s.Ready → s.ReadsAB a b t → t.Room →
      exec (.ceq w) s = .next (t.put 1 (ofBool (a.setWidth (wideBits w) == b.setWidth (wideBits w)))).passed ∧
      exec (.cne w) s = .next (t.put 1 (ofBool (a.setWidth (wideBits w) != b.setWidth (wideBits w)))).passed ∧
      exec (.clt f) s = .next (t.put 1 (ofBool (decide (readForm f a < readForm f b)))).passed ∧
      exec (.cle f) s = .next (t.put 1 (ofBool (decide (readForm f a ≤ readForm f b)))).passed)

/-- R82, R83, R84, R85: the high half of a product; the quotient toward zero, all ones for a divisor of zero; and the
remainder, the dividend for a divisor of zero. The smaller and the larger source, and sums and differences clamped to
the range of the type. -/
def Obligations.ProductsDivisionAndClamping : Prop :=
  (∀ (s t : State) (a b : Word) (f : IForm), s.Ready → s.ReadsAB a b t → t.Room →
      exec (.mulh f) s = .next (t.put 3 (fitForm f (readForm f a * readForm f b / 2 ^ formBits f))).passed ∧
      exec (.div f) s = .next (t.put 18
        (fitForm f (if readForm f b = 0 then -1 else (readForm f a).tdiv (readForm f b)))).passed ∧
      exec (.rem f) s = .next (t.put 18
        (fitForm f (if readForm f b = 0 then readForm f a else (readForm f a).tmod (readForm f b)))).passed) ∧
  (∀ (s t : State) (a b : Word) (f : IForm), s.Ready → s.ReadsAB a b t → t.Room →
      let lo : Int := if formSigned f then -2 ^ (formBits f - 1) else 0
      let hi : Int := if formSigned f then 2 ^ (formBits f - 1) - 1 else 2 ^ formBits f - 1
      exec (.min f) s = .next (t.put 1 (fitForm f (min (readForm f a) (readForm f b)))).passed ∧
      exec (.max f) s = .next (t.put 1 (fitForm f (max (readForm f a) (readForm f b)))).passed ∧
      exec (.adds f) s = .next (t.put 1 (fitForm f (max lo (min hi (readForm f a + readForm f b))))).passed ∧
      exec (.subs f) s = .next (t.put 1 (fitForm f (max lo (min hi (readForm f a - readForm f b))))).passed)

/-- R92: shifts by the whole amount in B, and rotations by the amount modulo the width. -/
def Obligations.ShiftsAndRotates : Prop :=
  ∀ (s t : State) (a b : Word) (w : Width), s.Ready → s.ReadsAB a b t → t.Room →
    exec (.shl w) s = .next (t.put 1 ((a.setWidth (widthBits w) <<< b.toNat).setWidth 64)).passed ∧
    exec (.shr w) s = .next (t.put 1 ((a.setWidth (widthBits w) >>> b.toNat).setWidth 64)).passed ∧
    exec (.sar w) s = .next (t.put 1 (((a.setWidth (widthBits w)).sshiftRight b.toNat).setWidth 64)).passed ∧
    exec (.rol w) s = .next (t.put 1 (((a.setWidth (widthBits w)).rotateLeft b.toNat).setWidth 64)).passed ∧
    exec (.ror w) s = .next (t.put 1 (((a.setWidth (widthBits w)).rotateRight b.toNat).setWidth 64)).passed

/-- R93, R94, R95: counts of bits, bit fields by position and length, and the reversal of bytes and bits. Each lane of
a packed result comes from the same lanes of the sources alone. -/
def Obligations.BitsAndPackedLanes : Prop :=
  ((∀ (s t : State) (a : Word) (w : Width), s.Ready → s.ReadsA a t → t.Room →
      exec (.popc w) s = .next (t.put 1 (BitVec.ofNat 64
        ((List.range (widthBits w)).countP fun i => a.getLsbD i))).passed ∧
      exec (.clz w) s = .next (t.put 1 ((a.setWidth (widthBits w)).clz.setWidth 64)).passed ∧
      exec (.ctz w) s = .next (t.put 1 ((a.setWidth (widthBits w)).ctz.setWidth 64)).passed ∧
      exec .brev64 s = .next (t.put 1 a.reverse).passed ∧
      ∃ v : Word, exec .bswap64 s = .next (t.put 1 v).passed ∧
        ∀ i < 8, v.extractLsb' (8 * i) 8 = a.extractLsb' (56 - 8 * i) 8) ∧
    (∀ (s t : State) (a b : Word), s.Ready → s.ReadsAB a b t → t.Room →
      ∃ v : Word, exec .bext64 s = .next (t.put 1 v).passed ∧
        ∀ i < 64, v.getLsbD i =
          (decide (i < (b.extractLsb' 0 7).toNat) && a.getLsbD ((b.extractLsb' 8 6).toNat + i))) ∧
    (∀ (s t : State) (a b d : Word), s.Ready → s.ReadsABD a b d t → t.Room →
      ∃ v : Word, exec .bins64 s = .next (t.put 1 v).passed ∧
        ∀ i < 64, v.getLsbD i =
          if (b.extractLsb' 8 6).toNat ≤ i ∧ i < (b.extractLsb' 8 6).toNat + (b.extractLsb' 0 7).toNat then
            a.getLsbD (i - (b.extractLsb' 8 6).toNat)
          else d.getLsbD i)) ∧
  (∀ (s t : State) (a b : Word) (l : Lane), s.Ready → s.ReadsAB a b t → t.Room →
      ∃ add sub left right arith prod : Word,
        exec (.padd l) s = .next (t.put 1 add).passed ∧ exec (.psub l) s = .next (t.put 1 sub).passed ∧
        exec (.pshl l) s = .next (t.put 1 left).passed ∧ exec (.pshr l) s = .next (t.put 1 right).passed ∧
        exec (.psar l) s = .next (t.put 1 arith).passed ∧ exec (.pmul l) s = .next (t.put 3 prod).passed ∧
        ∀ i < 64 / laneBits l,
          laneOf l add i = laneOf l a i + laneOf l b i ∧
          laneOf l sub i = laneOf l a i - laneOf l b i ∧
          laneOf l left i = laneOf l a i <<< (laneOf l b i).toNat ∧
          laneOf l right i = laneOf l a i >>> (laneOf l b i).toNat ∧
          laneOf l arith i = (laneOf l a i).sshiftRight (laneOf l b i).toNat ∧
          laneOf l prod i = laneOf l a i * laneOf l b i)

/-- R45, R97, R107: a row of the opcode map whose condition fails only uses its issue (a branch is then timed by its hint),
one of class 00, 01 or 10 whose guard is pending waits with its strand switched away, and `(!g0)` never holds. -/
def Obligations.GuardDecidesIssue : Prop :=
  (∀ s : State, s.ir.hd.gidx = 0 → s.cond = some (!s.ir.hd.gsns)) ∧
  (∀ (s : State) (i : Instr), i.opc.isSome = true → s.me.live = true →
    (s.cond = some false → exec i s = .next
      (if branchForm i then s.passed.redirect (s.branchDelay (targetField i s) false) false else s.passed)) ∧
    (s.cond = none → engineForm i = false → exec i s = .next (s.blockSlot s.focusU s.focusK)))

/-- R20, R42, R88, R20, R21, R96: what `mov.64` gives of each kind of source that is no queue: x-registers and
immediates always, o-, z- and b-registers when valid; one whose valid bit is clear raises the invalid-register trap
and has no effect. What a landing leaves in its register: the valid bits of o-, z- and b-registers set, z pushed, a
write of g0 discarded, and the commands bound to a guard released or discarded by a definite write and held by a
pending one. -/
def Obligations.RegisterFiles : Prop :=
  (∀ s : State, s.Ready → s.Room →
      (∀ i, s.ir.a = .x i → exec .mov64Reg s = .next (s.put 1 s.st.x[i]).passed) ∧
      (∀ c, s.ir.a = .imm c → exec .mov64Reg s = .next (s.put 1 (c.signExtend 64)).passed) ∧
      (∀ i, s.ir.a = .o i → exec .mov64Reg s = .next
        (if s.me.o[i].valid then (s.put 1 s.me.o[i].val).passed else s.trapHere { cause := .regInvalid })) ∧
      (∀ i, s.ir.a = .z i → exec .mov64Reg s = .next
        (if s.me.z[i].valid then (s.put 1 s.me.z[i].val).passed else s.trapHere { cause := .regInvalid })) ∧
      (∀ i, s.ir.a = .b i → exec .mov64Reg s = .next
        (if s.me.b[i].valid then (s.put 1 s.me.b[i].val).passed else s.trapHere { cause := .regInvalid }))) ∧
  ((∀ (sl : Slot) (n : Nat) (v : Word) (i : Fin 8) (j : Fin 4),
      (sl.landOne ⟨n, .o i, v⟩).o[i] = ⟨v, true⟩ ∧ (sl.landOne ⟨n, .b j, v⟩).b[j] = ⟨v, true⟩ ∧
      (sl.landOne ⟨n, .z, v⟩).z[0] = ⟨v, true⟩ ∧ (sl.landOne ⟨n, .z, v⟩).z[1] = sl.z[0] ∧
      (sl.landOne ⟨n, .g 0, v⟩) = sl ∧ sl.st.guard 0 = .t) ∧
    (∀ (sl : Slot) (n : Nat) (x : GState) (i : Fin 8), i ≠ 0 →
      (sl.landOne ⟨n, .g i, BitVec.ofNat 64 x.code⟩).st.guard i = x) ∧
    (∀ (c : Core) (k n : Nat) (x : GState) (i : Fin 8), i ≠ 0 →
      (c.landOne k ⟨n, .g i, BitVec.ofNat 64 x.code⟩).cmds =
        match x with
        | .p => c.cmds
        | x => c.cmds.filterMap fun y =>
          match y.bound with
          | some (j, sense) =>
            if y.slot = k ∧ j = i then (if (x = .t) = (sense = false) then some { y with bound := none } else none) else some y
          | none => some y))

/-- R44, R255: a queue source takes the oldest entry tagged for the strand's slot; A takes the older and B the next when
both name one queue; with too few entries the strand waits and removes nothing, whatever the other source is; and a full
queue in D holds the instruction at issue. Failure entries raise REMOTE.FAULT with the fields R357 gives (R190); that such an
entry stays in q7, R44 taking entries as an instruction performs and R351 and R352 leaving every queue as it was at a trap,
is the model's reading (log 9, DEDUCED). That room in D is looked for after the sources are read is the model's choice
(log 70, DESIGN CHOICE). -/
def Obligations.QueueOperands : Prop :=
  ∀ (s : State) (q : Fin 8), s.Ready → s.ir.a = .q q →
    let mine := fun e : QEntry => e.q = q ∧ e.slot = s.focusK
    let left := fun l : List QEntry => s.modCore s.focusU fun c => { c with qs := l }
    (∀ l m v, s.here.qs = l ++ ⟨q, s.focusK, .word v⟩ :: m → (∀ e ∈ l, ¬ mine e) → (left (l ++ m)).Room →
      exec .mov64Reg s = .next ((left (l ++ m)).put 1 v).passed) ∧
    ((∀ e ∈ s.here.qs, ¬ mine e) → exec .mov64Reg s = .next (s.blockSlot s.focusU s.focusK)) ∧
    (∀ l m c a pc u, s.here.qs = l ++ ⟨q, s.focusK, .failure c a pc u⟩ :: m → (∀ e ∈ l, ¬ mine e) →
      exec .mov64Reg s = .next (s.trapHere
        { cause := c, flags := { remote := true }, addr := a, pc := some pc, msgId := some s.st.pc,
          unit := if u = s.focusU then none else some u })) ∧
    (∀ l m n v w, s.ir.b = .q q →
      s.here.qs = l ++ ⟨q, s.focusK, .word v⟩ :: (m ++ ⟨q, s.focusK, .word w⟩ :: n) → (∀ e ∈ l ++ m, ¬ mine e) →
      (left (l ++ (m ++ n))).Room →
      exec (.sub .w64) s = .next ((left (l ++ (m ++ n))).put 1 (v - w)).passed) ∧
    (∀ l m v, s.ir.b = .q q → s.here.qs = l ++ ⟨q, s.focusK, v⟩ :: m → (∀ e ∈ l ++ m, ¬ mine e) →
      exec (.sub .w64) s = .next (s.blockSlot s.focusU s.focusK)) ∧
    (∀ i r, s.ir.b = .q r → (∀ e ∈ s.here.qs, ¬ (e.q = r ∧ e.slot = s.focusK)) → s.me.o[i].valid = false →
      exec (.sub .w64) { s with ir := { s.ir with a := .o i } } =
        .next (({ s with ir := { s.ir with a := .o i } } : State).blockSlot s.focusU s.focusK)) ∧
    (∀ l m v, s.here.qs = l ++ ⟨q, s.focusK, .word v⟩ :: m → (∀ e ∈ l, ¬ mine e) → ¬ (left (l ++ m)).Room →
      exec .mov64Reg s = .next s)

/-- R30: a result in flight lands at its cycle, those of one strand in the order of their landing cycles and, in one
cycle, of their issue; of two writes to a register that is no z the later to land is the one that remains, and z is
pushed by each in turn (but for the mark of a register that has changed, log 33); and a strand that switches away is tried again only when the last of its results is to land. -/
def Obligations.LandingOrder : Prop :=
  (∀ (ls : List Landing) (l : Landing), ls.Pairwise (fun a b => a.at_ ≤ b.at_) →
    ∃ xs ys, ls = xs ++ ys ∧ addLanding ls l = xs ++ l :: ys ∧ (∀ m ∈ xs, m.at_ ≤ l.at_) ∧ (∀ m ∈ ys, l.at_ < m.at_)) ∧
  (∀ (c : Core) (k : Nat), k < c.slots.length → (c.slot k).inflight.Pairwise (fun a b => a.at_ ≤ b.at_) →
    (c.land k).slot k = ((c.slot k).inflight.filter fun l => decide (l.at_ ≤ c.cyc)).foldl Slot.landOne
      { c.slot k with inflight := (c.slot k).inflight.filter fun l => decide (c.cyc < l.at_) }) ∧
  (∀ (sl : Slot) (l m : Landing), l.reg = m.reg → l.reg ≠ .z → 
    { (sl.landOne l).landOne m with changed := 0 } = { sl.landOne m with changed := 0 }) ∧
  (∀ (sl : Slot) (i j : Nat) (v w : Word), let t := (sl.landOne ⟨i, .z, v⟩).landOne ⟨j, .z, w⟩
    t.z[0] = ⟨w, true⟩ ∧ t.z[1] = ⟨v, true⟩) ∧
  (∀ (c : Core) (k : Nat) (i : Fin 16), k < c.slots.length →
    (c.slot k).inflight.Pairwise (fun a b => a.at_ ≤ b.at_) →
    ((c.land k).slot k).st.x[i] =
      (((c.slot k).inflight.filter fun l => decide (l.at_ ≤ c.cyc) && l.reg == .x i).getLast?.map (·.val)).getD
        (c.slot k).st.x[i]) ∧
  (∀ (sl : Slot), ∀ l ∈ sl.inflight, l.at_ ≤ sl.switchAway.readyAt) ∧
  (∀ (c : Core), ∀ k ∈ c.candidates, (c.slot k).readyAt ≤ c.cyc)

/-- The frame of the rows of groups 0 to 3 that only read registers and write D: whatever next state performing one gives
for a strand whose condition holds, the instruction stopped short of its effect, or nothing has changed but PC, the marks
of an issue, the queue entries it read and a result on its way to D. -/
def Obligations.RegisterFormsFrame : Prop :=
  ∀ (i : Instr) (s t : State), registerForm i = true → s.Ready → exec i s = .next t →
    s.Stopped t ∨ (s.SameElsewhere t ∧ s.SameCore t ∧ s.SameSlot t)

/-- R99 to R102: `gset` and `gres` from a word, the three-state tables, `gpend` and `gget`; `gres` of a guard that is not
pending raises GUARD.STATE before its source is read (R6), and so does every `gres` of g0. -/
def Obligations.GuardInstructions : Prop :=
  (∀ (s t : State) (a : Word), s.Ready → s.ReadsA a t → t.Room →
    exec .gset s = .next (t.put 1 (ofBool (decide (a ≠ 0)))).passed ∧
    (t.st.guard (guardIdx s.ir.d) = .p → exec .gres s = .next (t.put 1 (ofBool (decide (a ≠ 0)))).passed)) ∧
  (∀ (s : State), s.Ready → s.Whole [s.ir.a] →
    (s.st.guard (guardIdx s.ir.d) ≠ .p → exec .gres s = .next (s.trapHere { cause := .guardState })) ∧
    (s.ir.d = .g 0 → exec .gres s = .next (s.trapHere { cause := .guardState }))) ∧
  (∀ (s : State) (i j : Fin 8), s.Ready → s.Room → s.ir.a = .g i → s.ir.b = .g j →
    let a := s.st.guard i
    let b := s.st.guard j
    let put := fun x : GState => Host.Outcome.next (s.put 1 (BitVec.ofNat 64 x.code)).passed
    exec .gand s = put (if a = .f ∨ b = .f then .f else if a = .p ∨ b = .p then .p else .t) ∧
    exec .gor s = put (if a = .t ∨ b = .t then .t else if a = .p ∨ b = .p then .p else .f) ∧
    exec .gxor s = put (if a = .p ∨ b = .p then .p else if a = b then .f else .t)) ∧
  (∀ (s : State) (i : Fin 8), s.Ready → s.Room → s.ir.a = .g i →
    exec .gnot s = .next (s.put 1 (match s.st.guard i with | .f => 1 | .t => 0 | .p => 2)).passed ∧
    exec .gget s = .next (s.put 1 (match s.st.guard i with | .f => 0 | .t => 1 | .p => 2)).passed) ∧
  (∀ s : State, s.Ready → s.Room → exec .gpend s = .next (s.put 1 2).passed ∧ exec .nop s = .next s.passed)

/-- R103 to R107 with R34 and R35: the targets of branches, calls and returns, the link in x15, FETCH.ALN for a target
that is no multiple of 4, and the delay of the strand's next issue. That the link is PC + 12 in 64 bits, without wrapping
above region H, is the model's choice (log 79, DESIGN CHOICE). -/
def Obligations.Branches : Prop :=
  (∀ s : State, s.Ready → s.st.pc.toNat % 4 = 0 →
    let offset := ((s.st.pc + 12 * s.ir.imm.signExtend 64).setWidth 56).toNat
    let cost := s.branchDelay (.imm 0) true
    exec .brOffset s = .next (s.branched cost offset false) ∧
    exec .callOffset s = .next ((s.fly 1 (.x 15) (s.st.pc + 12)).branched cost offset false)) ∧
  (∀ (s t : State) (a : Word), s.Ready → s.ReadsA a t →
    let target := (a.setWidth 56).toNat
    let cost := s.branchDelay s.ir.a true
    (target % 4 = 0 →
      exec .brRegister s = .next (t.branched cost target (s.redirects s.ir.a)) ∧
      exec .callRegister s = .next ((t.fly 1 (.x 15) (t.st.pc + 12)).branched cost target (s.redirects s.ir.a))) ∧
    (target % 4 ≠ 0 →
      exec .brRegister s = .next (s.trapHere { cause := .fetchAln, addr := BitVec.ofNat 64 target }) ∧
      exec .callRegister s = .next (s.trapHere { cause := .fetchAln, addr := BitVec.ofNat 64 target }))) ∧
  (∀ s : State, s.Ready →
    let target := (s.st.x[15].setWidth 56).toNat
    let cost := s.branchDelay (.x 15) true
    exec .ret s = .next (if target % 4 = 0 then s.branched cost target false
      else s.trapHere { cause := .fetchAln, addr := BitVec.ofNat 64 target }))

/-- R34, R35, R103, R107, R106: what a branch costs: 4 cycles when it goes against its hint; a branch with its hint costs
nothing, unless it is taken to a register that has changed since fetch last went elsewhere, where it costs nothing or 4
cycles by whether fetch followed the value the register has now: the spec does not say when fetch reads the register, and
the model leaves it free (log 33, DEDUCED). A value that differs in bits 63:56 alone, which a branch ignores, is no change;
and none stands after fetch has gone elsewhere, for a delayed branch or one that prepare mode redirects. In prepare mode a
branch to a b-register waits out the 6 cycles since its
`pbr`, and costs nothing when it is not taken. `pbr` writes a b-register from an offset or a register, and its issue cycle
is remembered. -/
def Obligations.BranchTiming : Prop :=
  (∀ (s : State) (o : Opd) (taken : Bool),
      (∀ i : Fin 4, o = .b i → s.st.brmode.getLsbD 0 = false) →
      (s.ir.hd.tkn ≠ taken → s.branchDelay o taken = 4) ∧
      (s.ir.hd.tkn = taken → (taken = false ∨ s.me.moved o = false) → s.branchDelay o taken = 0) ∧
      (s.ir.hd.tkn = taken → taken = true → s.me.moved o = true →
        s.branchDelay o taken = 0 ∨ s.branchDelay o taken = 4)) ∧
  (∀ (s : State) (i : Fin 4), s.st.brmode.getLsbD 0 = true →
      s.branchDelay (.b i) false = 0 ∧
      (s.me.pbrAt[i] + 6 ≤ s.cyc → s.branchDelay (.b i) true = 0) ∧
      (∀ k < 6, s.cyc = s.me.pbrAt[i] + k → s.branchDelay (.b i) true = 6 - k)) ∧
  ((∀ (sl : Slot) (n : Nat) (i : Fin 16) (v : Word), sl.st.x[i].setWidth 56 = v.setWidth 56 →
      (sl.landOne ⟨n, .x i, v⟩).changed = sl.changed) ∧
    (∀ (sl : Slot) (n : Nat) (i : Fin 16) (v : Word), sl.st.x[i].setWidth 56 ≠ v.setWidth 56 →
      (sl.landOne ⟨n, .x i, v⟩).moved (.x i) = true) ∧
    (∀ (s : State) (o : Opd), s.redirects o = true ↔ s.st.brmode.getLsbD 0 = true ∧ ∃ i, o = .b i) ∧
    (∀ (s : State) (n : Nat) (anew : Bool), s.me.live = true → n ≠ 0 ∨ anew = true → (s.redirect n anew).me.changed = 0) ∧
    (∀ s : State, (s.redirect 0 false).me.changed = s.me.changed)) ∧
  ((∀ (s : State) (i : Fin 4), s.Ready → s.ir.d = .b i →
      exec .pbrOffset s = .next (((s.modMe fun sl => { sl with pbrAt := sl.pbrAt.set i s.cyc }).put 1
        (((s.st.pc + 12 * s.ir.imm.signExtend 64).setWidth 56).setWidth 64))).passed) ∧
    (∀ (s t : State) (a : Word) (i : Fin 4), s.Ready → s.ReadsA a t → s.ir.d = .b i →
      exec .pbrRegister s = .next (((t.modMe fun sl => { sl with pbrAt := sl.pbrAt.set i t.cyc }).put 1 a)).passed))

/-- R89, R90, R22, R353, R23, R24, R36, R176, R247, R270, R353, R354: long immediates, PC-relative addresses, and the
top 16 bits replaced. What `mov.64` reads of each state register, zero-extended; the registers of the innermost trap
frame and TDEPTH read as zero outside HANDLER. What a write of each state register does, and which are refused. -/
def Obligations.MovesAndStateRegisters : Prop :=
  ((∀ s : State, s.Ready → s.Room →
      exec .mov64LongImm s = .next (s.put 1 (s.ir.imm.signExtend 64)).passed ∧
      exec .mov64PcRel s = .next (s.put 1 (((s.st.pc + s.ir.imm.signExtend 64).setWidth 56).setWidth 64)).passed) ∧
    (∀ (s t : State) (d : Word), s.Ready → src s.ir.d s = .ok (d, t) → t.Room →
      exec .movh64 s = .next (t.put 1 (s.ir.imm.extractLsb' 0 16 ++ d.extractLsb' 0 48)).passed)) ∧
  (∀ (s : State) (n : Fin 24), s.Ready → s.Room → s.ir.a = .sr n →
      ∃ v : Word, exec .mov64Reg s = .next (s.put 1 v).passed ∧
        (n = 0 → v = BitVec.ofNat 64 s.cyc) ∧ (n = 1 → v = s.st.bud.setWidth 64) ∧ (n = 2 → v = s.st.key.setWidth 64) ∧
        (n = 3 → v = s.st.wgt) ∧ (n = 4 → v = (s.context s.st.ctx).tvec) ∧ (n = 5 → v = (s.context s.st.ctx).frec) ∧
        (n = 6 → v = s.st.ctx.setWidth 64) ∧ (n = 7 → v = s.st.strid.setWidth 64) ∧
        (n = 8 → v = BitVec.ofNat 64 s.focusU) ∧ (n = 9 → v = s.st.brmode) ∧ (n = 10 → v = s.me.vshape) ∧
        (∀ t : Fin 4, n.val = 11 + t.val → v = BitVec.ofNat 64
          ((s.here.cmds.filter fun x => x.engine == .array && x.ops.d == .t t).length % 4 * 256 + s.here.final[t].toNat)) ∧
        (n = 15 → v = s.me.mxcfg) ∧
        (s.me.mode = .handler → ∀ f fs, s.me.frames = f :: fs →
          (n = 16 → v = f.epc) ∧ (n = 17 → v = f.ecause) ∧ (n = 18 → v = f.eaddr) ∧ (n = 19 → v = f.erec) ∧
          (n = 20 → v = f.escr0) ∧ (n = 21 → v = f.escr1) ∧ (n = 23 → v = BitVec.ofNat 64 (fs.length + 1))) ∧
        (s.me.mode ≠ .handler → 16 ≤ n.val → n ≠ 22 → v = 0) ∧ (n = 22 → v = s.st.launch.setWidth 64)) ∧
  (∀ (s t : State) (a : Word), s.Ready → movSrc s = .ok (a, t) →
      exec .keyWrite s = .next (t.modSt fun st => { st with key := a.setWidth 32 }).passed ∧
      exec .budWrite s = .next (t.modSt fun st => { st with
        bud := if t.me.mode = .handler then a.setWidth 32 else BitVec.ofNat 32 (min (a.setWidth 32).toNat st.bud.toNat) }).passed ∧
      exec .brmodeWrite s = .next ((t.modSt fun st => { st with brmode := a &&& 1 }).passed.refetch 4) ∧
      exec .vshapeWrite s = .next (if vshapeBad a.toNat then s.trapHere { cause := .vshapeBad }
        else (t.modMe fun sl => { sl with vshape := a }).passed) ∧
      exec .mxcfgWrite s = .next (if mxcfgBad a.toNat then s.trapHere { cause := .mxcfgBad }
        else (t.modMe fun sl => { sl with mxcfg := a }).passed) ∧
      (∀ n : Fin 24, s.ir.d = .sr n →
        (t.me.mode = .handler → n = 16 → a.toNat < 2 ^ 56 → a.toNat % 4 = 0 →
          exec .registerWrite s = .next (t.modFrame fun f => { f with epc := a }).passed) ∧
        (t.me.mode = .handler → n = 16 → ¬ (a.toNat < 2 ^ 56 ∧ a.toNat % 4 = 0) →
          exec .registerWrite s = .next (s.trapHere { cause := .sregWrite })) ∧
        (t.me.mode = .handler → n = 20 → exec .registerWrite s = .next (t.modFrame fun f => { f with escr0 := a }).passed) ∧
        (t.me.mode = .handler → n = 21 → exec .registerWrite s = .next (t.modFrame fun f => { f with escr1 := a }).passed) ∧
        (¬ (t.me.mode = .handler ∧ (n = 16 ∨ n = 20 ∨ n = 21)) →
          exec .registerWrite s = .next (s.trapHere { cause := .sregWrite }))))

/-- R110 to R116, R111, R113, R115, R116: sums, differences and products are the exact value rounded once to nearest
even, with the sign of an exact zero as each entry gives it; quotients, roots, reciprocals, powers and logarithms are
completed at their latencies. Every NaN an arithmetic form computes is 0x7FC0_0000, whichever NaN an operand is; and
the results that R113, R115 and the table of R116 give for zeros, infinities, one and negative numbers. -/
def Obligations.FloatArithmetic : Prop :=
  ((∀ (s t : State) (a b : Word), s.Ready → s.ReadsAB a b t → t.Room →
      let x := a.toNat % 2 ^ 32
      let y := b.toNat % 2 ^ 32
      exec .addF32 s = .next (t.put 4 (word (round32 ((value32 x).add (value32 y)) (a.getLsbD 31 && b.getLsbD 31)))).passed ∧
      exec .subF32 s = .next
        (t.put 4 (word (round32 ((value32 x).add (value32 y).neg) (a.getLsbD 31 && !b.getLsbD 31)))).passed ∧
      exec .mulF32 s = .next
        (t.put 4 (word (round32 ((value32 x).mul (value32 y)) (a.getLsbD 31 ^^ b.getLsbD 31)))).passed ∧
      exec .divF32 s = .next (t.put 14 (word (div32 x y))).passed) ∧
    (∀ (s t : State) (a b d : Word), s.Ready → s.ReadsDAB a b d t → t.Room →
      let x := (value32 (a.toNat % 2 ^ 32)).mul (value32 (b.toNat % 2 ^ 32))
      let c := value32 (d.toNat % 2 ^ 32)
      let neg := a.getLsbD 31 ^^ b.getLsbD 31
      exec .fmaF32 s = .next (t.put 4 (word (round32 (c.add x) (d.getLsbD 31 && neg)))).passed ∧
      exec .fmsF32 s = .next (t.put 4 (word (round32 (c.add x.neg) (d.getLsbD 31 && !neg)))).passed) ∧
    (∀ (s t : State) (a : Word), s.Ready → s.ReadsA a t → t.Room →
      let x := a.toNat % 2 ^ 32
      exec .sqrtF32 s = .next (t.put 14 (word (sqrt32 x))).passed ∧
      exec .rcpF32 s = .next (t.put 6 (word (rcp32 x))).passed ∧
      exec .rsqF32 s = .next (t.put 6 (word (rsq32 x))).passed ∧
      exec .exp2F32 s = .next (t.put 6 (word (exp232 x))).passed ∧
      exec .log2F32 s = .next (t.put 6 (word (log232 x))).passed)) ∧
  ((∀ a b : Nat, isNan32 a = true ∨ isNan32 b = true →
      add32 a b = 0x7FC0_0000 ∧ sub32 a b = 0x7FC0_0000 ∧ mul32 a b = 0x7FC0_0000 ∧ div32 a b = 0x7FC0_0000) ∧
    (∀ a b c : Nat, isNan32 a = true ∨ isNan32 b = true ∨ isNan32 c = true →
      fma32 c a b = 0x7FC0_0000 ∧ fms32 c a b = 0x7FC0_0000) ∧
    (∀ a : Nat, isNan32 a = true → sqrt32 a = 0x7FC0_0000 ∧ rcp32 a = 0x7FC0_0000 ∧ rsq32 a = 0x7FC0_0000 ∧
      exp232 a = 0x7FC0_0000 ∧ log232 a = 0x7FC0_0000) ∧
    (∀ a : Nat, 0x8000_0000 < a → a ≤ 0xFF80_0000 → sqrt32 a = 0x7FC0_0000 ∧ rsq32 a = 0x7FC0_0000 ∧ log232 a = 0x7FC0_0000) ∧
    (∀ a : Nat, 0 < a → a < 0x7F80_0000 → div32 a 0 = 0x7F80_0000 ∧ div32 a 0x8000_0000 = 0xFF80_0000 ∧
      div32 a 0x7F80_0000 = 0 ∧ div32 a 0xFF80_0000 = 0x8000_0000 ∧ mul32 a 0xFF80_0000 = 0xFF80_0000 ∧
      div32 0x7F80_0000 a = 0x7F80_0000 ∧ div32 0xFF80_0000 a = 0xFF80_0000) ∧
    add32 0x7F80_0000 0xFF80_0000 = 0x7FC0_0000 ∧ sub32 0x7F80_0000 0x7F80_0000 = 0x7FC0_0000 ∧
    mul32 0 0x7F80_0000 = 0x7FC0_0000 ∧ div32 0 0x8000_0000 = 0x7FC0_0000 ∧ div32 0x7F80_0000 0xFF80_0000 = 0x7FC0_0000 ∧
    sqrt32 0 = 0 ∧ sqrt32 0x8000_0000 = 0x8000_0000 ∧ sqrt32 0x7F80_0000 = 0x7F80_0000 ∧
    rcp32 0 = 0x7F80_0000 ∧ rcp32 0x8000_0000 = 0xFF80_0000 ∧ rcp32 0x7F80_0000 = 0 ∧ rcp32 0xFF80_0000 = 0x8000_0000 ∧
    rsq32 0 = 0x7F80_0000 ∧ rsq32 0x8000_0000 = 0xFF80_0000 ∧ rsq32 0x7F80_0000 = 0 ∧
    exp232 0 = 0x3F80_0000 ∧ exp232 0x8000_0000 = 0x3F80_0000 ∧ exp232 0x7F80_0000 = 0x7F80_0000 ∧ exp232 0xFF80_0000 = 0 ∧
    exp232 0x3F80_0000 = 0x4000_0000 ∧ exp232 0xC315_0000 = 1 ∧
    log232 0 = 0xFF80_0000 ∧ log232 0x8000_0000 = 0xFF80_0000 ∧ log232 0x7F80_0000 = 0x7F80_0000 ∧ log232 0x3F80_0000 = 0)

/-- R117 to R120, R121 to R124: the minimum and maximum with NaN, of unequal values in either order, of equal codes and
of signed zeros, absolute value and negation by
bits, the four comparisons, and the class of a code. Conversions between integers, FP32, the 16-bit formats and
binary8, with saturation toward zero, and FMT.BAD for a format operand that names none, tested before A is read (R6). -/
def Obligations.FloatComparisonsAndConversions : Prop :=
  ((∀ (s t : State) (a b : Word), s.Ready → s.ReadsAB a b t → t.Room →
      let x := a.toNat % 2 ^ 32
      let y := b.toNat % 2 ^ 32
      exec .minF32 s = .next (t.put 1 (word (pick32 false x y))).passed ∧
      exec .maxF32 s = .next (t.put 1 (word (pick32 true x y))).passed ∧
      exec .cunF32 s = .next (t.put 1 (ofBool (isNan32 x || isNan32 y))).passed ∧
      exec .ceqF32 s = .next (t.put 1 (ofBool (!(isNan32 x || isNan32 y) && key32 x == key32 y))).passed ∧
      exec .cltF32 s = .next (t.put 1 (ofBool (!(isNan32 x || isNan32 y) && decide (key32 x < key32 y)))).passed ∧
      exec .cleF32 s = .next (t.put 1 (ofBool (!(isNan32 x || isNan32 y) && decide (key32 x ≤ key32 y)))).passed ∧
      (isNan32 x = true → isNan32 y = true → pick32 false x y = 0x7FC0_0000 ∧ pick32 true x y = 0x7FC0_0000) ∧
      (isNan32 x = true → isNan32 y = false → pick32 false x y = y ∧ pick32 true x y = y) ∧
      (isNan32 x = false → isNan32 y = true → pick32 false x y = x ∧ pick32 true x y = x) ∧
      (isNan32 x = false → isNan32 y = false → key32 x < key32 y → pick32 false x y = x ∧ pick32 true x y = y) ∧
      (isNan32 x = false → isNan32 y = false → key32 y < key32 x → pick32 false x y = y ∧ pick32 true x y = x) ∧
      (isNan32 x = false → x = y → pick32 false x y = x ∧ pick32 true x y = x) ∧
      (isNan32 x = false → isNan32 y = false → key32 x = key32 y → x = y ∨ (x % 2 ^ 31 = 0 ∧ y % 2 ^ 31 = 0)) ∧
      (pick32 false 0 0x8000_0000 = 0x8000_0000 ∧ pick32 true 0 0x8000_0000 = 0) ∧
      (pick32 false 0x8000_0000 0 = 0x8000_0000 ∧ pick32 true 0x8000_0000 0 = 0 ∧ key32 0x8000_0000 = key32 0)) ∧
    (∀ (s t : State) (a : Word), s.Ready → s.ReadsA a t → t.Room →
      exec .absF32 s = .next (t.put 1 ((a.setWidth 31).setWidth 64)).passed ∧
      exec .negF32 s = .next (t.put 1 ((a.setWidth 32 ^^^ 0x8000_0000).setWidth 64)).passed ∧
      ∃ i < 10, exec .classF32 s = .next (t.put 1 (BitVec.twoPow 64 i)).passed ∧
        let c := a.toNat % 2 ^ 31
        (i = 0 ↔ c = 0x7F80_0000 ∧ a.getLsbD 31 = true) ∧ (i = 7 ↔ c = 0x7F80_0000 ∧ a.getLsbD 31 = false) ∧
        (i = 1 ↔ 2 ^ 23 ≤ c ∧ c < 0x7F80_0000 ∧ a.getLsbD 31 = true) ∧
        (i = 6 ↔ 2 ^ 23 ≤ c ∧ c < 0x7F80_0000 ∧ a.getLsbD 31 = false) ∧
        (i = 2 ↔ 0 < c ∧ c < 2 ^ 23 ∧ a.getLsbD 31 = true) ∧ (i = 5 ↔ 0 < c ∧ c < 2 ^ 23 ∧ a.getLsbD 31 = false) ∧
        (i = 3 ↔ c = 0 ∧ a.getLsbD 31 = true) ∧ (i = 4 ↔ c = 0 ∧ a.getLsbD 31 = false) ∧
        (i = 8 ↔ 0x7F80_0000 < c ∧ a.getLsbD 22 = false) ∧ (i = 9 ↔ 0x7F80_0000 < c ∧ a.getLsbD 22 = true))) ∧
  ((∀ (s t : State) (a : Word) (f : IForm), s.Ready → s.ReadsA a t → t.Room →
      let x := a.toNat % 2 ^ 32
      let lo : Int := if formSigned f then -2 ^ (formBits f - 1) else 0
      let hi : Int := if formSigned f then 2 ^ (formBits f - 1) - 1 else 2 ^ formBits f - 1
      exec (.cvtF32FromInt f) s = .next (t.put 3 (word (round32 (.fin ⟨readForm f a, 0⟩) false))).passed ∧
      exec (.cvtIntFromF32 f) s = .next (t.put 3 (fitForm f (match value32 x with
        | .nan => 0
        | .inf neg => if neg then lo else hi
        | .fin v => max lo (min hi v.trunc)))).passed ∧
      exec .cvtF32F16 s = .next (t.put 3 (word (widen16 fp16 (a.toNat % 2 ^ 16)))).passed ∧
      exec .cvtF32Bf16 s = .next (t.put 3 ((a.setWidth 16).setWidth 64 <<< 16)).passed ∧
      exec .cvtF16F32 s = .next (t.put 3 (word (narrow16 fp16 x))).passed ∧
      exec .cvtBf16F32 s = .next (t.put 3 (word (narrow16 bf16 x))).passed) ∧
    (∀ (s r t : State) (a b : Word), s.Ready → s.Whole [s.ir.a, s.ir.b] → s.ReadsB b r →
      let known := b.toNat < 64 ∧ 4 ≤ b.toNat % 32
      (¬ (known ∧ b.getLsbD 5 = false) → exec .cvtF32B8 s = .next (s.trapHere { cause := .fmtBad })) ∧
      (¬ known → exec .cvtB8F32 s = .next (s.trapHere { cause := .fmtBad })) ∧
      (src r.ir.a r = .ok (a, t) → t.Room →
      (known ∧ b.getLsbD 5 = false → exec .cvtF32B8 s = .next (t.put 3 (word (widen8 (b.toNat % 32) (a.toNat % 256)))).passed) ∧
      (known → exec .cvtB8F32 s = .next
        (t.put 3 (word (narrow8 (value32 (a.toNat % 2 ^ 32)) (b.toNat % 32) (b.getLsbD 5)))).passed))))

/-- R221, R222, R226, R225: loads performed through L at latency 3 or at their home as a long load give the bytes at
the place as the context's key shows them (R199), zero- or sign-extended; `ldp.128` writes a pair of registers that land
together; nothing of memory changes. While the strand waits for a long load it has not been performed (R145).
`ldd` gives the element at its address as an FP32 code under the format of its place: FP32 as it is, the 16-bit
formats widened, a binary8 element with its block's scale rounded once; raw bytes raise FMT.RAW and a byte that holds
no element FMT.SLOT. -/
def Obligations.Loads : Prop :=
  ((∀ (s t : State) (a q : Nat) (p : Place) (w : Width), s.Finds .load (widthBytes w) a p t → t.Direct p false →
      reach t t.st.ctx p (widthBytes w) = .ok q → t.hear.Room →
      exec (.ld w) s = .next (s.giveLoad t.hear p 3
        (BitVec.ofNat 64 (t.numUnder (p.key t t.st.ctx) q (widthBytes w)))).passed) ∧
    (∀ (s t : State) (a q : Nat) (p : Place) (w : Narrow), s.Finds .load (narrowBytes w) a p t → t.Direct p false →
      reach t t.st.ctx p (narrowBytes w) = .ok q → t.hear.Room →
      exec (.lds w) s = .next (s.giveLoad t.hear p 3
        ((BitVec.ofNat (narrowBits w) (t.numUnder (p.key t t.st.ctx) q (narrowBytes w))).signExtend 64)).passed) ∧
    (∀ (s t : State) (a q : Nat) (p : Place) (w : Wide), s.Finds .load (wideBytes w) a p t → t.Direct p false →
      reach t t.st.ctx p (wideBytes w) = .ok q → inScope t.focusU p.home t.ir.sc = true → t.hear.Room →
      exec (.ldAcq w) s = .next (s.giveLoad t.hear p 3
        (BitVec.ofNat 64 (t.numUnder (p.key t t.st.ctx) q (wideBytes w)))).passed) ∧
    (∀ (s t : State) (a q : Nat) (p : Place) (i : Fin 16), s.Finds .load 16 a p t → t.Direct p false →
      reach t t.st.ctx p 16 = .ok q → t.ir.d = .x i →
      let lo := BitVec.ofNat 64 (t.numUnder (p.key t t.st.ctx) q 16)
      let hi := BitVec.ofNat 64 (t.numUnder (p.key t t.st.ctx) q 16 / 2 ^ 64)
      exec .ldp128 s = .next (if p.near then (t.hear.fly 3 (.x i) lo).fly 3 (.x (i + 1)) hi
        else takeBack s (landLong [(.x i, lo), (.x (i + 1), hi)] t.hear)).passed)) ∧
  (∀ (s t : State) (a q : Nat) (p : Place), s.Finds .load 1 a p t →
      let num := fun q n => t.numUnder (p.key t t.st.ctx) q n
      (formatOf p.tag = .raw → exec .ldd s = .next (s.trapHere { cause := .fmtRaw, addr := BitVec.ofNat 64 a })) ∧
      (∀ f, formatOf p.tag = .b8 f → slotOf p.tag p.inFrame = none →
        exec .ldd s = .next (s.trapHere { cause := .fmtSlot, addr := BitVec.ofNat 64 a })) ∧
      (t.Direct p false → t.hear.Room →
        (formatOf p.tag = .fp32 → a % 4 = 0 → reach t t.st.ctx p 4 = .ok q →
          exec .ldd s = .next (s.giveLoad t.hear p 6 (BitVec.ofNat 64 (num q 4))).passed) ∧
        (formatOf p.tag = .fp16 → a % 2 = 0 → reach t t.st.ctx p 2 = .ok q →
          exec .ldd s = .next (s.giveLoad t.hear p 6 (BitVec.ofNat 64 (widen16 fp16 (num q 2)))).passed) ∧
        (formatOf p.tag = .bf16 → a % 2 = 0 → reach t t.st.ctx p 2 = .ok q →
          exec .ldd s = .next (s.giveLoad t.hear p 6 (BitVec.ofNat 64 (widen16 bf16 (num q 2)))).passed) ∧
        (∀ f i c r, formatOf p.tag = .b8 f → slotOf p.tag p.inFrame = some (i, c) → reach t t.st.ctx p 1 = .ok q →
          reach t t.st.ctx (p.shift ((c : Int) - (p.inFrame : Nat))) 1 = .ok r →
          exec .ldd s = .next
            (s.giveLoad t.hear p 6 (BitVec.ofNat 64 (round32 (scaledValue f (num q 1) (num r 1)) false))).passed)))

/-- R222 to R224, R226: stores performed through L at issue, or sent to HBM as a long load and performed at their home when
the wait is over: the bytes of D, a pair, or a half or quarter of a byte, at the place and nowhere else, under the context's
key (R199). What a store leaves: in a canonical memory, the bytes it writes read back as the low bytes of the number, least significant first,
under the key they were written under too, and every other byte, every full/empty bit, frame tag and poisoned unit is as
before (R2, R223). A releasing store waits first for what its strand has outstanding, and raises STORE.REFUSED for the
earliest write refused, with nothing of its own done (R210, R213). -/
def Obligations.Stores : Prop :=
  ((∀ (s t : State) (a q : Nat) (p : Place) (v : Word) (w : Width), s.FindsD .store (widthBytes w) a p v t →
      t.Direct p true →
      (p.near = true → reach t t.st.ctx p (widthBytes w) = .ok q →
        exec (.st w) s = .next (((t.under (p.key t t.st.ctx) q (widthBytes w)).storeNum true q (widthBytes w) v.toNat).learn
          (dieOf p.home) t.st.dep).passed) ∧
      (p.near = false → p.off = none → exec (.st w) s = .next (s.sentLong t p a (.store (widthBytes w) v)).passed)) ∧
    (∀ (s t : State) (a : Nat) (p : Place) (v : Word) (w : Wide), s.FindsD .store (wideBytes w) a p v t →
      inScope t.focusU p.home t.ir.sc = true →
      (∀ q, t.Direct p true → p.near = true → s.Released t.ir.sc → reach t t.st.ctx p (wideBytes w) = .ok q →
        exec (.stRel w) s = .next (((t.under (p.key t t.st.ctx) q (wideBytes w)).storeNum true q (wideBytes w)
          v.toNat).learn (dieOf p.home) t.st.dep).passed) ∧
      (t.Direct p true → p.near = false → p.off = none → s.Released t.ir.sc →
        exec (.stRel w) s = .next (s.sentLong t p a (.store (wideBytes w) v)).passed) ∧
      (s.settledIn t.ir.sc true = false → exec (.stRel w) s = .next (s.blockSlot s.focusU s.focusK)) ∧
      (∀ r ∈ s.st.refused, s.settledIn t.ir.sc true = true → (∀ x ∈ s.st.refused, x ≠ r → r.id < x.id) →
        exec (.stRel w) s = .next ((s.modSt fun st => { st with refused := [] }).trapHere
          { cause := r.cause, flags := { refused := true }, addr := r.addr, msgId := some r.pc }))) ∧
    (∀ (s t : State) (a q : Nat) (p : Place) (v : Word), s.FindsD .store 1 a p v t → t.Direct p true → p.near = true →
      reach t t.st.ctx p 1 = .ok q →
      let u := t.under (p.key t t.st.ctx) q 1
      let old := u.byte q
      let half := if v.getLsbD 8 then 4 else 0
      let quarter := 2 * (v.extractLsb' 8 2).toNat
      exec .st4 s = .next ((u.storeNum true q 1
        (old &&& ~~~((0x0F : Byte) <<< half) ||| (v.setWidth 8 &&& 0x0F) <<< half).toNat).learn (dieOf p.home) t.st.dep).passed ∧
      exec .st2 s = .next ((u.storeNum true q 1
        (old &&& ~~~((0x03 : Byte) <<< quarter) ||| (v.setWidth 8 &&& 0x03) <<< quarter).toNat).learn (dieOf p.home)
          t.st.dep).passed) ∧
    (∀ (s t : State) (a q : Nat) (p : Place) (i : Fin 16), s.Finds .store 16 a p t →
      t.Direct p true → t.ir.d = .x i →
      (p.near = true → reach t t.st.ctx p 16 = .ok q →
        exec .stp128 s = .next (((t.under (p.key t t.st.ctx) q 16).storeNum true q 16
          (t.st.x[i + 1] ++ t.st.x[i]).toNat).learn (dieOf p.home) t.st.dep).passed) ∧
      (p.near = false → p.off = none →
        exec .stp128 s = .next (s.sentLong t p a (.storePair t.st.x[i] t.st.x[i + 1])).passed))) ∧
  (∀ (s : State) (u k : Nat) (w : LongWait) (x : LongAccess), s.Waited u k w x →
    let st := (s.slot u k).st
    (∀ n v q, x.op = .mem (.store n v) [] → reach s st.ctx x.place n = .ok q →
      longCome u k w x s = (((s.under (x.place.key s st.ctx) q n).storeNum true q n v.toNat).learn
        (dieOf x.place.home) st.dep).longDone u k [] 0) ∧
    (∀ n v, x.op = .mem (.store n v) [] → reach s st.ctx x.place n = .error .memPoison →
      longCome u k w x s = ({ s with nextId := s.nextId + 1 }.refuse s.nextId x.place.home { s.sender u k with pc := w.pc }
        x.place.home x.addr .memPoison).longDone u k [] 0)) ∧
  (∀ (s : State) (takes : Bool) (q n v d : Nat) (c : Clock), s.Canonical →
      let t := (s.storeNum takes q n v).learn d c
      (∀ r, Outside q n r → t.byte r = s.byte r) ∧
      (∀ i < n, t.byte (q + i) = BitVec.ofNat 8 (v / 256 ^ i)) ∧ t.num q n = v % 256 ^ n ∧
      (∀ r, t.isFull r = s.isFull r) ∧ (∀ r, t.tag r = s.tag r) ∧ t.poison = s.poison ∧ t.seals = s.seals ∧
      t.hostMem = s.hostMem ∧
      (∀ u, t.core u = s.core u ∨ ∃ l, t.core u = { s.core u with counters := l }) ∧ t.fabric = s.fabric) ∧
  (∀ (s : State) (takes : Bool) (key : Option (BitVec 256)) (q n v : Nat), s.Canonical →
      ((s.under key q n).storeNum takes q n v).numUnder key q n = v % 256 ^ n)

/-- R227, R228: an atomic reads the old value into D and leaves its operation's result at the place, in one step: through L
at issue, else at its home when the wait of its strand is over (R145, R187), and then the strand goes on with the old value
in the register. An ord code that releases waits first for what its strand has outstanding, and raises STORE.REFUSED for the earliest write refused
(R210, R213). -/
def Obligations.Atomics : Prop :=
  (∀ (s t : State) (a q n : Nat) (p : Place) (v : Word) (od : Ord), s.FindsD .atomic n a p v t → t.Direct p true →
    inScope t.focusU p.home t.ir.sc = true → (ordReleases od = true → s.Released t.ir.sc) →
    p.near = true → reach t t.st.ctx p n = .ok q →
    let old := t.numUnder (p.key t t.st.ctx) q n
    let left := fun x : Word =>
      (((t.under (p.key t t.st.ctx) q n).storeNum false q n x.toNat).learn (dieOf p.home) t.st.dep).hear
    let done := fun x : Word => Host.Outcome.next ((left x).put 3 (BitVec.ofNat 64 old)).passed
    let m := BitVec.ofNat 64 old
    (∀ x, (left x).Room) →
    (n = 8 →
      exec (.amadd .w64 od) s = done (m + v) ∧
      exec (.amin .i od) s = done (if v.toInt < m.toInt then v else m) ∧
      exec (.amin .n od) s = done (if v < m then v else m) ∧
      exec (.amax .i od) s = done (if m.toInt < v.toInt then v else m) ∧
      exec (.amax .n od) s = done (if m < v then v else m) ∧
      exec (.aand od) s = done (m &&& v) ∧ exec (.aor od) s = done (m ||| v) ∧ exec (.axor od) s = done (m ^^^ v) ∧
      exec (.aswap od) s = done v) ∧
    (n = 4 → exec (.amadd .w32 od) s = done (((m + v).setWidth 32).setWidth 64))) ∧
  (∀ (s t : State) (a n : Nat) (p : Place) (v : Word) (od : Ord), s.FindsD .atomic n a p v t → t.Direct p true →
    inScope t.focusU p.home t.ir.sc = true → (ordReleases od = true → s.Released t.ir.sc) → p.near = false → t.Room →
    let sent := fun op : AtomOp => Host.Outcome.next (s.sentLong t p a (.atom op n v)).passed
    (∀ w, n = wideBytes w → exec (.amadd w od) s = sent .add) ∧
    (n = 8 → (∀ g, exec (.amin g od) s = sent (.min g) ∧ exec (.amax g od) s = sent (.max g)) ∧
      exec (.aand od) s = sent .and ∧ exec (.aor od) s = sent .or ∧ exec (.axor od) s = sent .xor ∧
      exec (.aswap od) s = sent .swap)) ∧
  (∀ (s : State) (u k n q : Nat) (w : LongWait) (x : LongAccess) (op : AtomOp) (v : Word) (regs : List RegName),
    s.Waited u k w x → x.op = .mem (.atom op n v) regs → regs.all (s.core u).takes = true →
    let st := (s.slot u k).st
    reach s st.ctx x.place n = .ok q →
    let old := s.numUnder (x.place.key s st.ctx) q n
    longCome u k w x s = ((((s.under (x.place.key s st.ctx) q n).storeNum false q n
      (op.apply (8 * n) old (v.toNat % 2 ^ (8 * n)))).learn (dieOf x.place.home) st.dep).longHear u k).longDone u k regs old) ∧
  (∀ (s : State) (u k v : Nat) (i : Fin 16), k < (s.core u).slots.length →
    let t := s.longDone u k [.x i] v
    (t.slot u k).st = { (s.slot u k).st with x := (s.slot u k).st.x.set i (word v) } ∧ (t.slot u k).long = none ∧
    (t.slot u k).mode = (if (s.slot u k).mode = .waiting then .issuing else (s.slot u k).mode)) ∧
  (∀ (s t : State) (a q : Nat) (p : Place) (i : Fin 16) (w : Wide) (od : Ord), s.Finds .atomic (wideBytes w) a p t →
    t.Direct p true → inScope t.focusU p.home t.ir.sc = true → (ordReleases od = true → s.Released t.ir.sc) →
    p.near = true → reach t t.st.ctx p (wideBytes w) = .ok q → t.ir.d = .x i →
    let old := BitVec.ofNat (wideBits w) (t.numUnder (p.key t t.st.ctx) q (wideBytes w))
    let u := ((if old = t.st.x[i].setWidth (wideBits w) then
        (t.under (p.key t t.st.ctx) q (wideBytes w)).storeNum false q (wideBytes w) t.st.x[i + 1].toNat else t).learn
      (dieOf p.home) t.st.dep).hear
    exec (.acas w od) s = .next (u.put 3 (old.setWidth 64)).passed) ∧
  (∀ (s t : State) (a : Nat) (p : Place) (i : Fin 16) (w : Wide) (od : Ord), s.Finds .atomic (wideBytes w) a p t →
    t.Direct p true → inScope t.focusU p.home t.ir.sc = true → (ordReleases od = true → s.Released t.ir.sc) →
    p.near = false → t.ir.d = .x i →
    exec (.acas w od) s = .next (s.sentLong t p a (.cas (wideBytes w) t.st.x[i] t.st.x[i + 1])).passed) ∧
  (∀ (s : State) (u k q : Nat) (wt : LongWait) (x : LongAccess) (w : Wide) (old new : Word) (regs : List RegName),
    s.Waited u k wt x → x.op = .mem (.cas (wideBytes w) old new) regs → regs.all (s.core u).takes = true →
    let st := (s.slot u k).st
    reach s st.ctx x.place (wideBytes w) = .ok q →
    let now := BitVec.ofNat (wideBits w) (s.numUnder (x.place.key s st.ctx) q (wideBytes w))
    longCome u k wt x s = (((if now = old.setWidth (wideBits w) then
        (s.under (x.place.key s st.ctx) q (wideBytes w)).storeNum false q (wideBytes w) new.toNat else s).learn
      (dieOf x.place.home) st.dep).longHear u k).longDone u k regs now.toNat) ∧
  (∀ (s t : State) (a n : Nat) (p : Place) (v : Word) (od : Ord) (i : Instr), s.FindsD .atomic n a p v t →
    inScope t.focusU p.home t.ir.sc = true → ordReleases od = true →
    ((n = 8 ∧ ((∃ g, i = .amin g od ∨ i = .amax g od) ∨ i = .aand od ∨ i = .aor od ∨ i = .axor od ∨ i = .aswap od)) ∨
      (∃ w, n = wideBytes w ∧ (i = .amadd w od ∨ i = .acas w od ∧ s.Finds .atomic n a p t))) →
    (s.settledIn t.ir.sc true = false → exec i s = .next (s.blockSlot s.focusU s.focusK)) ∧
    (∀ r ∈ s.st.refused, s.settledIn t.ir.sc true = true → (∀ x ∈ s.st.refused, x ≠ r → r.id < x.id) →
      exec i s = .next ((s.modSt fun st => { st with refused := [] }).trapHere
        { cause := r.cause, flags := { refused := true }, addr := r.addr, msgId := some r.pc })))

/-- R183, R192, R208, R226, R227, R228: the tests of an access at issue, in their order: alignment to its own size, region H for
full/empty forms, translation (holes, the scheduler region, ownership, pages), and the scope of a form that orders; each trap
names the address, and the instruction has no effect. -/
def Obligations.AccessFaults : Prop :=
  (∀ (s t : State) (b : Word), s.Standing → s.ReadsA b t →
    let a := s.address b
    let traps := fun (i : Instr) (c : Cause) => exec i s = .next (s.trapHere { cause := c, addr := BitVec.ofNat 64 a })
    (∀ w, a % widthBytes w ≠ 0 → traps (.ld w) .align) ∧ (∀ w, a % narrowBytes w ≠ 0 → traps (.lds w) .align) ∧
    (a % 16 ≠ 0 → traps .ldp128 .align ∧ traps .stp128 .align ∧ traps .setf .align ∧ traps .sete .align ∧
      traps .tfe .align) ∧
    (∀ w, a % wideBytes w ≠ 0 → traps (.ldfC w) .align ∧ traps (.ldfK w) .align ∧ traps (.ldAcq w) .align) ∧
    (regionOf a = .h → (a % 16 = 0 → traps .setf .feAddr ∧ traps .sete .feAddr ∧ traps .tfe .feAddr) ∧
      (∀ w, a % wideBytes w = 0 → traps (.ldfC w) .feAddr ∧ traps (.ldfK w) .feAddr)) ∧
    (∀ c, locate t t.focusU t.st.ctx a .load = .error c →
      (∀ w, a % widthBytes w = 0 → traps (.ld w) c) ∧ (∀ w, a % narrowBytes w = 0 → traps (.lds w) c) ∧ traps .ldd c ∧
      (∀ w, a % wideBytes w = 0 → traps (.ldAcq w) c ∧ (regionOf a ≠ .h → traps (.ldfC w) c ∧ traps (.ldfK w) c)) ∧
      (a % 16 = 0 → traps .ldp128 c ∧ (regionOf a ≠ .h → traps .tfe c))) ∧
    (∀ c, locate t t.focusU t.st.ctx a .store = .error c → a % 16 = 0 →
      traps .stp128 c ∧ (regionOf a ≠ .h → traps .setf c ∧ traps .sete c)) ∧
    (∀ w od, a % wideBytes w ≠ 0 → traps (.acas w od) .align) ∧
    (∀ c w od, locate t t.focusU t.st.ctx a .atomic = .error c → a % wideBytes w = 0 → traps (.acas w od) c) ∧
    (∀ p w od, locate t t.focusU t.st.ctx a .atomic = .ok p → a % wideBytes w = 0 →
      inScope t.focusU p.home t.ir.sc = false → traps (.acas w od) .scopeOut) ∧
    (∀ p w, locate t t.focusU t.st.ctx a .load = .ok p → a % wideBytes w = 0 → inScope t.focusU p.home t.ir.sc = false →
      traps (.ldAcq w) .scopeOut)) ∧
  (∀ (s t u : State) (b v : Word), s.Standing → s.ReadsA b u → src u.ir.d u = .ok (v, t) →
    let a := s.address b
    let traps := fun (i : Instr) (c : Cause) => exec i s = .next (s.trapHere { cause := c, addr := BitVec.ofNat 64 a })
    (∀ w, a % widthBytes w ≠ 0 → traps (.st w) .align) ∧
    (∀ w, a % wideBytes w ≠ 0 → traps (.stRel w) .align ∧ traps (.stf w) .align ∧ ∀ od, traps (.amadd w od) .align) ∧
    (regionOf a = .h → ∀ w, a % wideBytes w = 0 → traps (.stf w) .feAddr) ∧
    (∀ c, locate t t.focusU t.st.ctx a .store = .error c →
      (∀ w, a % widthBytes w = 0 → traps (.st w) c) ∧ traps .st4 c ∧ traps .st2 c ∧
      (∀ w, a % wideBytes w = 0 → traps (.stRel w) c ∧ (regionOf a ≠ .h → traps (.stf w) c))) ∧
    (∀ p w, locate t t.focusU t.st.ctx a .store = .ok p → a % wideBytes w = 0 → inScope t.focusU p.home t.ir.sc = false →
      traps (.stRel w) .scopeOut) ∧
    (let words := fun (od : Ord) (c : Cause) => traps (.aand od) c ∧ traps (.aor od) c ∧ traps (.axor od) c ∧
        traps (.aswap od) c ∧ ∀ g, traps (.amin g od) c ∧ traps (.amax g od) c
     (∀ od, a % 8 ≠ 0 → words od .align) ∧
     (∀ c od, locate t t.focusU t.st.ctx a .atomic = .error c →
      (a % 8 = 0 → words od c) ∧ (∀ w, a % wideBytes w = 0 → traps (.amadd w od) c)) ∧
     (∀ p od, locate t t.focusU t.st.ctx a .atomic = .ok p → inScope t.focusU p.home t.ir.sc = false →
      (a % 8 = 0 → words od .scopeOut) ∧ (∀ w, a % wideBytes w = 0 → traps (.amadd w od) .scopeOut))))

/-- R187, R190, R198, R223, R231: a store to local memory that lies at a home of the barn or at the strand's own core through
W or M leaves as a message that its strand does not wait for, and so does a sub-byte store to any home but through L; so
does every store under STAY. An access under STAY that answers leaves as a request whose reply comes to q7, at most 8 of a
core at a time. -/
def Obligations.Messages : Prop :=
  (∀ (s t : State) (a q n : Nat) (p : Place) (v : Word), s.FindsD .store n a p v t →
    ((routeOf t p = .home ∧ p.off.isSome = true ∧ settle t p = .ok q) ∨ t.ir.hd.stay = true) →
    noKey t t.st.ctx p = false → (t.st.asked.any fun x => x.writes && x.home != p.home) = false →
    let sent := fun op : MemOp => Host.Outcome.next (t.sendWrite p.home (BitVec.ofNat 64 a) false
      (.request ⟨op, BitVec.ofNat 64 a, p.place, false⟩)).passed
    (∀ w, n = widthBytes w → exec (.st w) s = sent (.store n v)) ∧
    (∀ w, n = wideBytes w → inScope t.focusU p.home t.ir.sc = true → s.Released t.ir.sc →
      exec (.stRel w) s = sent (.store n v)) ∧
    (∀ w, n = wideBytes w → regionOf a ≠ .h → exec (.stf w) s = sent (.storeFull n v))) ∧
  (∀ (s t : State) (a q : Nat) (p : Place), s.Finds .store 16 a p t →
    ((routeOf t p = .home ∧ p.off.isSome = true ∧ settle t p = .ok q) ∨ t.ir.hd.stay = true) →
    noKey t t.st.ctx p = false → (t.st.asked.any fun x => x.writes && x.home != p.home) = false →
    let sent := fun op : MemOp => Host.Outcome.next (t.sendWrite p.home (BitVec.ofNat 64 a) false
      (.request ⟨op, BitVec.ofNat 64 a, p.place, false⟩)).passed
    (∀ i, t.ir.d = .x i → exec .stp128 s = sent (.storePair t.st.x[i] t.st.x[i + 1])) ∧
    (regionOf a ≠ .h → exec .setf s = sent .setFull ∧ exec .sete s = sent .setEmpty)) ∧
  (∀ (s t : State) (a : Nat) (p : Place) (v : Word), s.FindsD .store 1 a p v t → p.near = false →
    noKey t t.st.ctx p = false → (t.st.asked.any fun x => x.writes && x.home != p.home) = false →
    let sent := fun op : MemOp => Host.Outcome.next (t.sendWrite p.home (BitVec.ofNat 64 a) false
      (.subbyte ⟨op, BitVec.ofNat 64 a, p.place, false⟩)).passed
    exec .st4 s = sent (.sub 4 (if v.getLsbD 8 then 1 else 0) v) ∧
    exec .st2 s = sent (.sub 2 (v.extractLsb' 8 2).toNat v)) ∧
  (∀ (s t : State) (a n : Nat) (p : Place), s.Finds .load n a p t → t.ir.hd.stay = true → noKey t t.st.ctx p = false →
    let asks := fun (i : Instr) (op : MemOp) (acq : Bool) =>
      (8 ≤ t.here.pending → exec i s = .next s) ∧
      (t.here.pending < 8 → exec i s = .next (t.requested p a op false acq).passed)
    (∀ w, n = widthBytes w → asks (.ld w) (.load n false) false) ∧
    (∀ w, n = narrowBytes w → asks (.lds w) (.load n true) false) ∧
    (n = 16 → asks .ldp128 .pair false) ∧
    (n = 1 → decodeTests p a = .ok () → asks .ldd .decode false) ∧
    (∀ w, n = wideBytes w → inScope t.focusU p.home t.ir.sc = true → asks (.ldAcq w) (.load n false) true) ∧
    (∀ w, n = wideBytes w → regionOf a ≠ .h → asks (.ldfC w) (.take n true) false ∧ asks (.ldfK w) (.take n false) false) ∧
    (n = 16 → regionOf a ≠ .h → asks .tfe .testFull false)) ∧
  (∀ (s t : State) (a n : Nat) (p : Place) (v : Word) (od : Ord), s.FindsD .atomic n a p v t → t.ir.hd.stay = true →
    noKey t t.st.ctx p = false → inScope t.focusU p.home t.ir.sc = true → (ordReleases od = true → s.Released t.ir.sc) →
    let asks := fun (i : Instr) (op : MemOp) =>
      (8 ≤ t.here.pending → exec i s = .next s) ∧
      (t.here.pending < 8 → exec i s = .next (t.requested p a op true (ordAcquires od)).passed)
    (∀ w, n = wideBytes w → asks (.amadd w od) (.atom .add n v)) ∧
    (n = 8 → (∀ g, asks (.amin g od) (.atom (.min g) 8 v) ∧ asks (.amax g od) (.atom (.max g) 8 v)) ∧
      asks (.aand od) (.atom .and 8 v) ∧ asks (.aor od) (.atom .or 8 v) ∧ asks (.axor od) (.atom .xor 8 v) ∧
      asks (.aswap od) (.atom .swap 8 v))) ∧
  (∀ (s t : State) (a : Nat) (p : Place) (i : Fin 16) (w : Wide) (od : Ord), s.Finds .atomic (wideBytes w) a p t →
    t.ir.hd.stay = true → noKey t t.st.ctx p = false → inScope t.focusU p.home t.ir.sc = true →
    (ordReleases od = true → s.Released t.ir.sc) → t.ir.d = .x i → t.here.pending < 8 →
    exec (.acas w od) s = .next
      (t.requested p a (.cas (wideBytes w) t.st.x[i] t.st.x[i + 1]) true (ordAcquires od)).passed)

/-- R98, R149, R158, R187, R189, R253: an access whose home is reached neither through L nor in the barn migrates its
strand, whichever form it is but a sub-byte store: not from a handler, not with a pending guard, not a member outside its
group's yard; then it waits for the strand's earlier writes, requests and commands and for a free forwarding entry; and then
the strand leaves for its home with its issue undone, to run the instruction again there. That HND.MIG comes before
GUARD.MIG and GROUP.YARD is the model's choice (log 72, DESIGN CHOICE). -/
def Obligations.Migration : Prop :=
  ∀ (s : State) (home : Nat),
    let goes := fun i : Instr =>
      (s.me.mode = .handler → exec i s = .next (s.trapHere { cause := .hndMig })) ∧
      (s.me.mode ≠ .handler →
        ((∃ g, s.st.guard g = .p) → exec i s = .next (s.trapHere { cause := .guardMig })) ∧
        ((∀ g, s.st.guard g ≠ .p) →
          (s.memberMay home = false → exec i s = .next (s.trapHere { cause := .groupYard })) ∧
          (s.memberMay home = true →
            let free := s.here.forwards.length < 64 ∨ ∃ f ∈ s.here.forwards, f.isOf s.st = true
            (s.mayEnd s.focusU s.focusK = true → free → exec i s = .next (s.sendMigrant s.focusU s.focusK home)) ∧
            (s.mayEnd s.focusU s.focusK = false ∨ ¬ free → exec i s = .next (s.blockSlot s.focusU s.focusK)))))
    (∀ (t : State) (a n : Nat) (p : Place), s.Finds .load n a p t → routeOf t p = .away → p.home = home →
      (∀ w, n = widthBytes w → goes (.ld w)) ∧ (∀ w, n = narrowBytes w → goes (.lds w)) ∧ (n = 16 → goes .ldp128) ∧
      (n = 1 → decodeTests p a = .ok () → goes .ldd) ∧
      (∀ w, n = wideBytes w → inScope t.focusU p.home t.ir.sc = true → goes (.ldAcq w)) ∧
      (∀ w, n = wideBytes w → regionOf a ≠ .h → goes (.ldfC w) ∧ goes (.ldfK w)) ∧
      (n = 16 → regionOf a ≠ .h → goes .tfe)) ∧
    (∀ (t : State) (a n : Nat) (p : Place) (v : Word), s.FindsD .store n a p v t → routeOf t p = .away → p.home = home →
      (∀ w, n = widthBytes w → goes (.st w)) ∧
      (∀ w, n = wideBytes w → inScope t.focusU p.home t.ir.sc = true → s.Released t.ir.sc → goes (.stRel w)) ∧
      (∀ w, n = wideBytes w → regionOf a ≠ .h → goes (.stf w))) ∧
    (∀ (t : State) (a : Nat) (p : Place), s.Finds .store 16 a p t → routeOf t p = .away → p.home = home →
      goes .stp128 ∧ (regionOf a ≠ .h → goes .setf ∧ goes .sete)) ∧
    (∀ (t : State) (a n : Nat) (p : Place) (v : Word) (od : Ord), s.FindsD .atomic n a p v t → routeOf t p = .away →
      p.home = home → inScope t.focusU p.home t.ir.sc = true → (ordReleases od = true → s.Released t.ir.sc) →
      (∀ w, n = wideBytes w → goes (.amadd w od)) ∧
      (n = 8 → (∀ g, goes (.amin g od) ∧ goes (.amax g od)) ∧ goes (.aand od) ∧ goes (.aor od) ∧ goes (.axor od) ∧
        goes (.aswap od))) ∧
    (∀ (t : State) (a : Nat) (p : Place) (w : Wide) (od : Ord), s.Finds .atomic (wideBytes w) a p t → routeOf t p = .away →
      p.home = home → inScope t.focusU p.home t.ir.sc = true → (ordReleases od = true → s.Released t.ir.sc) →
      goes (.acas w od))

/-- R192, R193, R230, R231: full/empty forms in L or at their home: a load is sent, and its strand waits for it; when its
home performs it, it takes a full granule, and empties it or leaves it; one that finds it empty registers at its home and
waits there, and completes with the value it is given, or traps with the fault found; stores through L
fill at issue (those to a home of the barn or to the strand's own core through W or M leave as messages: see Messages),
`setf` and `sete` set the bit, `tfe` reads it. -/
def Obligations.FullEmpty : Prop :=
  (∀ (s t : State) (a : Nat) (p : Place) (w : Wide) (take : Bool), s.Finds .load (wideBytes w) a p t → regionOf a ≠ .h →
    t.Direct p take → t.Room →
    exec (if take then Instr.ldfC w else .ldfK w) s = .next (s.sentLong t p a (.take (wideBytes w) take)).passed) ∧
  (∀ (s : State) (u k n q : Nat) (w : LongWait) (x : LongAccess) (take : Bool) (regs : List RegName), s.Waited u k w x →
    x.op = .mem (.take n take) regs → regs.all (s.core u).takes = true → settle s x.place = .ok q →
    let st := (s.slot u k).st
    let home := x.place.home
    let left := if take then (s.setFull q false).learn (dieOf home) st.dep else s
    (s.isFull q = true → reach s st.ctx x.place n = .ok q →
      longCome u k w x s = (left.longHear u k).longDone u k regs (s.num q n)) ∧
    (s.isFull q = false → (s.core home).waiters.length < 16 →
      let y : Waiter := ⟨⟨.take n take, x.addr, x.place.place, false⟩, { s.sender u k with pc := w.pc }, s.nextId, st.dep, true⟩
      longCome u k w x s = { (s.modCore home fun c => { c with waiters := c.waiters ++ [y] }).modSlot u k fun sl =>
        { sl with asked := true } with nextId := s.nextId + 1 }) ∧
    (s.isFull q = false → 16 ≤ (s.core home).waiters.length → longCome u k w x s = s)) ∧
  (∀ (s : State) (u k : Nat) (w : LongWait) (x : LongAccess) (op : MemOp) (regs : List RegName), x.op = .mem op regs →
    (∀ v, (s.slot u k).answer = some (.value v) → longCome u k w x s = s.longDone u k regs v.toNat) ∧
    (∀ c a d, (s.slot u k).answer = some (.fault c a d) →
      longCome u k w x s = takeTrap ((s.withdraw u k).unload u k w) u k
        { cause := c, addr := a, unit := if x.place.home = u then none else some x.place.home }) ∧
    ((s.slot u k).answer = none → (s.slot u k).asked = true → longCome u k w x s = s)) ∧
  (∀ (s v : State), s.me.asked = false → v.me.live = true → v.focusU = s.focusU → v.focusK = s.focusK →
    let t := v.modMe fun sl => { sl with taken := sl.taken ++ s.here.qs.diff v.here.qs }
    let b := t.blockSlot s.focusU s.focusK
    (v.me.asked = true → s.sendAndWait v = b.modCore s.focusU fun c => { c with turns := c.turns + 1 }) ∧
    (v.me.asked = false → s.sendAndWait v = b)) ∧
  (∀ (s t : State) (a q : Nat) (p : Place) (v : Word) (w : Wide), s.FindsD .store (wideBytes w) a p v t → regionOf a ≠ .h →
    t.Direct p true → p.near = true → reach t t.st.ctx p (wideBytes w) = .ok q →
    let u := (t.storeNum true q (wideBytes w) v.toNat).fill t.st.ctx p.home q
    exec (.stf w) s = .next ((u.learn (dieOf p.home) t.st.dep).serve p.home).passed) ∧
  (∀ (s t : State) (a q : Nat) (p : Place), s.Finds .store 16 a p t → regionOf a ≠ .h → t.Direct p true →
    p.near = true → settle t p = .ok q →
    exec .setf s = .next (((t.setFull q true).learn (dieOf p.home) t.st.dep).serve p.home).passed ∧
    exec .sete s = .next ((t.setFull q false).learn (dieOf p.home) t.st.dep).passed) ∧
  (∀ (s t : State) (a q : Nat) (p : Place), s.Finds .load 16 a p t → regionOf a ≠ .h → t.Direct p false →
    settle t p = .ok q → t.hear.Room →
    exec .tfe s = .next (s.giveLoad t.hear p 3 (if t.isFull q then 1 else 0)).passed)

/-- R203, R206, R208, R210 to R213, R229: fences. `fence.acq` makes later accesses wait for the requests outstanding in its scope, and goes
on; `fence.rel`, `fence` and `fence.total` wait until nothing of the strand is left in the scope, and `fence.total` until no
write of any scope is left; and then raise STORE.REFUSED for the earliest of the writes refused in it, each reported no
more. That `fence.total` waits for the writes of every scope is the model's inference from the causal order (log 89,
DEDUCED). -/
def Obligations.Fences : Prop :=
  ∀ s : State, s.Ready →
    let sc := fenceScope s
    let waits := fun (i : Instr) (all : Bool) =>
      (s.settledIn sc all = false → exec i s = .next (s.blockSlot s.focusU s.focusK)) ∧
      (∀ r ∈ s.st.refused, s.settledIn sc all = true → inScope s.focusU r.home sc = true →
        (∀ r' ∈ s.st.refused, inScope s.focusU r'.home sc = true → r' ≠ r → r.id < r'.id) →
        exec i s = .next ((s.modSt fun st =>
          { st with refused := st.refused.filter fun x => !inScope s.focusU x.home sc }).trapHere
            { cause := r.cause, flags := { refused := true }, addr := r.addr, msgId := some r.pc }))
    (∀ n : Fin 5, s.ir.a = .imm (BitVec.ofNat 21 n) → some sc = Scope.ofCode n) ∧
    exec .fenceAcq s = .next (s.modMe fun sl =>
      { sl with acquires := sl.acquires ++ (s.st.asked.filter fun x => inScope s.focusU x.home sc).map (·.id) }).passed ∧
    (s.Fenced sc false → exec .fenceRel s = .next s.passed ∧ exec .fence s = .next s.passed) ∧
    (s.Fenced sc true →
      (sequencerUp s = true → exec .fenceTotal s = .next s.rest.passed) ∧
      (sequencerUp s = false → exec .fenceTotal s = .next (s.blockSlot s.focusU s.focusK))) ∧
    waits .fenceRel false ∧ waits .fence false ∧ waits .fenceTotal true

/-- R194 to R197, R232 to R234: `bdecl` takes the lowest free descriptor of the home for a double buffer that stands
16-byte aligned below the scheduler region and meets no other, else it raises BUF.DECL; `bstat` reads the descriptor
over an address; the four events follow the table of R196 and raise BUF.STATE outside it; and `bpub` waits for the copy
commands registered with its buffer, changes sides and counts. Each of the six waits, at a home on another die, at the
ingress of that die for what its strand depends on, and `bstat` hears what the home's die knows (R207). A launch image's
`.buffer` declarations are made as `bdecl` makes one; that they come with the event that begins the launch, and that one
refused is left out, is the model's choice (log 88, DESIGN CHOICE). -/
def Obligations.Buffers : Prop :=
  (∀ (c : Core) (off n : Nat), declBad c off n = false ↔ off % 16 = 0 ∧ n % 16 = 0 ∧ 16 ≤ n ∧ n ≤ 0x2D800 ∧
    off + 2 * n ≤ schedBase ∧ ∀ d ∈ c.bufs.toList, Buf.decl d = true →
      off + 2 * n ≤ Buf.base d ∨ Buf.base d + 2 * Buf.size d ≤ off) ∧
  (∀ (c : Core) (i : Fin 16), c.freeBuf = some i ↔ Buf.decl c.bufs[i] = false ∧ ∀ j < i, Buf.decl c.bufs[j] = true) ∧
  (∀ (s : State) (u base n : Nat) (bufs : List (Nat × Nat)),
    (declBad (s.core u) base n = true ∨ (s.core u).freeBuf = none →
      declareAll s u ((base, n) :: bufs) = declareAll s u bufs) ∧
    (∀ i, declBad (s.core u) base n = false → (s.core u).freeBuf = some i →
      declareAll s u ((base, n) :: bufs) =
        declareAll (s.setCore u ((s.core u).setBuf i (Buf.make 0 false true 0 n base))) u bufs)) ∧
  (∀ (s t : State) (a b : Word) (u off : Nat), s.Standing → s.ReadsAB a b t →
    bufferPlace t (a.toNat % 2 ^ 56) = .ok (u, off) → t.early u false = false →
    (t.crossing t.focusU t.focusK u = true → exec .bdecl s = .next (s.blockSlot s.focusU s.focusK)) ∧
    (t.crossing t.focusU t.focusK u = false → declBad (t.core u) off b.toNat = true ∨ (t.core u).freeBuf = none →
      exec .bdecl s = .next (s.trapHere { cause := .bufDecl, addr := low 56 a, unit := t.foundAt u })) ∧
    (∀ i, t.crossing t.focusU t.focusK u = false → declBad (t.core u) off b.toNat = false → (t.core u).freeBuf = some i →
      let v := t.setCore u ((t.core u).setBuf i (Buf.make 0 false true 0 b.toNat off))
      v.Room → exec .bdecl s = .next (v.putLong (BitVec.ofNat 64 i)).passed)) ∧
  (∀ (s t : State) (a : Word) (u off : Nat), s.Standing → s.ReadsA a t →
    bufferPlace t (a.toNat % 2 ^ 56) = .ok (u, off) → t.crossing t.focusU t.focusK u = true →
    (t.early u false = false → ∀ i ∈ [Instr.bstat, .bfill, .bdrain, .bfree], exec i s = .next (s.blockSlot s.focusU s.focusK)) ∧
    (t.early u true = false → exec .bpub s = .next (s.blockSlot s.focusU s.focusK))) ∧
  (∀ (s t : State) (a : Word) (u off : Nat), s.Standing → s.ReadsA a t →
    bufferPlace t (a.toNat % 2 ^ 56) = .ok (u, off) → t.crossing t.focusU t.focusK u = false →
    let c := t.core u
    let heard := t.stepRead t.focusU t.focusK u
    (t.early u false = false → heard.Room →
      exec .bstat s = .next (heard.putLong (match c.bufAt off with | some i => c.bufs[i] | none => 0)).passed) ∧
    (c.bufAt off = none → t.early u true = false → ∀ i, i = .bfill ∨ i = .bpub ∨ i = .bdrain ∨ i = .bfree →
      exec i s = .next (s.trapHere { cause := .bufState, addr := low 56 a, unit := t.foundAt u })) ∧
    (∀ i, c.bufAt off = some i →
      let d := c.bufs[i]
      let after := fun x : Word => ((t.setCore u (c.setBuf i x)).serve u).rest.passed
      let refused := Host.Outcome.next (s.trapHere { cause := .bufState, addr := low 56 a, unit := t.foundAt u })
      (t.early u false = false →
        exec .bfill s = (if Buf.state d = 0 then .next (after (Buf.become d 1))
          else if Buf.state d = 2 then .next (after (Buf.become d 3)) else refused) ∧
        exec .bdrain s = (if Buf.state d = 2 then .next (after (Buf.become d 0))
          else if Buf.state d = 3 then .next (after (Buf.become d 1)) else refused) ∧
        exec .bfree s = (if Buf.state d = 0 ∨ Buf.state d = 2 then .next (after 0) else refused)) ∧
      (t.early u true = false →
        exec .bpub s = if Buf.state d = 1 ∨ Buf.state d = 3 then
            if (t.cores.any fun c => c.2.cmds.any fun x => x.buffer == some (u, i)) then
              .next (s.blockSlot s.focusU s.focusK)
            else .next (((t.setCore u (c.setBuf i
              (Buf.make 2 (!Buf.sel d) (Buf.decl d) (Buf.pubs d + 1) (Buf.size d) (Buf.base d)))).stepWrite t.focusU t.focusK
                u).serve u).rest.passed
          else refused)))

/-- R236, R242: on a loft core `hrd` makes its strand wait as on a long load, and when the wait is over copies 64 bytes of
HBM into local memory; `hwr` reads 64 local bytes and sends them as a write; a unit of another die draws the strand there;
`hfence` waits for the strand's pushes and `hwr` writes and gives how many were refused since the last, and stands behind
an acquire of its strand (R209). That the tests of EA come before those of Src(D) is the model's choice (log 81, DESIGN
CHOICE). -/
def Obligations.LoftTransfers : Prop :=
  (∀ (s t u : State) (a off : Nat) (b d : Word) (p : Place), s.Standing → s.ReadsA b t → a = s.address b →
    src t.ir.d t = .ok (d, u) → localSide u d.toNat = .ok off →
    (farSide t a .load = .ok p → dieOf p.home = dieOf t.focusU → noKey t t.st.ctx p = false →
      u.early p.home false = false → u.early u.focusU true = false →
      exec .hrd s = .next (sendLong ⟨.copyIn off, BitVec.ofNat 64 a, p⟩ s u).passed) ∧
    (∀ bs, farSide t a .store = .ok p → dieOf p.home = dieOf t.focusU → noKey t t.st.ctx p = false →
      u.early u.focusU false = false →
      (u.st.asked.any fun x => x.writes && x.home != p.home) = false → readRun u u.focusU off off 64 = .ok bs →
      exec .hwr s = .next (u.hear.sendWrite p.home (BitVec.ofNat 64 a) true
        (.request ⟨.storeWide (BitVec.ofNat 512 (leNat bs)), BitVec.ofNat 64 a, p.place, false⟩)).passed)) ∧
  (∀ (s t : State) (a : Nat) (b : Word) (p : Place), s.Standing → s.Whole [s.ir.a, s.ir.d] → s.ReadsA b t →
    a = s.address b →
    (farSide t a .load = .ok p → dieOf p.home ≠ dieOf t.focusU → exec .hrd s = settleRun s (migrate s p.home)) ∧
    (farSide t a .store = .ok p → dieOf p.home ≠ dieOf t.focusU → exec .hwr s = settleRun s (migrate s p.home)) ∧
    (a % 64 ≠ 0 → ∀ i, i = .hrd ∨ i = .hwr →
      exec i s = .next (s.trapHere { cause := .align, addr := BitVec.ofNat 64 a })) ∧
    (a % 64 = 0 → regionOf a ≠ .h → ∀ i, i = .hrd ∨ i = .hwr → exec i s = .next (s.trapHere
      { cause := if (localOf t.focusU a).isSome then .pushSrc else .pfHole, addr := BitVec.ofNat 64 a }))) ∧
  (∀ (s : State) (u k off q : Nat) (w : LongWait) (x : LongAccess) (ps : List Nat), s.Waited u k w x → x.op = .copyIn off →
    let st := (s.slot u k).st
    let key := x.place.key s st.ctx
    reach s st.ctx x.place 64 = .ok q → settleAll s (ownPlace s u off) 4 0 = .ok ps →
    (∀ y ∈ ps, s.anyPoison y 16 = false) →
    longCome u k w x s = ((((s.under key q 64).scatterRaw ps (s.bytesUnder key q 64)).learn (dieOf u) st.dep).longHear u k).longDone
      u k [] 0) ∧
  (∀ s : State, s.Ready →
    (s.me.acquires ≠ [] → exec .hfence s = .next s) ∧
    (s.me.acquires = [] → (∃ w ∈ s.st.writes, w.loft = true) → exec .hfence s = .next (s.blockSlot s.focusU s.focusK)) ∧
    (let t := s.modSt fun st => { st with hfRefused := 0 }
     s.me.acquires = [] → (∀ w ∈ s.st.writes, w.loft = false) → t.Room →
      exec .hfence s = .next (t.putLong (s.st.hfRefused.setWidth 64)).passed))

/-- R235, R237 to R241: pushes, of which D is read first. Lengths are 16 to 4096 bytes in granules, both addresses
granule-aligned; `push` sends one row, `push2d` a rectangle of rows and `push.fill` a pattern. Each row's source, its
destination and the reading of its source are tested in turn, a later row's after an earlier's, and all of them before
anything is sent; each row leaves as a write of the strand stamped by PFMT; after a push from HBM the strand issues again when its source can
have come. -/
def Obligations.Pushes : Prop :=
  (∀ n, pushLenBad n = false ↔ 16 ≤ n ∧ n ≤ 4096 ∧ n % 16 = 0) ∧
  (∀ (s t : State) (a b d : Word), s.Standing → s.ReadsDAB a b d t →
    let from_ := a.toNat % 2 ^ 56
    let to_ := d.toNat % 2 ^ 56
    let n := b.toNat
    let traps := fun (i : Instr) (c : Cause) (x : Word) => exec i s = .next (s.trapHere { cause := c, addr := x })
    (pushLenBad n = true → traps .push .pushLen 0 ∧ traps .pushFill .pushLen 0) ∧
    (pushLenBad n = false →
      (from_ % 16 ≠ 0 → traps .push .align (low 56 a)) ∧ (from_ % 16 = 0 → to_ % 16 ≠ 0 → traps .push .align (low 56 d)) ∧
      (to_ % 16 ≠ 0 → traps .pushFill .align (low 56 d)) ∧
      (from_ % 16 = 0 → to_ % 16 = 0 → t.early t.focusU false = false →
        ∀ v, pushDest t to_ n = .ok v → (t.st.asked.any fun x => x.writes && x.home != v) = false →
        (∀ p bs, pushSource t from_ n = .ok p → pushRead t from_ n p = .ok bs →
          let u := t.hear.sendWrite v (low 56 d) true (.push (low 56 d) bs t.stamp true)
          exec .push s = .next (if regionOf from_ = .h then u.linger else u).passed) ∧
        exec .pushFill s = .next (t.sendWrite v (low 56 d) true
          (.push (low 56 d) ((List.replicate (n / 8) (leBytes 8 a.toNat)).flatten) t.stamp true)).passed))) ∧
  (∀ (s t : State) (a b d : Word), s.Standing → s.ReadsDAB a b d t →
    let from_ := a.toNat % 2 ^ 56
    let to_ := d.toNat % 2 ^ 56
    let len := (b.extractLsb' 0 16).toNat
    let rows := (b.extractLsb' 16 16).toNat
    let sp := (b.extractLsb' 32 16).toNat
    let dp := (b.extractLsb' 48 16).toNat
    let at_ := (List.range rows).map fun i => ((from_ + i * sp) % 2 ^ 56, (to_ + i * dp) % 2 ^ 56)
    (dp % 16 ≠ 0 ∨ sp % 16 ≠ 0 ∨ rows = 0 ∨ 256 < rows ∨ pushLenBad len = true →
      exec .push2d s = .next (s.trapHere { cause := .pushLen })) ∧
    (dp % 16 = 0 → sp % 16 = 0 → 1 ≤ rows → rows ≤ 256 → pushLenBad len = false → from_ % 16 = 0 → to_ % 16 = 0 →
      t.early t.focusU false = false → ∀ ps, pushRows len none at_ t = .ok ps →
      (t.st.asked.any fun x => x.writes && ps.any fun r => r.home != x.home) = false →
      let u := ps.foldl (fun u r => u.sendWrite r.home (BitVec.ofNat 64 r.addr) true
        (.push (BitVec.ofNat 64 r.addr) r.bytes u.stamp true)) t.hear
      exec .push2d s = .next (if ∃ r ∈ at_, regionOf r.1 = .h then u.linger else u).passed)) ∧
  (∀ (n a d : Nat) (rows : List (Nat × Nat)) (t : State),
    (∀ e, pushSource t a n = .error e → pushRows n none ((a, d) :: rows) t = .error e) ∧
    (∀ p, pushSource t a n = .ok p →
      (∀ e, pushDest t d n = .error e → pushRows n none ((a, d) :: rows) t = .error e) ∧
      (∀ v, pushDest t d n = .ok v →
        (∀ e, pushRead t a n p = .error e → pushRows n none ((a, d) :: rows) t = .error e) ∧
        (∀ bs, pushRead t a n p = .ok bs → v ≠ t.focusU →
          pushRows n none ((a, d) :: rows) t = (pushRows n none rows t).map fun rs => ⟨v, d, bs⟩ :: rs)))) ∧
  (∀ (s t : State) (a : Word), s.Ready → s.ReadsA a t →
    exec .hpf s = .next t.passed ∧
    (let v := a.setWidth 9
     (v.getLsbD 8 = true → tagBad (v.setWidth 8) = true →
       exec .keysel s = .next (s.trapHere { cause := .fmtBad })) ∧
     (v.getLsbD 8 = false ∨ tagBad (v.setWidth 8) = false →
       let u := t.modMe fun sl => { sl with pfmt := v }
       u.Room → exec .keysel s = .next (u.put 1 (t.me.pfmt.setWidth 64)).passed)))

/-- R126, R132, R162 to R164: `fork`, `callat` and `send` put a record in the strand's send buffer with half its weight;
nothing leaves before the task ends. UNIT.BAD, HND.IDX, REC.BAD, SEND.FULL and WGT.EXH stop them in that order with no
effect. -/
def Obligations.TaskSends : Prop :=
  ∀ (s t : State), s.Ready →
    let traps := fun (i : Instr) (c : Cause) => exec i s = .next (s.trapHere { cause := c })
    let args := #v[t.st.x[0], t.st.x[1], t.st.x[2], t.st.x[3]]
    let bad := fun (code budget : Word) => budget = 0 ∨ 2 ^ 32 ≤ budget.toNat ∨ code.toNat % 4 ≠ 0 ∨ 2 ^ 56 ≤ code.toNat
    let half := BitVec.ofNat 64 (t.st.wgt.toNat / 2)
    let put := fun (r : Rec) (o : Origin) (target : Nat) (idx : BitVec 8) => (t.modSt fun st =>
      { st with sends := st.sends ++ [⟨⟨r, half, o, 0, st.launch, st.ctx, st.dep, none, false, false, none⟩, target, idx⟩],
                wgt := st.wgt - half }).passed
    let full := 16 ≤ t.st.sends.length
    let rec_ := fun (code budget : Word) => (⟨budget.setWidth 32, t.st.key, args, 0, t.st.x[14], code⟩ : Rec)
    let far := fun d : Word => 2 ^ 21 ≤ d.toNat ∨ isWorker d.toNat = false ∨ t.owner d.toNat ≠ some t.st.ctx
    (∀ a b, s.ReadsAB a b t →
      (bad a b → traps .fork .recBad) ∧
      (¬ bad a b → full → traps .fork .sendFull) ∧
      (¬ bad a b → ¬ full → t.st.wgt.toNat < 2 → traps .fork .wgtExh) ∧
      (¬ bad a b → ¬ full → 2 ≤ t.st.wgt.toNat → exec .fork s = .next (put (rec_ a b) .fork 0 0))) ∧
    (∀ a b d, s.ReadsABD a b d t →
      (far d → traps .callat .unitBad) ∧
      (¬ far d → (bad a b → traps .callat .recBad) ∧
        (¬ bad a b → full → traps .callat .sendFull) ∧
        (¬ bad a b → ¬ full → t.st.wgt.toNat < 2 → traps .callat .wgtExh) ∧
        (¬ bad a b → ¬ full → 2 ≤ t.st.wgt.toNat → exec .callat s = .next (put (rec_ a b) .callat d.toNat 0)))) ∧
    (∀ u a d, s.ReadsA a u → src u.ir.d u = .ok (d, t) →
      (far d → traps .send .unitBad) ∧
      (¬ far d → (256 ≤ a.toNat → traps .send .hndIdx) ∧
        (a.toNat < 256 → (full → traps .send .sendFull) ∧
          (¬ full → t.st.wgt.toNat < 2 → traps .send .wgtExh) ∧
          (¬ full → 2 ≤ t.st.wgt.toNat → exec .send s = .next
            (put ⟨0, 0, args, 0, t.st.x[14], 0⟩ .send d.toNat (a.setWidth 8))))))

/-- R130, R132, R146, R165, R213, R253: `done` waits for what its strand has outstanding. Then in a handler the task is dropped,
its buffered sends with it, and all its weight goes back; otherwise a refused write raises STORE.REFUSED, and else its
unread queue entries are discarded and counted, and once its forks fit the buffered entries leave in program order, forks to the deque and messages to their targets, the task's own weight goes
back to the hub, and the slot is EMPTY. That no buffered entry leaves before all forks fit, the unread entries being discarded
and the guards resolved meanwhile, is the model's choice (log 86, DESIGN CHOICE), and so is that a fork of a strand on a loft
core is queued there (log 87, DESIGN CHOICE). -/
def Obligations.TaskEnd : Prop :=
  (∀ s : State, s.Ready →
    let t := s.modCore s.focusU fun c => c.endGuards s.focusK
    (t.mayEnd t.focusU t.focusK = false → exec .done s = .next (t.blockSlot t.focusU t.focusK)) ∧
    (t.mayEnd t.focusU t.focusK = true →
      (t.me.mode = .handler → exec .done s = .next
        (((t.sendWeight t.focusU t.focusK (t.st.wgt + t.st.sendWeight)).turn t.focusU).endStrand t.focusU t.focusK)) ∧
      (t.me.mode ≠ .handler →
        (∀ r ∈ t.st.refused, (∀ q ∈ t.st.refused, q ≠ r → r.id < q.id) →
          exec .done s = .next ((t.modSt fun st => { st with refused := [] }).trapHere
            { cause := r.cause, flags := { refused := true }, addr := r.addr, msgId := some r.pc })) ∧
        (t.st.refused = [] →
          let fits := t.here.ready.length + (t.here.deque.length +
            (t.st.sends.filter fun e => e.q.origin == .fork).length - 16) ≤ readyRoom
          let v := t.discardEntries t.focusU t.focusK
          (fits → exec .done s = .next
            ((((releaseAll t.focusU t.focusK t.st.sends v).sendWeight t.focusU t.focusK t.st.wgt).turn t.focusU).endStrand
              t.focusU t.focusK)) ∧
          (¬ fits → exec .done s = .next (v.blockSlot t.focusU t.focusK)))))) ∧
  (∀ (u k : Nat) (e : SendEntry) (es : List SendEntry) (s : State),
    let q := { e.q with dep := (s.slot u k).st.dep }
    let id := BitVec.ofNat 64 (u * 2 ^ 32 + (s.core u).msgSerial.toNat)
    let next := s.modCore u fun c => { c with msgSerial := c.msgSerial + 1 }
    (e.q.origin = .fork → releaseAll u k (e :: es) s = releaseAll u k es (s.modCore u fun c => c.pushDeque q)) ∧
    (e.q.origin = .callat → releaseAll u k (e :: es) s =
      releaseAll u k es (next.postPlain u k e.target (.callat { q with msgId := id }))) ∧
    (e.q.origin = .send → releaseAll u k (e :: es) s =
      releaseAll u k es (next.postPlain u k e.target (.send { q with msgId := id } e.index))))

/-- R147, R148, R161, R166 to R168: `jinit` arms a FREE or RELEASED cell with a count, its launch, a good record of the
same home and half its strand's weight, in one step at the cell's home that waits for the strand's earlier stores and
atomics, for its requests to that home and at the ingress of its die; an address that no home answers for is the fault of
that translation. `jarv` sends an arrival and goes on, and one at no cell is reported, HBM being no place of one; `wmint`
adds to the strand's weight and to ISSUED at once. The model's choices: an arrival at an address that is none is refused as
on a FREE cell (log 17), and alignment is tested before the homes are found (log 83). -/
def Obligations.JoinCells : Prop :=
  (∀ (s t : State) (a b d : Word) (pc pr : Place) (qc : List Nat) (bs : List Byte), s.Standing → s.ReadsDAB a b d t →
    d.toNat % 32 = 0 → d.toNat < 2 ^ 56 → a.toNat % 64 = 0 → a.toNat < 2 ^ 56 → 1 ≤ b.toNat → b.toNat < 2 ^ 32 →
    locate t t.focusU t.st.ctx d.toNat .atomic = .ok pc → locate t t.focusU t.st.ctx a.toNat .load = .ok pr →
    pc.home = pr.home → pc.off.isSome = true → pr.off.isSome = true → 2 ≤ t.st.wgt.toNat →
    (t.early pc.home true = true ∨ t.crossing t.focusU t.focusK pc.home = true →
      exec .jinit s = .next (s.blockSlot s.focusU s.focusK)) ∧
    (t.early pc.home true = false → t.crossing t.focusU t.focusK pc.home = false →
      readAll t t.st.ctx pr 4 = .ok bs → (Rec.ofNum (leNat bs)).bad = false → reachAll t t.st.ctx pc 2 = .ok qc →
      let state := leNat (t.gather qc) % 2 ^ 32
      (state = 0 ∨ state = 2 →
        let h := t.st.wgt.toNat / 2
        let u := ((t.scatterRaw qc (leBytes 32 (1 + b.toNat * 2 ^ 64 + t.st.launch.toNat * 2 ^ 96 + a.toNat * 2 ^ 128 +
          h * 2 ^ 192))).stepWrite t.focusU t.focusK pc.home).stepRead t.focusU t.focusK pc.home
        exec .jinit s = .next (u.modSt fun st => { st with wgt := t.st.wgt - BitVec.ofNat 64 h }).rest.passed) ∧
      (state = 1 ∨ 3 ≤ state →
        exec .jinit s = .next (s.trapHere { cause := .joinState, addr := d, unit := t.foundAt pc.home })))) ∧
  (∀ (s t : State) (a b d : Word), s.Standing → s.ReadsDAB a b d t →
    let traps := fun c x => exec .jinit s = .next (s.trapHere { cause := c, addr := low 56 x })
    let cell := locate t t.focusU t.st.ctx (d.toNat % 2 ^ 56) .atomic
    let rec_ := locate t t.focusU t.st.ctx (a.toNat % 2 ^ 56) .load
    (d.toNat % 32 ≠ 0 ∨ a.toNat % 64 ≠ 0 → traps .joinAddr d) ∧
    (d.toNat % 32 = 0 → a.toNat % 64 = 0 →
      (∀ c, cell = .error c → traps c d) ∧
      (∀ pc, cell = .ok pc → (∀ c, rec_ = .error c → traps c a) ∧
        (∀ pr, rec_ = .ok pr → pc.home ≠ pr.home ∨ b = 0 ∨ 2 ^ 32 ≤ b.toNat ∨ 2 ^ 56 ≤ d.toNat ∨ 2 ^ 56 ≤ a.toNat ∨
          pc.off = none ∨ pr.off = none → traps .joinAddr d)))) ∧
  (∀ (s t : State) (a : Word), s.Standing → s.ReadsA a t → (∀ x ∈ t.st.asked, x.writes = false) →
    let refused := exec .jarv s = .next (report t t.focusU t.self { cause := .joinState, addr := a }).passed
    (a.toNat % 32 ≠ 0 ∨ 2 ^ 56 ≤ a.toNat → t.st.writes = [] → refused) ∧
    (a.toNat % 32 = 0 → a.toNat < 2 ^ 56 →
      (∀ p, locate t t.focusU t.st.ctx a.toNat .atomic = .ok p →
        (p.off.isSome = true → exec .jarv s = .next (t.sendWrite p.home a false (.arrival a)).passed) ∧
        (p.off = none → t.st.writes = [] → refused)) ∧
      (∀ c, locate t t.focusU t.st.ctx a.toNat .atomic = .error c →
        (c = .pfHole → t.st.writes = [] → refused) ∧
        (c ≠ .pfHole → exec .jarv s = .next (s.trapHere { cause := c, addr := a }))))) ∧
  (∀ (s t : State) (a : Word), s.Ready → s.ReadsA a t →
    (2 ^ 64 ≤ t.st.wgt.toNat + a.toNat → exec .wmint s = .next (s.trapHere { cause := .wgtOvf })) ∧
    (t.st.wgt.toNat + a.toNat < 2 ^ 64 →
      exec .wmint s = .next ((t.issue t.st.launch a).modSt fun st => { st with wgt := st.wgt + a }).rest.passed))

/-- R149, R169, R170, R203: `gform` places its members on the owned cores of the yard in turn, from its own barn's first
core on, with equal shares of half its weight, once its strand's earlier writes have been performed, and `gleave` gives a
member a serial of its core. The model's choices: a formed member is of origin FORK (log 40), the messages that a strand has
outstanding take its new STRID as it leaves (log 49), and a ninth member for a core whose inbound strand queue holds 8 waits
as a message of the maker's (log 75). -/
def Obligations.Groups : Prop :=
  (∀ (s t u : State) (a b : Word) (r : Rec), s.Standing → s.ReadsAB a b t → readRec t (a.toNat % 2 ^ 56) = .ok (r, u) →
    let n := b.toNat
    let each := u.st.wgt.toNat / 2 / n
    let traps := fun c : Cause => exec .gform s = .next (s.trapHere { cause := c })
    (r.bad = true → traps .recBad) ∧
    (r.bad = false →
      (n = 0 ∨ 256 < n → traps .groupSize) ∧
      (1 ≤ n → n ≤ 256 → (isCompute u.focusU = false → traps .groupYard) ∧
        (isCompute u.focusU = true → (u.hasGroup u.st.launch = true → traps .groupBusy) ∧
          (u.hasGroup u.st.launch = false → (each = 0 → traps .wgtExh) ∧
            (1 ≤ each → u.st.writes ≠ [] ∨ (∃ x ∈ u.st.asked, x.writes = true) →
              exec .gform s = .next (s.blockSlot s.focusU s.focusK)) ∧
            (1 ≤ each → u.st.writes = [] → (∀ x ∈ u.st.asked, x.writes = false) →
              let own := ownedCores u u.st.ctx (dieOf u.focusU)
              let cs := if own = [] then [u.focusU] else
                own.filter (fun v => decide (barnOf u.focusU ≤ v)) ++ own.filter (fun v => decide (v < barnOf u.focusU))
              let q : Queued := ⟨r, BitVec.ofNat 64 each, .fork, 0, u.st.launch, u.st.ctx, u.st.dep, none, false, false, none⟩
              exec .gform s = .next ((formGroup u u.focusU u.self u.st.launch (dieOf u.focusU) n cs q).modSt fun st =>
                { st with wgt := st.wgt - BitVec.ofNat 64 (n * each) }).rest.passed)))))) ∧
  (∀ (src : Nat) (w : Sender) (cs : List Nat) (q : Queued) (i : Nat) (is : List Nat) (s : State),
    let v := cs.getD (i % cs.length) 0
    let x : Inbound := .member { q with member := some i }
    placeMembers src w cs q (i :: is) s = placeMembers src w cs q is
      (if (s.core v).inbound.length < 8 then (s.learnFrom src v q.dep).modCore v fun c => { c with inbound := c.inbound ++ [x] }
        else s.post src v w q.dep none (.member x))) ∧
  (∀ s : State, s.Ready →
    (s.st.member = none → exec .gleave s = .next (s.trapHere { cause := .groupNone })) ∧
    (∀ m, s.st.member = some m →
      (s.here.freeSerial = none → exec .gleave s = .next (s.blockSlot s.focusU s.focusK)) ∧
      (∀ n, s.here.freeSerial = some n →
        let t := ((s.modCore s.focusU fun c => c.setSerial n).leaveGroup s.st.launch m).renumber s.self
          (freeStrid s.focusU n)
        exec .gleave s = .next (t.modSt fun st => { st with
          member := none, strid := freeStrid s.focusU n, numbered := some (s.focusU, n) }).rest.passed)))

/-- R171 to R173, R414: barriers. An arrival sets its strand's bit and gives the phase it arrived in, a drop leaves the
members; the phase moves on when all have arrived; a wait holds until the phase differs from its operand, a query reads the
phase and the members still to come. Each is one step at the object's home that comes after the strand's earlier accesses in
its way, and finds the object as they left it; BAR.ADDR and BAR.OVER stop them, the record naming that home, and so does an
address that no home answers for. That bits 63:56 misplace an object, and are tested with its alignment before its home is
found, is the model's choice (log 83, DESIGN CHOICE). -/
def Obligations.Barriers : Prop :=
  (∀ (s t : State) (a : Word) (p : Place), s.Standing → s.ReadsA a t → barrierPlace t a.toNat = .ok p →
    let cross := t.crossing t.focusU t.focusK p.home
    (t.early p.home true = true ∨ cross = true → ∀ j, j = .barArv ∨ j = .barDrop →
      exec j s = .next (s.blockSlot s.focusU s.focusK)) ∧
    (t.early p.home true = false → cross = false → ∀ q b, barrierAt t p a.toNat = .ok (q, b) →
      let i := t.st.strid.toNat - b.base
      let overrun := t.st.strid.toNat < b.base ∨ 47 < i ∨ b.member.testBit i = false ∨ b.arrived.testBit i = true
      (overrun → ∀ j, j = .barArv ∨ j = .barDrop →
        exec j s = .next (s.trapHere { cause := .barOver, addr := a, unit := t.foundAt p.home })) ∧
      (¬ overrun →
        let move := fun b : Barrier =>
          if b.arrived = b.member then { b with arrived := 0, phase := (b.phase + 1) % 2 ^ 16 } else b
        let left := fun c : Barrier => ((t.storeNum false q 16
          (c.member + c.arrived * 2 ^ 48 + c.phase * 2 ^ 96 + c.base * 2 ^ 120)).stepWrite t.focusU t.focusK p.home).stepRead
            t.focusU t.focusK p.home
        let come := left (move { b with arrived := b.arrived ||| 2 ^ i })
        let gone := left (move { b with member := b.member - 2 ^ i })
        (come.Room → exec .barArv s = .next (come.putLong (BitVec.ofNat 64 b.phase)).passed) ∧
        (gone.Room → exec .barDrop s = .next (gone.putLong (BitVec.ofNat 64 b.phase)).passed))) ∧
    (t.early p.home false = true → exec .barQry s = .next s) ∧
    (t.early p.home false = false → cross = false → ∀ q b, barrierAt t p a.toNat = .ok (q, b) →
      let u := t.stepRead t.focusU t.focusK p.home
      u.Room → exec .barQry s = .next (u.putLong
        (BitVec.ofNat 64 (b.phase * 2 ^ 48 + (b.member - (b.member &&& b.arrived))))).passed) ∧
    (∀ q, objectAt t p a.toNat 16 = .ok q → Barrier.ofNum (t.num q 16) = none → t.early p.home true = false → cross = false →
      ∀ j, j = .barArv ∨ j = .barDrop ∨ j = .barQry →
        exec j s = .next (s.trapHere { cause := .barAddr, addr := a, unit := t.foundAt p.home }))) ∧
  (∀ (s t : State) (a v : Word) (p : Place), s.Standing → s.ReadsAB a v t → barrierPlace t a.toNat = .ok p →
    let cross := t.crossing t.focusU t.focusK p.home
    (t.early p.home false = true → exec .barWait s = .next s) ∧
    (t.early p.home false = false → cross = false → ∀ q b, barrierAt t p a.toNat = .ok (q, b) →
      (b.phase = v.toNat % 2 ^ 16 → exec .barWait s = .next (s.blockSlot s.focusU s.focusK)) ∧
      (b.phase ≠ v.toNat % 2 ^ 16 →
        exec .barWait s = .next (t.stepRead t.focusU t.focusK p.home).rest.passed))) ∧
  (∀ (s t : State) (a : Word), s.Standing → s.ReadsA a t →
    ∀ j, j = .barArv ∨ j = .barDrop ∨ j = .barQry →
    let traps := fun c => exec j s = .next (s.trapHere { cause := c, addr := a })
    (a.toNat % 16 ≠ 0 ∨ 2 ^ 56 ≤ a.toNat → traps .barAddr) ∧
    (a.toNat % 16 = 0 → a.toNat < 2 ^ 56 →
      (∀ c, locate t t.focusU t.st.ctx a.toNat .atomic = .error c → traps c) ∧
      (∀ p, locate t t.focusU t.st.ctx a.toNat .atomic = .ok p → p.off = none → traps .barAddr)))

/-- R156, R174, R175: handler entries are set, locked and unlocked by index; a locked one yields only to its holder, which
unlocks it by setting it; messages parked for it are then dispatched. A lock that has stood for 64 cycles has lapsed, the
state before it stands, and the next `hset` or `hunlock` of its holder there finds that it holds it no longer. `sdom` reads
and replaces the stealing domain of its launch. That the 64 cycles are those of the model's own count is its choice (log 7,
DESIGN CHOICE), and that the record of HND.LOCK names the hub is its reading (log 85, DEDUCED). -/
def Obligations.HandlerTable : Prop :=
  (∀ (s : State) (ctx : BitVec 12) (i : Nat),
    let e := (s.context ctx).handler i
    (∀ h n, e.lock = some (h, n) → n + 64 ≤ s.now → s.lapseLock ctx i = dispatchParked
      (s.setHandler ctx i { e with lock := none, lapsed := h :: e.lapsed.filter (· != h) }) ctx i) ∧
    ((∀ h n, e.lock = some (h, n) → s.now < n + 64) → s.lapseLock ctx i = s)) ∧
  (∀ (s t : State) (a : Word), s.Ready → s.ReadsA a t →
    let i := a.toNat
    let v := s.lapseLock s.st.ctx i
    let u := t.lapseLock s.st.ctx i
    let e := (u.context s.st.ctx).handler i
    (256 ≤ i → exec .hlock s = .next (s.trapHere { cause := .hndIdx }) ∧
      exec .hunlock s = .next (s.trapHere { cause := .hndIdx })) ∧
    (i < 256 → u.st.ctx = s.st.ctx →
      (e.lock ≠ none → exec .hlock s = .next (s.trapHere { cause := .hndLock, unit := some mgmtUnit })) ∧
      (e.lock = none → exec .hlock s = .next
        (u.setHandler s.st.ctx i { e with lock := some (⟨u.st.launch, u.st.strid⟩, u.now) }).rest.passed) ∧
      (v.holder ∉ e.lapsed →
        (∀ n, e.lock = some (v.holder, n) → exec .hunlock s = .next
          (dispatchParked (u.setHandler s.st.ctx i { e with lock := none }) s.st.ctx i).rest.passed) ∧
        ((∀ n, e.lock ≠ some (v.holder, n)) →
          exec .hunlock s = .next (s.trapHere { cause := .hndLock, unit := some mgmtUnit }))) ∧
      (v.holder ∈ e.lapsed → exec .hunlock s = .next ((v.setHandler s.st.ctx i
        { e with lapsed := e.lapsed.filter (· != v.holder) }).trapHere { cause := .hndLock, unit := some mgmtUnit }))) ∧
    (s.me.acquires = [] → 4 ≤ i → exec .sdom s = .next (s.trapHere { cause := .domBad })) ∧
    (∀ x, s.me.acquires = [] → i < 4 → t.launch t.st.launch = some x →
      let u := t.setLaunch t.st.launch { x with domain := BitVec.ofNat 3 i }
      u.Room → exec .sdom s = .next (u.putLong (x.domain.setWidth 64)).passed)) ∧
  (∀ (s t : State) (a b : Word), s.Standing → s.ReadsAB a b t →
    let i := a.toNat
    let v := s.lapseLock t.st.ctx i
    let w := t.lapseLock t.st.ctx i
    (256 ≤ i → exec .hset s = .next (s.trapHere { cause := .hndIdx })) ∧
    (∀ r u, i < 256 → (b = 0 ∧ r = Rec.zero ∧ u = w) ∨ (b ≠ 0 ∧ readRec w (b.toNat % 2 ^ 56) = .ok (r, u)) →
      let e := (u.context t.st.ctx).handler i
      let new := { e with valid := b != 0, code := r.code, budget := r.budget, key := r.dkey }
      (b ≠ 0 → r.bad = true → exec .hset s = .next (s.trapHere { cause := .recBad })) ∧
      (b = 0 ∨ r.bad = false → v.holder ∉ e.lapsed →
        (e.lock = none → exec .hset s = .next (u.setHandler t.st.ctx i new).rest.passed) ∧
        (∀ n, e.lock = some (v.holder, n) → exec .hset s = .next
          (dispatchParked (u.setHandler t.st.ctx i { new with lock := none }) t.st.ctx i).rest.passed) ∧
        (∀ h n, e.lock = some (h, n) → h ≠ v.holder →
          exec .hset s = .next (s.trapHere { cause := .hndLock, unit := some mgmtUnit }))) ∧
      (b = 0 ∨ r.bad = false → v.holder ∈ e.lapsed → exec .hset s = .next ((v.setHandler t.st.ctx i
        { e with lapsed := e.lapsed.filter (· != v.holder) }).trapHere { cause := .hndLock, unit := some mgmtUnit }))))

/-- R45, R149, R248 to R251, R256 to R268: a vector command that touches no memory is accepted with its operands captured,
its guard's resolution awaited while that is pending; VTYPE.BAD, VIDX.BAD and VSHAPE.BAD stop it, ENG.OWN stops every
engine row first, and a full queue holds it at issue. -/
def Obligations.VectorCommands : Prop :=
  (∀ (s : State) (a b : Word), s.Accepting 0 → scalar s.ir.a s = .ok a → scalar s.ir.b s = .ok b →
    let v := s.me.vshape
    let taken := fun i => exec i s = .next (s.took { newCmd s i .vector s.boundTo with sa := a, sb := b }).passed
    let traps := fun i c => exec i s = .next (s.trapHere { cause := c })
    (∀ i ∈ [Instr.vadd, .vsub, .vmul, .vdiv, .vfma, .vmin, .vmax, .vabs, .vneg, .vand, .vor, .vxor, .vnot, .vceq, .vcne,
      .vclt, .vcle, .vsel, .vmov, .vbcast, .vrsum, .vrmax, .mand, .mor, .mxor, .mnot, .mset, .mclr], taken i) ∧
    (∀ i ∈ [Instr.vrcp, .vrsq, .vexp2], if (vkind v).isFloat then taken i else traps i .vtypeBad) ∧
    (∀ i ∈ [Instr.vshl, .vshr, .vsar], if (vkind v).isFloat then traps i .vtypeBad else taken i) ∧
    (if 10 < b.toNat ∨ ∃ n, typeSize b.toNat = some n ∧ 512 < rowsOf v * colsOf v * n then traps .vcvt .vtypeBad
      else taken .vcvt) ∧
    (∀ i ∈ [Instr.vpush, .vpop], if b.toNat < rowsOf v * colsOf v then taken i else traps i .vidxBad) ∧
    (if colsOf v ≤ 16 then taken .vtrn else traps .vtrn .vshapeBad) ∧
    (if rowsOf v * colsOf v ≤ 256 then taken .vshf else traps .vshf .vshapeBad)) ∧
  (∀ (s : State) (i : Instr), engineForm i = true → s.me.live = true → s.me.asked = false → s.cond ≠ some false →
    engOwn s = true → exec i s = .next (s.trapHere { cause := .engOwn })) ∧
  (∀ (s : State) (a b : Word), s.me.live = true → s.cond ≠ some false → engOwn s = false →
    2 ≤ (s.here.queued 0).length → scalar s.ir.a s = .ok a → scalar s.ir.b s = .ok b →
    ∀ i ∈ [Instr.vadd, .vsub, .vmul, .vdiv, .vfma, .vmin, .vmax, .vand, .vor, .vxor, .vsel, .vmov, .mand, .mor, .mxor],
      exec i s = .next s)

/-- R249, R252, R262, R263, R267, R271, R274 to R281: commands of the vector and matrix engines with operands in barn
memory are accepted when every address, tag and buffer test of theirs has passed; and the tile commands. A command of
the array path reads its operands granule by granule, then writes its tile row by row with FINAL behind it, and then its
watermark entry once every register write of it and of the matrix commands before it is done (R272); its rows are those of the
products of A and B added to the tile, of zeros, of memory or of a register. A command of the row path follows FINAL, and
stores a row, moves it to a register, or leaves its statistics there; the entry of `rstat` waits for every matrix command
before it (R281). That `vldd` tests
the addresses of its rows, then what the rows' tags ask for, then its other addresses is the model's choice (log 50, DESIGN
CHOICE), and that a command carries the frame tags that it found at issue is its reading (log 51, DEDUCED). -/
def Obligations.MemoryAndTileCommands : Prop :=
  (∀ (s : State) (a b : Word), s.Accepting 0 → scalar s.ir.a s = .ok a → scalar s.ir.b s = .ok b →
    let take := fun i gs => s.took { newCmd s i .vector s.boundTo with sa := a, sb := b, memA := gs }
    (∀ gs, tileGrains (a.toNat % 2 ^ 56) b.toInt s = .ok gs → bufTests s gs = .ok () →
      exec .vld s = .next (take .vld gs).passed ∧ exec .vst s = .next (take .vst gs).passed) ∧
    (a.toNat % 16 = 0 → ∀ gs, grainsOf s (a.toNat % 2 ^ 56) 64 = .ok gs → bufTests s gs = .ok () →
      exec .mld s = .next (take .mld gs).passed ∧ exec .mst s = .next (take .mst gs).passed) ∧
    (a.toNat % 16 ≠ 0 → ∀ i ∈ [Instr.mld, .mst], exec i s = .next (s.trapHere { cause := .align, addr := low 56 a })) ∧
    ((vkind s.me.vshape).isFloat = false → exec .vldd s = .next (s.trapHere { cause := .vtypeBad })) ∧
    (∀ rs, (vkind s.me.vshape).isFloat = true → decodedRows s (a.toNat % 2 ^ 56) b.toInt = .ok rs →
      bufTests s (rs.map (·.2)).flatten = .ok () →
      exec .vldd s = .next (s.took { newCmd s .vldd .vector s.boundTo with
        sa := a, sb := b, memA := (rs.map (·.2)).flatten, rows := rs.map fun r => r.1.setWidth 512 }).passed)) ∧
  (∀ s : State, s.Accepting 1 →
    exec .mzero s = .next (s.took (newCmd s .mzero .array s.boundTo)).passed ∧
    (∀ a b gs, scalar s.ir.a s = .ok a → scalar s.ir.b s = .ok b → tileRows s (a.toNat % 2 ^ 56) b.toInt = .ok gs →
      bufTests s gs = .ok () →
      exec .acld s = .next (s.took { newCmd s .acld .array s.boundTo with sa := a, sb := b, memA := gs }).passed ∧
      exec .acst s = .next (s.took { newCmd s .acst .row s.boundTo with sa := a, sb := b, memA := gs }).passed) ∧
    (∀ b, scalar s.ir.b s = .ok b →
      (3 < b.toNat → exec .acmv s = .next (s.trapHere { cause := .mmaArg })) ∧
      (∀ i j, b.toNat ≤ 3 → s.ir.d = .t i → s.ir.a = .v j →
        exec .acmv s = .next (s.took { newCmd s .acmv .array s.boundTo with sb := b }).passed) ∧
      (∀ i j, b.toNat ≤ 3 → s.ir.d = .v i → s.ir.a = .t j →
        exec .acmv s = .next (s.took { newCmd s .acmv .row s.boundTo with sb := b }).passed) ∧
      exec .rstat s = .next
        (if 2 ^ 9 ≤ b.toNat ∨ (b.extractLsb' 5 3) ≠ 0 ∨ 16 < b.toNat % 32 then s.trapHere { cause := .mmaArg }
          else (s.took { newCmd s .rstat .row s.boundTo with sb := b }).passed)) ∧
    (∀ i j, s.ir.a = .v i → s.ir.b = .v j → ∀ r ∈ [Instr.mmaB8, .mmaF16, .mmaBf16],
      exec r s = .next (s.took { newCmd s r .array s.boundTo with
        sa := 0, sa2 := 0, sb := 0, sb2 := 0, memA := [], memB := [], rows := [0, 0] }).passed) ∧
    (∀ (i j : Fin 16) f,
      let p := (s.st.x[i], s.st.x[i + 1])
      let r := match f with | .b8 => Instr.mmaB8 | .f16 => .mmaF16 | .bf16 => .mmaBf16
      let x := newCmd s r .array s.boundTo
      ((s.ir.a = .x i ∧ s.ir.b = .v j) ∨ (s.ir.a = .v j ∧ s.ir.b = .x i) → descBad p = true →
        exec r s = .next (s.trapHere { cause := .mmaDesc })) ∧
      (∀ g, descBad p = false → rowTests s f p = .ok () → operandRows s f p = .ok g → bufTests s g.1 = .ok () →
        (s.ir.a = .x i → s.ir.b = .v j → exec r s = .next (s.took { x with
          sa := p.1, sa2 := p.2, sb := 0, sb2 := 0, memA := g.1, memB := [], rows := [packTags g.2, 0] }).passed) ∧
        (s.ir.a = .v j → s.ir.b = .x i → exec r s = .next (s.took { x with
          sa := 0, sa2 := 0, sb := p.1, sb2 := p.2, memA := [], memB := g.1, rows := [0, packTags g.2] }).passed))) ∧
    (∀ i j f, s.ir.a = .x i → s.ir.b = .x j →
      let pa := (s.st.x[i], s.st.x[i + 1])
      let pb := (s.st.x[j], s.st.x[j + 1])
      let r := match f with | .b8 => Instr.mmaB8 | .f16 => .mmaF16 | .bf16 => .mmaBf16
      (descBad pa ∨ descBad pb → exec r s = .next (s.trapHere { cause := .mmaDesc })) ∧
      (∀ ga gb, descBad pa = false → descBad pb = false → rowTests s f pa = .ok () → rowTests s f pb = .ok () →
        operandRows s f pa = .ok ga → operandRows s f pb = .ok gb → bufTests s (ga.1 ++ gb.1) = .ok () →
        exec r s = .next (s.took { newCmd s r .array s.boundTo with
          sa := pa.1, sa2 := pa.2, sb := pb.1, sb2 := pb.2, memA := ga.1, memB := gb.1,
          rows := [packTags ga.2, packTags gb.2] }).passed))) ∧
  (∀ (s : State) (u : Nat) (x : Cmd), s.ev = some (.engineCommandComplete u .array) → (s.core u).executing .array = some x →
    x.unit = u →
    let l := x.memA ++ x.memB
    let full := fun y : Cmd => { y with loaded := true, rows := arrayRows (s.core u) y }
    (x.loaded = true → exec .engineCommandComplete s = .next ((arrayWrite s x).getD s)) ∧
    (x.loaded = false → x.nextRead l = none → exec .engineCommandComplete s = .next ((arrayWrite s (full x)).getD s)) ∧
    (x.loaded = false → ∀ g, x.nextRead l = some g →
      (∀ y, readGranule s x g = .ok y → exec .engineCommandComplete s =
        .next (s.setCmd (if y.nextRead l = none then full y else y))) ∧
      (∀ e, readGranule s x g = .error e → exec .engineCommandComplete s = .next
        (((deferFault s x e.1 e.2).setCmd { x with loaded := true, failed := true, step := 16 }).modCore u
          fun c => { c with final := c.final.set (tileOf x.ops.d) 16 })))) ∧
  (∀ (s : State) (x : Cmd) (i : Fin 4), x.ops.d = .t i →
    let w := (s.modCore x.unit fun c =>
      { c with t := c.t.set i (setTileRow c.t[i] x.step (x.rows.getD x.step 0)),
               final := c.final.set i (BitVec.ofNat 5 (x.step + 1)) }).setCmd { x with step := x.step + 1 }
    let v := if x.step = 15 then w else s
    (x.step < 15 → arrayWrite s x = some w) ∧
    (15 ≤ x.step → x.mxcfg.getLsbD 32 = false ∨ x.present v = false → arrayWrite s x = some (retireCmd v x)) ∧
    (15 ≤ x.step → x.mxcfg.getLsbD 32 = true → x.present v = true →
      let e := watermarkEntry x
      ((v.core x.unit).tilesBefore x = true → (v.core x.unit).roomFor 4 = true →
        arrayWrite s x = some (retireCmd (appendEntry v x 4 e) x)) ∧
      ((v.core x.unit).tilesBefore x = false ∨ (v.core x.unit).roomFor 4 = false →
        arrayWrite s x = if x.step = 15 then some v else none) ∧
      e.extractLsb' 0 32 = x.dseq ∧ (e.extractLsb' 32 2).toNat = i.val ∧ e.extractLsb' 34 28 = 0 ∧
      e.getLsbD 62 = x.failed ∧ e.getLsbD 63 = true)) ∧
  (∀ (c : Core) (x : Cmd), c.tilesBefore x = true ↔ ∀ y ∈ c.cmds, queueOf y.engine = 1 → y.order < x.order →
    y.row = .acst ∨ 16 ≤ y.step) ∧
  (∀ (t : BitVec 8192) (r : BitVec 512) (i j : Nat), i < 16 → j < 16 →
    tileRow (setTileRow t i r) j = if j = i then r else tileRow t j) ∧
  (∀ (l : List Nat) (j : Nat), j < 16 → (∀ y ∈ l, y < 2 ^ 32) → rowElem (packRow l) j = l.getD j 0) ∧
  (∀ (c : Core) (x : Cmd) (t : Fin 4), x.ops.d = .t t →
    let row := fun i => (arrayRows c x).getD i 0
    let a := fun f => operand f c x.ops.a (x.mxcfg.extractLsb' 0 5).toNat (x.mxcfg.extractLsb' 16 8).toNat (x.rows.getD 0 0)
      (x.grains x.memA)
    let b := fun f => operand f c x.ops.b (x.mxcfg.extractLsb' 8 5).toNat (x.mxcfg.extractLsb' 24 8).toNat (x.rows.getD 1 0)
      (x.grains x.memB)
    (∀ p ∈ [(Instr.mmaB8, MmaFmt.b8), (.mmaF16, .f16), (.mmaBf16, .bf16)], x.row = p.1 → ∀ i < 16,
      row i = packRow ((List.range 16).map fun j =>
        groupAdd (rowElem (tileRow c.t[t] i) j) (((a p.2).getD i []).zip ((b p.2).getD j [])))) ∧
    (x.row = .mzero → ∀ i < 16, row i = 0) ∧
    (x.row = .acld → ∀ i < 16, ∀ j < 64, (row i).extractLsb' (8 * j) 8 = (bytesOf (x.grains x.memA)).getD (64 * i + j) 0) ∧
    (∀ k : Fin 16, x.row = .acmv → x.ops.a = .v k → ∀ i < 16,
      (x.sb.toNat < 2 → i / 8 ≠ x.sb.toNat → row i = tileRow c.t[t] i) ∧
      (x.sb.toNat < 2 → i / 8 = x.sb.toNat → ∀ j < 16, rowElem (row i) j = elem c.v[k] 4 (16 * (i % 8) + j)) ∧
      (x.sb = 2 → row i = packRow ((List.range 16).map fun j => widen16 fp16 (elem c.v[k] 2 (16 * i + j)))) ∧
      (x.sb = 3 → row i = packRow ((List.range 16).map fun j => widen16 bf16 (elem c.v[k] 2 (16 * i + j)))))) ∧
  (∀ (f : MmaFmt) (c : Core) (o : Opd) (fmt scale : Nat) (tags : BitVec 512) (l : List (List Byte × Nat)) (i : Nat), i < 16 →
    let row := (operand f c o fmt scale tags l).getD i []
    let code := fun k => leNat (((bytesOf l).drop (32 * i + 2 * k)).take 2)
    (∀ j : Fin 16, o = .v j →
      (f = .b8 → row = (List.range 32).map fun k => scaledValue fmt (elem c.v[j] 1 (32 * i + k)) scale) ∧
      (f = .f16 → row = (List.range 16).map fun k => valueT fp16 16 (elem c.v[j] 2 (16 * i + k))) ∧
      (f = .bf16 → row = (List.range 16).map fun k => valueT bf16 16 (elem c.v[j] 2 (16 * i + k)))) ∧
    (∀ j : Fin 16, o = .x j →
      (∀ e, f = .b8 → formatOf (tags.extractLsb' (8 * i) 8) = .b8 e → row = (List.range 32).map fun k =>
        scaledValue e (leNat (l.getD (32 * i + k) ([], 0)).1) (l.getD (32 * i + k) ([], 0)).2) ∧
      (f = .f16 → row = (List.range 16).map fun k => valueT fp16 16 (code k)) ∧
      (f = .bf16 → row = (List.range 16).map fun k => valueT bf16 16 (code k)))) ∧
  (∀ (s : State) (u : Nat) (x : Cmd), s.ev = some (.engineCommandComplete u .row) → (s.core u).executing .row = some x →
    x.unit = u →
    let goes := fun t => exec .engineCommandComplete s = .next t
    let next := fun (t : State) (y : Cmd) => t.setCmd { y with step := y.step + 1 }
    let tile := if x.row = .acst then tileOf x.ops.d else tileOf x.ops.a
    let final := (s.core u).final[tile].toNat
    (x.step < 16 → final ≤ x.step → x.todo = [] → goes s) ∧
    (x.step < 16 → x.step < final ∨ x.todo ≠ [] →
      (x.row = .acst → goes (writing s (if x.todo = [] then x.begin_ ((x.memA.drop (4 * x.step)).take 4)
        ((leBytes 64 (tileRow (s.core u).t[tile] x.step).toNat).map some) else x) next)) ∧
      (x.row ≠ .acst → goes (next (s.setCore u (rowEffect (s.core u) x x.step)) x))) ∧
    (16 ≤ x.step → x.row ≠ .rstat ∨ x.sb.getLsbD 8 = false ∨ x.present s = false → goes (retireCmd s x)) ∧
    (16 ≤ x.step → x.row = .rstat → x.sb.getLsbD 8 = true → x.present s = true →
      ((s.core u).firstMatrix x = true → (s.core u).roomFor 4 = true →
        goes (retireCmd (appendEntry s x 4 (x.dseq.setWidth 64)) x)) ∧
      ((s.core u).firstMatrix x = false ∨ (s.core u).roomFor 4 = false → goes s))) ∧
  (∀ (c : Core) (x : Cmd) (d : Fin 16) (t : Fin 4) (i : Nat), x.ops.d = .v d → x.ops.a = .t t → i < 16 →
    let new := (rowEffect c x i).v[d]
    let at_ := rowElem (tileRow c.t[t] i)
    let others := fun (z lo n : Nat) => ∀ j, j < lo ∨ lo + n ≤ j → elem new z j = elem c.v[d] z j
    (x.row = .rstat →
      let ncol := (x.sb.extractLsb' 0 5).toNat
      let cols := List.range (if ncol = 0 then 16 else ncol)
      let sum := fun f : Nat → Machine.Real =>
        round32 (cols.foldl (fun y j => y.add (f (at_ j))) (.fin Machine.Dyadic.zero)) false
      elem new 4 (8 * i) = (cols.tail.foldl (fun m j => pick32 true m (at_ j)) (at_ 0)) % 2 ^ 32 ∧
      elem new 4 (8 * i + 1) = sum value32 % 2 ^ 32 ∧
      elem new 4 (8 * i + 2) = sum (fun a => (value32 a).mul (value32 a)) % 2 ^ 32 ∧ others 4 (8 * i) 3) ∧
    (x.row = .acmv →
      (x.sb.toNat < 2 → i / 8 ≠ x.sb.toNat → rowEffect c x i = c) ∧
      (x.sb.toNat < 2 → i / 8 = x.sb.toNat →
        (∀ j < 16, elem new 4 (16 * (i % 8) + j) = at_ j) ∧ others 4 (16 * (i % 8)) 16) ∧
      (∀ g, (x.sb = 2 ∧ g = fp16) ∨ (x.sb = 3 ∧ g = bf16) →
        (∀ j < 16, elem new 2 (16 * i + j) = narrow16 g (at_ j) % 2 ^ 16) ∧ others 2 (16 * i) 16)))

/-- R282 to R296: copy commands with the lengths their entries allow, tested whole at issue, registered with the declared
buffer their destination fills, their strand waiting as on a long load; and Carder commands, which register with their
session at once, wait, or with a pending guard register later. A word B that comes from a queue is read when the command
executes; that its length is tested there, a failure being a deferred fault, and that issue tests the first granules alone,
is the model's choice (log 77, DESIGN CHOICE); the operands that the Carder's tests ask for are those of log 52. An executing
copy command reads its whole source, the pattern, or the list and then each granule that it names, writes its destination
granule by granule and sets each full, and leaves its note in q6; a Carder command reads its column and its states, writes the
states, the histogram or the indices that R292 to R295 give, and leaves its word in q5. -/
def Obligations.CopyAndSelectionCommands : Prop :=
  (∀ (t : State) (a b d : Word) (u : Nat) (i : Fin 16), t.Accepting 2 → scalar t.ir.d t = .ok d →
    scalar t.ir.a t = .ok a → scalar t.ir.b t = .ok b →
    let from_ := a.toNat % 2 ^ 56
    let to_ := d.toNat % 2 ^ 56
    let taken := fun r ga gb => exec r t = .next ((t.took { newCmd t r .copy t.boundTo with
      sd := d, sa := a, sb := b, memA := ga, memB := gb, buffer := some (u, i) }).rest).passed
    (∀ ga gb, bufTests t ga = .ok () → shadowOf t to_ gb = .ok (u, i) → Buf.filling (t.core u).bufs[i] = true →
      (∀ j, t.ir.b = .q j → to_ % 16 = 0 → grainRows t 16 [to_] = .ok gb →
        (from_ % 16 = 0 → grainRows t 16 [from_] = .ok ga → taken .cpy ga gb ∧ taken .cpy2d ga gb) ∧
        (from_ % 8 = 0 → grainRows t 8 [from_] = .ok ga → taken .cpyGth ga gb) ∧
        (ga = [] → taken .cpyFill ga gb)) ∧
      let n := (b.extractLsb' 0 13).toNat
      let fits := b.toNat < 2 ^ 33 ∧ b.extractLsb' 13 19 = 0 ∧ n % 16 = 0 ∧ 16 ≤ n ∧ n ≤ 4096
      (fits → from_ % 16 = 0 → to_ % 16 = 0 → grainRows t n [from_] = .ok ga → grainRows t n [to_] = .ok gb →
        taken .cpy ga gb) ∧
      (fits → to_ % 16 = 0 → ga = [] → grainRows t n [to_] = .ok gb → taken .cpyFill ga gb) ∧
      (let rows := (b.extractLsb' 16 16).toNat
       let len := (b.extractLsb' 0 15).toNat
       let at_ := fun x p => (List.range rows).map fun k => (x + k * p) % 2 ^ 56
       rectBad b.toNat = false → from_ % 16 = 0 → to_ % 16 = 0 →
        grainRows t len (at_ from_ (b.extractLsb' 32 16).toNat) = .ok ga →
        grainRows t len (at_ to_ (b.extractLsb' 48 16).toNat) = .ok gb →
        taken .cpy2d ga gb) ∧
      (let k := (b.extractLsb' 0 9).toNat
       b.toNat < 2 ^ 33 → b.extractLsb' 9 23 = 0 → 1 ≤ k → k ≤ 256 → from_ % 8 = 0 → to_ % 16 = 0 →
        grainsOf t from_ (8 * k) = .ok ga → grainsOf t to_ (16 * k) = .ok gb → taken .cpyGth ga gb)) ∧
    (b.toNat % 16 ≠ 0 → ∀ r ∈ [Instr.cpy, .cpyFill, .cpy2d], exec r t = .next (t.trapHere { cause := .cpyLen }))) ∧
  (∀ (s : State) (x : Cmd) (j : Fin 8), x.step = 0 → x.loaded = false → x.present s = true → x.ops.b = .q j →
    (∀ i, x.ops.a ≠ .q i) →
    (takeEntry j x.slot (s.core x.unit).qs = none → copyEffect s x = none) ∧
    (∀ b qs, takeEntry j x.slot (s.core x.unit).qs = some (.word b, qs) →
      let t := s.modCore x.unit fun c => { c with qs := qs }
      let y := { x with sb := b, loaded := true }
      let to_ := x.sd.toNat % 2 ^ 56
      (copyLenBad x.row b.toNat = true → copyEffect s x = some (failCmd t y (.cpyLen, 0))) ∧
      (∀ ga gb buf, copyLenBad x.row b.toNat = false →
        copyTests x.row { t with focusU := x.unit, focusK := x.slot } (x.sa.toNat % 2 ^ 56) to_ b.toNat = .ok (ga, gb, buf) →
        (x.buffer = some buf → copyEffect s x = some (t.setCmd { y with memA := ga, memB := gb })) ∧
        (x.buffer ≠ some buf → copyEffect s x = some (failCmd t y (.cpyDst, to_)))))) ∧
  (∀ s : State, s.Accepting 3 → s.me.asked = false →
    ∀ p ∈ [(Instr.crdOpen, makeCrdOpen), (.crdDig, makeCrdDig), (.crdWdig, makeCrdWdig), (.crdPlane, makeCrdPlane),
      (.crdElim, makeCrdElim), (.crdRes, makeCrdRes), (.crdWait, makeCrdWait), (.crdClose, makeCrdClose)],
    ∀ x, p.2 s.boundTo s = .ok x →
      let y := { x with awaited := true }
      let t := s.took y
      (s.cond = none → exec p.1 s = .next (s.took x).passed) ∧
      (s.cond = some true → registerWaits t y = false → ∀ z, registerTests t y = .ok z →
        exec p.1 s = .next (enrol t y z).rest.passed) ∧
      (s.cond = some true → registerWaits t y = true →
        exec p.1 s = .next (s.sendAndWait (t.modMe fun sl => { sl with asked := true })))) ∧
  (∀ s : State, s.Ready → s.me.asked = true → ∀ x z, s.waitingCmd = some x → registerWaits s x = false →
    registerTests s x = .ok z → ∀ i ∈ [Instr.crdOpen, .crdDig, .crdWdig, .crdPlane, .crdElim, .crdRes, .crdWait, .crdClose],
      exec i s = .next (enrol s x z).rest.passed) ∧
  (∀ (x : Cmd) (s : State) (y : Session), let b := s.barn (barnOf x.unit)
    enrol s x y = (s.setBarn (barnOf x.unit) { b with
      sessions := match x.row with
        | .crdOpen => kput b.sessions x.session y
        | .crdClose => kdel b.sessions x.session
        | _ => b.sessions
      line := b.line ++ [(x.unit, x.order)] }).setCmd { x with registered := true, awaited := false, sess := some y }) ∧
  (∀ (s : State) (u : Nat) (x : Cmd), s.ev = some (.engineCommandComplete u .copy) → (s.core u).executing .copy = some x →
    x.unit = u →
    let goes := fun t => exec .engineCommandComplete s = .next t
    let note := if x.row = .cpy2d then x.sb.getLsbD 15 else x.sb.getLsbD 32
    (x.step = 0 → x.loaded = true ∨ x.lateOpds = [] →
      (x.row = .cpyFill → goes (copyBegin s x (patternBytes x.sa.toNat (x.sb.extractLsb' 0 13).toNat))) ∧
      (x.row = .cpy ∨ x.row = .cpy2d →
        goes (reading s x x.memA fun t y => copyBegin t y (bytesOf (y.grains y.memA)))) ∧
      (x.row = .cpyGth → x.nextRead x.memA ≠ none → goes (reading s x x.memA State.setCmd)) ∧
      (x.row = .cpyGth → x.nextRead x.memA = none →
        let e := gatherEntry (bytesOf (x.grains x.memA)) (x.out.length / 16)
        (∀ f, gatherOne s x e = .error f → goes (failCmd s x f)) ∧
        (∀ bs, gatherOne s x e = .ok bs →
          let y := { x with out := x.out ++ bs.map some }
          goes (s.setCmd (if y.out.length < 16 * (x.sb.extractLsb' 0 9).toNat then y
            else { y with step := 1, todo := x.memB }))))) ∧
    (x.step = 1 → goes (copyWrite s x copyDone)) ∧
    (2 ≤ x.step →
      (x.present s = false → goes (retireCmd s x)) ∧
      (x.present s = true → (s.core u).roomFor 6 = false → goes s) ∧
      (x.present s = true → (s.core u).roomFor 6 = true → goes (retireCmd (appendEntry s x 6 (x.dseq.setWidth 64)) x))) ∧
    (∀ bs, copyBegin s x bs = copyWrite s { x with step := 1, todo := x.memB, out := bs.map some } copyDone) ∧
    (note = true → x.present s = true → copyDone s x = s.setCmd { x with step := 2 }) ∧
    (note = false ∨ x.present s = false → copyDone s x = retireCmd s x)) ∧
  (∀ (s : State) (x : Cmd) (k : State → Cmd → State),
    (x.todo = [] → copyWrite s x k = k s x) ∧
    (∀ g gs, x.todo = g :: gs →
      let p := writePlace s g.home g.off
      let y := { x with todo := gs, out := x.out.drop g.n }
      let t := (((s.store false p ((x.out.take g.n).map fun b => b.getD 0)).fill x.sender.ctx g.home p).learn
        (dieOf g.home) x.dep).serve g.home
      (s.anyPoison p g.n = true → copyWrite s x k = failCmd s x (.memPoison, g.addr)) ∧
      (s.anyPoison p g.n = false → copyWrite s x k = if gs = [] then k t y else t.setCmd y))) ∧
  (∀ (s : State) (c : BitVec 12) (u p q : Nat), s.Canonical →
    (s.fill c u p).isFull q = (s.isFull q || decide (q / 16 = p / 16)) ∧ ∀ r, (s.fill c u p).byte r = s.byte r) ∧
  (∀ (v : Word) (n i : Nat), n % 8 = 0 → i < n → (patternBytes v.toNat n).length = n ∧
    (patternBytes v.toNat n).getD i 0 = v.extractLsb' (8 * (i % 8)) 8) ∧
  (∀ (s : State) (u : Nat) (x : Cmd) (y : Session), s.ev = some (.engineCommandComplete u .selection) →
    (s.core u).executing .selection = some x → x.unit = u → x.sess = some y →
    let goes := fun t => exec .engineCommandComplete s = .next t
    (x.step = 0 → goes (reading s x (x.carderReads y) fun t z => writing t { z.begin_ (carderResult z y).1
      ((carderResult z y).2.1.map some) with step := 1, sd := BitVec.ofNat 64 (carderResult z y).2.2 } carderDone)) ∧
    (x.step = 1 → goes (writing s x carderDone)) ∧
    (2 ≤ x.step →
      (x.present s = false → goes (retireCmd s x)) ∧
      (x.present s = true → (s.core u).roomFor 5 = false → goes s) ∧
      (x.present s = true → (s.core u).roomFor 5 = true → goes (retireCmd (appendEntry s x 5 x.sd) x))) ∧
    (x.row ∈ [Instr.crdDig, .crdWdig, .crdPlane, .crdRes, .crdWait] → x.present s = true →
      carderDone s x = s.setCmd { x with step := 2 }) ∧
    (x.row ∈ [Instr.crdOpen, .crdElim, .crdClose] ∨ x.present s = false → carderDone s x = retireCmd s x)) ∧
  (∀ (x : Cmd) (y : Session),
    let states : List Nat := statesOf x y
    let keys : List Nat := keysOf x y
    let p := (x.sa.extractLsb' 0 6).toNat
    let r : List Grain × List Byte × Nat := carderResult x y
    let digit := fun k => k / 2 ^ p % 2 ^ x.digit
    (x.row = .crdOpen → r.1 = y.areaGrains ∧ r.2.1.length = areaBytes y.n ∧ ∀ b ∈ r.2.1, b = 0) ∧
    (x.row = .crdClose → r.2.1 = []) ∧
    (x.row = .crdWait → r.2.1 = [] ∧
      r.2.2 = (states.take y.n).countP (· == 0) + 2 ^ 22 * (states.take y.n).countP (· == 1)) ∧
    (x.row = .crdElim → r.1 = y.areaGrains ∧
      let v := (x.sa.extractLsb' 8 4).toNat
      ∀ i : Nat, (r.2.1.flatMap pairsOf)[i]? = match states[i]?, keys[i]? with
        | some 0, some k => some (if digit k < v then 1 else if v < digit k then 2 else 0)
        | z, _ => z) ∧
    (x.row = .crdRes →
      let all := (states.zip (keys.zip (List.range y.n))).filter fun e => e.1 == 0 || e.1 == 1
      let less := fun (e f : Nat × Nat × Nat) => e.2.1 < f.2.1 ∨ (e.2.1 = f.2.1 ∧ e.2.2 < f.2.2)
      ∃ l : List (Nat × Nat × Nat), l.Pairwise less ∧ (∀ e ∈ l, e ∈ all) ∧ l.length = min x.sb.toNat all.length ∧
        (∀ e ∈ l, ∀ f ∈ all, f ∉ l → (e.1 = 1 ∧ f.1 = 0) ∨ (e.1 = f.1 ∧ less e f)) ∧
        r = (x.memB, (l.map fun e => leBytes 4 e.2.2).flatten, l.length)) ∧
    (x.row ∈ [Instr.crdDig, .crdWdig, .crdPlane] →
      let weights := if x.row = .crdWdig then numbers 4 y.n (bytesOf (x.grains (x.weightGrains y))) else List.replicate y.n 1
      let n := 2 ^ (if x.row = .crdPlane then 1 else 4)
      let h := fun j => (((states.zip (keys.zip weights)).filter fun e => e.1 == 0 && digit e.2.1 == j).map (·.2.2)).sum
      let below := fun v => ((List.range v).map h).sum
      let rank := (x.sa.extractLsb' 8 56).toNat
      r.1 = x.memB ∧
      r.2.1 = ((List.range n).map fun j => leBytes (if x.row = .crdWdig then 8 else 4) (h j)).flatten ∧
      (below n < rank → r.2.2 = below n * 2 ^ 8 + 0x10) ∧
      (∀ v < n, below v < rank ∨ v = 0 → rank ≤ below (v + 1) → r.2.2 = below v * 2 ^ 8 + v)))

/-- R248, R250, R252, R271, R272, R286: an engine starts the command at the head of its queue when nothing holds it back,
and no other command; the executing one completes by its own effect; `m.any`, `m.popc` and `m.first` wait for the
vector commands accepted before them that can run, and then read their mask. -/
def Obligations.EngineOrder : Prop :=
  (∀ (s : State) (u : Nat) (e : Engine) (x : Cmd), s.ev = some (.engineCommandStart u e) → (s.core u).head e = some x →
    (starts s x = true → exec .engineCommandStart s = .next (match e with
      | .array => startArray s x
      | .selection => tidyLine (s.setCmd { x with phase := .executing }) u
      | _ => s.setCmd { x with phase := .executing })) ∧
    (starts s x = false → exec .engineCommandStart s = .next s)) ∧
  (∀ (s : State) (x : Cmd), starts s x = true →
    x.bound = none ∧ ((s.core x.unit).queued (queueOf x.engine)).head?.map (·.order) = some x.order ∧
    (∀ y ∈ (s.core x.unit).cmds, y.engine = x.engine → y.phase ≠ .executing) ∧
    (∀ y ∈ (s.core x.unit).cmds, y.order < x.order → queueOf y.engine ≠ queueOf x.engine →
      ∀ r ∈ y.reads ++ y.writes, r ∉ x.reads ++ x.writes)) ∧
  (∀ (s : State) (u : Nat) (e : Engine) (x : Cmd), s.ev = some (.engineCommandComplete u e) →
    (s.core u).executing e = some x →
    (∀ t, engineEffect e s x = some t → exec .engineCommandComplete s = .next t) ∧
    (engineEffect e s x = none → exec .engineCommandComplete s = .next s)) ∧
  (∀ s : State, s.Standing →
    (s.here.vectorBusy s.here.accepted = true →
      let u := s.modMe fun sl => { sl with asked := true, mark := s.here.accepted }
      ∀ i ∈ [Instr.mAny, .mPopc, .mFirst], exec i s = .next (s.sendAndWait u)) ∧
    (∀ j : Fin 8, s.ir.a = .m j → s.here.vectorBusy s.here.accepted = false → s.Room →
      let m := s.here.m[j]
      exec .mAny s = .next (s.putLong (if m = 0 then 0 else 1)).passed ∧
      exec .mPopc s = .next (s.putLong (BitVec.ofNat 64 ((List.range 512).countP fun i => m.getLsbD i))).passed ∧
      ∃ n : Nat, exec .mFirst s = .next (s.putLong (BitVec.ofNat 64 n)).passed ∧
        (m = 0 → n = 512) ∧ (m ≠ 0 → n < 512 ∧ m.getLsbD n = true ∧ ∀ i < n, m.getLsbD i = false)))

/-- R247, R255 to R267: what an executing vector command leaves when it completes: each element of D from
the elements of A and B and of D as they stood, a scalar standing for every element, and the other bytes as they were;
shifts of the width or more, conversions from another TYPE, the sum and the largest of each row in the row's first element,
the tile transposed or its elements picked by index; mask bits for its elements and zeros beyond them, and masks from masks
and from a count; and integer elements by the modular, signed and unsigned rules. -/
def Obligations.VectorResults : Prop :=
  (∀ (s : State) (u : Nat) (x : Cmd), s.ev = some (.engineCommandComplete u .vector) →
    (s.core u).executing .vector = some x → x.unit = u →
    x.row ∉ [Instr.vld, .vst, .vldd, .mld, .mst, .vpush, .vpop] →
    exec .engineCommandComplete s = .next (retireCmd (s.setCore u (registerEffect (s.core u) x)) x)) ∧
  (∀ (s : State) (u : Nat) (x : Cmd), s.ev = some (.engineCommandComplete u .vector) →
    (s.core u).executing .vector = some x → x.unit = u →
    let goes := fun t => exec .engineCommandComplete s = .next t
    let z := esize x.vshape
    (x.row ∈ [Instr.vld, .vldd, .mld] →
      goes (reading s x x.memA fun t y => retireCmd (t.setCore y.unit (loadedInto (t.core y.unit) y)) y)) ∧
    (x.row = .vst ∨ x.row = .mst →
      let bs := if x.row = .vst then storedBytes (s.core u) x else (leBytes 64 (mreg (s.core u) x.ops.d).toNat).map some
      goes (writing s (if x.step = 0 then { x.begin_ x.memA bs with step := 1 } else x) retireCmd)) ∧
    (∀ (i : Fin 8) (j : Fin 16), x.row = .vpush → x.ops.d = .q i → x.ops.a = .v j →
      let w := BitVec.ofNat 64 (elem (s.core u).v[j] z x.sb.toNat)
      (x.present s = false → goes (retireCmd s x)) ∧
      (x.present s = true → (s.core u).roomFor i = false → goes s) ∧
      (x.present s = true → (s.core u).roomFor i = true →
        goes (retireCmd (s.modCore u fun c => c.enqueue i x.slot (.word w)) x))) ∧
    (∀ (i : Fin 8) (j : Fin 16), x.row = .vpop → x.ops.a = .q i → x.ops.d = .v j →
      let c := s.core u
      (x.present s = false → goes (retireCmd s x)) ∧
      (x.present s = true →
        (takeEntry i x.slot c.qs = none → goes s) ∧
        (∀ e a r b l, takeEntry i x.slot c.qs = some (.failure e a r b, l) →
          goes (failCmd (s.setCore u { c with qs := l }) x (e, a.toNat))) ∧
        (∀ w l, takeEntry i x.slot c.qs = some (.word w, l) → ∃ v : BitVec 4096,
          goes (retireCmd (s.setCore u { c with qs := l, v := c.v.set j v }) x) ∧
          (vshapeBad x.vshape.toNat = false → x.sb.toNat < rowsOf x.vshape * colsOf x.vshape → ∀ k,
            elem v z k = if k = x.sb.toNat then w.toNat % 2 ^ (8 * z) else elem c.v[j] z k))))) ∧
  (∀ (s : State) (x : Cmd) (l : List Grain) (k : State → Cmd → State),
    (x.nextRead l = none → (∀ g ∈ l, kget x.got (granuleOf g.home g.off) ≠ none) ∧ reading s x l k = k s x) ∧
    (∀ g, x.nextRead l = some g → g ∈ l ∧ kget x.got (granuleOf g.home g.off) = none ∧
      (∀ e, readGranule s x g = .error e → reading s x l k = failCmd s x e) ∧
      (∀ y, readGranule s x g = .ok y → reading s x l k = if y.nextRead l = none then k s y else s.setCmd y))) ∧
  (∀ (s : State) (x : Cmd) (g : Grain),
    let n := granuleOf g.home g.off
    let at_ := x.source s g.home
    let first := at_ (g.off - g.off % 16)
    let scales := fun (h : Grain) (o : Nat) => h ∈ x.memA ++ x.memB ∧ g.beside h = true ∧ h.scale = some o
    (∀ e, readGranule s x g = .error e → e.1 = .memPoison ∧ ((s.anyPoison first 16 = true ∧ e.2 = g.addr) ∨
      ∃ h o, scales h o ∧ s.anyPoison (at_ (o - o % 16)) 16 = true ∧ e.2 = h.addr - h.off + o)) ∧
    (∀ y, readGranule s x g = .ok y → y = { x with got := y.got, scales := y.scales } ∧ s.anyPoison first 16 = false ∧
      kget y.got n = some (s.bytes first 16) ∧
      (∀ m, m ≠ n → kget y.got m = kget x.got m ∧ kget y.scales m = kget x.scales m) ∧
      ∀ h o, scales h o → s.anyPoison (at_ (o - o % 16)) 16 = false ∧ y.scaleOf n o = (s.byte (at_ o)).toNat)) ∧
  (∀ (x : Cmd) (l : List Grain) (i : Nat) (g : Grain) (bs : List Byte), l[i]? = some g →
    kget x.got (granuleOf g.home g.off) = some bs → (x.grains l)[i]? = some ((bs.drop (g.off % 16)).take g.n,
      match g.scale with | some o => x.scaleOf (granuleOf g.home g.off) o | none => 0)) ∧
  (∀ (s : State) (x : Cmd) (k : State → Cmd → State),
    (x.todo = [] → writing s x k = k s x) ∧
    (∀ g gs, x.todo = g :: gs →
      let run := g :: gs.takeWhile g.beside
      let n := (run.map (·.n)).sum
      let y := x.begin_ (gs.dropWhile g.beside) (x.out.drop n)
      let t := (putGrains run (x.out.take n) s).learn (dieOf g.home) x.dep
      let refused := s.anyPoison (writePlace s g.home (g.off - g.off % 16)) 16
      (refused = true → writing s x k = failCmd s x (.memPoison, g.addr - g.off % 16)) ∧
      (refused = false → writing s x k = if y.todo = [] then k t y else t.setCmd y))) ∧
  (∀ (s : State) (gs : List Grain) (bs : List (Option Byte)) (x : Cmd), let y := x.begin_ gs bs
    putGrains y.todo y.out s = putGrains gs bs s ∧ (bs = [] → y.todo = []) ∧
    ∀ g hs, gs = g :: hs → (bs.take g.n).any Option.isSome = true → y.todo = gs ∧ y.out = bs) ∧
  (∀ (s : State) (g : Grain) (gs : List Grain) (bs : List (Option Byte)), s.Canonical →
    let t := putGrain g bs s
    let first := writePlace s g.home g.off
    putGrains (g :: gs) bs s = putGrains gs (bs.drop g.n) t ∧ t.Canonical ∧
    (∀ i < g.n, t.byte (first + i) = (bs.getD i none).getD (s.byte (first + i))) ∧
    ∀ r, Outside first g.n r → t.byte r = s.byte r) ∧
  (∀ (c : Core) (x : Cmd) (d : Fin 16), x.ops.d = .v d → vshapeBad x.vshape.toNat = false →
    let l := x.grains x.memA
    let bs := bytesOf l
    let z := esize x.vshape
    let new := (loadedInto c x).v[d]
    (x.row = .vld → bs.length ≤ 512 → ∀ i < 512, elem new 1 i = if i < bs.length then (bs.getD i 0).toNat else elem c.v[d] 1 i) ∧
    (x.row = .vldd → l.length ≤ rowsOf x.vshape * colsOf x.vshape → ∀ i < 512 / z, elem new z i = if i < l.length then
        decodeTo ((x.rows.getD (i / colsOf x.vshape) 0).setWidth 8) (vkind x.vshape) (l.getD i ([], 0)) % 2 ^ (8 * z)
      else elem c.v[d] z i) ∧
    (x.row = .vld ∨ x.row = .vldd → loadedInto c x = { c with v := c.v.set d new }) ∧
    (x.row = .vst → (storedBytes c x).length = rowsOf x.vshape * colsOf x.vshape * z ∧
      ∀ i < rowsOf x.vshape * colsOf x.vshape * z, (storedBytes c x)[i]? = some
        (if x.vshape.getLsbD 31 = true ∧ (c.m[mselOf x.vshape]).getLsbD (i / z) = false then none
          else some (c.v[d].extractLsb' (8 * i) 8)))) ∧
  (∀ (c : Core) (x : Cmd) (d : Fin 8), x.ops.d = .m d →
    (x.row = .mld → loadedInto c x = { c with m := c.m.set d (loadedInto c x).m[d] } ∧
      ∀ i < 64, ((loadedInto c x).m[d]).extractLsb' (8 * i) 8 = (bytesOf (x.grains x.memA)).getD i 0) ∧
    ∀ i < 64, (leBytes 64 (mreg c x.ops.d).toNat)[i]? = some (c.m[d].extractLsb' (8 * i) 8)) ∧
  (∀ (t : BitVec 8) (g : Grid) (w f : Nat) (b : List Byte × Nat),
    let c := leNat b.1
    (formatOf t = .b8 f → decodeTo t (.float g w) b = roundT g w (scaledValue f c b.2) false) ∧
    (formatOf t = .fp32 → decodeTo t (.float g w) b = convertT (.float fp32 32) (.float g w) c) ∧
    (formatOf t = .fp16 → decodeTo t (.float g w) b = convertT (.float fp16 16) (.float g w) c) ∧
    (formatOf t = .bf16 → decodeTo t (.float g w) b = convertT (.float bf16 16) (.float g w) c)) ∧
  (∀ (c : Core) (x : Cmd) (d : Fin 16), x.ops.d = .v d → vshapeBad x.vshape.toNat = false →
    let n := rowsOf x.vshape * colsOf x.vshape
    let z := esize x.vshape
    let k := vkind x.vshape
    let a := source c x.ops.a x.sa z
    let b := source c x.ops.b x.sb z
    let old := elem c.v[d] z
    let new := (registerEffect c x).v[d]
    let all := fun f : Nat → Nat => ∀ i < n, elem new z i = f i % 2 ^ (8 * z)
    ((∀ p ∈ [(Instr.vadd, VOp.add), (.vsub, .sub), (.vmul, .mul), (.vdiv, .div), (.vfma, .fma), (.vmin, .min), (.vmax, .max),
        (.vabs, .abs), (.vneg, .neg), (.vrcp, .rcp), (.vrsq, .rsq), (.vexp2, .exp2)],
        x.row = p.1 → all fun i => p.2.apply k (old i) (a i) (b i)) ∧
      (x.row = .vand → all fun i => a i &&& b i) ∧ (x.row = .vor → all fun i => a i ||| b i) ∧
      (x.row = .vxor → all fun i => a i ^^^ b i) ∧ (x.row = .vnot → all fun i => 2 ^ (8 * z) - 1 - a i) ∧
      (x.row = .vsel → all fun i => if (c.m[mselOf x.vshape]).getLsbD i then a i else b i) ∧
      (x.row = .vshl → all fun i => (BitVec.ofNat k.width (a i) <<< b i).toNat) ∧
      (x.row = .vshr → all fun i => (BitVec.ofNat k.width (a i) >>> b i).toNat) ∧
      (x.row = .vsar → all fun i => ((BitVec.ofNat k.width (a i)).sshiftRight (b i)).toNat) ∧
      (x.row = .vbcast → all fun _ => x.sa.toNat)) ∧
    (∀ j : Fin 16, x.ops.a = .v j →
      let from_ := elem c.v[j]
      let row := fun r => (List.range (colsOf x.vshape)).map fun q => from_ z (r * colsOf x.vshape + q)
      (x.row = .vmov → new = c.v[j]) ∧
      (x.row = .vcvt → ∀ m, typeSize x.sb.toNat = some m → all fun i => convertT (kindOf x.sb.toNat) k (from_ m i)) ∧
      (x.row = .vrsum → ∀ r < rowsOf x.vshape, elem new z (r * colsOf x.vshape) = rowSum k (row r) % 2 ^ (8 * z)) ∧
      (x.row = .vrmax → ∀ r < rowsOf x.vshape, elem new z (r * colsOf x.vshape) = rowMax k (row r) % 2 ^ (8 * z)) ∧
      (x.row = .vrsum ∨ x.row = .vrmax → ∀ i < n, i % colsOf x.vshape ≠ 0 → elem new z i = old i) ∧
      (x.row = .vtrn → ∀ r < rowsOf x.vshape, ∀ q < colsOf x.vshape,
        elem new z (q * rowsOf x.vshape + r) = from_ z (r * colsOf x.vshape + q)) ∧
      (∀ l : Fin 16, x.row = .vshf → x.ops.b = .v l →
        all fun i => if elem c.v[l] 2 i < n then from_ z (elem c.v[l] 2 i) else 0)) ∧
    (x.row ∈ [Instr.vadd, .vsub, .vmul, .vdiv, .vfma, .vmin, .vmax, .vabs, .vneg, .vrcp, .vrsq, .vexp2, .vand, .vor, .vxor,
      .vnot, .vsel, .vbcast, .vshl, .vshr, .vsar, .vcvt, .vrsum, .vrmax, .vtrn, .vshf] → (∀ i, n * z ≤ i → i < 512 → elem new 1 i = elem c.v[d] 1 i) ∧
      (∀ e : Fin 16, e ≠ d → (registerEffect c x).v[e] = c.v[e]) ∧ (registerEffect c x).m = c.m ∧
      (registerEffect c x).t = c.t)) ∧
  (∀ (c : Core) (x : Cmd) (d : Fin 8), x.ops.d = .m d →
    let n := rowsOf x.vshape * colsOf x.vshape
    let z := esize x.vshape
    let k := vkind x.vshape
    ∀ p ∈ [(Instr.vceq, VCmp.eq), (.vcne, .ne), (.vclt, .lt), (.vcle, .le)], x.row = p.1 → ∀ i < 512,
      ((registerEffect c x).m[d]).getLsbD i = (decide (i < n) &&
        p.2.holds k (source c x.ops.a x.sa z i) (source c x.ops.b x.sb z i))) ∧
  (∀ (c : Core) (x : Cmd) (d i j : Fin 8), x.ops.d = .m d → x.ops.a = .m i → x.ops.b = .m j →
    let new := (registerEffect c x).m[d]
    (x.row = .mand → new = c.m[i] &&& c.m[j]) ∧ (x.row = .mor → new = c.m[i] ||| c.m[j]) ∧
    (x.row = .mxor → new = c.m[i] ^^^ c.m[j]) ∧ (x.row = .mnot → new = ~~~c.m[i])) ∧
  (∀ (c : Core) (x : Cmd) (d : Fin 8), x.ops.d = .m d →
    (x.row = .mset → ∀ i < 512, ((registerEffect c x).m[d]).getLsbD i = decide (i < x.sa.toNat)) ∧
    (x.row = .mclr → (registerEffect c x).m[d] = 0)) ∧
  (∀ (g : Bool) (w a : Nat) (l : List Nat), (∀ y ∈ a :: l, y < 2 ^ w) → 1 ≤ w →
    rowSum (.int g w) (a :: l) = (a :: l).sum % 2 ^ w ∧
    rowMax (.int g w) (a :: l) ∈ a :: l ∧ ∀ y ∈ a :: l, val g w y ≤ val g w (rowMax (.int g w) (a :: l))) ∧
  (∀ (w : Nat) (g : Bool) (a b d : BitVec w), 2 ≤ w →
    let do_ := fun op : VOp => op.apply (.int g w) d.toNat a.toNat b.toNat
    do_ .add = (a + b).toNat ∧ do_ .sub = (a - b).toNat ∧ do_ .mul = (a * b).toNat ∧ do_ .fma = (d + a * b).toNat ∧
    do_ .neg = (-a).toNat ∧ do_ .abs = (if g ∧ a.toInt < 0 then -a else a).toNat ∧
    do_ .min = (if (if g then b.toInt < a.toInt else b < a) then b else a).toNat ∧
    do_ .max = (if (if g then a.toInt < b.toInt else a < b) then b else a).toNat ∧
    do_ .div = (if b = 0 then BitVec.allOnes w else if g then a.sdiv b else a / b).toNat ∧
    (VCmp.eq.holds (.int g w) a.toNat b.toNat ↔ a = b) ∧
    (VCmp.lt.holds (.int g w) a.toNat b.toNat ↔ if g then a.toInt < b.toInt else a < b))

/-- R300 to R308, R313 to R319: `kv.new` takes the lowest FREE slot of a die that has one, and fills it from its
operands; the forms on a handle test KV.TENANT and KV.STALE; `kv.drop` frees an unbound handle, `kv.len` reads CLEN and
LEN, `kv.cut` commits or cuts between them, `kv.app` appends a row read in L, and `kv.ref` pushes rows and their scales
into a frame. That a form's whole effect comes in the step that issues it, with a wait of a free length, is the model's choice
(logs 6 and 53), and so are the points of log 54 (a header unit always read, no append to a compacted page, the order of
KV.RANGE and KV.BOUND, the waits of `kv.ref`) and the directory's layout (log 78). -/
def Obligations.KeyValueForms : Prop :=
  (∀ g b : Word, geometryBad g.toNat b.toNat = false ↔ g.extractLsb' 45 19 = 0 ∧ g.extractLsb' 22 6 = 0 ∧
    g.extractLsb' 5 11 = 0 ∧ g.extractLsb' 16 6 ≠ 0 ∧ 4 ≤ (g.extractLsb' 0 5).toNat ∧
    ((g.extractLsb' 40 5).toNat < 24 ∨ g.extractLsb' 40 5 = 31) ∧ 1 ≤ b.toNat ∧ b.toNat ≤ 0xF_FFFF) ∧
  (∀ (s t : State) (a b : Word), s.Standing → s.ReadsAB a b t →
    (geometryBad a.toNat b.toNat = true → exec .kvNew s = .next (s.trapHere { cause := .kvArg })) ∧
    (geometryBad a.toNat b.toNat = false →
      (homeSlot t (a.extractLsb' 40 5).toNat = none → exec .kvNew s = .next (s.trapHere { cause := .kvFull })) ∧
      (∀ i, homeSlot t (a.extractLsb' 40 5).toNat = some i →
        let h : Handle := { Handle.reset with
          state := .live, gen := (t.handle i).gen, ctx := t.st.ctx, planes := (a.extractLsb' 28 12).toNat + 1, rb := (a.extractLsb' 16 6).toNat, fmt := a.extractLsb' 0 5, bound := b.toNat }
        (t.setHandle i h).Room → exec .kvNew s = .next ((t.setHandle i h).putLong (handleWord i h)).passed)) ∧
    (∀ i, checkHandle t t.st.ctx a = .ok i →
      let h := t.handle i
      let pos := (b.extractLsb' 0 32).toNat
      (b.toNat < 2 ^ 33 → h.clen.toNat ≤ pos → pos ≤ h.len → h.slot = none → exec .kvCut s = .next
        (if b.getLsbD 32 then t.setHandle i { h with clen := b.setWidth 32 } else cutAll t i pos).rest.passed) ∧
      (b.toNat < 2 ^ 33 → pos < h.clen.toNat ∨ h.len < pos → exec .kvCut s = .next (s.trapHere { cause := .kvRange })) ∧
      (b.toNat < 2 ^ 33 → h.clen.toNat ≤ pos → pos ≤ h.len → h.slot ≠ none →
        exec .kvCut s = .next (s.trapHere { cause := .kvBound })))) ∧
  (∀ (s t : State) (a : Word), s.Standing → s.ReadsA a t →
    (∀ c, checkHandle t t.st.ctx a = .error c →
      exec .kvDrop s = .next (s.trapHere { cause := c }) ∧ exec .kvLen s = .next (s.trapHere { cause := c })) ∧
    (∀ i, checkHandle t t.st.ctx a = .ok i →
      ((t.handle i).slot ≠ none → exec .kvDrop s = .next (s.trapHere { cause := .kvBound })) ∧
      ((t.handle i).slot = none → exec .kvDrop s = .next (freeHandle t i).rest.passed) ∧
      (t.Room → exec .kvLen s = .next
        (t.putLong (BitVec.ofNat 64 ((t.handle i).clen.toNat * 2 ^ 32 + (t.handle i).len))).passed))) ∧
  (∀ (s t : State) (a b d : Word) (i : Nat), s.Standing → s.ReadsABD a b d t → checkHandle t t.st.ctx a = .ok i →
    let h := t.handle i
    (b.toNat % 16 = 0 → regionOf b.toNat = .l → d.toNat < h.planes → b.toNat + 4 * h.elems ≤ schedBase →
      mayReach t t.focusU t.focusU t.st.ctx .l = true → t.early t.focusU false = false →
      ∀ bs p u, readRun t t.focusU b.toNat b.toNat (4 * h.elems) = .ok bs →
        let codes := (List.range h.elems).map fun j => leNat ((bs.drop (4 * j)).take 4)
        (appendAt a i d.toNat codes 2 s t.hear = .ok (p, u) →
          u.Room → exec .kvApp s = .next (u.putLong (BitVec.ofNat 64 p)).passed) ∧
        (32 * h.bound ≤ (h.nextOf d.toNat).toNat → exec .kvApp s = .next (s.trapHere { cause := .kvRange }))) ∧
    (let o := d.toNat % 4096
     let cnt := (b.extractLsb' 44 6).toNat
     let pos := (b.extractLsb' 0 32).toNat
     let plane := (b.extractLsb' 32 12).toNat
     let n := cnt * h.elems
     let k := pageKey plane (pos / 32)
     let pg := h.page k
     let scales := (3840 + o / 256 * 16, ((o + n - 1) / 256 - o / 256 + 1) * 16)
     let bs := ((List.range cnt).map fun r => rowBytes t h pg (pos % 32 + r)).flatten
     ∀ v off u, b.toNat < 2 ^ 50 → 1 ≤ cnt → o % 16 = 0 → localOf t.focusU d.toNat = some (v, off) →
      regionOf d.toNat ≠ .h → t.st.writes = [] → t.st.asked = [] → plane < h.planes → o + n ≤ 3840 → pos + cnt ≤ h.len →
      pos / 32 = (pos + cnt - 1) / 32 → pg.pois = false → refDest t d.toNat [(o, n), scales] = .ok u →
      (∀ g, (∃ j < n / 16, g = o + 16 * j) ∨ (∃ j < scales.2 / 16, g = scales.1 + 16 * j) →
        fillRefused t u (off - o + g) = false) →
      (kget t.hub.security.keys t.st.ctx.toNat).isSome = true → t.crossing t.focusU t.focusK u = false →
      damagedRow t h pg ((List.range cnt).map (pos % 32 + ·)) = none →
      exec .kvRef s = .next (pushFrame t u (off - o) (d.toNat - o) (BitVec.ofNat 8 (h.fmt.toNat * 8 + 1)) true
        (rowGranules o bs ++ scaleGranules t u (off - o) (o / 16) ((o + bs.length - 1) / 16) pg.scale.toNat)).rest.passed))

/-- R320 to R326: `lf.arm` takes the context's lowest IDLE filter for a mapped region that meets no other; `lf.top` writes
the merged shortlist, `lf.sum` gives M and S over the dies that took an element, `lf.end` frees the filter, and each of the three
raises LF.FID for an IDLE one; and the stop set of an open slot takes up to 16 identifiers and is cleared. That the effect
comes in the step that issues the form is the model's choice (logs 6 and 53), and so are the meaning of an overlap and the
waits of `lf.top` and `lf.sum` (log 55); that the record of a fault found at the hub names the hub is its reading (log 85,
DEDUCED). -/
def Obligations.FilterForms : Prop :=
  (∀ (s t : State) (a b : Word), s.Standing → s.ReadsAB a b t →
    let ef := b.extractLsb' 38 2
    let n := (b.extractLsb' 0 21).toNat
    let size := n * efSize ef
    let base := a.toNat % 2 ^ 56
    let x := t.context t.st.ctx
    (filterBad b.toNat = true ∨ base % efSize ef ≠ 0 → exec .lfArm s = .next (s.trapHere { cause := .lfArg })) ∧
    (∀ ps, filterBad b.toNat = false → base % efSize ef = 0 →
      regionPlaces t base ((base % 4096 + size + 4095) / 4096) = ps →
      let meets := ∃ p ∈ x.filters, overlaps base size p.2.base.toNat p.2.size = true
      let logits := ∀ p ∈ ps, ∀ q, p.2 = .ok q → q.smp = true
      (¬ logits → exec .lfArm s = .next (s.trapHere { cause := .lfRegion })) ∧
      (logits → meets → exec .lfArm s = .next (s.trapHere { cause := .lfRegion, unit := some mgmtUnit })) ∧
      (logits → ¬ meets →
        (x.idleFilter = none → exec .lfArm s = .next (s.trapHere { cause := .lfFid, unit := some mgmtUnit })) ∧
        (∀ k pre c y post, x.idleFilter = some k → ps = pre ++ (y, .error c) :: post →
          (∀ p ∈ pre, ∃ q, p.2 = .ok q) →
          exec .lfArm s = .next (s.trapHere { cause := c, addr := BitVec.ofNat 64 y })) ∧
        (∀ k (qs : List Place), x.idleFilter = some k → ps.map (·.2) = qs.map Except.ok →
          let u := t.setFilter t.st.ctx k {
            base := low 56 a, pages := qs.map (·.place / 4096 * 4096), k := (b.extractLsb' 40 8).toNat + 1, ef := ef, n := n, written := [], parts := [] }
          u.Room → exec .lfArm s = .next (u.putLong (BitVec.ofNat 64 k)).passed))) ∧
    (∀ r, t.req a.toNat = r → a.toNat < 65536 → r.state = .opened → r.ctx = t.st.ctx → b.toNat < 2 ^ 32 →
      (r.stops.contains (b.setWidth 32) = true → exec .stopSet s = .next t.rest.passed) ∧
      (r.stops.contains (b.setWidth 32) = false → r.stops.length < 16 → exec .stopSet s = .next
        (t.setReq a.toNat { r with stops := r.stops ++ [b.setWidth 32] }).rest.passed) ∧
      (r.stops.contains (b.setWidth 32) = false → 16 ≤ r.stops.length →
        exec .stopSet s = .next (s.trapHere { cause := .stopFull, unit := some mgmtUnit })))) ∧
  (∀ (s t : State) (a : Word), s.Standing → s.ReadsA a t →
    (16 ≤ a.toNat → exec .lfSum s = .next (s.trapHere { cause := .lfArg }) ∧
      exec .lfEnd s = .next (s.trapHere { cause := .lfArg })) ∧
    (a.toNat < 16 → kget (t.context t.st.ctx).filters a.toNat = none →
      exec .lfEnd s = .next (s.trapHere { cause := .lfFid, unit := some mgmtUnit }) ∧
      (t.settledIn .module true = true →
        exec .lfSum s = .next (s.trapHere { cause := .lfFid, unit := some mgmtUnit }))) ∧
    (∀ f, a.toNat < 16 → kget (t.context t.st.ctx).filters a.toNat = some f →
      (t.settledIn .module true = true → t.hear.Room →
        let ms := combine (((f.parts.map (·.2)).filter fun p => p.seen != 0).map fun p => (p.m.toNat, p.s.toNat))
        exec .lfSum s = .next (t.hear.putLong (BitVec.ofNat 64 (ms.1 * 2 ^ 32 + ms.2))).passed) ∧
      (let x := t.context t.st.ctx
       exec .lfEnd s = .next (t.setContext t.st.ctx { x with filters := kdel x.filters a.toNat }).rest.passed)) ∧
    (t.settledIn .module true = false → a.toNat < 16 → exec .lfSum s = .next (s.blockSlot s.focusU s.focusK)) ∧
    (∀ r, t.req a.toNat = r → a.toNat < 65536 → r.state = .opened → r.ctx = t.st.ctx →
      exec .stopClr s = .next (t.setReq a.toNat { r with stops := [] }).rest.passed)) ∧
  (∀ (s u t : State) (a d : Word) (v home off : Nat), s.Standing → s.Whole [s.ir.a, s.ir.d] → s.ReadsA a u →
    src u.ir.d u = .ok (d, t) →
    a.toNat < 16 → d.toNat % 16 = 0 → d.toNat < 2 ^ 56 → localOf t.focusU d.toNat = some (home, off) →
    t.settledIn .module true = true →
    (kget (t.context t.st.ctx).filters a.toNat = none →
      exec .lfTop s = .next (s.trapHere { cause := .lfFid, unit := some mgmtUnit })) ∧
    (∀ f : Filter, kget (t.context t.st.ctx).filters a.toNat = some f → pushDest t d.toNat f.block.length = .ok v →
      (∀ j < f.block.length / 16, fillRefused t v (d.toNat % 2 ^ 19 + 16 * j) = false) →
      t.hear.crossing t.focusU t.focusK v = false →
      let o := d.toNat % 2 ^ 19
      exec .lfTop s = .next (pushFrame t.hear v (o - o % 4096) (d.toNat - o % 4096) 0 false
        (rowGranules (o % 4096) f.block)).rest.passed))

/-- R327 to R347: the forms of group D on an open slot of their context with nothing waiting there: opening and closing,
levels opened, confirmed and missed, tokens put or waiting for the limit, queries, limits, requests, and draft trees. A
form that moves RPOS of a bound slot, a put or an accepted path too, completes with the notice at the handle's die; a form that waited completes with
what it was given. That the whole effect comes in the step that issues the form, with a wait of a free length, is the model's
choice (logs 6 and 53), and that the record of a fault that the hub finds names the hub is its reading (log 85, DEDUCED). -/
def Obligations.RequestSlotForms : Prop :=
  (∀ (s t u : State) (a b : Word) (bs : List Byte), s.Standing → s.ReadsAB a b t →
    readBlock t (b.toNat % 2 ^ 56) = .ok (bs, u) →
    let v := leNat bs
    (blockBad v = true → exec .trOpen s = .next (s.trapHere { cause := .trArg })) ∧
    (blockBad v = false → ∀ n, (List.range 65536).find? (fun n => (u.req n).state == .free) = some n →
      let r := u.req n
      let opened := fun (start : BitVec 32) (h : Option Nat) => { ReqSlot.reset with
        state := .opened, ctx := u.st.ctx, start := start, rpos := start,
        limit := bits v 110 104, logn := bits v 103 96, log := BitVec.ofNat 64 (bits v 63 0), handle := h,
        serial := r.serial, first := r.serial, leaving := r.leaving }
      (a = 0 →
        let w := u.setReq n (opened (BitVec.ofNat 32 (bits v 95 64)) none)
        w.Room → exec .trOpen s = .next (w.putLong (BitVec.ofNat 64 n)).passed) ∧
      (∀ i, a ≠ 0 → checkHandle u u.st.ctx a = .ok i → (u.handle i).slot = none →
        ((u.handle i).len ≠ (u.handle i).clen.toNat → exec .trOpen s = .next (s.trapHere { cause := .trArg })) ∧
        ((u.handle i).len = (u.handle i).clen.toNat →
          let k := (u.handle i).clen
          let w := (u.setHandle i { u.handle i with slot := some n, rpos := k }).setReq n (opened k (some i))
          w.Room → exec .trOpen s = .next (w.putLong (BitVec.ofNat 64 n)).passed)))) ∧
  (∀ (s t : State) (a b : Word) (n : Nat), s.Standing → s.ReadsAB a b t → a.toNat = n → n < 65536 →
    (t.req n).state = .opened → (t.req n).ctx = t.st.ctx → (t.req n).waiting = [] →
    let r := t.req n
    let set_ := fun r' : ReqSlot => t.setReq n r'
    let gives := fun (i : Instr) (u : State) (v : Nat) => u.Room → exec i s = .next (u.putLong (BitVec.ofNat 64 v)).passed
    let traps := fun (i : Instr) (c : Cause) => exec i s = .next (s.trapHere { cause := c, unit := some mgmtUnit })
    let stands := fun v : State => (v.req n).handle = none ∨ (v.req n).rpos = r.rpos
    let tells := fun (f : Instr) (v : State) (a : Answer) => ∀ i, (v.req n).handle = some i → (v.req n).rpos ≠ r.rpos →
      let w := tell (v.modMe fun sl => { sl with asked := true }) (v.self, .performed)
      let x := w.post mgmtUnit (0x100000 + handleDie i * 2 ^ 15) v.self [] none (.rpos i (v.req n).rpos [(v.self, a)])
      exec f s = .next (s.sendAndWait x)
    let waits := fun (f : Instr) (x : SlotWait) => exec f s = .next (s.sendAndWait
      ((set_ { r with waiting := [(t.self, x)] }).modMe fun sl => { sl with asked := true }))
    (∀ l, b ≠ 0 → b.toNat ≤ r.depth → r.levels[b.toNat - 1]? = some l →
      (l.confirmed = true → traps .trConf .trLevel ∧ traps .trMiss .trLevel) ∧
      (l.confirmed = false →
        let done := fun (f : Instr) (v : State) => (stands v → exec f s = .next v.rest.passed) ∧ tells f v .done
        done .trMiss (rewind t t.self n b.toNat).1 ∧
        done .trConf (retireStep (set_ { r with levels := r.levels.set (b.toNat - 1) { l with confirmed := true } }) t.self n))) ∧
    (b = 0 ∨ r.depth < b.toNat → traps .trConf .trLevel ∧ traps .trMiss .trLevel) ∧
    (b.toNat < 2 ^ 32 →
      (r.unret < r.limit →
        let v := putTokens t t.self n [b.setWidth 32]
        let a := r.depth * 2 ^ 32 + r.npos.toNat
        (stands v → gives .trPut v a) ∧ tells .trPut v (.value (BitVec.ofNat 64 a))) ∧
      (r.limit ≤ r.unret → waits .trPut (.put (b.setWidth 32)))) ∧
    (b = 0 → gives .trQry t (slotWord r)) ∧ (b = 1 → gives .trQry t (r.rpos.toNat * 2 ^ 32 + r.npos.toNat)) ∧
    (b = 3 → gives .trQry t (r.rdrop.toNat * 2 ^ 32 + r.edrop.toNat)) ∧
    (∀ k l, k < 8 → b.toNat = 2 + 256 * (k + 1) → r.levels[k]? = some l → gives .trQry t (l.cpos.toNat * 2 ^ 32 + l.kvlen.toNat)) ∧
    (1 ≤ b.toNat → b.toNat ≤ 64 → gives .trLim (set_ { r with limit := b.toNat }) r.limit) ∧
    (b = 0 ∨ 64 < b.toNat → exec .trLim s = .next (s.trapHere { cause := .trArg })) ∧
    (∀ bs, b.toNat % 64 = 0 → b.toNat < schedBase → mayReach t t.focusU t.focusU t.st.ctx .l = true →
      t.early t.focusU false = false → readRun t t.focusU b.toNat b.toNat 64 = .ok bs → bits (leNat bs) 63 2 = 0 →
      bits (leNat bs) 1 0 ≠ 3 → s.Released .system → bits (leNat bs) 1 0 ≠ 2 ∨ r.held.length < 16 →
      let v := emitRequest t n (BitVec.ofNat 2 (leNat bs)) (BitVec.ofNat 448 (leNat bs / 2 ^ 64))
      gives .emit v r.serial.toNat) ∧
    (let h := (b.extractLsb' 0 4).toNat
     let deepest := match r.tree.getLast? with | some x => x.depth + 1 | none => 0
     b.extractLsb' 4 28 = 0 → (r.tree.length = 64 → traps .dtNode .dtFull) ∧
      (r.tree.length ≠ 64 → (deepest < h → traps .dtNode .dtDepth) ∧
        (h ≤ deepest →
          let v := set_ { r with tree := r.tree ++ [⟨b.extractLsb' 32 32, h, nodeRow r h⟩],
                                 stack := kput r.stack h r.tree.length }
          gives .dtNode v (nodeRow r h).toNat))) ∧
    (∀ x, b.toNat < 64 → r.tree[b.toNat]? = some x →
      (r.limit < (pathOf r x.row).length → traps .dtAccept .dtLimit) ∧
      ((pathOf r x.row).length ≤ r.limit →
        (r.unret + (pathOf r x.row).length ≤ r.limit →
          let v := putTokens (set_ r.noTree) t.self n (pathOf r x.row)
          let a := (pathOf r x.row).length * 2 ^ 32 + r.npos.toNat
          (stands v → gives .dtAccept v a) ∧ tells .dtAccept v (.value (BitVec.ofNat 64 a))) ∧
        (r.limit < r.unret + (pathOf r x.row).length → waits .dtAccept (.accept (pathOf r x.row)))))) ∧
  (∀ (s t : State) (a : Word) (n : Nat), s.Standing → s.ReadsA a t → a.toNat = n → n < 65536 →
    (t.req n).state = .opened → (t.req n).ctx = t.st.ctx → (t.req n).waiting = [] →
    let r := t.req n
    exec .trClose s = .next (freeReq t n).rest.passed ∧ exec .dtReset s = .next (t.setReq n r.noTree).rest.passed ∧
    (t.st.writes = [] → (∀ x ∈ t.st.asked, x.writes = false) →
      (r.depth = 8 → exec .trCall s = .next (s.trapHere { cause := .trDeep, unit := some mgmtUnit })) ∧
      (r.depth ≠ 8 → r.npos = r.start → exec .trCall s = .next (s.trapHere { cause := .trArg, unit := some mgmtUnit })) ∧
      (r.depth ≠ 8 → r.npos ≠ r.start →
        let kvlen := match r.handle with | some i => BitVec.ofNat 32 (t.handle i).len | none => 0
        let v := t.setReq n { r with levels := r.levels ++ [⟨r.npos - 1, kvlen, false⟩] }
        v.Room → exec .trCall s = .next (v.putLong (BitVec.ofNat 64 (r.depth + 1))).passed))) ∧
  (∀ s : State, s.Ready → s.me.acquires = [] →
    (∀ i ∈ [Instr.trClose, .trConf, .trMiss, .dtReset], s.me.answer = some .done → exec i s = .next s.rest.passed) ∧
    (∀ i ∈ [Instr.trCall, .trPut, .trQry, .trLim, .emit, .dtNode, .dtAccept], ∀ v, s.me.answer = some (.value v) → s.Room →
      exec i s = .next (s.putLong v).passed) ∧
    (∀ i ∈ [Instr.trClose, .trConf, .trMiss, .trPut, .emit, .dtAccept], ∀ c a d, s.me.answer = some (.fault c a d) →
      exec i s = .next (s.trapHere { cause := c, addr := a, detail := d, unit := some mgmtUnit })))

/-- R351 to R353, R356, R358: what taking a trap leaves once every result has landed: the frame with EPC, ECAUSE, EADDR and the
record's address, the BRMODE saved and cleared, PC at TVEC in mode HANDLER, HBUD started at depth 1, and every valid bit
clear, with every queue entry as it was, those too that the instruction had taken while it waited; at depth 2, whatever TVEC is, or with TVEC 0, the fault kills the launch instead,
its record marked. A fault that the hub finds in a step of a strand, which the strand does not take, has its record
appended at once or, while an earlier operation of the strand is unperformed, once those before it are (R358). That the record
waits for the strand's earlier writes while the handler is entered is the model's reading (log 27), and so is which operations
are waited for (log 48). -/
def Obligations.TrapEntry : Prop :=
  ∀ (s : State) (u k : Nat) (t : Trap), k < (s.core u).slots.length →
    let l := (s.modCore u fun c => c.landAll k).giveBack u k
    let old := l.slot u k
    old.taken = [] ∧ (l.core u).qs = (s.slot u k).taken ++ ((s.core u).landAll k).qs ∧
    let tvec := (s.context (s.slot u k).st.ctx).tvec
    let code := fun t : Trap => BitVec.ofNat 64 (t.cause.code + t.flags.code * 2 ^ 16 + t.detail.toNat * 2 ^ 32)
    let late := (s.context (s.slot u k).st.ctx).frec ≠ 0 ∧
      ((s.slot u k).st.writes ≠ [] ∨ ∃ x ∈ (s.slot u k).st.asked, x.writes = true)
    (tvec ≠ 0 → old.frames.length ≠ 2 → ¬ late → ¬ (old.mode = .handler ∧ old.hbud = 0) →
      let r := record l u k t
      let new := (takeTrap s u k t).slot u k
      new.mode = .handler ∧ new.blocked = false ∧
      new.frames = ⟨if t.next then old.st.pc + 12 else old.st.pc, code t, t.addr, r.2, 0, 0, old.st.brmode, false, 0⟩ ::
        old.frames ∧
      new.st = { old.st with pc := tvec, brmode := 0 } ∧
      new.hbud = (if old.frames = [] then 2 ^ 20 else old.hbud) ∧
      (∀ i : Fin 8, new.o[i].valid = false ∧ new.o[i].val = old.o[i].val) ∧ (∀ i : Fin 2, new.z[i].valid = false) ∧
      (∀ i : Fin 4, new.b[i].valid = false) ∧ new.inflight = [] ∧ new.due = none ∧
      new.long = none ∧ ((takeTrap s u k t).core u).qs = (l.core u).qs ∧
      (∀ p, (takeTrap s u k t).byte p = r.1.byte p)) ∧
    (tvec = 0 → old.frames.length ≠ 2 → ¬ late → takeTrap s u k t =
      (record l u k { t with flags := { t.flags with kill := true } }).1.kill old.st.launch) ∧
    (old.frames.length = 2 → ¬ late → ∃ f g, old.frames = [f, g] ∧ takeTrap s u k t =
      (record l u k { t with
        cause := .hndNest, flags := { t.flags with kill := true },
        detail := BitVec.ofNat 32 (f.ecause.toNat % 2 ^ 16 * 2 ^ 16 + t.cause.code) }).1.kill old.st.launch) ∧
    (∀ w : Sender, w.unit = u → w.slot = k →
      let sl := s.slot u k
      let before := sl.owed ≠ [] ∨ (∃ x ∈ sl.st.writes, x.id < s.nextId) ∨
        ∃ x ∈ sl.st.asked, x.writes = true ∧ x.id < s.nextId
      let waits := sl.live = true ∧ w.names sl.st = true ∧ (s.context w.ctx).frec ≠ 0 ∧ before
      (waits → reportAfter s w t = s.modSlot u k fun sl => { sl with owed := sl.owed ++ [⟨t, s.nextId⟩] }) ∧
      (¬ waits → reportAfter s w t = report s mgmtUnit w t)) ∧
    (∀ o os, (s.slot u k).owed = o :: os →
      let open_ := (∃ x ∈ (s.slot u k).st.writes, x.id < o.before) ∨
        ∃ x ∈ (s.slot u k).st.asked, x.writes = true ∧ x.id < o.before
      (open_ → settleOwed s u k = s) ∧
      (¬ open_ → settleOwed s u k =
        report (s.modSlot u k fun sl => { sl with owed := os }) mgmtUnit (s.sender u k) o.trap))

/-- R364 to R369: `trap` and `brk` take their traps; `tret` raises TRET.STATE, resumes at EPC, requeues or drops the task,
or redispatches or discards the parked message; `lkill` kills its launch, waits, and tells whether it did; `tvset` and
`frset` set the vector and the fault area, the latter through the storage that a declared buffer selects. The model's
own choices are that `trap` and `brk` take the queue entry they read (log 46), that a requeued task is placed at its start
core in the step itself (log 47), and what a budget trap does to a waiting `lkill` (log 58); that the record of LKILL.BAD
names the hub is its reading (log 85, DEDUCED). -/
def Obligations.TrapForms : Prop :=
  (∀ (s t : State) (a : Word), s.Ready → s.ReadsA a t →
    exec .trap s = .next (t.trapHere { cause := .trap, detail := a.setWidth 32, next := true }) ∧
    exec .brk s = .next (t.trapHere { cause := .brk, detail := a.setWidth 32 }) ∧
    (a.toNat % 4 = 0 → a.toNat < 2 ^ 56 → exec .tvset s = .next
      (t.setContext t.st.ctx { t.context t.st.ctx with tvec := a }).rest.passed) ∧
    (a.toNat % 4 ≠ 0 ∨ 2 ^ 56 ≤ a.toNat → exec .tvset s = .next (s.trapHere { cause := .vecBad }))) ∧
  (∀ (s t : State) (a b : Word), s.Ready → s.ReadsAB a b t →
    let put := fun u : State => (u.setContext u.st.ctx { u.context u.st.ctx with frec := a }).rest.passed
    (b.toNat < 4 ∨ 16 < b.toNat → exec .frset s = .next (s.trapHere { cause := .vecBad })) ∧
    (4 ≤ b.toNat → b.toNat ≤ 16 → a = 0 → exec .frset s = .next (put t)) ∧
    (4 ≤ b.toNat → b.toNat ≤ 16 → a ≠ 0 → a.toNat % 64 = 0 → regionOf a.toNat = .h ∨ regionOf a.toNat = .m →
      storable t a.toNat ((a.toNat + 64 * (1 + 2 ^ b.toNat) - 1) / 4096 - a.toNat / 4096 + 1) = .ok () →
      ∀ p, locate t t.focusU t.st.ctx a.toNat .store = .ok p →
        (∀ c i, p.off.isSome = true → settleAll t p (64 * (1 + 2 ^ b.toNat) / 16) 0 = .error (c, i) →
          exec .frset s = .next (s.trapHere
            { cause := c, addr := BitVec.ofNat 64 (a.toNat + 16 * i), unit := t.foundAt p.home })) ∧
        ((p.off.isSome = true → areaClosed t p a.toNat (64 * (1 + 2 ^ b.toNat) / 16) = .ok ()) →
          awaitWrites t p.home = .ok () →
          (∀ ps, reachAll t t.st.ctx p 4 = .ok ps → exec .frset s =
            .next (put (t.setArea (p.key t t.st.ctx, ps) (areaHeader 0 0 0 b.toNat)))) ∧
          (∀ c i, reachAll t t.st.ctx p 4 = .error (c, i) → exec .frset s = .next (s.trapHere
            { cause := c, addr := BitVec.ofNat 64 (a.toNat + 16 * i), unit := t.foundAt p.home }))))) ∧
  (∀ (s t : State) (m w : Word), s.Ready → s.ReadsAB m w t →
    (∀ f fs, t.me.frames = f :: fs → (tretBad t m w = false ↔ t.me.mode = .handler ∧ m.toNat ≤ 4 ∧
      (m ≠ 0 → fs.length ≠ 1) ∧ (t.me.detached = true → 2 ≤ m.toNat) ∧
      (if f.async then m ≠ 1 ∧ (m.toNat ≤ 2 ∨ f.ecause.toNat % 2 ^ 16 = Cause.handlerMissing.code ∨
          f.ecause.toNat % 2 ^ 16 = Cause.orphan.code)
        else m.toNat ≤ 2 ∧ (m = 1 → w.toNat < 2 ^ 32)))) ∧
    (tretBad t m w = true → exec .tret s = .next (s.trapHere { cause := .tretState })) ∧
    (∀ f fs, tretBad t m w = false → t.me.frames = f :: fs →
      (f.async = false → m = 0 →
        let v := (t.modMe fun sl => { sl with
          frames := fs, mode := if fs.isEmpty then .issuing else .handler, blocked := false,
          changed := 0, st := { sl.st with brmode := f.brmode, pc := f.epc } }).finish
        exec .tret s = .next (if v.me.mode == .issuing then v.holdArrival t.focusU v.focusK else v)) ∧
      (let v := t.modCore t.focusU fun c => c.endGuards t.focusK
       m ≠ 0 ∨ f.async = true →
        (v.mayEnd v.focusU v.focusK = false →
          exec .tret s = .next (s.sendAndWait (s.modCore s.focusU fun c => c.endGuards s.focusK))) ∧
        (v.mayEnd v.focusU v.focusK = true →
          (m = 2 → exec .tret s = .next (v.dropTask v.focusU v.focusK)) ∧
          (f.async = true → m = 0 → exec .tret s = .next (v.dropTask v.focusU v.focusK)) ∧
          (f.async = true → m = 4 → exec .tret s = .next ((discard v v.focusU f.orphan f.msgId).dropTask v.focusU v.focusK)) ∧
          (f.async = true → m = 3 →
            (∀ x, redispatch v v.focusU f.orphan f.msgId = some x → exec .tret s = .next (x.dropTask v.focusU x.focusK)) ∧
            (redispatch v v.focusU f.orphan f.msgId = none → exec .tret s = .next (s.blockSlot s.focusU s.focusK))) ∧
          (f.async = false → m = 1 →
            let r := { v.st.crec with dkey := v.st.key, budget := if w = 0 then v.st.crec.budget else w.setWidth 32 }
            ((v.core v.st.started).hasRoom = false ∨ v.crossing v.focusU v.focusK v.st.started = true →
              exec .tret s = .next (s.sendAndWait s)) ∧
            ((v.core v.st.started).hasRoom = true → v.crossing v.focusU v.focusK v.st.started = false →
            exec .tret s = .next ((((v.turn v.focusU).endStrand v.focusU v.focusK).modCore v.st.started fun c =>
              c.pushRequeued ⟨r, v.st.wgt + v.st.sendWeight, v.st.origin, v.st.msgId, v.st.launch, v.st.ctx, v.st.dep, none,
                v.st.root, true, none⟩).learnFrom v.focusU v.st.started v.st.dep))))))) ∧
  (∀ (s t : State) (a : Word), s.Ready → s.me.acquires = [] → s.ReadsA a t →
    let l := if a = 0 then t.st.launch.toNat else a.toNat
    (kget t.hub.launches l = none → t.Room → exec .lkill s = .next (t.putLong 0).passed) ∧
    (∀ x, kget t.hub.launches l = some x →
      (x.ctx ≠ t.st.ctx → exec .lkill s = .next (s.trapHere { cause := .lkillBad, unit := some mgmtUnit })) ∧
      (x.ctx = t.st.ctx →
        (x.state = .live →
          let v := (s.kill (BitVec.ofNat 32 l)).modMe fun sl => { sl with asked := true, answer := some .performed }
          exec .lkill s = .next (s.sendAndWait v)) ∧
        (x.state = .killing → exec .lkill s = .next (s.blockSlot s.focusU s.focusK)) ∧
        (x.state = .killed → t.Room → exec .lkill s = .next (t.putLong (if t.me.asked then 1 else 0)).passed) ∧
        (x.state = .done → t.Room → exec .lkill s = .next (t.putLong 0).passed))))

/-- R372 to R387: the forms on a whole object at rest: `ccopy` and `cdisc` of a SEALED one, `cinsp` of its fields,
`crights` of its rights; `resume` of a SEALED object places its members and takes their weight from the strand; and the
refusals of R377. That a record no strand could hold is malformed, the size of the resumed group, the free record of a
resumed task and the order of the tests of `crights` are the model's choice (log 61). -/
def Obligations.ContinuationObjects : Prop :=
  (∀ (s t : State) (a b : Word) (h : ContHead), s.Standing → s.ReadsAB a b t → a.toNat % 64 = 0 → a.toNat < 2 ^ 56 →
    let read := t.heardAt (homesOf t a.toNat 16 .load)
    (∀ v, readHead t a (some 3) = .ok h → inspected h.num b.toNat = some v →
      read.Room → exec .cinsp s = .next (read.putLong (BitVec.ofNat 64 v)).passed) ∧
    (awaitObject t a = .ok () → readHead t a none = .ok h →
      (16 ≤ b.toNat → exec .crights s = .next (s.trapHere { cause := .contLayout })) ∧
      (∀ v, b.toNat < 16 → writeField a.toNat 35 1 (h.rights &&& b.toNat) read = .ok v → v.Room →
        exec .crights s = .next (v.putLong (BitVec.ofNat 64 h.rights)).passed)) ∧
    (awaitObject t a = .ok () → readHead t a (some 0) = .ok h →
      (h.state = 1 → exec .resume s = .next (s.trapHere { cause := .contIncomplete, unit := t.stateUnit a })) ∧
      (h.state = 3 → exec .resume s = .next (s.trapHere { cause := .contDouble, unit := t.stateUnit a })) ∧
      (h.state = 4 → exec .resume s = .next (s.trapHere { cause := .contState, unit := t.stateUnit a })) ∧
      (h.state = 2 → b.toNat < 2 ^ 21 → isCompute b.toNat = true → t.owner b.toNat = some t.st.ctx →
        t.hasGroup t.st.launch = false →
        let q := t.st.wgt.toNat / 2 / h.members
        2 ^ 16 ≤ q → ∀ blob ms v, readObject t a.toNat (h.size / 16) = .ok blob → awaitWrites t b.toNat = .ok () →
          parseObject h blob = some ms →
          let heard := t.heardAt (homesOf t a.toNat (h.size / 16) .load)
          (heard.crossing t.focusU t.focusK b.toNat = true → exec .resume s = .next (s.blockSlot s.focusU s.focusK)) ∧
          (heard.crossing t.focusU t.focusK b.toNat = false → writeField a.toNat 8 8 3 heard = .ok v →
          let w := (v.modSt fun st => { st with wgt := st.wgt - BitVec.ofNat 64 (h.members * q) }).returned
            (BitVec.ofNat 32 h.launch) (BitVec.ofNat 64 h.owgt)
          let cs := rotateTo b.toNat (ownedCores w w.st.ctx (dieOf b.toNat))
          ∀ x, w.launch w.st.launch = some x →
            let g : Group := ⟨dieOf b.toNat, (ms.map (·.num)).foldl max 0 + 1, ms.map (·.num), cs.take h.members⟩
            let y := placeAll h cs q 0 ms (w.setLaunch w.st.launch { x with group := some g })
            let z := { y with fresh := w.fresh + 256 }
            z.Room → exec .resume s = .next (z.putLong (BitVec.ofNat 64 h.members)).passed)))) ∧
  (∀ (s t : State) (a : Word) (h : ContHead), s.Standing → s.ReadsA a t → a.toNat % 64 = 0 → a.toNat < 2 ^ 56 →
    awaitObject t a = .ok () → readHead t a (some 2) = .ok h →
    (h.state = 1 → exec .cdisc s = .next (s.trapHere { cause := .contIncomplete, unit := t.stateUnit a })) ∧
    (h.state = 3 ∨ h.state = 4 → exec .cdisc s = .next (s.trapHere { cause := .contState, unit := t.stateUnit a })) ∧
    (∀ v, h.state = 2 → writeField a.toNat 8 8 4 (t.heardAt (homesOf t a.toNat 16 .load)) = .ok v → exec .cdisc s = .next
      (v.returned (BitVec.ofNat 32 h.launch) (BitVec.ofNat 64 h.owgt)).rest.passed)) ∧
  (∀ (s t : State) (a b d : Word) (h : ContHead) (blob : List Byte) (bad : Option ReadFailure), s.Standing →
    s.ReadsABD a b d t → a.toNat % 64 = 0 → a.toNat < 2 ^ 56 → b.toNat % 64 = 0 → b.toNat < 2 ^ 56 →
    awaitObject t a = .ok () → readHead t a (some 1) = .ok h → 2 ≤ t.st.wgt.toNat →
    (h.state = 1 → exec .ccopy s = .next (s.trapHere { cause := .contIncomplete, unit := t.stateUnit a })) ∧
    (h.state = 3 ∨ h.state = 4 → exec .ccopy s = .next (s.trapHere { cause := .contState, unit := t.stateUnit a })) ∧
    (h.state = 2 →
    let homes := homesOf t a.toNat (h.size / 16) .load
    homesReady t homes false = .ok () →
    homesReady (t.heardAt homes) (homesOf t b.toNat (min h.size d.toNat / 16) .store) true = .ok () →
    readSource t a.toNat 0 (h.size / 16) = (blob, bad) →
    let half := t.st.wgt.toNat / 2
    let r := takeSerial (t.heardAt homes)
    let head := copiedHead (leNat (blob.take 256)) r.1 t.st.launch.toNat half
    let write := writeAll b.toNat d.toNat (leBytes 256 head ++ blob.drop 256) bad
    (∀ v, write r.2 = (v, none) →
      let w := v.modSt fun st => { st with wgt := st.wgt - BitVec.ofNat 64 half }
      w.Room → exec .ccopy s = .next (w.putLong (BitVec.ofNat 64 r.1)).passed) ∧
    (∀ v f, write r.2 = (v, some f) →
      exec .ccopy s = .next ((write (takeSerial (s.heardAt homes)).2).1.trapHere f)))) ∧
  (∀ v serial launch half : Nat, serial < 2 ^ 64 → launch < 2 ^ 32 → half < 2 ^ 64 →
    let c := copiedHead v serial launch half
    bits c 127 64 = 1 ∧ bits c 191 128 = serial ∧ bits c 255 192 = half ∧ bit c 274 = true ∧ bits c 351 320 = launch ∧
    bits c 479 448 = 0 ∧ (∀ i, (i < 64 ∨ 256 ≤ i) → i ≠ 274 → ¬ (320 ≤ i ∧ i < 352) → ¬ (448 ≤ i ∧ i < 480) →
      bit c i = bit v i))

/-- R380 to R383, R387: a suspension tests its group and operands, quiesces the members, and waits until every member is
still and its commands as the form needs them; then the object is written and sealed and the members' slots end; and
`gthaw` returns the members of a failed one to their states. What a suspension that has begun counts as, its second attempt,
its one step of writing and sealing and the fields the issuer gives are the model's choice (logs 59 and 60). -/
def Obligations.Suspensions : Prop :=
  (∀ (s t : State) (a b d : Word) (x : Suspension) (record : Bool), s.Standing → s.ReadsABD a b d t →
    suspendTests record a b d t = .ok x →
    let i := if record then Instr.suspendRecord else .suspendDrain
    let l := t.st.launch
    let begin_ := fun u : State =>
      ((u.heardAt (homesOf u d.toNat (bits b.toNat 47 40) .load)).setSuspension x).modMe fun sl =>
        { sl with asked := true, answer := some .performed }
    let stop := fun u : State => (standing u l).foldl (fun u m => if m.isMe u then u else quiesceSlot u m) u
    let u := stop (begin_ t)
    ∀ y g, (begin_ t).launch l = some y → y.group = some g →
      let here := standing u l
      let ms := g.members.filterMap fun n => here.find? fun m => m.num == n
      (allStill u g here = false →
        let w := stop (begin_ s)
        exec i s = .next (s.sendAndWait w)) ∧
      (allStill u g here = true → (∀ m ∈ ms, ∀ c ∈ cmdsOf u m, record = true ∧ c.phase ≠ .executing) →
        ∀ n, (if ms.any (fun m => m.isMe u) then u.here.freeSerial else some 0) = some n →
          let after := fun v : State => ms.foldl (fun v m =>
            v.modSt fun st => { st with dep := Clock.join st.dep (v.slot m.unit m.slot).st.dep }) v
          let r := takeSerial (after u)
          let o := objectOf r.2 record b.toNat r.1 x.list ms
          let len := bits b.toNat 31 0
          let write := writeAll a.toNat len o.1 o.2
          (∀ y ∈ homesOf r.2 a.toNat (min len o.1.length / 16) .store, r.2.crossing r.2.focusU r.2.focusK y = false) →
          (∀ v, write r.2 = (v, none) →
            exec i s = .next (sealObject { v with fresh := v.fresh + 8 } ms n).rest.passed) ∧
          (∀ v f, write r.2 = (v, some f) →
            let failed := (stop (begin_ s)).setSuspension { x with failed := true }
            exec i s = .next ((write (takeSerial (after failed)).2).1.trapHere f)))) ∧
  (∀ (s t : State) (a b d : Word) (record : Bool), s.Standing → s.ReadsABD a b d t → t.hasGroup t.st.launch = false →
    exec (if record then .suspendRecord else .suspendDrain) s = .next (s.trapHere { cause := .groupNone })) ∧
  (∀ (ms : List Standing) (s : State) (n : Nat), sealObject s ms n =
    let u := ms.foldl (saveMember n) s
    let v := if ms.any (fun m => m.isMe u) then u.modMe fun sl => { sl with detached := true } else u
    let w := match v.launch v.st.launch with | some x => v.setLaunch v.st.launch { x with group := none } | none => v
    let z := (ms.map (·.unit)).foldl tidyLine w
    { z with hub := { z.hub with suspended := z.hub.suspended.filter fun x => x.launch != v.st.launch } }) ∧
  (∀ s : State, s.Standing →
    let l := s.st.launch
    ((∀ x ∈ s.hub.suspended, ¬ (x.launch = l ∧ x.failed = true)) →
      exec .gthaw s = .next (s.trapHere { cause := .contState })) ∧
    ((∃ x ∈ s.hub.suspended, x.launch = l ∧ x.failed = true) →
      let t := { s with hub := { s.hub with suspended := s.hub.suspended.filter fun x => x.launch != l } }
      exec .gthaw s = .next ((standing t l).foldl (fun u m => u.modSlot m.unit m.slot fun sl =>
        if sl.mode == .quiesced then { sl with mode := sl.back, lastIssue := (u.core m.unit).cyc } else sl) t).rest.passed))

/-- R398, R399: `coll.smp` and `coll.red` test their descriptor and data, wait as a release of system scope, send their
contribution to the hub, and wait; the outcome they get completes them. At the home a contribution of an older step gets
COLL.STEP, a second one of a member COLL.DUP, one of a decided step that step's outcome; the last one decides, and the
members are folded in ascending index, whatever order they arrived in. The region of a descriptor, the free value of a fold
without a number, the sign of a zero sum and what counts as a disagreement are the model's choice (log 62); that a form waits
at its instruction while the module is before stage 4, and that the record of a fault that the home finds names the hub, are
its readings (logs 5 and 85, DEDUCED). -/
def Obligations.Collectives : Prop :=
  (∀ v : Nat, ∀ smp, collDescBad smp v = false ↔ bits v 511 448 ≠ 0 ∧ bits v 447 416 ≠ 0 ∧ bit v (448 + bits v 5 0) = true ∧
    (smp = true → bits v 327 326 ≤ 2 ∧ (bit v 325 = false → bits v 255 224 = 0)) ∧
    (smp = false → 1 ≤ bits v 383 352 ∧ bits v 383 352 ≤ 512 ∧ bits v 327 325 = 0 ∧ bits v 319 256 = 0 ∧
      bits v 255 224 = 0)) ∧
  (∀ (s t : State) (a b : Word) (bs : List Byte) (smp : Bool), s.Standing → s.ReadsAB a b t →
    mayReach t t.focusU t.focusU t.st.ctx .l = true → t.early t.focusU false = false →
    let i := if smp then Instr.collSmp else .collRed
    let v := leNat bs
    let runs := fun n : Nat => (n + 15) / 16 * 16
    (a.toNat % 64 ≠ 0 ∨ schedBase < a.toNat + 64 → exec i s = .next (s.trapHere { cause := .collArg })) ∧
    (a.toNat % 64 = 0 → a.toNat + 64 ≤ schedBase → readRun t t.focusU a.toNat a.toNat 64 = .ok bs →
      (collDescBad smp v = true → exec i s = .next (s.trapHere { cause := .collArg })) ∧
      (∀ head data : List Byte, collDescBad smp v = false → b.toNat % 16 = 0 → b.toNat + 16 ≤ schedBase →
        readRun t t.focusU b.toNat b.toNat 16 = .ok head →
        let c := leNat (head.take 4)
        let n := if smp then 16 + 8 * c else 16 + 4 * bits v 383 352
        (smp = true → c ≤ 256) → b.toNat + runs n ≤ schedBase → readRun t t.focusU b.toNat b.toNat (runs n) = .ok data →
        s.Released .system →
        (t.hub.stage < 4 → exec i s = .next (s.blockSlot s.focusU s.focusK)) ∧ (4 ≤ t.hub.stage →
        let x : CollWait := ⟨t.self, bits v 335 328, BitVec.ofNat 16 (bits v 351 336), BitVec.ofNat 32 (bits v 415 384), smp,
          a.toNat, b.toNat, t.cyc + bits v 447 416, false⟩
        let k := Contribution.make t.hub.device.toNat smp v (data.take n) (some t.self)
        let u := t.postPlain t.focusU t.focusK mgmtUnit (.contribution x.hdev x.cid x.step k)
        let w := { u with hub := { u.hub with collWaits := u.hub.collWaits ++ [x] } }.modMe fun sl =>
          { sl with asked := true, answer := some .performed }
        exec i s = .next (s.sendAndWait w))))) ∧
  (∀ (s : State) (i : Instr), i = .collSmp ∨ i = .collRed → s.Ready → s.me.acquires = [] →
    (s.me.answer = some .performed → exec i s = .next (s.blockSlot s.focusU s.focusK)) ∧
    (∀ v, s.me.answer = some (.value v) → s.Room → exec i s = .next (s.putLong v).passed) ∧
    (∀ c a d, s.me.answer = some (.fault c a d) →
      exec i s = .next (s.trapHere { cause := c, addr := a, detail := d, unit := some mgmtUnit }))) ∧
  (∀ (s : State) (ctx : BitVec 12) (cid : BitVec 16) (step : BitVec 32) (c : Contribution) (dep : Clock) (x : Collective),
    kget s.hub.colls (ctx.toNat * 2 ^ 16 + cid.toNat) = some x →
    let t := s.learn (dieOf mgmtUnit) dep
    (x.step ≠ step → (step - x.step).toNat ≥ 2 ^ 31 →
      contribute s ctx cid step c dep = some (answerMember ⟨4, 0, 0, []⟩ t c)) ∧
    (∀ o, x.step = step → x.outcome = some o → contribute s ctx cid step c dep = some (answerMember o t c)) ∧
    (x.step = step → x.outcome = none → (∃ d ∈ x.members, d.self = c.self) →
      contribute s ctx cid step c dep = some (answerMember ⟨5, 0, 0, []⟩ t c)) ∧
    (x.step ≠ step → (step - x.step).toNat < 2 ^ 31 → x.outcome = none → contribute s ctx cid step c dep =
      let key := ctx.toNat * 2 ^ 16 + cid.toNat
      some (settleColl (failColl t ctx key x) ctx key ⟨step, [c], none⟩))) ∧
  (∀ (s : State) (ctx : BitVec 12) (key : Nat) (x : Collective) (c : Contribution) (r : List Contribution), x.members = c :: r →
    ((∃ d ∈ r, c.agrees d = false) → settleColl s ctx key x = failColl s ctx key x) ∧
    ((∀ d ∈ r, c.agrees d = true) → (∀ i < 64, c.mask.getLsbD i = true ↔ ∃ d ∈ c :: r, d.self = i) →
      let free := fun i : Nat => (Config.freeWord (s.fresh + i)).toNat % 2 ^ 32
      settleColl s ctx key x = decideColl { s with fresh := s.fresh + 2 ^ 15 } ctx key x
        (if c.smp then foldSmp free x.inOrder else foldRed free x.inOrder))) ∧
  (∀ x y : Collective, x.members.Perm y.members → (x.members.map (·.self)).Nodup → x.inOrder = y.inOrder)

/-- R400, R401, R403, R404: `ckpt.save` with no other device in its set clears the commit word of slot STEP mod 2
first, copies its ranges there, and gives 0, or 2 where a write was not performed, having made those that could be, and with others it waits for them; `ckpt.commit` of a step that was
saved writes the commit word, the step above the CRC of the data, and gives it; CKPT.ARG and CKPT.STEP stop them. A
save that waited at the linked barrier completes with what it was given. `ecnt.sel` gives a counter's old code, sets
the new one and clears the count as one step; `ecnt.rd` reads the count; ECNT.ARG stops a malformed identifier, a set
the core has not and a code not listed for the set, and ECNT.OWN a counter the context may not use. Where the ranges begin in a slot, what a range that cannot be read
makes of a save, and a loft core's set 0 are the model's choice (logs 22, 63 and 64); that a save waits at its instruction
while the module is before stage 4, and that the record of CKPT.STEP names the hub, are its readings (logs 5 and 85,
DEDUCED). -/
def Obligations.CheckpointsAndCounters : Prop :=
  ((∀ v : Nat, CkptDesc.ofNum v =
      if bits v 479 464 = 0 ∧ bits v 415 0 = 0 ∧ 1 ≤ bits v 463 448 ∧ bits v 463 448 ≤ 256 then
        some ⟨BitVec.ofNat 32 (bits v 511 480), bits v 463 448, bits v 447 416⟩
      else none) ∧
    (∀ (s t : State) (a b : Word) (d : CkptDesc) (rs : List (Nat × Nat)), s.Standing → s.ReadsAB a b t →
      readCkpt t a = .ok d → readRanges t b d.nrange (t.context t.st.ctx).ckSize = .ok rs →
      let x := t.context t.st.ctx
      let before := (x.savedStep d.step).isSome = true ∨ ∃ c, x.ckCommitted = some c ∧ d.step.toNat ≤ c.toNat
      (before → exec .ckptSave s = .next (s.trapHere { cause := .ckptStep, unit := some mgmtUnit })) ∧
      (¬ before → s.settledIn .system true = false → exec .ckptSave s = .next (s.blockSlot s.focusU s.focusK)) ∧
      (¬ before → s.Released .system → t.hub.stage < 4 → exec .ckptSave s = .next (s.blockSlot s.focusU s.focusK)) ∧
      (¬ before → s.Released .system → 4 ≤ t.hub.stage → x.ckSet ≠ [] →
        let u := t.heardAt (homesOf t b.toNat d.nrange .load)
        let w := { u with hub := { u.hub with ckptWaits := u.hub.ckptWaits ++ [(⟨u.self, d.step, rs, u.cyc + d.tout⟩ : CkptWait)] } }
        exec .ckptSave s = .next (s.sendAndWait (w.modMe fun sl => { sl with asked := true }))) ∧
      (¬ before → s.Released .system → 4 ≤ t.hub.stage → x.ckSet = [] →
        let u := saveStep (t.heardAt (homesOf t b.toNat d.nrange .load)).hear t.st.ctx d.step rs
        u.1.Room → exec .ckptSave s = .next (u.1.putLong (BitVec.ofNat 64 u.2)).passed)) ∧
    (∀ (s : State) (ctx : BitVec 12) (step : BitVec 32) (rs : List (Nat × Nat)) (bs : List Byte),
      let x := s.context ctx
      let p := x.ckSlot step
      let u := s.putSlot ctx p (leBytes 8 0)
      slotTakes s ctx p 8 = true → rangeBytes u ctx (rangePages rs) = some bs → slotTakes u ctx (p + 8192) bs.length = true →
      let v := u.putSlot ctx (p + 8192) bs
      let y := v.context ctx
      saveStep s ctx step rs = (v.setContext ctx { y with ckSaved := (step.toNat, ⟨crc32c bs, rs, false⟩) :: x.ckSaved }, 0)) ∧
    (∀ (s : State) (ctx : BitVec 12) (step : BitVec 32) (rs : List (Nat × Nat)),
      let p := (s.context ctx).ckSlot step
      let u := if homeTakes s ctx p 8 = true then s.putSlot ctx p (leBytes 8 0) else s
      slotTakes s ctx p 8 = false ∨ rangeBytes u ctx (rangePages rs) = none ∨
        (∃ bs, rangeBytes u ctx (rangePages rs) = some bs ∧ slotTakes u ctx (p + 8192) bs.length = false) →
      saveStep s ctx step rs = (copyParts ctx (p + 8192) (rangePages rs) u, 2)) ∧
    (∀ (s : State) (ctx : BitVec 12) (p a : Nat) (as : List Nat),
      (rangeBytes s ctx [a] = none → copyParts ctx p (a :: as) s = copyParts ctx (p + 4096) as s) ∧
      (∀ bs, rangeBytes s ctx [a] = some bs → copyParts ctx p (a :: as) s = copyParts ctx (p + 4096) as
        (if homeTakes s ctx p bs.length = true then s.putSlot ctx p bs else s))) ∧
    (∀ (s t : State) (a : Word) (d : CkptDesc), s.Standing → s.ReadsA a t → readCkpt t a = .ok d →
      let ctx := t.st.ctx
      let x := t.context ctx
      (x.savedStep d.step = none → exec .ckptCommit s = .next (s.trapHere { cause := .ckptStep, unit := some mgmtUnit })) ∧
      (∀ e, x.savedStep d.step = some e → slotTakes t ctx (x.ckSlot d.step) 8 = true →
        (∀ c, x.ckCommitted = some c → c.toNat < d.step.toNat) →
        let w := d.step.toNat * 2 ^ 32 + e.crc.toNat
        let saved := x.ckSaved.map fun q => if q.1 = d.step.toNat then (q.1, { q.2 with committed := true }) else q
        let u := (t.putSlot ctx (x.ckSlot d.step) (leBytes 8 w)).setContext ctx
          { x with ckSaved := saved, ckCommitted := some d.step }
        u.Room → exec .ckptCommit s = .next (u.putLong (BitVec.ofNat 64 w)).passed)) ∧
    (let malformed := fun (t : State) (a : Word) => a.toNat % 64 ≠ 0 ∨ schedBase < a.toNat + 64 ∨
        (mayReach t t.focusU t.focusU t.st.ctx .l = true ∧ t.early t.focusU false = false ∧
          ∃ bs, readRun t t.focusU a.toNat a.toNat 64 = .ok bs ∧ CkptDesc.ofNum (leNat (bs.take 64)) = none)
     (∀ (s t : State) (a b : Word), s.Standing → s.ReadsAB a b t →
      let stops := exec .ckptSave s = .next (s.trapHere { cause := .ckptArg })
      (malformed t a → stops) ∧
      (∀ d, readCkpt t a = .ok d → (b.toNat % 16 ≠ 0 → stops) ∧
        (∀ bs, b.toNat % 16 = 0 → readObject t b.toNat d.nrange = .ok bs →
          let base := fun i => leNat ((bs.drop (16 * i)).take 16) % 2 ^ 64
          let bytes := fun i => leNat ((bs.drop (16 * i)).take 16) / 2 ^ 64
          ((∃ i < d.nrange, base i % 4096 ≠ 0 ∨ regionOf (base i) ≠ .h ∨ bytes i % 4096 ≠ 0) ∨
            (t.context t.st.ctx).ckSize < ckptHead + ((List.range d.nrange).map bytes).sum) → stops))) ∧
     (∀ (s t : State) (a : Word), s.Standing → s.ReadsA a t → malformed t a →
      exec .ckptCommit s = .next (s.trapHere { cause := .ckptArg }))) ∧
    (∀ s : State, s.Ready → s.me.acquires = [] → ∀ v, s.me.answer = some (.value v) → s.Room →
      exec .ckptSave s = .next (s.putLong v).passed)) ∧
  ((∀ (t : State) (a : Word),
      let set := (a.extractLsb' 6 2).toNat
      let index := (a.extractLsb' 0 4).toNat
      let good := a.toNat < 256 ∧ a.extractLsb' 4 2 = 0 ∧ index < (if set = 0 then 4 else if set = 3 then 16 else 8) ∧
        (set = 2 → isLoft t.focusU = true) ∧ (t.focusU = mgmtUnit → set = 3) ∧ (set = 1 → isCompute t.focusU = true)
      (good → counterArg t a = .ok ⟨set, index⟩) ∧ (¬ good → counterArg t a = fail .ecntArg)) ∧
    (∀ (s t : State) (a b : Word) (c : CounterId), s.Ready → s.ReadsAB a b t →
      counterArg t a = .ok c →
      (256 ≤ b.toNat ∨ codeListed c.set b.toNat = false → exec .ecntSel s = .next (s.trapHere { cause := .ecntArg })) ∧
      (b.toNat < 256 → codeListed c.set b.toNat = true →
        (mayCount t c = false → exec .ecntSel s = .next (s.trapHere { cause := .ecntOwn })) ∧
        (∀ e, mayCount t c = true → (countersOf t c.set)[c.index]? = some e →
          let u := setCounters t c.set ((countersOf t c.set).set c.index ⟨b.setWidth 16, 0⟩)
          u.Room → exec .ecntSel s = .next (u.putLong (e.code.setWidth 64)).passed))) ∧
    (∀ (s t : State) (a : Word), s.Ready → s.ReadsA a t →
      (counterArg t a = fail .ecntArg → exec .ecntRd s = .next (s.trapHere { cause := .ecntArg }) ∧
        ∀ u b, s.ReadsAB a b u → counterArg u a = fail .ecntArg → exec .ecntSel s = .next (s.trapHere { cause := .ecntArg })) ∧
      (∀ c, counterArg t a = .ok c →
        (mayCount t c = false → exec .ecntRd s = .next (s.trapHere { cause := .ecntOwn })) ∧
        (∀ e, mayCount t c = true → (countersOf t c.set)[c.index]? = some e → t.Room →
          exec .ecntRd s = .next (t.putLong (e.count.setWidth 64)).passed))) ∧
    (∀ (s : State) (set : Nat) (l : List EventCounter), set = 0 ∨ set = 3 →
      s.focusU ∈ s.cores.map (·.1) → countersOf (setCounters s set l) set = l))

/-- R189, R190, R198, R206, R213, R193, R225: a request, or a store on its way to its home, is performed there and answered with
its result, a failure entry (an `ldd` whose element stands misaligned by the tag found there gets one too) or an
acknowledgement, and kept among the waiters while a full/empty load finds its granule
empty; one of a killed launch that only reads is dropped; an acknowledgement takes its write off the strand's list and
remembers a refusal; a reply enters q7 when it answers the oldest request; a migrant, or a member that waited, enters the
inbound queue of its core. What an address that has changed its place since a request left gives, the record of a store of
no task, an orphan's message number, and that a member that finds no room arrives as a message, are the model's choice (logs
14, 16, 74 and 75); that a read of a killed launch is dropped is its reading of R364 (log 48, DEDUCED). -/
def Obligations.ArrivalsAtHome : Prop :=
  (∀ (s : State) (i : Nat) (m : Msg) (r : Request) (row : Instr),
    (row = .stayRequestAtHome ∧ m.body = .request r ∧ s.ev = some (.stayRequestAtHome i)) ∨
      (row = .subbyteStoreAtHome ∧ m.body = .subbyte r ∧ s.ev = some (.subbyteStoreAtHome i)) →
    s.arriving i = some m → s.launchKilled m.sender.launch = false →
    let t := s.unpost i
    let hear := fun u : State => u.learnFrom m.src m.dst m.dep
    let send := fun (u v : State) (b : Payload) => v.post m.dst m.src m.sender ((hear u).heard (dieOf m.dst) m.dep) none b
    let ack := Payload.ack m.id r.addr m.sender.pc m.dst
    let refused := fun c : Cause => if r.reply then send t (hear t) (.reply m.id (.failure c r.addr m.sender.pc m.dst)) else
      send t (report (hear t) m.dst m.sender { cause := c, addr := r.addr }) (ack (some c))
    let found := locate s m.src m.sender.ctx r.addr.toNat r.op.access
    (∀ c, found = .error c → exec row s = .next (refused c)) ∧
    (∀ p, found = .ok p → p.place ≠ r.place → exec row s = .next (refused .pfNone)) ∧
    (∀ p, found = .ok p → p.place = r.place → r.op = .decode ∧ r.addr.toNat % (formatOf p.tag).size ≠ 0 →
      exec row s = .next (refused .align)) ∧
    (∀ p, found = .ok p → p.place = r.place → ¬ (r.op = .decode ∧ r.addr.toNat % (formatOf p.tag).size ≠ 0) →
      (mustWait s p r.op = false →
        (∀ c, performFor t m.sender.ctx m.dep p r.op = .error c → exec row s = .next (refused c)) ∧
        (∀ v u, performFor t m.sender.ctx m.dep p r.op = .ok (v, u) → exec row s = .next
          (send u (hear u) (if r.reply then .reply m.id (.word (BitVec.ofNat 64 v)) else ack none)))) ∧
      (mustWait s p r.op = true →
        ((s.core m.dst).waiters.length < 16 → exec row s = .next (t.modCore m.dst fun c =>
          { c with waiters := c.waiters ++ [⟨r, m.sender, m.id, m.dep, false⟩] })) ∧
        (16 ≤ (s.core m.dst).waiters.length → exec row s = .next s)))) ∧
  (∀ (s : State) (i : Nat) (m : Msg) (r : Request), s.ev = some (.stayRequestAtHome i) → s.arriving i = some m →
    m.body = .request r → s.launchKilled m.sender.launch = true → r.op.writes = false →
    exec .stayRequestAtHome s = .next (if r.reply then
      (s.unpost i).modCore m.src fun c => { c with pending := c.pending - 1 } else s.unpost i)) ∧
  (∀ (s : State) (i : Nat) (m : Msg) (id : Nat) (a pc : Word) (home : Nat) (no : Option Cause),
    s.ev = some (.writeAcknowledgement i) → s.arriving i = some m → m.body = .ack id a pc home no →
    m.sender.names (s.slot m.sender.unit m.sender.slot).st = true →
    exec .writeAcknowledgement s = .next ((s.unpost i).modSlot m.sender.unit m.sender.slot fun sl =>
      { sl with st := { sl.st with
          writes := sl.st.writes.filter (·.id != id),
          refused := match no with | some c => sl.st.refused ++ [⟨id, home, a, pc, c⟩] | none => sl.st.refused,
          hfRefused := match no with
            | some _ => if (∃ w ∈ sl.st.writes, w.id = id ∧ w.loft = true) ∧ sl.st.hfRefused ≠ BitVec.allOnes 32 then
                sl.st.hfRefused + 1 else sl.st.hfRefused
            | none => sl.st.hfRefused } })) ∧
  (∀ (s : State) (i : Nat) (m : Msg) (id : Nat) (v : QVal), s.ev = some (.replyArrival i) → s.arriving i = some m →
    m.body = .reply id v →
    let gone := if m.dst = m.sender.unit then (s.unpost i).modCore m.dst fun c => { c with pending := c.pending - 1 }
      else s.unpost i
    (∀ k x xs, (s.core m.dst).slotOf m.sender = some k → ((s.core m.dst).slot k).st.asked = x :: xs →
      (x.id = id → (s.core m.dst).qlen 7 < 8 → exec .replyArrival s = .next
        (gone.modCore m.dst fun c => c.putReply k id v m.dep)) ∧
      (x.id ≠ id ∨ 8 ≤ (s.core m.dst).qlen 7 → exec .replyArrival s = .next s)) ∧
    ((s.core m.dst).slotOf m.sender = none →
      (∀ f ∈ (s.core m.dst).forwards, f.isFor m.sender = false) → s.launchLive m.sender.launch = true →
      ((s.core m.dst).overflow.length < 64 →
        let t := gone.modCore m.dst fun c =>
          { c with overflow := c.overflow ++ [.reply m.sender (BitVec.ofNat 64 id) v], orphansLost := 0 }
        exec .replyArrival s = .next (report (t.count m.dst m.sender.ctx 0x0D 1) m.dst m.sender
          { cause := .orphan, pc := some 0, msgId := some (BitVec.ofNat 64 id),
            detail := (s.core m.dst).orphansLost })) ∧
      (64 ≤ (s.core m.dst).overflow.length → exec .replyArrival s = .next
        ((gone.modCore m.dst fun c => { c with orphansLost := c.orphansLost + 1 }).count m.dst m.sender.ctx 0x0D 1)))) ∧
  (∀ (s : State) (i : Nat) (m : Msg), s.ev = some (.migrantArrival i) → s.arriving i = some m →
    let c := s.core m.dst
    let enters := fun x : Inbound =>
      (c.inbound.length < 8 → c.hasRoom = true → exec .migrantArrival s = .next
        (((s.unpost i).learnFrom m.src m.dst m.dep).modCore m.dst fun c => { c with inbound := c.inbound ++ [x] })) ∧
      (8 ≤ c.inbound.length ∨ c.hasRoom = false → exec .migrantArrival s = .next s)
    (∀ st q7, m.body = .migrant st q7 →
      (s.launchLive st.launch = true → enters (.migrant st q7)) ∧
      (s.launchLive st.launch = false →
        exec .migrantArrival s = .next (((s.unpost i).freeNumber m.dst 0 st.numbered).closeSessions st))) ∧
    (∀ x, m.body = .member x → (s.launchLive m.sender.launch = true → enters x) ∧
      (s.launchLive m.sender.launch = false → exec .migrantArrival s = .next (s.unpost i)))) ∧
  (∀ (s : State) (i : Nat) (m : Msg) (a : Word) (bs : List Byte) (stamp : Option (BitVec 8)) (first : Bool) (v off : Nat),
    s.ev = some (.pushGranuleWrite i) → s.arriving i = some m → m.body = .push a bs stamp first →
    localOf m.src a.toNat = some (v, off) →
    let new := if first || off % 4096 == 0 then stamp else none
    let granule := pushGranule s m.sender.ctx m.dep (ownPlace s v off) (bs.take 16) new
    (∀ t, granule = .ok t →
      (bs.length ≤ 16 → exec .pushGranuleWrite s = .next ((t.unpost i).post m.dst m.src m.sender
        (t.heard (dieOf m.dst) m.dep) none (.ack m.id a m.sender.pc m.dst none))) ∧
      (16 < bs.length → exec .pushGranuleWrite s = .next { t with fabric := t.fabric.modify i fun m =>
        { m with body := .push (a + 16) (bs.drop 16) stamp false } })) ∧
    (∀ c, granule = .error c → exec .pushGranuleWrite s = .next
      (((report s m.dst m.sender { cause := c, addr := a }).unpost i).post m.dst m.src m.sender
        ((report s m.dst m.sender { cause := c, addr := a }).heard (dieOf m.dst) m.dep) none
        (.ack m.id a m.sender.pc m.dst (some c)))))

/-- R129, R137, R146, R148, R156, R163, R164, R207: a task that arrives waits until its core has room; a message under a
locked entry is parked, under a VALID one it takes the entry's code, key and budget, under an EMPTY one it is parked and
reported; an arrival at an ARMED cell counts it down, and one at any other is refused with JOIN.STATE; a lock lapses
after 64 cycles; weight that returns completes its launch with the last of it; a serial bit clears; a die tells every
other its changed SER, and what a die is told is its APP of the sender. The clock that a lock's 64 cycles are counted on and
the records of messages no task bears are the model's choice (logs 7 and 14), and so are an arrival at no cell, a cell's
record that cannot be read, and what a cell left ARMED with COUNT 0 or with a record's address overwritten does (logs 17, 18
and 82, DESIGN CHOICE); that a message of an ended launch is dropped is its reading of R364 (log 48, DEDUCED). -/
def Obligations.TaskArrivals : Prop :=
  (∀ (s : State) (i : Nat) (m : Msg) (q : Queued), s.arriving i = some m →
    let gone := s.unpost i
    let c := s.core m.dst
    let ready := fun (u : State) (q' : Queued) => ((u.unpost i).learnFrom m.src m.dst m.dep).modCore m.dst fun c =>
      { c with ready := c.ready ++ [q'] }
    (s.ev = some (.callatArrival i) → m.body = .callat q →
      (s.launchLive q.launch = false → exec .callatArrival s = .next gone) ∧
      (s.launchLive q.launch = true → c.hasRoom = true → exec .callatArrival s = .next (ready s q)) ∧
      (s.launchLive q.launch = true → c.hasRoom = false → exec .callatArrival s = .next s)) ∧
    (∀ idx, s.ev = some (.sendArrival i) → m.body = .send q idx → s.launchLive q.launch = true →
      let w := s.lapseLock q.ctx idx.toNat
      let e := (w.context q.ctx).handler idx.toNat
      let c := w.core m.dst
      let park := ((w.unpost i).learnFrom m.src m.dst m.dep).modCore m.dst fun c =>
        { c with overflow := c.overflow ++ [.send q idx] }
      (e.lock ≠ none → c.overflow.length < 64 → exec .sendArrival s = .next park) ∧
      (e.lock = none → e.valid = true → c.hasRoom = true → exec .sendArrival s = .next
        (ready w { q with crec := { q.crec with code := e.code, budget := e.budget, dkey := e.key } })) ∧
      (e.lock = none → e.valid = true → c.hasRoom = false → exec .sendArrival s = .next w) ∧
      (e.lock = none → e.valid = false → c.overflow.length < 64 → exec .sendArrival s = .next (report park m.dst
        { m.sender with msgId := q.msgId } { cause := .handlerMissing, pc := some 0, msgId := some q.msgId })))) ∧
  (∀ (s : State) (i : Nat) (m : Msg) (cell : Word) (p : Place) (q : List Nat), s.ev = some (.jarvArrival i) →
    s.arriving i = some m → m.body = .arrival cell → s.launchLive m.sender.launch = true →
    let h := s.learnFrom m.src m.dst m.dep
    locate h m.src m.sender.ctx cell.toNat .atomic = .ok p → reachAll h m.sender.ctx p 2 = .ok q →
    let ack := fun t : State =>
      (t.unpost i).post m.dst m.src m.sender (t.heard (dieOf m.dst) m.dep) none (.ack m.id cell m.sender.pc m.dst none)
    let v := leNat (h.gather q)
    let l := bits v 127 96
    let rec_ := bits v 191 128
    (v % 2 ^ 32 = 1 →
      (2 ≤ bits v 95 64 → exec .jarvArrival s = .next
        (ack ((h.scatterRaw q (leBytes 32 (cellNum 1 (bits v 95 64 - 1) l rec_ (bits v 255 192)))).learn
          (dieOf m.dst) m.dep))) ∧
      (bits v 95 64 ≤ 1 → (h.core m.dst).hasRoom = false → exec .jarvArrival s = .next h) ∧
      (bits v 95 64 ≤ 1 → (h.core m.dst).hasRoom = true →
        let t := h.scatterRaw q (leBytes 32 (cellNum 2 0 l rec_ 0))
        (∀ c, releasedRec t m.dst m.sender.ctx (rec_ % 2 ^ 56) = .error c → exec .jarvArrival s = .next
          (ack (((report t m.dst m.sender { cause := c, addr := cell }).returned (BitVec.ofNat 32 l)
            (BitVec.ofNat 64 (bits v 255 192))).learn (dieOf m.dst) m.dep))) ∧
        (∀ r, t.launchLive (BitVec.ofNat 32 l) = true → releasedRec t m.dst m.sender.ctx (rec_ % 2 ^ 56) = .ok r →
          exec .jarvArrival s = .next (ack ((t.modCore m.dst fun c => { c with ready := c.ready ++
            [⟨r, BitVec.ofNat 64 (bits v 255 192), .join, 0, BitVec.ofNat 32 l, m.sender.ctx,
              t.heard (dieOf m.dst) m.dep, none, false, false, none⟩] }).learn (dieOf m.dst) m.dep))))) ∧
    (v % 2 ^ 32 ≠ 1 → exec .jarvArrival s = .next
      (ack (report h m.dst m.sender { cause := .joinState, addr := cell })))) ∧
  (∀ (s : State) (ctx : BitVec 12) (idx : BitVec 8) (h : Holder) (n : Nat), s.ev = some (.handlerLockLapse ctx idx) →
    let e := (s.context ctx).handler idx.toNat
    e.lock = some (h, n) →
    (s.now < n + 64 → exec .handlerLockLapse s = .next s) ∧
    (n + 64 ≤ s.now → exec .handlerLockLapse s = .next (dispatchParked
      (s.setHandler ctx idx.toNat { e with lock := none, lapsed := h :: e.lapsed.filter (· != h) }) ctx idx.toNat))) ∧
  (∀ (s : State) (i : Nat) (m : Msg), s.arriving i = some m →
    (∀ w x, s.ev = some (.weightReturn i) → m.body = .weight w → s.launch m.sender.launch = some x → x.state = .live →
      let r := x.returned + w.setWidth 96
      let t := s.unpost i
      (r ≠ x.issued → exec .weightReturn s = .next (t.setLaunch m.sender.launch { x with returned := r })) ∧
      (∀ q, r = x.issued → x.queue = some q →
        let u := t.setLaunch m.sender.launch { x with returned := r, state := .done }
        exec .weightReturn s = .next
          { u with hub := { u.hub with done := u.hub.done ++ [⟨q, m.sender.launch, 0, x.entry⟩] } })) ∧
    (∀ n, s.ev = some (.serialNoticeArrival i) → m.body = .serial n → exec .serialNoticeArrival s = .next
      ((s.unpost i).modCore m.dst fun c => { c with serials := c.serials &&& ~~~ (BitVec.ofNat 1024 (2 ^ n)) })) ∧
    (∀ ser, s.ev = some (.clockNoticeArrival i) → m.body = .clock ser →
      let x := s.die (dieOf m.dst)
      exec .clockNoticeArrival s = .next
        ((s.unpost i).setDie (dieOf m.dst) { x with app := sset 0 x.app (dieOf m.src) ser }))) ∧
  (∀ (s : State) (d : Nat), s.ev = some (.clockNoticeSend d) →
    let x := s.die d
    (d < 57 → x.ser ≠ x.told →
      let t := s.setDie d { x with told := x.ser }
      exec .clockNoticeSend s = .next (((List.range 57).filter (· != d)).foldl (fun s e =>
        s.post (dieUnit d) (dieUnit e) ⟨dieUnit d, 0, 0, 0, 0, 0, false, 0⟩ [] none (.clock x.ser)) t)) ∧
    (57 ≤ d ∨ x.ser = x.told → exec .clockNoticeSend s = .next s))

/-- R33, R40, R47, R48, R138, R145, R254, R351, R354, R141 to R144: an EMPTY slot takes the oldest migrant first and
else the task of smallest rank; a strand that has issued 256 instructions is switched away; a spent BUD takes the
BUDGET trap on the next instruction and a spent HBUD ends the launch; the oldest deferred fault is taken on the next
instruction that issues, ahead of a spent budget, by a strand that waits to issue too; none of these strikes a strand whose
trap's record still waits; the access a strand waits for is performed
in the step that ends its wait; a word that cannot be fetched or is no instruction takes the trap that says so. An idle compute core
reserves a slot and asks a victim; the victim hands over the entry of smallest rank that may be stolen, or refuses; a
grant enters the thief's ready set; an attempt ends after 400 cycles; 64 failures in a row make the thief wait for
4,096 cycles. That an event with nothing to do changes nothing, where steals are counted, and where the visiting order starts
again after work are the model's choice (logs 26, 41 and 76). -/
def Obligations.CoreSteps : Prop :=
  ((∀ (s : State) (u k : Nat), s.ev = some (.slotSelect u k) →
      let t := s.dropDead u
      let c := t.core u
      (k < c.slots.length → (c.slot k).live = false → (∀ x, c.steal = some x → x.slot ≠ k) →
        let c' := { c with stealFails := 0, backoff := none }
        (∀ st q7 xs, c.inbound = .migrant st q7 :: xs → exec .slotSelect s = .next
          (((t.setCore u { c' with inbound := xs }).seatMigrant u k st q7).holdArrival u k)) ∧
        (∀ q xs, c.inbound = .member q :: xs → exec .slotSelect s = .next
          (((t.setCore u { c' with inbound := xs }).startTask u k q).holdArrival u k)) ∧
        (∀ st v m qs cs xs, c.inbound = .resumed st v m qs cs :: xs → exec .slotSelect s = .next
          ((seatResumed (t.setCore u { c' with inbound := xs }) u k st v m qs cs).holdArrival u k)) ∧
        (c.inbound = [] → c.deque = [] → c.ready = [] → exec .slotSelect s = .next t) ∧
        (∀ p q, c.inbound = [] → c'.pick = some p → c'.queuedAt p = some q → q.needsSerial = false ∨ c'.freeSerial ≠ none →
          exec .slotSelect s = .next ((t.setCore u (c'.takeOut p)).startTask u k q))) ∧
      (c.slots.length ≤ k ∨ (c.slot k).live = true ∨ (∃ x, c.steal = some x ∧ x.slot = k) →
        exec .slotSelect s = .next t)) ∧
    (∀ (s : State) (u k : Nat), let sl := s.slot u k
      (s.ev = some (.forcedSwitch u k) → 256 ≤ sl.run → sl.mode = .issuing ∨ sl.mode = .handler →
        exec .forcedSwitch s = .next (((s.modSlot u k Slot.switchAway).count u sl.st.ctx 0x03 1).modCore u
          fun c => c.passTurn k)) ∧
      (s.ev = some (.budgetExhausted u k) → sl.st.bud = 0 → sl.due = none →
        (sl.mode = .issuing → sl.answer = none → sl.deferred = [] → exec .budgetExhausted s = .next
          (({ s.withdraw u k with focusU := u, focusK := k }.count u sl.st.ctx 0x04 1).trapHere { cause := .budget })) ∧
        (sl.deferred ≠ [] → sl.mode = .issuing ∨ sl.unissued = true → exec .budgetExhausted s = .next s) ∧
        (sl.mode = .waiting → sl.answer = none → sl.deferred = [] ∨ sl.unissued = false →
          (sl.long = none → exec .budgetExhausted s = .next
            (takeTrap ((s.withdraw u k).count u sl.st.ctx 0x04 1) u k { cause := .budget })) ∧
          (∀ w, sl.long = some w → w.performed = false → exec .budgetExhausted s = .next
            (takeTrap (((s.withdraw u k).unload u k w).count u sl.st.ctx 0x04 1) u k { cause := .budget })) ∧
          (∀ w, sl.long = some w → w.performed = true → exec .budgetExhausted s = .next s)) ∧
        (sl.answer ≠ none → exec .budgetExhausted s = .next s)) ∧
      (s.ev = some (.budgetExhausted u k) → sl.st.bud ≠ 0 ∨ sl.due ≠ none → exec .budgetExhausted s = .next s) ∧
      (∀ f, s.ev = some (.handlerBudgetExpiry u k) → sl.mode = .handler → sl.due = none → sl.hbud = 0 → s.launchLive sl.st.launch = true →
        sl.frames.getLast? = some f → exec .handlerBudgetExpiry s = .next
          (fatal s u k { cause := .hndBudget, detail := BitVec.ofNat 32 (f.ecause.toNat % 2 ^ 16) })) ∧
      (∀ d ds, s.ev = some (.deferredFault u k) → sl.deferred = d :: ds →
        (sl.mode = .issuing ∨ (sl.mode = .handler ∧ sl.blocked = false) → sl.due = none → sl.answer = none →
          exec .deferredFault s = .next
          ({ (s.withdraw u k).modSlot u k fun sl => { sl with deferred := ds } with focusU := u, focusK := k }.trapHere
            { cause := d.cause, flags := { deferred := true }, addr := d.addr, dseq := d.dseq, unit := d.unit })) ∧
        (sl.mode = .waiting → sl.due = none → sl.st.bud = 0 → sl.unissued = true → exec .deferredFault s = .next
          (takeTrap { (s.withdraw u k).modSlot u k fun sl => { sl with deferred := ds } with focusU := u, focusK := k } u k
            { cause := d.cause, flags := { deferred := true }, addr := d.addr, dseq := d.dseq, unit := d.unit })) ∧
        (sl.answer ≠ none ∨ sl.due ≠ none ∨ (sl.mode = .handler ∧ sl.blocked = true) →
          exec .deferredFault s = .next s))) ∧
    (∀ (s : State) (u k : Nat),
      let t := settleOwed (s.modCore u fun c => c.land k) u k
      let sl := t.slot u k
      sl.live = true → sl.due = none → t.launchKilled sl.st.launch = false →
        (∀ d ds, sl.deferred = d :: ds → sl.mode = .waiting → sl.st.bud = 0 → sl.unissued = true →
          beginSlot exec u k s = exec .deferredFault { t with ev := some (.deferredFault u k) }) ∧
        (∀ w x, sl.waits = true → sl.long = some w → w.access = some x → (sl.mode = .waiting → sl.st.bud ≠ 0) →
          (sl.mode = .handler → sl.hbud ≠ 0) → sl.run < 256 → beginSlot exec u k s = .next (longCome u k w x t))) ∧
    (∀ (s : State) (u k : Nat) (w : LongWait) (x : LongAccess) (op : MemOp) (regs : List RegName),
      let sl := s.slot u k
      x.op = .mem op regs → sl.answer = none → sl.asked = false →
        ((s.core u).cyc < sl.readyAt → longCome u k w x s = s) ∧
        (sl.readyAt ≤ (s.core u).cyc → regs.all (s.core u).takes = true → mustWait s x.place op = false →
          (∀ v t, performFor s sl.st.ctx sl.st.dep x.place op = .ok (v, t) →
            longCome u k w x s = (if op.replies then t.longHear u k else t).longDone u k regs v) ∧
          (∀ c, performFor s sl.st.ctx sl.st.dep x.place op = .error c → op.replies = true ∨ c ≠ .memPoison →
            longCome u k w x s = s.longFault u k w x.place.home c x.addr))) ∧
    (∀ s : State, s.me.live = true →
      (∀ c b, s.ev = some (.fetchFault c b) → exec .fetchFault s = .next
        (s.trapHere { cause := fetchFaultCause c, flags := { fetch := true }, addr := b })) ∧
      (∀ w, s.ev = some (.illegalInstruction w) →
        let traps := fun (c : Cause) (a : Nat) => exec .illegalInstruction s = .next
          (s.trapHere { cause := c, addr := BitVec.ofNat 64 a })
        match w with
        | .opc => traps .illOpc 0
        | .prof => traps .illProf 0
        | .form d => traps .illForm d))) ∧
  ((∀ (s : State) (u v k : Nat), s.ev = some (.stealAttempt u v) →
      let t := s.dropDead u
      let c := t.core u
      isCompute u = true → c.emptySlot = some k → c.inbound = [] → c.deque = [] → c.ready = [] → c.steal = none →
        c.backoff = none → victimOk t u v = true →
        exec .stealAttempt s = .next
          ((t.setCore u { c with steal := some ⟨v, c.cyc, k⟩ }).post u v (t.sender u k) [] none (.stealRequest k))) ∧
    (∀ (s : State) (i : Nat) (m : Msg), s.arriving i = some m →
      let gone := s.unpost i
      let fails := fun u : State => u.modCore m.dst fun c =>
        { c with steal := none, stealFails := c.stealFails + 1,
                 backoff := if 64 ≤ c.stealFails + 1 then some c.cyc else c.backoff }
      let mine := ∃ x, (s.core m.dst).steal = some x ∧ x.victim = m.src
      (∀ k, s.ev = some (.stealRequestAtVictim i) → m.body = .stealRequest k →
        (offer s m.dst m.src = none → exec .stealRequestAtVictim s = .next
          (gone.post m.dst m.src m.sender [] none (.stealGrant none))) ∧
        (∀ p q, offer s m.dst m.src = some p → (s.core m.dst).queuedAt p = some q → exec .stealRequestAtVictim s = .next
          ((gone.modCore m.dst fun c => c.takeOut p).post m.dst m.src m.sender q.dep none (.stealGrant (some q))))) ∧
      (s.ev = some (.stealGrantArrival i) → m.body = .stealGrant none →
        (mine → exec .stealGrantArrival s = .next ((fails gone).count m.dst 0 0x06 1)) ∧
        (¬ mine → exec .stealGrantArrival s = .next gone)) ∧
      (∀ q, s.ev = some (.stealGrantArrival i) → m.body = .stealGrant (some q) → s.launchLive q.launch = true →
        ((s.core m.dst).hasRoom = true → mine → exec .stealGrantArrival s = .next
          (((gone.learnFrom m.src m.dst m.dep).modCore m.dst fun c => { c with
            stealFails := 0, backoff := none, ready := c.ready ++ [q], steal := none }).count m.dst q.ctx 0x05 1)) ∧
        ((s.core m.dst).hasRoom = false → exec .stealGrantArrival s = .next s))) ∧
    (∀ (s : State) (victim thief : Nat) (q : Queued), stealable s victim thief q = true ↔
      (q.origin = .fork ∨ q.origin = .join) ∧ q.requeued = false ∧ s.launchLive q.launch = true ∧
        inDomain (s.domain q.launch) victim thief = true ∧ s.owner thief = some q.ctx) ∧
    (∀ (s : State) (u : Nat) (x : Steal), s.ev = some (.stealTimeout u) → (s.core u).steal = some x →
      ((s.core u).cyc < x.sentAt + 400 → exec .stealTimeout s = .next s) ∧
      (x.sentAt + 400 ≤ (s.core u).cyc → exec .stealTimeout s = .next
        ((s.modCore u fun c =>
          { c with steal := none, stealFails := c.stealFails + 1,
                   backoff := if 64 ≤ c.stealFails + 1 then some c.cyc else c.backoff }).count u 0 0x06 1))) ∧
    (∀ (s : State) (u n : Nat), s.ev = some (.stealBackoffExpiry u) → (s.core u).backoff = some n →
      ((s.core u).cyc < n + 4096 → exec .stealBackoffExpiry s = .next s) ∧
      (n + 4096 ≤ (s.core u).cyc → exec .stealBackoffExpiry s = .next
        (s.modCore u fun c => { c with stealFails := 0, backoff := none }))))

/-- R158, R289, R309 to R311, R329, R364, R399, R401, R402: the steps of units beside the cores. A selection command
registers when its guard holds and no strand waits at it; the Fuller recopies a full committed page into a smaller class;
the scrub damages a page whose unit fails or whose CRC does not fit; a forwarding entry unused for 65,536 cycles lapses; a
notice of RPOS moves CLEN and tells its forms; Clear ends a launch KILLED; contributions, watchdogs and ABANDONs reach
their home, those of other devices only over a link that is up; a linked barrier is passed or timed out; and recovery kills
the launches, then loads the shards. The model's choices: that the agenda gives the time of each (log 1), that an event with
nothing to do changes nothing (log 26), that recovery ends the launches in one step and loads in another (log 65), and that
what comes from another device is data of an event (log 68). -/
def Obligations.UnitSteps : Prop :=
  (∀ (s : State) (u : Nat) (x : Cmd), s.ev = some (.carderRegistration u) →
    ((s.core u).cmds.find? fun x => x.engine == .selection && !x.registered) = some x →
    x.awaited = false → x.bound = none → registerWaits s x = false →
    (∀ y, registerTests { s with focusU := x.unit, focusK := x.slot } x = .ok y →
      exec .carderRegistration s = .next (enrol s x y)) ∧
    (∀ t o, registerTests { s with focusU := x.unit, focusK := x.slot } x = .error (.trap t o) →
      exec .carderRegistration s = .next (failCmd s x (t.cause, t.addr.toNat)))) ∧
  (∀ (s : State) (i k : Nat),
    let h := s.handle i
    let d := h.page k
    (s.ev = some (.fullerCompaction i k) → h.state = .live → d.fill = 32 → d.pois = false →
      32 * (k % 2 ^ 20) + 32 ≤ h.clen.toNat → damagedRow s h d (List.range 32) = none →
      let rows := pageRows s h d
      let img := pageImage d.scale.toNat h.fmt.toNat (zeroRows rows) rows
      let c := classFor img.length
      ∀ p st, c < d.cls.toNat → (s.pool (handleDie i)).take c = some (p, st) →
        let t := freePage ((s.setPool (handleDie i) st).setBytesUnder (h.key s) (p * 4096) img) i d
        exec .fullerCompaction s = .next (t.setHandle i ((t.handle i).setPage k
          { d with pfn := p, cls := BitVec.ofNat 2 c, cmp := true }.publish))) ∧
    (s.ev = some (.scrubCheck i k) → h.state = .live → 0 < d.fill → d.pois = false →
      (∀ r, damagedRow s h d (List.range d.fill) = some r → exec .scrubCheck s = .next (pageError s i k r)) ∧
      (damagedRow s h d (List.range d.fill) = none →
        (pageCrc d.scale.toNat (pageRows s h d) = d.crc → exec .scrubCheck s = .next s) ∧
        (pageCrc d.scale.toNat (pageRows s h d) ≠ d.crc → exec .scrubCheck s = .next (pageError s i k 0)))) ∧
    (∀ f, s.ev = some (.forwardingEntryLapse i k) → (s.core i).forwards[k]? = some f →
      ((s.core i).cyc < f.lastUse + 65536 → exec .forwardingEntryLapse s = .next s) ∧
      (f.lastUse + 65536 ≤ (s.core i).cyc → exec .forwardingEntryLapse s = .next
        (s.modCore i fun c => { c with forwards := c.forwards.eraseIdx k }))) ∧
    (∀ m j r ts, s.ev = some (.rposNotice i) → s.arriving i = some m → m.body = .rpos j r ts →
      exec .rposNotice s = .next (ts.foldl tell
        ((s.unpost i).setHandle j { s.handle j with rpos := r }.settleClen)))) ∧
  (∀ (s : State) (n : Nat) (x : Launch), s.ev = some (.launchClearComplete n) → s.launch (BitVec.ofNat 32 n) = some x →
    let l := BitVec.ofNat 32 n
    let t := (sweep s l).setLaunch l { x with state := .killed, group := none }
    (x.state = .killing → clearDone s l = false → exec .launchClearComplete s = .next s) ∧
    (∀ q, x.state = .killing → clearDone s l = true → x.queue = some q → exec .launchClearComplete s = .next
      { t with hub := { t.hub with done := t.hub.done ++ [⟨q, l, 1, x.entry⟩] } })) ∧
  (∀ (s : State) (i : Nat) (m : Msg) (hdev : Nat) (cid : BitVec 16) (step : BitVec 32), s.arriving i = some m →
    let gone := s.unpost i
    (∀ c, s.ev = some (.collContributionArrival (.here i)) → m.body = .contribution hdev cid step c →
      (hdev ≠ s.hub.device.toNat → exec .collContributionArrival s = .next gone) ∧
      (hdev = s.hub.device.toNat →
        (∀ t, contribute gone m.sender.ctx cid step c m.dep = some t → exec .collContributionArrival s = .next t) ∧
        (contribute gone m.sender.ctx cid step c m.dep = none → exec .collContributionArrival s = .next s))) ∧
    (∀ x, s.ev = some (.collAbandonArrival (.here i)) → m.body = .abandon hdev cid step → hdev = s.hub.device.toNat →
      kget s.hub.colls (m.sender.ctx.toNat * 2 ^ 16 + cid.toNat) = some x →
      (x.step = step → x.outcome = none → exec .collAbandonArrival s = .next
        (failColl gone m.sender.ctx (m.sender.ctx.toNat * 2 ^ 16 + cid.toNat) x)) ∧
      (x.step ≠ step ∨ x.outcome ≠ none → exec .collAbandonArrival s = .next gone))) ∧
  (∀ (s : State) (ctx : BitVec 12) (dev : Nat),
    (∀ desc smp data, s.ev = some (.collContributionArrival (.peer ctx dev desc smp data)) →
      let v := desc.toNat
      let c := Contribution.make dev smp v data none
      (s.linkTo dev = false → exec .collContributionArrival s = .next s) ∧
      (∀ t, 4 ≤ s.hub.stage → s.linkTo dev = true → bits v 335 328 = s.hub.device.toNat → collDescBad smp v = false →
        contribute s ctx (BitVec.ofNat 16 (bits v 351 336)) (BitVec.ofNat 32 (bits v 415 384)) c [] = some t →
        exec .collContributionArrival s = .next t)) ∧
    (∀ cid step, s.ev = some (.collAbandonArrival (.peer ctx dev cid step)) →
      (s.linkTo dev = false → exec .collAbandonArrival s = .next s) ∧
      (s.linkTo dev = true → exec .collAbandonArrival s = .next (abandon s ctx cid step)))) ∧
  (∀ (s : State) (u k : Nat),
    (∀ x, s.ev = some (.collWatchdogExpiry u k) →
      s.hub.collWait (s.sender u k) = some x →
      ((s.core u).cyc < x.deadline ∨ x.abandoned = true → exec .collWatchdogExpiry s = .next s) ∧
      (x.deadline ≤ (s.core u).cyc → x.abandoned = false →
        let f := fun y : CollWait => if y.sender.same x.sender then { y with abandoned := true } else y
        let t := { s with hub := { s.hub with collWaits := s.hub.collWaits.map f } }
        exec .collWatchdogExpiry s = .next (t.postPlain u k mgmtUnit (.abandon x.hdev x.cid x.step)))) ∧
    (∀ x reached, s.ev = some (.ckptBarrierTimeout u k reached) →
      (s.hub.ckptWaits.find? fun x => x.sender.unit == u && x.sender.slot == k) = some x →
      let t := { s with hub := { s.hub with ckptWaits := s.hub.ckptWaits.filter fun y => !y.sender.same x.sender } }
      (reached = true →
        let r := saveStep t x.sender.ctx x.step x.ranges
        exec .ckptBarrierTimeout s = .next (tell r.1 (x.sender, .value (BitVec.ofNat 64 r.2)))) ∧
      (reached = false → x.deadline ≤ (s.core u).cyc →
        exec .ckptBarrierTimeout s = .next (tell t (x.sender, .value 1))) ∧
      (reached = false → (s.core u).cyc < x.deadline → exec .ckptBarrierTimeout s = .next s))) ∧
  (∀ (s : State) (dev : Nat) (step : BitVec 32), s.ev = some (.deviceRecovery dev step) →
    let mine := (s.hub.contexts.filter fun c => c.2.ckSet.contains dev).map fun c => BitVec.ofNat 12 c.1
    let live := mine.flatMap (unended s)
    (live = [] → exec .deviceRecovery s = .next (mine.foldl (fun s c => loadShard s c step) s)) ∧
    (live ≠ [] → exec .deviceRecovery s = .next (live.foldl (fun s l => s.kill (BitVec.ofNat 32 l)) s)))

/-- R150 to R155, R217, R334, R335, R394 to R396: a notify latches a tail; the longest-runnable queue takes a free slot, an
idle one loses its own after 16,384 cycles and an old one for a waiting queue; a mapped, enabled queue starts its next
entry or completes it BAD; completions are posted in order while their ring has room; QCTL creates, disables and destroys
queues; requests leave through the egress ring, replies are delivered or dropped, the drop counters stop at their
greatest value, and the host reads and writes its windows through the functions of a link that is up. The model's choices in
it: that a cycle at the hub is one of the core that has run furthest (log 7), the numbering of a host's access and the
8 bytes a read returns (log 23), that an entry which cannot be read completes BAD (log 20, DEDUCED), what waits while a
descriptor or a ring no longer translates (log 45), that a request leaves
when it is written to the ring (log 56), the tests that a reply must pass (log 67), and which outcome a create reads when several checks fail and
what a disable or destroy of an ASSIGNED queue leaves (log 80). -/
def Obligations.HostInterface : Prop :=
  (∀ (s : State) (q : Nat) (d : Desc), s.desc q = some d →
    (∀ t, s.ev = some (.notify q t) →
      (s.hub.stage < 3 ∨ queueReached s q = false → exec .notify s = .next s) ∧
      (3 ≤ s.hub.stage → queueReached s q = true → exec .notify s = .next (latch s q t))) ∧
    (s.ev = some (.queueMap q) → s.hub.runnable.head? = some q → s.hub.mapped.length < 1024 →
      let t := s.setHubNum d.place 0 8 ((d.en s).toNat + 2 + d.ntail s % 2 ^ 32 * 2 ^ 32)
      exec .queueMap s = .next { t with hub := { t.hub with
        runnable := t.hub.runnable.tail, mapped := t.hub.mapped ++ [⟨q, t.now, false, t.now⟩] } }) ∧
    (∀ x, s.ev = some (.queueIdleUnmap q) → (s.hub.mapped.find? fun x => x.queue == q) = some x →
      (d.head s = d.ntail s → x.idleAt + 16384 ≤ s.now → exec .queueIdleUnmap s = .next (unmap s q)) ∧
      (d.head s ≠ d.ntail s ∨ s.now < x.idleAt + 16384 → exec .queueIdleUnmap s = .next s)) ∧
    (∀ x, s.ev = some (.queueEvict q) → s.hub.runnable ≠ [] → 1024 ≤ s.hub.mapped.length →
      (s.hub.mapped.find? fun x => x.started) = some x → x.queue = q → exec .queueEvict s = .next (unmap s q)) ∧
    (∀ bufs, s.ev = some (.launchStart q bufs) → s.hub.isMapped q = true → d.en s = true → d.head s ≠ d.ntail s →
      s.hub.power.stopped = false →
      (hubGranules s d.ctx (d.ring s + 128 * (d.head s % 2 ^ d.log s)) 8 = none → exec .launchStart s = .next
        ((takeHead s q d false).complete ⟨q, 0, 2, BitVec.ofNat 32 (d.head s)⟩)) ∧
      (∀ bs, hubGranules s d.ctx (d.ring s + 128 * (d.head s % 2 ^ d.log s)) 8 = some bs → bs ≠ [] →
        (entryLaunch s d.ctx bs = none → exec .launchStart s = .next
          ((takeHead s q d false).complete ⟨q, 0, 2, BitVec.ofNat 32 (d.head s)⟩)) ∧
        (∀ h r yard data tags t, entryLaunch s d.ctx bs = some (h, r, yard, data, tags) →
          beginLaunch s q d.ctx (d.head s) h r yard data tags bufs = some t →
          exec .launchStart s = .next (takeHead t q d true)))) ∧
    (∀ c p, s.ev = some .completionPost → postable s s.hub.done [] = some (c, d, p) →
      let cnt := d.cplcnt s
      let t := (s.setHubNum p 0 16 (c.launch.toNat + c.status.toNat * 2 ^ 32 + c.entry.toNat * 2 ^ 64)).setHubNum
        d.place 40 4 ((cnt + 1) % 2 ^ 32)
      exec .completionPost s = .next { t with hub := { t.hub with done := t.hub.done.erase c } })) ∧
  (∀ s : State, s.ev = some .completionPost → postable s s.hub.done [] = none → exec .completionPost s = .next s) ∧
  (∀ (s : State) (ctx : BitVec 12) (q : Nat) (a : Word),
    let x := s.context ctx
    let sel := fun desc : Word =>
      s.setContext ctx { x with page := { x.page with qsel := BitVec.ofNat 14 q, qdesc := desc } }
    let n := q % 2 ^ 14
    (s.ev = some (.qctlCreate ctx q a) →
      (hostReaches s ctx = true → exec .qctlCreate s = .next (qctlCreate (sel a) ctx n a)) ∧
      (hostReaches s ctx = false → exec .qctlCreate s = .next s)) ∧
    (s.ev = some (.qctlDisable ctx q) →
      (hostReaches s ctx = true → exec .qctlDisable s = .next (qctlDisable (sel x.page.qdesc) ctx n)) ∧
      (hostReaches s ctx = false → exec .qctlDisable s = .next s)) ∧
    (s.ev = some (.qctlDestroy ctx q) →
      (hostReaches s ctx = true → exec .qctlDestroy s = .next (qctlDestroy (sel x.page.qdesc) ctx n)) ∧
      (hostReaches s ctx = false → exec .qctlDestroy s = .next s))) ∧
  (∀ (s : State) (ctx : BitVec 12) (q : Nat) (a : Word), kget s.hub.queues q = some (.assigned ctx) →
    (∀ c, createCheck s ctx a.toNat = .error c → qctlCreate s ctx q a = s.setQctl ctx c) ∧
    (∀ p, createCheck s ctx a.toNat = .ok p →
      let t := { s with hub := { s.hub with queues := kput s.hub.queues q (.active ctx a) } }
      ∃ d, t.desc q = some d ∧ qctlCreate s ctx q a = ((t.setHubNum d.place 0 8
        (1 + 2 * (s.hub.isMapped q).toNat + 4 * (d.run t).toNat + d.ntail t % 2 ^ 32 * 2 ^ 32)).setQctl ctx 1).makeRunnable q) ∧
    qctlDisable s ctx q = s ∧ qctlDestroy s ctx q = s) ∧
  (∀ (s : State) (ctx : BitVec 12) (q : Nat) (d : Desc), s.desc q = some d → ownsQueue s ctx q = true →
    let flags := fun (s : State) (en : Bool) (mapped : Bool) (run : Bool) =>
      s.setHubNum d.place 0 8 (en.toNat + 2 * mapped.toNat + 4 * run.toNat + d.ntail s % 2 ^ 32 * 2 ^ 32)
    let off := (flags s false (s.hub.isMapped q) (d.run s)).setQctl ctx 2
    qctlDisable s ctx q = { off with hub := { off.hub with runnable := off.hub.runnable.filter (· != q) } } ∧
    (d.en s = true ∨ queueLive s q = true → qctlDestroy s ctx q = s.setQctl ctx 0x80000004) ∧
    (d.en s = false → queueLive s q = false →
      qctlDestroy s ctx q = (destroyQueue s q (.assigned ctx)).setQctl ctx 3)) ∧
  (∀ (s : State) (ctx : BitVec 12) (q : Nat), ownsQueue s ctx q = false →
    let bad := s.setQctl ctx 0x80000001
    (∀ a, qctlCreate s ctx q a = bad) ∧ qctlDisable s ctx q = bad ∧ qctlDestroy s ctx q = bad) ∧
  (∀ (s : State) (n : Nat) (e : Nat × Nat) (x : Outward) (xs : List Outward), s.ev = some (.egressWrite n) →
    (s.hub.egress.find? fun p => p.2 == n) = some e → (s.req n).leaving = x :: xs →
    let ctx := BitVec.ofNat 12 e.1
    let c := s.context ctx
    let p := c.page
    (p.egbase = 0 ∨ hostReaches s ctx = false ∨ 2 ^ p.eglog.toNat ≤ (p.egprod - p.egcons).toNat →
      exec .egressWrite s = .next s) ∧
    (p.egbase ≠ 0 → hostReaches s ctx = true → (p.egprod - p.egcons).toNat < 2 ^ p.eglog.toNat →
      let t := ((s.setHostBytes (p.egbase.toNat + 64 * (p.egprod.toNat % 2 ^ p.eglog.toNat)) (x.bytes n)).setContext ctx
        { c with page := { p with egprod := p.egprod + 1 } })
      let u := t.setReq n { t.req n with leaving := xs }
      exec .egressWrite s = .next
        ({ u with hub := { u.hub with egress := u.hub.egress.erase e } }.countHub ctx 0x15 1))) ∧
  (∀ (s : State) (ctx : BitVec 12),
    let c := s.context ctx
    let p := c.page
    let v := leNat (s.hostBytes (p.rpbase.toNat + 64 * (p.rpdone.toNat % 2 ^ p.rplog.toNat)) 64)
    let n := bits v 23 8
    let serial := BitVec.ofNat 32 (bits v 63 32)
    let r := s.req n
    let alive := r.state ≠ .free ∧ (serial - r.first).toNat < (r.serial - r.first).toNat ∧ serial ∉ r.dead
    let next := fun t : State => t.setContext ctx
      { t.context ctx with page := { (t.context ctx).page with rpdone := (t.context ctx).page.rpdone + 1 } }
    (∀ tail, s.ev = some (.replyDoorbell ctx tail) →
      (hostReaches s ctx = true → exec .replyDoorbell s = .next
        (s.setContext ctx { c with page := { p with rptail := tail } })) ∧
      (hostReaches s ctx = false → exec .replyDoorbell s = .next s)) ∧
    (s.ev = some (.replyDeliver ctx) →
      (p.rpdone = p.rptail ∨ hostReaches s ctx = false → exec .replyDeliver s = .next s) ∧
      (p.rpdone ≠ p.rptail → hostReaches s ctx = true →
        (¬ alive → r.state = .free → exec .replyDeliver s = .next (next (s.countHub ctx 0x16 1))) ∧
        (¬ alive → r.state ≠ .free → exec .replyDeliver s = .next
          (next ((s.setReq n { r with rdrop := if r.rdrop.toNat = 2 ^ 32 - 1 then r.rdrop else r.rdrop + 1 }).countHub
            ctx 0x16 1))) ∧
        (∀ h, alive → hubPlace s ctx p.dlbase.toNat 64 .store = some h →
          let cnt := s.hubNum h 0 4
          let held := (BitVec.ofNat 32 cnt - BitVec.ofNat 32 (s.hubNum h 4 4)).toNat
          (2 ^ p.dllog.toNat ≤ held → exec .replyDeliver s = .next s) ∧
          (∀ q, held < 2 ^ p.dllog.toNat →
            hubPlace s ctx (p.dlbase.toNat + 64 + 64 * (cnt % 2 ^ p.dllog.toNat)) 64 .store = some q →
            exec .replyDeliver s = .next (next ((s.setHubNum q 0 64 (replyNum v)).setHubNum h 0 4 ((cnt + 1) % 2 ^ 32)))))))) ∧
  (∀ v : Nat, replyNum v / 2 ^ 32 = v / 2 ^ 32 ∧ bits (replyNum v) 31 24 = 0 ∧ bits (replyNum v) 23 4 = bits v 23 4 ∧
    bit (replyNum v) 3 = false ∧ bits (replyNum v) 2 0 = bits v 2 0) ∧
  (∀ (r : ReqSlot) (f : Outward → Bool),
    (r.dropHeld f).edrop.toNat = min (2 ^ 32 - 1) (r.edrop.toNat + (r.held.filter f).length)) ∧
  (∀ (s : State) (i f o : Nat),
    (∀ bs, s.ev = some (.hostWindowAccess i f o (some bs)) →
      (2 ^ 40 ≤ o → exec .hostWindowAccess s = .next (s.setHostBytes (o - 2 ^ 40) bs)) ∧
      (o < 2 ^ 40 → hostFunction s i f = none → exec .hostWindowAccess s = .next s) ∧
      (∀ ctx, o < 2 ^ 40 → hostFunction s i f = some ctx → exec .hostWindowAccess s = .next (hostWrite s ctx o bs))) ∧
    (s.ev = some (.hostWindowAccess i f o none) →
      let answer := fun bs : List Byte => { s with hub := { s.hub with hostRead := bs } }
      (2 ^ 40 ≤ o → exec .hostWindowAccess s = .next (answer (s.hostBytes (o - 2 ^ 40) 8))) ∧
      (o < 2 ^ 40 → hostFunction s i f = none → exec .hostWindowAccess s = .next s) ∧
      (∀ ctx, o < 2 ^ 40 → hostFunction s i f = some ctx →
        exec .hostWindowAccess s = .next (answer (hostRead s ctx o)))) ∧
    (∀ ctx, hostFunction s i f = some ctx ↔ ∃ l x, s.hub.hosts[i]? = some l ∧ l.up = true ∧
      kget l.functions f = some x ∧ x.d3hot = false ∧ x.ctx = ctx)) ∧
  (∀ (s : State) (ctx : BitVec 12) (q : Nat) (bs : List Byte), q < 16384 →
    (ownsQueue s ctx q = true → hostWrite s ctx (2 ^ 37 + 4096 * q) bs = latch s q (BitVec.ofNat 32 (leNat bs))) ∧
    (ownsQueue s ctx q = false → hostWrite s ctx (2 ^ 37 + 4096 * q) bs = s))

/-- R155, R179, R184, R199, R363, R364, R397, R406 to R409: the management core creates and ends contexts, hands over barns
and loft cores cleared, changes page tables by a shootdown, zeroing a plain page that another context takes over, retires the
poisoned frames of a context that ends, and delivers key pairs inside a secured session; a link goes down
at its 32nd failed replay in a row; the power estimate moves n and the temperature halves it or stops the module; requests
of the SPDM connection move it from stage to stage and draw a response; and a reset leaves the module in stage 1 of its
bring-up. That a change of page tables is one step and its completion another, with accesses translated between them as the
caches hold their pages, which inputs fill (log 34), that frames of 4 KiB are retired and an entry that would map one is not
written (log 96), that the links are down after a reset (log 5, DEDUCED), and that what the management core decides comes as data of an event, with the steps it
takes (log 65), are the model's choices; the response of an SPDM request is a free value (log 66), and a reset keeps the
host's memory and the agenda, which are no part of the module (log 65). -/
def Obligations.ModuleSteps : Prop :=
  (∀ (s : State) (ctx : BitVec 12),
    (∀ x, s.ev = some (.contextCreate ctx x) →
      (s.hub.stage < 5 ∨ (s.context ctx).live = true ∨ x.ck.all CkSetup.fits = false →
        exec .contextCreate s = .next s) ∧
      (5 ≤ s.hub.stage → (s.context ctx).live = false → x.ck.all CkSetup.fits = true → ∃ t, exec .contextCreate s = .next t ∧
        t.context ctx = (match x.ck with
          | some k => { Context.none with
              live := true, troot := x.troot, serial := 1, exchange := x.exchange, ckSize := k.size, ckSlots := k.slots, ckSet := k.set, ckBuddy := k.buddy, ckHeld := k.held }
          | none => { Context.none with live := true, troot := x.troot, serial := 1, exchange := x.exchange }) ∧
        s.SameMemory t ∧ t.cores = s.cores)) ∧
    (s.ev = some (.contextEnd ctx) → (s.context ctx).live = true →
      (unended s ctx = [] → exec .contextEnd s = .next (removeContext s ctx)) ∧
      (unended s ctx ≠ [] → exec .contextEnd s = .next
        ((unended s ctx).foldl (fun s l => s.kill (BitVec.ofNat 32 l)) s))) ∧
    (∀ key, s.ev = some (.keyPairDelivery ctx key) →
      let x := s.hub.security
      (x.spdm = .session → 5 ≤ s.hub.stage → exec .keyPairDelivery s = .next
        { s with hub := { s.hub with security := { x with keys := kput x.keys ctx.toNat key } } }) ∧
      (x.spdm ≠ .session ∨ s.hub.stage < 5 → exec .keyPairDelivery s = .next s)) ∧
    (∀ root es, s.ev = some (.translationShootdown ctx root es) →
      let x := s.context ctx
      (x.changing = false →
        let t := es.foldl (fun t e => writeEntry t ctx e.1 e.2) s
        exec .translationShootdown s = .next (t.setContext ctx
          { t.context ctx with changing := true, troot := root.getD x.troot })) ∧
      (x.changing = true →
        (translating s ctx = true → exec .translationShootdown s = .next s) ∧
        (translating s ctx = false →
          let t := (s.setContext ctx { x with changing := false }).dropPages fun _ p => p.ctx == ctx
          exec .translationShootdown s = .next t ∧
          ∀ u a k, translateAt t u ctx a k = translate t ctx a k)))) ∧
  ((∀ (s : State) (ctx : BitVec 12) (a : Nat) (v : BitVec 64),
      let put := fun t : State => (t.under (t.keyOf ctx) a 8).storeNum false a 8 v.toNat
      (newPage ctx v = none → writeEntry s ctx a v = put s) ∧
      (∀ p, newPage ctx v = some p → ((∃ f ∈ s.hub.retired, p.covers f = true) → writeEntry s ctx a v = s) ∧
        ((∀ f ∈ s.hub.retired, p.covers f = false) → writeEntry s ctx a v = put (mapPage s p)))) ∧
    (∀ (s : State) (p : MappedPage), s.Canonical → ∀ r < hbmEnd,
      let passes := p.covers (r / 4096) = true ∧
        ∃ q, s.lastMapped (r / 4096) = some q ∧ q.plain = true ∧ q.ctx ≠ p.ctx
      (passes → (mapPage s p).byte r = 0) ∧ (¬ passes → (mapPage s p).byte r = s.byte r)) ∧
    (∀ (s : State) (ctx : BitVec 12) (x : Nat × Bool), x ∈ s.poison → 16 * x.1 < hbmEnd →
      let f := x.1 / 256
      ((∃ p, s.lastMapped f = some p ∧ p.ctx = some ctx) →
        f ∈ (retirePages s ctx).hub.retired ∧ ∀ y ∈ (retirePages s ctx).poison, y.1 / 256 ≠ f) ∧
      ((∀ p, s.lastMapped f = some p → p.ctx ≠ some ctx) → x ∈ (retirePages s ctx).poison))) ∧
  (∀ (s : State) (n : Nat) (new : Option (BitVec 12)), s.ev = some (.ownershipChange n new) →
    let us := if n < 2 ^ 20 then (List.range 16).map fun i => barnOf n + i else [n]
    (5 ≤ s.hub.stage → isWorker n = true → (n < 2 ^ 20 → ∀ u ∈ us, (s.core u).vacant = true) →
      let v := us.foldl clearCore s
      let t := v.dropPages fun u p => us.contains u && v.owner n == some p.ctx
      let key := if n < 2 ^ 20 then barnOf n else n
      exec .ownershipChange s = .next
        { t with owners := match new with | some c => kput t.owners key c | none => kdel t.owners key }) ∧
    (s.hub.stage < 5 ∨ isWorker n = false ∨ (n < 2 ^ 20 ∧ ∃ u ∈ us, (s.core u).vacant = false) →
      exec .ownershipChange s = .next s)) ∧
  (∀ (s : State) (i : Nat) (good : Bool) (l : Link), s.ev = some (.flitReplay i good) → s.hub.links[i]? = some l →
    let t := fun (up : Bool) (n : Nat) => { s with hub := { s.hub with links := s.hub.links.set i ⟨up, n⟩ } }
    (l.up = false → exec .flitReplay s = .next s) ∧
    (l.up = true → good = true → exec .flitReplay s = .next (t true 0)) ∧
    (l.up = true → good = false → l.failed + 1 < 32 → exec .flitReplay s = .next (t true (l.failed + 1))) ∧
    (l.up = true → good = false → 32 ≤ l.failed + 1 →
      let u := match (t false (l.failed + 1)).hub.counters.owner with
        | some c => (t false (l.failed + 1)).countHub c 0x17 1
        | none => t false (l.failed + 1)
      exec .flitReplay s = .next ((u.hub.routes.filter fun r => r.2 == i).foldl (fun s r => abandonDevice s r.1) u))) ∧
  (∀ s : State,
    let p := s.hub.power
    let allow := fun n : Nat => { s with hub := { s.hub with power := { p with allow := n } } }
    (∀ mw, s.ev = some (.powerEstimate mw) →
      (p.plim < mw → exec .powerEstimate s = .next (allow (max 1 (p.allow - 1)))) ∧
      (mw ≤ p.plim → 100 * mw < 95 * p.plim → exec .powerEstimate s = .next (allow (min 16 (p.allow + 1)))) ∧
      (mw ≤ p.plim → 95 * p.plim ≤ 100 * mw → exec .powerEstimate s = .next s)) ∧
    (∀ c, s.ev = some (.thermalThrottle c) →
      (100 < c → exec .thermalThrottle s = .next (allow (max 1 (p.allow / 2)))) ∧
      (c ≤ 100 → exec .thermalThrottle s = .next s)) ∧
    (∀ c, s.ev = some (.thermalStop c) → 110 ≤ c → ∃ t, exec .thermalStop s = .next t ∧ t.hub.power.stopped = true ∧
      (∀ l ∈ t.hub.links, l.up = false) ∧ (∀ l ∈ t.hub.hosts, l.up = false) ∧ (∀ x ∈ t.hub.launches, x.2.state ≠ .live ∧ x.2.state ≠ .killing) ∧
      s.SameMemory t) ∧
    (s.ev = some .moduleReset → ∃ t, exec .moduleReset s = .next t ∧ t.mem = [] ∧ t.full = [] ∧ t.tags = [] ∧
      t.cores = [] ∧ t.owners = [] ∧ t.fabric = [] ∧ t.hub.contexts = [] ∧ t.hub.launches = [] ∧
      t.hub.security.keys = [] ∧ t.hostMem = s.hostMem ∧ t.hub.stage = 1 ∧
      (∀ l ∈ t.hub.links, l.up = false) ∧ (∀ l ∈ t.hub.hosts, l.up = false))) ∧
  (∀ s : State, 3 ≤ s.hub.stage →
    let x := s.hub.security
    let to_ := fun n : Spdm => Host.Outcome.next { s with
      fresh := s.fresh + 1, hub := { s.hub with security := { x with spdm := n, response := [Config.freeBits 512 s.fresh] } } }
    exec .getVersion s = to_ .version ∧
    (x.spdm = .version → exec .getCapabilities s = to_ .capabilities) ∧
    (x.spdm = .capabilities → exec .negotiateAlgorithms s = to_ .negotiated) ∧
    (x.spdm = .negotiated → exec .challenge s = to_ .negotiated ∧ exec .keyExchange s = to_ .keyed) ∧
    (x.spdm = .negotiated ∨ x.spdm = .session → exec .getDigests s = to_ x.spdm ∧ exec .getCertificate s = to_ x.spdm ∧
      exec .getMeasurements s = to_ x.spdm) ∧
    (∀ ok, s.ev = some (.finish ok) → x.spdm = .keyed →
      exec .finish s = to_ (if ok then .session else .negotiated)) ∧
    (x.spdm = .session → exec .endSession s = to_ .negotiated ∧ exec .heartbeat s = to_ .session)) ∧
  (∀ (s : State) (i : Input) (r : List Pick), s.agenda = .input i :: r → s.hub.power.stopped = false →
    let t := { s with agenda := r }
    (i = .nextStage → step s = .next { t with hub := { t.hub with stage := min 5 (t.hub.stage + 1) } }) ∧
    (∀ mw, i = .powerLimit mw →
      (10_000_000 ≤ mw → mw ≤ 26_000_000 →
        step s = .next { t with hub := { t.hub with power := { t.hub.power with plim := mw } } }) ∧
      (mw < 10_000_000 ∨ 26_000_000 < mw → step s = .next t)) ∧
    (∀ k, i = .deviceLink k → 4 ≤ s.hub.stage → k < 16 →
      step s = .next { t with hub := { t.hub with links := t.hub.links.set k ⟨true, 0⟩ } }) ∧
    (∀ p, i = .uncorrectable p → p < hbmEnd →
      ∃ u, step s = .next u ∧ (∀ n, 0 < n → u.anyPoison p n = true) ∧ u.mem = s.mem) ∧
    (∀ u ctx a, i = .cachePage u ctx a → isUnit u = true → s.cachedPage u ctx a.toNat = none →
      (∀ e, pageEntry s ctx a.toNat = .ok e → ∃ v, step s = .next v ∧ v.cachedPage u ctx a.toNat =
        some ⟨ctx, a.toNat - a.toNat % pageSize e.size, e.size, BitVec.ofNat 64 e.raw⟩ ∧ s.SameMemory v) ∧
      (∀ c, pageEntry s ctx a.toNat = .error c → step s = .next t)))

/-- R39 to R43, R47: the word of every well-formed instruction decodes to it, every word that decodes is the word of the
well-formed instruction it decodes to, and a core's profile only refuses; the refusals come in the order ILL.OPC,
ILL.PROF, ILL.FORM, with the first malformed field as the detail code. -/
def Obligations.DecodeEncode : Prop :=
  (∀ i : Decoded, i.wf = true → encodeWord i < 2 ^ 96 ∧ decode none (encode i) = .ok i) ∧
  (∀ (w : Nat) (i : Decoded), w < 2 ^ 96 → decodeWord none w = .ok i → i.wf = true ∧ encodeWord i = w) ∧
  (∀ (p : Profile) (w : Nat) (i : Decoded), decodeWord (some p) w = .ok i → decodeWord none w = .ok i) ∧
  (∀ (p : Profile) (f : Fields),
    (opRow f.opc = none → decodeFields (some p) f = .error .opc) ∧
    (∀ r, opRow f.opc = some r →
      (r.prof.has p = false → decodeFields (some p) f = .error .prof) ∧
      (r.prof.has p = true →
        (f.cls ≠ r.cls.code → decodeFields (some p) f = .error (.form 1)) ∧
        (f.cls = r.cls.code →
          (f.res ≠ 0 ∨ r.hintsOk f.hdr = false → decodeFields (some p) f = .error (.form 2)) ∧
          (f.res = 0 → r.hintsOk f.hdr = true →
            (Opd.ofField f.d = none → decodeFields (some p) f = .error (.form 3)) ∧
            (∀ d, Opd.ofField f.d = some d →
              (r.d.ok f.stay d d = false → decodeFields (some p) f = .error (.form 3)) ∧
              (r.d.ok f.stay d d = true →
                (r.cls = .long → r.flag = .imm16 →
                  (f.a ≠ 0 → decodeFields (some p) f = .error (.form 4)) ∧
                  (f.a = 0 → 2 ^ 16 ≤ f.b → decodeFields (some p) f = .error (.form 5))) ∧
                (r.cls ≠ .long →
                  (Opd.ofField f.a = none → decodeFields (some p) f = .error (.form 4)) ∧
                  (∀ a, Opd.ofField f.a = some a →
                    (r.a.ok f.stay d a = false → decodeFields (some p) f = .error (.form 4)) ∧
                    (r.a.ok f.stay d a = true →
                      (r.cls = .memory → 5 ≤ f.b / 2 ^ 21 ∨ (r.flag ≠ .scope ∧ f.b / 2 ^ 21 ≠ 0) →
                        decodeFields (some p) f = .error (.form 5)) ∧
                      (r.cls ≠ .memory →
                        (Opd.ofField f.b = none → decodeFields (some p) f = .error (.form 5)) ∧
                        (∀ b, Opd.ofField f.b = some b → r.b.ok f.stay d b = false →
                          decodeFields (some p) f = .error (.form 5)))))))))))))

/-- Six of the words that the spec works out bit by bit, those of `fork`, `tret`, `lkill`, `coll.smp`, `ecnt.rd` and
`gres`, decode to the instructions they stand for, least significant byte first (R40, R99, R162, R367, R368, R399, R404). -/
def Obligations.SampleWords : Prop :=
  let op := fun (d a b : Opd) => ({ hd := Hdr.plain, d := d, a := a, b := b } : Operands)
  decode none [0xA0, 0x0F, 0x80, 0x25, 0, 0, 0, 0, 0, 0, 0, 0x70] = .ok ⟨.fork, op (.x 0) (.x 9) (.imm 1000)⟩ ∧
  decode none [0, 0, 0x80, 0x01, 0, 0x80, 0x01, 0, 0, 0, 0x80, 0xE0] = .ok ⟨.tret, op (.x 0) (.imm 0) (.imm 0)⟩ ∧
  decode none [0, 0, 0, 0, 0, 0x80, 0x05, 0, 0, 0, 0xC0, 0xE0] = .ok ⟨.lkill, op (.x 1) (.imm 0) (.x 0)⟩ ∧
  decode none [0x08, 0, 0, 0x04, 0, 0, 0x0C, 0, 0, 0, 0, 0xF0] = .ok ⟨.collSmp, op (.x 3) (.x 1) (.x 2)⟩ ∧
  decode none [0, 0, 0, 0x0C, 0x03, 0x80, 0x15, 0, 0, 0, 0x40, 0xF1] = .ok ⟨.ecntRd, op (.x 5) (.imm 0xC3) (.x 0)⟩ ∧
  decode none [0, 0, 0, 0x08, 0, 0, 0x2C, 0, 0x80, 0x03, 0x80, 0x23] = .ok ⟨.gres, op (.g 3) (.x 2) (.x 0)⟩

/-- A step performs what its agenda names: an event's row, an input from outside, or a cycle of a core, and with the module
stopped for its temperature a reset only (R407); in a cycle, after every slot's beginning,
the first candidate that is ISSUING performs the instruction its bytes at PC decode to for the core's profile, at that
state with the operands of the word in hand; when that uses the issue turn the cycle ends with CYC one more (R22, R40,
R134). A word is fetched once, when its instruction comes to issue, and stands there until it has issued. A core's cache may
give a word that it fetched before for the launch at that address, for as long as it holds it
(R9, R218). That the agenda is what moves next is the model's own (log 1), and so is when a stale word is given, which
nothing determines (log 32). -/
def Obligations.StepRunsDecoded : Prop :=
  (∀ (s : State) (e : Event) (r : List Pick), s.agenda = .event e :: r →
    (s.hub.power.stopped = false ∨ e = .moduleReset →
      step s = exec (eventRow e) { s with agenda := r, ev := some e }) ∧
    (s.hub.power.stopped = true → e ≠ .moduleReset → step s = .next { s with agenda := r })) ∧
  (∀ (s : State) (i : Input) (r : List Pick), s.agenda = .input i :: r →
    (s.hub.power.stopped = false → step s = .next (doInput { s with agenda := r } i)) ∧
    (s.hub.power.stopped = true → step s = .next { s with agenda := r })) ∧
  (∀ s : State, s.agenda = [] → step s = cycle exec s.focusU s) ∧
  (∀ (s : State) (u : Nat) (r : List Pick), s.agenda = .run u :: r → step s = cycle exec u { s with agenda := r }) ∧
  (∀ (s : State) (u k : Nat) (w : BitVec 96) (i : Decoded),
    let sl := s.slot u k
    sl.deferred = [] ∨ sl.answer.isSome = true → sl.st.bud ≠ 0 ∨ sl.mode ≠ .issuing ∨ sl.answer.isSome = true →
    decode (some (profileOf u)) (leBytes 12 w.toNat) = .ok i →
    let t := { s with focusU := u, focusK := k }
    let come := (t.modCore u fun c => c.hold sl.st.launch sl.st.pc w).modSlot u k fun sl => { sl with hand := some w }
    let runs := attempt exec u k s = exec i.row { come with ir := i.ops, ev := none }
    (sl.hand = some w → runs) ∧
    (∀ bs, sl.hand = none → fetchBytes t u sl.st.ctx sl.st.pc.toNat = .ok bs → w = BitVec.ofNat 96 (leNat bs) →
      ((t.core u).cached sl.st.launch sl.st.pc = none ∨ (t.core u).cached sl.st.launch sl.st.pc = some w) → runs) ∧
    (∀ bs v, sl.hand = none → fetchBytes t u sl.st.ctx sl.st.pc.toNat = .ok bs →
      (t.core u).cached sl.st.launch sl.st.pc = some v → w = v ∨ w = BitVec.ofNat 96 (leNat bs) →
      (t.core u).fetched u sl.st.launch sl.st.pc (BitVec.ofNat 96 (leNat bs)) = w → runs)) ∧
  (∀ (c : Core) (u : Nat) (l : BitVec 32) (a : Word) (w : BitVec 96),
    c.fetched u l a w = w ∨ c.cached l a = some (c.fetched u l a w)) ∧
  (∀ (s t v : State) (u k : Nat) (ks : List Nat), s.hub.power.stopped = false → isUnit u = true →
    eachSlot (beginSlot exec u) (List.range (s.core u).slots.length) s = .next t →
    let w := t.modCore u Core.fixHolder
    (w.core u).candidates = k :: ks → (w.slot u k).runs = true → attempt exec u k w = .next v →
    (v.core u).turns ≠ (w.core u).turns →
    cycle exec u s = .next (endCycle (s.core u) u v) ∧
    ((endCycle (s.core u) u v).core u).cyc = (v.core u).cyc + 1)

/-- No step of the machine ends in a fault or a refusal: an instruction at issue answers for every strand, a row that is an
event answers in every state, and so does every step. -/
def Obligations.StepAlwaysAnswers : Prop :=
  (∀ (i : Instr) (s : State), s.me.live = true → Answers (exec i s)) ∧
  (∀ (i : Instr) (s : State), i.opc = none → Answers (exec i s)) ∧
  (∀ s : State, Answers (step s))

/-- Every step keeps the canonical form of the maps of memory, full/empty bits, frame tags, poison and the keys under which
HBM was last written (R177, R192, R199, R363). -/
def Obligations.StepKeepsCanonical : Prop :=
  ∀ s t : State, s.Canonical → step s = .next t → t.Canonical

/-- R26, R409: after reset no slot of any core holds a strand, every byte reads zero, every full/empty bit is empty and CYC
is zero; the bring-up stands at its first stage, with no host link or device link trained; and the maps are canonical. That
region H reads zero too is the model's choice (log 4), and that no link is up before its stage its reading (log 5,
DEDUCED). -/
def Obligations.ResetState : Prop :=
  State.reset.Canonical ∧ (∀ u k, (State.reset.slot u k).live = false) ∧ (∀ p, State.reset.byte p = 0) ∧
  (∀ p, State.reset.isFull p = false) ∧ (∀ u, (State.reset.core u).cyc = 0) ∧
  State.reset.hub.stage = 1 ∧ (∀ l ∈ State.reset.hub.links, l.up = false) ∧ (∀ l ∈ State.reset.hub.hosts, l.up = false)

/-- What the completion of an instruction leaves, in whichever of its forms: with a result at a latency, with one of a long
load or blocking form, with none, or as a mere issue. Nothing changes but PC, the marks of an issue, its counters, the
time of the strand's next issue, and a result on its way to D and to no other register. With the statements that give an
instruction's next state this is the frame of each of them. Loads and stores: a load changes nothing in memory; a store
changes no byte outside the bytes at the place that its address, Src(A) plus the offset, names, when it is made at issue and
when its home makes it; one that is made later changes none at all at issue. In HBM a unit of 64 bytes that was written under
another key than the store's first takes the text which the store's key makes of it by SM4-XTS (R199; the layout of the key
pair is log 35's): it stays what it was where the keys agree. -/
def Obligations.CompletionFrame : Prop :=
  (∀ (s t : State) (n : Nat) (v : Word), s.me.live = true →
    t ∈ [s.passed, s.rest.passed, (s.put n v).passed, (s.putLong v).passed] →
    s.SameElsewhere t ∧ s.SameCore t ∧ s.SameSlot t) ∧
  (∀ (s t u : State) (i : Instr) (a n q : Nat) (p : Place) (v : Word),
    (∃ w, i = .st w ∧ n = widthBytes w) ∨ ((i = .st4 ∨ i = .st2) ∧ n = 1) → s.FindsD .store n a p v t →
    t.Direct p true → reach t t.st.ctx p n = .ok q → s.Canonical → exec i s = .next u →
    (p.near = true → ∀ r, Outside q n r → u.byte r = (s.under (p.key t t.st.ctx) q n).byte r) ∧
    (p.near = false → ∀ r, u.byte r = s.byte r) ∧
      (∀ r, u.isFull r = s.isFull r) ∧ (∀ r, u.tag r = s.tag r) ∧ u.poison = s.poison) ∧
  (∀ (s : State) (key : Option (BitVec 256)) (q n r : Nat), s.Canonical →
    hbmEnd ≤ q ∨ r / 64 < q / 64 ∨ (q + n + 63) / 64 ≤ r / 64 ∨ s.seal (r / 64) = none ∨ s.seal (r / 64) = some key →
    (s.under key q n).byte r = s.byte r) ∧
  (∀ (s t : State) (ctx : BitVec 12) (dep : Clock) (p : Place) (n q x : Nat) (v : Word), s.Canonical →
    reach s ctx p n = .ok q → performFor s ctx dep p (.store n v) = .ok (x, t) →
    (∀ r, Outside q n r → t.byte r = (s.under (p.key s ctx) q n).byte r) ∧
    (∀ r, t.isFull r = s.isFull r) ∧ (∀ r, t.tag r = s.tag r) ∧ t.poison = s.poison) ∧
  (∀ (s t u : State) (a q : Nat) (p : Place) (w : Width), s.Finds .load (widthBytes w) a p t → t.Direct p false →
    reach t t.st.ctx p (widthBytes w) = .ok q → t.hear.Room → exec (.ld w) s = .next u → s.SameMemory u)

/-- R145: BUD goes down by one in a cycle that a strand spends in ISSUING or WAITING, in every slot of the core whose
cycle it is, and not in one it spends in HANDLER or QUIESCED, nor while the strand migrates, when no slot holds it; at zero a
strand in ISSUING takes the BUDGET trap on the next instruction it would issue, and one in WAITING on the instruction it
waits in, with no effect of it and nothing it awaits consumed: a long load is taken back, and the queue entries that the instruction
took stand again where they stood; a deferred fault of an instruction that has not issued goes first (R351);
the trap frame and the fault record hold that instruction's PC. -/
def Obligations.Budgets : Prop :=
  (∀ before after : Slot,
    (before.mode = .issuing ∨ before.mode = .waiting → after.mode = .issuing ∨ after.mode = .waiting →
      (tickSlot before after).st.bud = if after.st.bud = 0 then 0 else after.st.bud - 1) ∧
    (before.mode = .handler ∨ before.mode = .quiesced → after.mode = .handler ∨ after.mode = .quiesced →
      (tickSlot before after).st.bud = after.st.bud)) ∧
  (∀ (before : Core) (u k : Nat) (s : State), k < before.slots.length → k < (s.core u).slots.length →
    (endCycle before u s).slot u k = tickSlot (before.slot k) (s.slot u k)) ∧
  (∀ (s : State) (u k : Nat), (s.slot u k).mode = .issuing → (s.slot u k).st.bud = 0 → (s.slot u k).answer = none →
    (s.slot u k).due = none → (s.slot u k).deferred = [] →
    let t := { s with focusU := u, focusK := k, ev := some (.budgetExhausted u k) }
    attempt exec u k s = .next
      (({ t.withdraw u k with focusU := u, focusK := k }.count u (s.slot u k).st.ctx 0x04 1).trapHere { cause := .budget })) ∧
  (∀ (s : State) (u k : Nat), (s.slot u k).mode = .waiting → (s.slot u k).st.bud = 0 → (s.slot u k).answer = none →
    (s.slot u k).due = none → (s.slot u k).deferred = [] ∨ (s.slot u k).unissued = false →
    s.ev = some (.budgetExhausted u k) →
    let trap := fun t : State => Host.Outcome.next
      (takeTrap (t.count u (s.slot u k).st.ctx 0x04 1) u k { cause := .budget })
    ((s.slot u k).long = none → exec .budgetExhausted s = trap (s.withdraw u k)) ∧
    (∀ w, (s.slot u k).long = some w →
      (w.performed = true → exec .budgetExhausted s = .next s) ∧
      (w.performed = false → exec .budgetExhausted s = trap ((s.withdraw u k).unload u k w)))) ∧
  (∀ (s : State) (u k : Nat) (w : LongWait), k < (s.core u).slots.length →
    let t := s.unload u k w
    (t.slot u k).st = { (s.slot u k).st with pc := w.pc } ∧ (t.slot u k).o = (s.slot u k).o ∧
    (t.core u).qs = w.taken ++ (s.core u).qs ∧ (∀ l ∈ (t.slot u k).inflight, l ∈ (s.slot u k).inflight) ∧ s.SameMemory t) ∧
  (∀ (s : State) (u k : Nat), k < (s.core u).slots.length →
    (s.slot u k).mode ≠ .handler → (s.context (s.slot u k).st.ctx).tvec ≠ 0 → (s.slot u k).frames = [] →
    ∃ f, ((takeTrap s u k { cause := .budget }).slot u k).frames = [f] ∧ f.epc = (s.slot u k).st.pc) ∧
  (∀ (s : State) (u k : Nat), (s.withdraw u k).mem = s.mem ∧ (s.withdraw u k).full = s.full ∧
    ((s.withdraw u k).core u).qs = (s.slot u k).taken ++ (s.core u).qs ∧ ((s.withdraw u k).slot u k).taken = []) ∧
  (∀ (before : Core) (u : Nat) (s : State), (endCycle before u s).fabric = s.fabric ∧
    ((endCycle before u s).core u).inbound = (s.core u).inbound) ∧
  (∀ (s : State) (u k : Nat),
    let st := (s.slot u k).st
    record s u k { cause := .budget } =
      appendRecord s { cause := .budget } st.pc st.msgId st.launch st.strid st.ctx u) ∧
  (∀ (pc msgId : Word) (launch strid serial : BitVec 32) (ctx : BitVec 12) (u : Nat), u < 2 ^ 21 →
    recordNum { cause := .budget } pc msgId launch strid serial ctx u / 2 ^ 320 % 2 ^ 64 = pc.toNat)
end

