-- ==== Sys2Proof/Laws/Sparse.lean ====
section
/-! SUPPORT. What reading and writing a sparse map do, and that writing keeps its canonical form. -/

namespace Sys2Proof.Machine

variable {α : Type}

/-! Keyed records -/

@[simp] theorem kget_kput_self (m : List (Nat × α)) (a : Nat) (v : α) : kget (kput m a v) a = some v := by
  induction m with
  | nil => simp [kput, kget]
  | cons p m ih =>
    obtain ⟨k, w⟩ := p
    unfold kput
    split
    · simp [kget]
    · split
      · simp [kget]
      · simp [kget, *]

theorem kget_kput_of_ne (m : List (Nat × α)) {a b : Nat} (v : α) (h : b ≠ a) : kget (kput m a v) b = kget m b := by
  induction m with
  | nil => simp [kput, kget, h]
  | cons p m ih =>
    obtain ⟨k, w⟩ := p
    unfold kput
    split
    · rename_i e; simp [kget, ← e, h]
    · split
      · simp [kget, h]
      · simp only [kget, ih]

theorem kput_kput_self (m : List (Nat × α)) (a : Nat) (v w : α) : kput (kput m a v) a w = kput m a w := by
  induction m with
  | nil => simp [kput]
  | cons p m ih =>
    obtain ⟨k, x⟩ := p
    by_cases h1 : a = k
    · subst h1; simp [kput]
    · by_cases h2 : a < k
      · simp [kput, h1, h2]
      · simp [kput, h1, h2, ih]

/-! Canonical maps -/

variable [DecidableEq α] {d : α}

theorem swfFrom_mono {m : List (Nat × α)} {lo lo' : Nat} (h : swfFrom d lo m = true) (hl : lo' ≤ lo) :
    swfFrom d lo' m = true := by
  cases m with
  | nil => rfl
  | cons p m =>
    obtain ⟨k, v⟩ := p
    simp only [swfFrom, Bool.and_eq_true, decide_eq_true_eq] at h ⊢
    exact ⟨⟨by omega, h.1.2⟩, h.2⟩

theorem swf_of_swfFrom {m : List (Nat × α)} {lo : Nat} (h : swfFrom d lo m = true) : swf d m = true :=
  swfFrom_mono h (Nat.zero_le _)

/-- Every key of a canonical map stands at or above its bound. -/
theorem sget_eq_default_of_lt {m : List (Nat × α)} {lo a : Nat} (h : swfFrom d lo m = true) (ha : a < lo) :
    sget d m a = d := by
  cases m with
  | nil => rfl
  | cons p m =>
    obtain ⟨k, v⟩ := p
    simp only [swfFrom, Bool.and_eq_true, decide_eq_true_eq] at h
    simp [sget, show a ≠ k by omega, show a < k by omega]

theorem sset_swfFrom {m : List (Nat × α)} {lo a : Nat} {v : α} (h : swfFrom d lo m = true) (ha : lo ≤ a) :
    swfFrom d lo (sset d m a v) = true := by
  induction m generalizing lo with
  | nil => by_cases hv : v = d <;> simp [sset, swfFrom, hv, ha]
  | cons p m ih =>
    obtain ⟨k, w⟩ := p
    have h' := h
    simp only [swfFrom, Bool.and_eq_true, decide_eq_true_eq] at h
    obtain ⟨⟨hk, hw⟩, hm⟩ := h
    unfold sset
    split
    · subst_vars
      split
      · exact swfFrom_mono hm (by omega)
      · simp [swfFrom, *]
    · split
      · split
        · exact h'
        · simp_all [swfFrom]
      · simp only [swfFrom, Bool.and_eq_true, decide_eq_true_eq]
        exact ⟨⟨hk, hw⟩, ih hm (by omega)⟩

/-- A write keeps the canonical form. -/
theorem sset_swf {m : List (Nat × α)} (h : swf d m = true) (a : Nat) (v : α) : swf d (sset d m a v) = true :=
  sset_swfFrom h (Nat.zero_le _)

theorem sget_sset_self_from {m : List (Nat × α)} {lo : Nat} (h : swfFrom d lo m = true) (a : Nat) (v : α) :
    sget d (sset d m a v) a = v := by
  induction m generalizing lo with
  | nil => by_cases hv : v = d <;> simp [sset, sget, hv]
  | cons p m ih =>
    obtain ⟨k, w⟩ := p
    simp only [swfFrom, Bool.and_eq_true, decide_eq_true_eq] at h
    unfold sset
    split
    · subst_vars
      split
      · subst_vars; exact sget_eq_default_of_lt h.2 (by omega)
      · simp [sget]
    · split
      · split
        · simp_all [sget]
        · simp [sget]
      · simp only [sget, *, if_false]
        exact ih h.2

/-- A read after a write of the same key gives the value written. -/
theorem sget_sset_self {m : List (Nat × α)} (h : swf d m = true) (a : Nat) (v : α) : sget d (sset d m a v) a = v :=
  sget_sset_self_from h a v

theorem sget_sset_of_ne_from {m : List (Nat × α)} {lo a b : Nat} (h : swfFrom d lo m = true) (v : α) (hb : b ≠ a) :
    sget d (sset d m a v) b = sget d m b := by
  induction m generalizing lo with
  | nil => by_cases hv : v = d <;> simp [sset, sget, hv, hb]
  | cons p m ih =>
    obtain ⟨k, w⟩ := p
    simp only [swfFrom, Bool.and_eq_true, decide_eq_true_eq] at h
    unfold sset
    split
    · rename_i e
      subst e
      split
      · simp only [sget, hb, if_false]
        split
        · exact sget_eq_default_of_lt h.2 (by omega)
        · rfl
      · simp [sget, hb]
    · split
      · split
        · rfl
        · simp only [sget, hb, if_false]
          split
          · split
            · omega
            · split <;> first | rfl | omega
          · rfl
      · simp only [sget]
        rw [ih h.2]

/-- A write leaves every other key alone. -/
theorem sget_sset_of_ne {m : List (Nat × α)} (h : swf d m = true) {a b : Nat} (v : α) (hb : b ≠ a) :
    sget d (sset d m a v) b = sget d m b := sget_sset_of_ne_from h v hb

theorem filter_swfFrom {m : List (Nat × α)} {lo : Nat} (p : Nat × α → Bool) (h : swfFrom d lo m = true) :
    swfFrom d lo (m.filter p) = true := by
  induction m generalizing lo with
  | nil => rfl
  | cons e m ih =>
    obtain ⟨k, w⟩ := e
    simp only [swfFrom, Bool.and_eq_true, decide_eq_true_eq] at h
    rw [List.filter_cons]
    split
    · simp only [swfFrom, Bool.and_eq_true, decide_eq_true_eq]
      exact ⟨h.1, ih h.2⟩
    · exact swfFrom_mono (ih h.2) (by omega)

/-- Removing entries keeps the canonical form. -/
theorem filter_swf {m : List (Nat × α)} (p : Nat × α → Bool) (h : swf d m = true) : swf d (m.filter p) = true :=
  filter_swfFrom p h

/-- Values replaced at their keys, by none that is the default, leave a map canonical. -/
theorem map_swf {m : List (Nat × α)} (g : Nat × α → α) (hg : ∀ p, p.2 ≠ d → g p ≠ d) (h : swf d m = true) :
    swf d (m.map fun p => (p.1, g p)) = true := by
  unfold swf at h ⊢
  generalize 0 = lo at h
  induction m generalizing lo with
  | nil => rfl
  | cons p m ih =>
    obtain ⟨k, v⟩ := p
    simp only [swfFrom, Bool.and_eq_true, decide_eq_true_eq, bne_iff_ne, List.map_cons] at h ⊢
    exact ⟨⟨h.1.1, hg _ h.1.2⟩, ih _ h.2⟩

end Sys2Proof.Machine
end

