-- ==== Sys2Proof/Laws/State.lean ====
section
/-! SUPPORT. What each update of the state leaves and gives: one lemma for each field and update, true by computation. -/

namespace Sys2Proof.Machine

/-! State.setCore -/

@[simp] theorem State.setCore_mem (s : State) (u : Nat) (c : Core) : (s.setCore u c).mem = s.mem := rfl
@[simp] theorem State.setCore_hostMem (s : State) (u : Nat) (c : Core) : (s.setCore u c).hostMem = s.hostMem := rfl
@[simp] theorem State.setCore_full (s : State) (u : Nat) (c : Core) : (s.setCore u c).full = s.full := rfl
@[simp] theorem State.setCore_tags (s : State) (u : Nat) (c : Core) : (s.setCore u c).tags = s.tags := rfl
@[simp] theorem State.setCore_poison (s : State) (u : Nat) (c : Core) : (s.setCore u c).poison = s.poison := rfl
@[simp] theorem State.setCore_seals (s : State) (u : Nat) (c : Core) : (s.setCore u c).seals = s.seals := rfl
@[simp] theorem State.setCore_owners (s : State) (u : Nat) (c : Core) : (s.setCore u c).owners = s.owners := rfl
@[simp] theorem State.setCore_dies (s : State) (u : Nat) (c : Core) : (s.setCore u c).dies = s.dies := rfl
@[simp] theorem State.setCore_barns (s : State) (u : Nat) (c : Core) : (s.setCore u c).barns = s.barns := rfl
@[simp] theorem State.setCore_lofts (s : State) (u : Nat) (c : Core) : (s.setCore u c).lofts = s.lofts := rfl
@[simp] theorem State.setCore_handles (s : State) (u : Nat) (c : Core) : (s.setCore u c).handles = s.handles := rfl
@[simp] theorem State.setCore_stores (s : State) (u : Nat) (c : Core) : (s.setCore u c).stores = s.stores := rfl
@[simp] theorem State.setCore_hub (s : State) (u : Nat) (c : Core) : (s.setCore u c).hub = s.hub := rfl
@[simp] theorem State.setCore_fabric (s : State) (u : Nat) (c : Core) : (s.setCore u c).fabric = s.fabric := rfl
@[simp] theorem State.setCore_nextId (s : State) (u : Nat) (c : Core) : (s.setCore u c).nextId = s.nextId := rfl
@[simp] theorem State.setCore_agenda (s : State) (u : Nat) (c : Core) : (s.setCore u c).agenda = s.agenda := rfl
@[simp] theorem State.setCore_focusU (s : State) (u : Nat) (c : Core) : (s.setCore u c).focusU = s.focusU := rfl
@[simp] theorem State.setCore_focusK (s : State) (u : Nat) (c : Core) : (s.setCore u c).focusK = s.focusK := rfl
@[simp] theorem State.setCore_ir (s : State) (u : Nat) (c : Core) : (s.setCore u c).ir = s.ir := rfl
@[simp] theorem State.setCore_ev (s : State) (u : Nat) (c : Core) : (s.setCore u c).ev = s.ev := rfl
@[simp] theorem State.setCore_now (s : State) (u : Nat) (c : Core) : (s.setCore u c).now = s.now := rfl
@[simp] theorem State.setCore_fresh (s : State) (u : Nat) (c : Core) : (s.setCore u c).fresh = s.fresh := rfl

/-! State.setSlot -/

@[simp] theorem State.setSlot_mem (s : State) (u k : Nat) (x : Slot) : (s.setSlot u k x).mem = s.mem := rfl
@[simp] theorem State.setSlot_hostMem (s : State) (u k : Nat) (x : Slot) : (s.setSlot u k x).hostMem = s.hostMem := rfl
@[simp] theorem State.setSlot_full (s : State) (u k : Nat) (x : Slot) : (s.setSlot u k x).full = s.full := rfl
@[simp] theorem State.setSlot_tags (s : State) (u k : Nat) (x : Slot) : (s.setSlot u k x).tags = s.tags := rfl
@[simp] theorem State.setSlot_poison (s : State) (u k : Nat) (x : Slot) : (s.setSlot u k x).poison = s.poison := rfl
@[simp] theorem State.setSlot_seals (s : State) (u k : Nat) (x : Slot) : (s.setSlot u k x).seals = s.seals := rfl
@[simp] theorem State.setSlot_owners (s : State) (u k : Nat) (x : Slot) : (s.setSlot u k x).owners = s.owners := rfl
@[simp] theorem State.setSlot_dies (s : State) (u k : Nat) (x : Slot) : (s.setSlot u k x).dies = s.dies := rfl
@[simp] theorem State.setSlot_barns (s : State) (u k : Nat) (x : Slot) : (s.setSlot u k x).barns = s.barns := rfl
@[simp] theorem State.setSlot_lofts (s : State) (u k : Nat) (x : Slot) : (s.setSlot u k x).lofts = s.lofts := rfl
@[simp] theorem State.setSlot_handles (s : State) (u k : Nat) (x : Slot) : (s.setSlot u k x).handles = s.handles := rfl
@[simp] theorem State.setSlot_stores (s : State) (u k : Nat) (x : Slot) : (s.setSlot u k x).stores = s.stores := rfl
@[simp] theorem State.setSlot_hub (s : State) (u k : Nat) (x : Slot) : (s.setSlot u k x).hub = s.hub := rfl
@[simp] theorem State.setSlot_fabric (s : State) (u k : Nat) (x : Slot) : (s.setSlot u k x).fabric = s.fabric := rfl
@[simp] theorem State.setSlot_nextId (s : State) (u k : Nat) (x : Slot) : (s.setSlot u k x).nextId = s.nextId := rfl
@[simp] theorem State.setSlot_agenda (s : State) (u k : Nat) (x : Slot) : (s.setSlot u k x).agenda = s.agenda := rfl
@[simp] theorem State.setSlot_focusU (s : State) (u k : Nat) (x : Slot) : (s.setSlot u k x).focusU = s.focusU := rfl
@[simp] theorem State.setSlot_focusK (s : State) (u k : Nat) (x : Slot) : (s.setSlot u k x).focusK = s.focusK := rfl
@[simp] theorem State.setSlot_ir (s : State) (u k : Nat) (x : Slot) : (s.setSlot u k x).ir = s.ir := rfl
@[simp] theorem State.setSlot_ev (s : State) (u k : Nat) (x : Slot) : (s.setSlot u k x).ev = s.ev := rfl
@[simp] theorem State.setSlot_now (s : State) (u k : Nat) (x : Slot) : (s.setSlot u k x).now = s.now := rfl
@[simp] theorem State.setSlot_fresh (s : State) (u k : Nat) (x : Slot) : (s.setSlot u k x).fresh = s.fresh := rfl

/-! State.modCore -/

@[simp] theorem State.modCore_mem (s : State) (u : Nat) (f : Core → Core) : (s.modCore u f).mem = s.mem := rfl
@[simp] theorem State.modCore_hostMem (s : State) (u : Nat) (f : Core → Core) : (s.modCore u f).hostMem = s.hostMem := rfl
@[simp] theorem State.modCore_full (s : State) (u : Nat) (f : Core → Core) : (s.modCore u f).full = s.full := rfl
@[simp] theorem State.modCore_tags (s : State) (u : Nat) (f : Core → Core) : (s.modCore u f).tags = s.tags := rfl
@[simp] theorem State.modCore_poison (s : State) (u : Nat) (f : Core → Core) : (s.modCore u f).poison = s.poison := rfl
@[simp] theorem State.modCore_seals (s : State) (u : Nat) (f : Core → Core) : (s.modCore u f).seals = s.seals := rfl
@[simp] theorem State.modCore_owners (s : State) (u : Nat) (f : Core → Core) : (s.modCore u f).owners = s.owners := rfl
@[simp] theorem State.modCore_dies (s : State) (u : Nat) (f : Core → Core) : (s.modCore u f).dies = s.dies := rfl
@[simp] theorem State.modCore_barns (s : State) (u : Nat) (f : Core → Core) : (s.modCore u f).barns = s.barns := rfl
@[simp] theorem State.modCore_lofts (s : State) (u : Nat) (f : Core → Core) : (s.modCore u f).lofts = s.lofts := rfl
@[simp] theorem State.modCore_handles (s : State) (u : Nat) (f : Core → Core) : (s.modCore u f).handles = s.handles := rfl
@[simp] theorem State.modCore_stores (s : State) (u : Nat) (f : Core → Core) : (s.modCore u f).stores = s.stores := rfl
@[simp] theorem State.modCore_hub (s : State) (u : Nat) (f : Core → Core) : (s.modCore u f).hub = s.hub := rfl
@[simp] theorem State.modCore_fabric (s : State) (u : Nat) (f : Core → Core) : (s.modCore u f).fabric = s.fabric := rfl
@[simp] theorem State.modCore_nextId (s : State) (u : Nat) (f : Core → Core) : (s.modCore u f).nextId = s.nextId := rfl
@[simp] theorem State.modCore_agenda (s : State) (u : Nat) (f : Core → Core) : (s.modCore u f).agenda = s.agenda := rfl
@[simp] theorem State.modCore_focusU (s : State) (u : Nat) (f : Core → Core) : (s.modCore u f).focusU = s.focusU := rfl
@[simp] theorem State.modCore_focusK (s : State) (u : Nat) (f : Core → Core) : (s.modCore u f).focusK = s.focusK := rfl
@[simp] theorem State.modCore_ir (s : State) (u : Nat) (f : Core → Core) : (s.modCore u f).ir = s.ir := rfl
@[simp] theorem State.modCore_ev (s : State) (u : Nat) (f : Core → Core) : (s.modCore u f).ev = s.ev := rfl
@[simp] theorem State.modCore_now (s : State) (u : Nat) (f : Core → Core) : (s.modCore u f).now = s.now := rfl
@[simp] theorem State.modCore_fresh (s : State) (u : Nat) (f : Core → Core) : (s.modCore u f).fresh = s.fresh := rfl

/-! State.modSlot -/

@[simp] theorem State.modSlot_mem (s : State) (u k : Nat) (f : Slot → Slot) : (s.modSlot u k f).mem = s.mem := rfl
@[simp] theorem State.modSlot_hostMem (s : State) (u k : Nat) (f : Slot → Slot) : (s.modSlot u k f).hostMem = s.hostMem := rfl
@[simp] theorem State.modSlot_full (s : State) (u k : Nat) (f : Slot → Slot) : (s.modSlot u k f).full = s.full := rfl
@[simp] theorem State.modSlot_tags (s : State) (u k : Nat) (f : Slot → Slot) : (s.modSlot u k f).tags = s.tags := rfl
@[simp] theorem State.modSlot_poison (s : State) (u k : Nat) (f : Slot → Slot) : (s.modSlot u k f).poison = s.poison := rfl
@[simp] theorem State.modSlot_seals (s : State) (u k : Nat) (f : Slot → Slot) : (s.modSlot u k f).seals = s.seals := rfl
@[simp] theorem State.modSlot_owners (s : State) (u k : Nat) (f : Slot → Slot) : (s.modSlot u k f).owners = s.owners := rfl
@[simp] theorem State.modSlot_dies (s : State) (u k : Nat) (f : Slot → Slot) : (s.modSlot u k f).dies = s.dies := rfl
@[simp] theorem State.modSlot_barns (s : State) (u k : Nat) (f : Slot → Slot) : (s.modSlot u k f).barns = s.barns := rfl
@[simp] theorem State.modSlot_lofts (s : State) (u k : Nat) (f : Slot → Slot) : (s.modSlot u k f).lofts = s.lofts := rfl
@[simp] theorem State.modSlot_handles (s : State) (u k : Nat) (f : Slot → Slot) : (s.modSlot u k f).handles = s.handles := rfl
@[simp] theorem State.modSlot_stores (s : State) (u k : Nat) (f : Slot → Slot) : (s.modSlot u k f).stores = s.stores := rfl
@[simp] theorem State.modSlot_hub (s : State) (u k : Nat) (f : Slot → Slot) : (s.modSlot u k f).hub = s.hub := rfl
@[simp] theorem State.modSlot_fabric (s : State) (u k : Nat) (f : Slot → Slot) : (s.modSlot u k f).fabric = s.fabric := rfl
@[simp] theorem State.modSlot_nextId (s : State) (u k : Nat) (f : Slot → Slot) : (s.modSlot u k f).nextId = s.nextId := rfl
@[simp] theorem State.modSlot_agenda (s : State) (u k : Nat) (f : Slot → Slot) : (s.modSlot u k f).agenda = s.agenda := rfl
@[simp] theorem State.modSlot_focusU (s : State) (u k : Nat) (f : Slot → Slot) : (s.modSlot u k f).focusU = s.focusU := rfl
@[simp] theorem State.modSlot_focusK (s : State) (u k : Nat) (f : Slot → Slot) : (s.modSlot u k f).focusK = s.focusK := rfl
@[simp] theorem State.modSlot_ir (s : State) (u k : Nat) (f : Slot → Slot) : (s.modSlot u k f).ir = s.ir := rfl
@[simp] theorem State.modSlot_ev (s : State) (u k : Nat) (f : Slot → Slot) : (s.modSlot u k f).ev = s.ev := rfl
@[simp] theorem State.modSlot_now (s : State) (u k : Nat) (f : Slot → Slot) : (s.modSlot u k f).now = s.now := rfl
@[simp] theorem State.modSlot_fresh (s : State) (u k : Nat) (f : Slot → Slot) : (s.modSlot u k f).fresh = s.fresh := rfl

/-! State.setMe -/

@[simp] theorem State.setMe_mem (s : State) (x : Slot) : (s.setMe x).mem = s.mem := rfl
@[simp] theorem State.setMe_hostMem (s : State) (x : Slot) : (s.setMe x).hostMem = s.hostMem := rfl
@[simp] theorem State.setMe_full (s : State) (x : Slot) : (s.setMe x).full = s.full := rfl
@[simp] theorem State.setMe_tags (s : State) (x : Slot) : (s.setMe x).tags = s.tags := rfl
@[simp] theorem State.setMe_poison (s : State) (x : Slot) : (s.setMe x).poison = s.poison := rfl
@[simp] theorem State.setMe_seals (s : State) (x : Slot) : (s.setMe x).seals = s.seals := rfl
@[simp] theorem State.setMe_owners (s : State) (x : Slot) : (s.setMe x).owners = s.owners := rfl
@[simp] theorem State.setMe_dies (s : State) (x : Slot) : (s.setMe x).dies = s.dies := rfl
@[simp] theorem State.setMe_barns (s : State) (x : Slot) : (s.setMe x).barns = s.barns := rfl
@[simp] theorem State.setMe_lofts (s : State) (x : Slot) : (s.setMe x).lofts = s.lofts := rfl
@[simp] theorem State.setMe_handles (s : State) (x : Slot) : (s.setMe x).handles = s.handles := rfl
@[simp] theorem State.setMe_stores (s : State) (x : Slot) : (s.setMe x).stores = s.stores := rfl
@[simp] theorem State.setMe_hub (s : State) (x : Slot) : (s.setMe x).hub = s.hub := rfl
@[simp] theorem State.setMe_fabric (s : State) (x : Slot) : (s.setMe x).fabric = s.fabric := rfl
@[simp] theorem State.setMe_nextId (s : State) (x : Slot) : (s.setMe x).nextId = s.nextId := rfl
@[simp] theorem State.setMe_agenda (s : State) (x : Slot) : (s.setMe x).agenda = s.agenda := rfl
@[simp] theorem State.setMe_focusU (s : State) (x : Slot) : (s.setMe x).focusU = s.focusU := rfl
@[simp] theorem State.setMe_focusK (s : State) (x : Slot) : (s.setMe x).focusK = s.focusK := rfl
@[simp] theorem State.setMe_ir (s : State) (x : Slot) : (s.setMe x).ir = s.ir := rfl
@[simp] theorem State.setMe_ev (s : State) (x : Slot) : (s.setMe x).ev = s.ev := rfl
@[simp] theorem State.setMe_now (s : State) (x : Slot) : (s.setMe x).now = s.now := rfl
@[simp] theorem State.setMe_fresh (s : State) (x : Slot) : (s.setMe x).fresh = s.fresh := rfl

/-! State.modMe -/

@[simp] theorem State.modMe_mem (s : State) (f : Slot → Slot) : (s.modMe f).mem = s.mem := rfl
@[simp] theorem State.modMe_hostMem (s : State) (f : Slot → Slot) : (s.modMe f).hostMem = s.hostMem := rfl
@[simp] theorem State.modMe_full (s : State) (f : Slot → Slot) : (s.modMe f).full = s.full := rfl
@[simp] theorem State.modMe_tags (s : State) (f : Slot → Slot) : (s.modMe f).tags = s.tags := rfl
@[simp] theorem State.modMe_poison (s : State) (f : Slot → Slot) : (s.modMe f).poison = s.poison := rfl
@[simp] theorem State.modMe_seals (s : State) (f : Slot → Slot) : (s.modMe f).seals = s.seals := rfl
@[simp] theorem State.modMe_owners (s : State) (f : Slot → Slot) : (s.modMe f).owners = s.owners := rfl
@[simp] theorem State.modMe_dies (s : State) (f : Slot → Slot) : (s.modMe f).dies = s.dies := rfl
@[simp] theorem State.modMe_barns (s : State) (f : Slot → Slot) : (s.modMe f).barns = s.barns := rfl
@[simp] theorem State.modMe_lofts (s : State) (f : Slot → Slot) : (s.modMe f).lofts = s.lofts := rfl
@[simp] theorem State.modMe_handles (s : State) (f : Slot → Slot) : (s.modMe f).handles = s.handles := rfl
@[simp] theorem State.modMe_stores (s : State) (f : Slot → Slot) : (s.modMe f).stores = s.stores := rfl
@[simp] theorem State.modMe_hub (s : State) (f : Slot → Slot) : (s.modMe f).hub = s.hub := rfl
@[simp] theorem State.modMe_fabric (s : State) (f : Slot → Slot) : (s.modMe f).fabric = s.fabric := rfl
@[simp] theorem State.modMe_nextId (s : State) (f : Slot → Slot) : (s.modMe f).nextId = s.nextId := rfl
@[simp] theorem State.modMe_agenda (s : State) (f : Slot → Slot) : (s.modMe f).agenda = s.agenda := rfl
@[simp] theorem State.modMe_focusU (s : State) (f : Slot → Slot) : (s.modMe f).focusU = s.focusU := rfl
@[simp] theorem State.modMe_focusK (s : State) (f : Slot → Slot) : (s.modMe f).focusK = s.focusK := rfl
@[simp] theorem State.modMe_ir (s : State) (f : Slot → Slot) : (s.modMe f).ir = s.ir := rfl
@[simp] theorem State.modMe_ev (s : State) (f : Slot → Slot) : (s.modMe f).ev = s.ev := rfl
@[simp] theorem State.modMe_now (s : State) (f : Slot → Slot) : (s.modMe f).now = s.now := rfl
@[simp] theorem State.modMe_fresh (s : State) (f : Slot → Slot) : (s.modMe f).fresh = s.fresh := rfl

/-! State.modSt -/

@[simp] theorem State.modSt_mem (s : State) (f : Strand → Strand) : (s.modSt f).mem = s.mem := rfl
@[simp] theorem State.modSt_hostMem (s : State) (f : Strand → Strand) : (s.modSt f).hostMem = s.hostMem := rfl
@[simp] theorem State.modSt_full (s : State) (f : Strand → Strand) : (s.modSt f).full = s.full := rfl
@[simp] theorem State.modSt_tags (s : State) (f : Strand → Strand) : (s.modSt f).tags = s.tags := rfl
@[simp] theorem State.modSt_poison (s : State) (f : Strand → Strand) : (s.modSt f).poison = s.poison := rfl
@[simp] theorem State.modSt_seals (s : State) (f : Strand → Strand) : (s.modSt f).seals = s.seals := rfl
@[simp] theorem State.modSt_owners (s : State) (f : Strand → Strand) : (s.modSt f).owners = s.owners := rfl
@[simp] theorem State.modSt_dies (s : State) (f : Strand → Strand) : (s.modSt f).dies = s.dies := rfl
@[simp] theorem State.modSt_barns (s : State) (f : Strand → Strand) : (s.modSt f).barns = s.barns := rfl
@[simp] theorem State.modSt_lofts (s : State) (f : Strand → Strand) : (s.modSt f).lofts = s.lofts := rfl
@[simp] theorem State.modSt_handles (s : State) (f : Strand → Strand) : (s.modSt f).handles = s.handles := rfl
@[simp] theorem State.modSt_stores (s : State) (f : Strand → Strand) : (s.modSt f).stores = s.stores := rfl
@[simp] theorem State.modSt_hub (s : State) (f : Strand → Strand) : (s.modSt f).hub = s.hub := rfl
@[simp] theorem State.modSt_fabric (s : State) (f : Strand → Strand) : (s.modSt f).fabric = s.fabric := rfl
@[simp] theorem State.modSt_nextId (s : State) (f : Strand → Strand) : (s.modSt f).nextId = s.nextId := rfl
@[simp] theorem State.modSt_agenda (s : State) (f : Strand → Strand) : (s.modSt f).agenda = s.agenda := rfl
@[simp] theorem State.modSt_focusU (s : State) (f : Strand → Strand) : (s.modSt f).focusU = s.focusU := rfl
@[simp] theorem State.modSt_focusK (s : State) (f : Strand → Strand) : (s.modSt f).focusK = s.focusK := rfl
@[simp] theorem State.modSt_ir (s : State) (f : Strand → Strand) : (s.modSt f).ir = s.ir := rfl
@[simp] theorem State.modSt_ev (s : State) (f : Strand → Strand) : (s.modSt f).ev = s.ev := rfl
@[simp] theorem State.modSt_now (s : State) (f : Strand → Strand) : (s.modSt f).now = s.now := rfl
@[simp] theorem State.modSt_fresh (s : State) (f : Strand → Strand) : (s.modSt f).fresh = s.fresh := rfl

/-! State.setContext -/

@[simp] theorem State.setContext_cores (s : State) (c : BitVec 12) (x : Context) : (s.setContext c x).cores = s.cores := rfl
@[simp] theorem State.setContext_mem (s : State) (c : BitVec 12) (x : Context) : (s.setContext c x).mem = s.mem := rfl
@[simp] theorem State.setContext_hostMem (s : State) (c : BitVec 12) (x : Context) : (s.setContext c x).hostMem = s.hostMem := rfl
@[simp] theorem State.setContext_full (s : State) (c : BitVec 12) (x : Context) : (s.setContext c x).full = s.full := rfl
@[simp] theorem State.setContext_tags (s : State) (c : BitVec 12) (x : Context) : (s.setContext c x).tags = s.tags := rfl
@[simp] theorem State.setContext_poison (s : State) (c : BitVec 12) (x : Context) : (s.setContext c x).poison = s.poison := rfl
@[simp] theorem State.setContext_seals (s : State) (c : BitVec 12) (x : Context) : (s.setContext c x).seals = s.seals := rfl
@[simp] theorem State.setContext_owners (s : State) (c : BitVec 12) (x : Context) : (s.setContext c x).owners = s.owners := rfl
@[simp] theorem State.setContext_dies (s : State) (c : BitVec 12) (x : Context) : (s.setContext c x).dies = s.dies := rfl
@[simp] theorem State.setContext_barns (s : State) (c : BitVec 12) (x : Context) : (s.setContext c x).barns = s.barns := rfl
@[simp] theorem State.setContext_lofts (s : State) (c : BitVec 12) (x : Context) : (s.setContext c x).lofts = s.lofts := rfl
@[simp] theorem State.setContext_handles (s : State) (c : BitVec 12) (x : Context) : (s.setContext c x).handles = s.handles := rfl
@[simp] theorem State.setContext_stores (s : State) (c : BitVec 12) (x : Context) : (s.setContext c x).stores = s.stores := rfl
@[simp] theorem State.setContext_fabric (s : State) (c : BitVec 12) (x : Context) : (s.setContext c x).fabric = s.fabric := rfl
@[simp] theorem State.setContext_nextId (s : State) (c : BitVec 12) (x : Context) : (s.setContext c x).nextId = s.nextId := rfl
@[simp] theorem State.setContext_agenda (s : State) (c : BitVec 12) (x : Context) : (s.setContext c x).agenda = s.agenda := rfl
@[simp] theorem State.setContext_focusU (s : State) (c : BitVec 12) (x : Context) : (s.setContext c x).focusU = s.focusU := rfl
@[simp] theorem State.setContext_focusK (s : State) (c : BitVec 12) (x : Context) : (s.setContext c x).focusK = s.focusK := rfl
@[simp] theorem State.setContext_ir (s : State) (c : BitVec 12) (x : Context) : (s.setContext c x).ir = s.ir := rfl
@[simp] theorem State.setContext_ev (s : State) (c : BitVec 12) (x : Context) : (s.setContext c x).ev = s.ev := rfl
@[simp] theorem State.setContext_now (s : State) (c : BitVec 12) (x : Context) : (s.setContext c x).now = s.now := rfl
@[simp] theorem State.setContext_fresh (s : State) (c : BitVec 12) (x : Context) : (s.setContext c x).fresh = s.fresh := rfl

/-! State.setLaunch -/

@[simp] theorem State.setLaunch_cores (s : State) (l : BitVec 32) (x : Launch) : (s.setLaunch l x).cores = s.cores := rfl
@[simp] theorem State.setLaunch_mem (s : State) (l : BitVec 32) (x : Launch) : (s.setLaunch l x).mem = s.mem := rfl
@[simp] theorem State.setLaunch_hostMem (s : State) (l : BitVec 32) (x : Launch) : (s.setLaunch l x).hostMem = s.hostMem := rfl
@[simp] theorem State.setLaunch_full (s : State) (l : BitVec 32) (x : Launch) : (s.setLaunch l x).full = s.full := rfl
@[simp] theorem State.setLaunch_tags (s : State) (l : BitVec 32) (x : Launch) : (s.setLaunch l x).tags = s.tags := rfl
@[simp] theorem State.setLaunch_poison (s : State) (l : BitVec 32) (x : Launch) : (s.setLaunch l x).poison = s.poison := rfl
@[simp] theorem State.setLaunch_seals (s : State) (l : BitVec 32) (x : Launch) : (s.setLaunch l x).seals = s.seals := rfl
@[simp] theorem State.setLaunch_owners (s : State) (l : BitVec 32) (x : Launch) : (s.setLaunch l x).owners = s.owners := rfl
@[simp] theorem State.setLaunch_dies (s : State) (l : BitVec 32) (x : Launch) : (s.setLaunch l x).dies = s.dies := rfl
@[simp] theorem State.setLaunch_barns (s : State) (l : BitVec 32) (x : Launch) : (s.setLaunch l x).barns = s.barns := rfl
@[simp] theorem State.setLaunch_lofts (s : State) (l : BitVec 32) (x : Launch) : (s.setLaunch l x).lofts = s.lofts := rfl
@[simp] theorem State.setLaunch_handles (s : State) (l : BitVec 32) (x : Launch) : (s.setLaunch l x).handles = s.handles := rfl
@[simp] theorem State.setLaunch_stores (s : State) (l : BitVec 32) (x : Launch) : (s.setLaunch l x).stores = s.stores := rfl
@[simp] theorem State.setLaunch_fabric (s : State) (l : BitVec 32) (x : Launch) : (s.setLaunch l x).fabric = s.fabric := rfl
@[simp] theorem State.setLaunch_nextId (s : State) (l : BitVec 32) (x : Launch) : (s.setLaunch l x).nextId = s.nextId := rfl
@[simp] theorem State.setLaunch_agenda (s : State) (l : BitVec 32) (x : Launch) : (s.setLaunch l x).agenda = s.agenda := rfl
@[simp] theorem State.setLaunch_focusU (s : State) (l : BitVec 32) (x : Launch) : (s.setLaunch l x).focusU = s.focusU := rfl
@[simp] theorem State.setLaunch_focusK (s : State) (l : BitVec 32) (x : Launch) : (s.setLaunch l x).focusK = s.focusK := rfl
@[simp] theorem State.setLaunch_ir (s : State) (l : BitVec 32) (x : Launch) : (s.setLaunch l x).ir = s.ir := rfl
@[simp] theorem State.setLaunch_ev (s : State) (l : BitVec 32) (x : Launch) : (s.setLaunch l x).ev = s.ev := rfl
@[simp] theorem State.setLaunch_now (s : State) (l : BitVec 32) (x : Launch) : (s.setLaunch l x).now = s.now := rfl
@[simp] theorem State.setLaunch_fresh (s : State) (l : BitVec 32) (x : Launch) : (s.setLaunch l x).fresh = s.fresh := rfl

/-! State.setBarn -/

@[simp] theorem State.setBarn_cores (s : State) (b : Nat) (x : Barn) : (s.setBarn b x).cores = s.cores := rfl
@[simp] theorem State.setBarn_mem (s : State) (b : Nat) (x : Barn) : (s.setBarn b x).mem = s.mem := rfl
@[simp] theorem State.setBarn_hostMem (s : State) (b : Nat) (x : Barn) : (s.setBarn b x).hostMem = s.hostMem := rfl
@[simp] theorem State.setBarn_full (s : State) (b : Nat) (x : Barn) : (s.setBarn b x).full = s.full := rfl
@[simp] theorem State.setBarn_tags (s : State) (b : Nat) (x : Barn) : (s.setBarn b x).tags = s.tags := rfl
@[simp] theorem State.setBarn_poison (s : State) (b : Nat) (x : Barn) : (s.setBarn b x).poison = s.poison := rfl
@[simp] theorem State.setBarn_seals (s : State) (b : Nat) (x : Barn) : (s.setBarn b x).seals = s.seals := rfl
@[simp] theorem State.setBarn_owners (s : State) (b : Nat) (x : Barn) : (s.setBarn b x).owners = s.owners := rfl
@[simp] theorem State.setBarn_dies (s : State) (b : Nat) (x : Barn) : (s.setBarn b x).dies = s.dies := rfl
@[simp] theorem State.setBarn_lofts (s : State) (b : Nat) (x : Barn) : (s.setBarn b x).lofts = s.lofts := rfl
@[simp] theorem State.setBarn_handles (s : State) (b : Nat) (x : Barn) : (s.setBarn b x).handles = s.handles := rfl
@[simp] theorem State.setBarn_stores (s : State) (b : Nat) (x : Barn) : (s.setBarn b x).stores = s.stores := rfl
@[simp] theorem State.setBarn_hub (s : State) (b : Nat) (x : Barn) : (s.setBarn b x).hub = s.hub := rfl
@[simp] theorem State.setBarn_fabric (s : State) (b : Nat) (x : Barn) : (s.setBarn b x).fabric = s.fabric := rfl
@[simp] theorem State.setBarn_nextId (s : State) (b : Nat) (x : Barn) : (s.setBarn b x).nextId = s.nextId := rfl
@[simp] theorem State.setBarn_agenda (s : State) (b : Nat) (x : Barn) : (s.setBarn b x).agenda = s.agenda := rfl
@[simp] theorem State.setBarn_focusU (s : State) (b : Nat) (x : Barn) : (s.setBarn b x).focusU = s.focusU := rfl
@[simp] theorem State.setBarn_focusK (s : State) (b : Nat) (x : Barn) : (s.setBarn b x).focusK = s.focusK := rfl
@[simp] theorem State.setBarn_ir (s : State) (b : Nat) (x : Barn) : (s.setBarn b x).ir = s.ir := rfl
@[simp] theorem State.setBarn_ev (s : State) (b : Nat) (x : Barn) : (s.setBarn b x).ev = s.ev := rfl
@[simp] theorem State.setBarn_now (s : State) (b : Nat) (x : Barn) : (s.setBarn b x).now = s.now := rfl
@[simp] theorem State.setBarn_fresh (s : State) (b : Nat) (x : Barn) : (s.setBarn b x).fresh = s.fresh := rfl

/-! State.setDie -/

@[simp] theorem State.setDie_cores (s : State) (d : Nat) (x : Die) : (s.setDie d x).cores = s.cores := rfl
@[simp] theorem State.setDie_mem (s : State) (d : Nat) (x : Die) : (s.setDie d x).mem = s.mem := rfl
@[simp] theorem State.setDie_hostMem (s : State) (d : Nat) (x : Die) : (s.setDie d x).hostMem = s.hostMem := rfl
@[simp] theorem State.setDie_full (s : State) (d : Nat) (x : Die) : (s.setDie d x).full = s.full := rfl
@[simp] theorem State.setDie_tags (s : State) (d : Nat) (x : Die) : (s.setDie d x).tags = s.tags := rfl
@[simp] theorem State.setDie_poison (s : State) (d : Nat) (x : Die) : (s.setDie d x).poison = s.poison := rfl
@[simp] theorem State.setDie_seals (s : State) (d : Nat) (x : Die) : (s.setDie d x).seals = s.seals := rfl
@[simp] theorem State.setDie_owners (s : State) (d : Nat) (x : Die) : (s.setDie d x).owners = s.owners := rfl
@[simp] theorem State.setDie_barns (s : State) (d : Nat) (x : Die) : (s.setDie d x).barns = s.barns := rfl
@[simp] theorem State.setDie_lofts (s : State) (d : Nat) (x : Die) : (s.setDie d x).lofts = s.lofts := rfl
@[simp] theorem State.setDie_handles (s : State) (d : Nat) (x : Die) : (s.setDie d x).handles = s.handles := rfl
@[simp] theorem State.setDie_stores (s : State) (d : Nat) (x : Die) : (s.setDie d x).stores = s.stores := rfl
@[simp] theorem State.setDie_hub (s : State) (d : Nat) (x : Die) : (s.setDie d x).hub = s.hub := rfl
@[simp] theorem State.setDie_fabric (s : State) (d : Nat) (x : Die) : (s.setDie d x).fabric = s.fabric := rfl
@[simp] theorem State.setDie_nextId (s : State) (d : Nat) (x : Die) : (s.setDie d x).nextId = s.nextId := rfl
@[simp] theorem State.setDie_agenda (s : State) (d : Nat) (x : Die) : (s.setDie d x).agenda = s.agenda := rfl
@[simp] theorem State.setDie_focusU (s : State) (d : Nat) (x : Die) : (s.setDie d x).focusU = s.focusU := rfl
@[simp] theorem State.setDie_focusK (s : State) (d : Nat) (x : Die) : (s.setDie d x).focusK = s.focusK := rfl
@[simp] theorem State.setDie_ir (s : State) (d : Nat) (x : Die) : (s.setDie d x).ir = s.ir := rfl
@[simp] theorem State.setDie_ev (s : State) (d : Nat) (x : Die) : (s.setDie d x).ev = s.ev := rfl
@[simp] theorem State.setDie_now (s : State) (d : Nat) (x : Die) : (s.setDie d x).now = s.now := rfl
@[simp] theorem State.setDie_fresh (s : State) (d : Nat) (x : Die) : (s.setDie d x).fresh = s.fresh := rfl

/-! State.setByte -/

@[simp] theorem State.setByte_cores (s : State) (p : Nat) (b : Byte) : (s.setByte p b).cores = s.cores := rfl
@[simp] theorem State.setByte_hostMem (s : State) (p : Nat) (b : Byte) : (s.setByte p b).hostMem = s.hostMem := rfl
@[simp] theorem State.setByte_full (s : State) (p : Nat) (b : Byte) : (s.setByte p b).full = s.full := rfl
@[simp] theorem State.setByte_tags (s : State) (p : Nat) (b : Byte) : (s.setByte p b).tags = s.tags := rfl
@[simp] theorem State.setByte_poison (s : State) (p : Nat) (b : Byte) : (s.setByte p b).poison = s.poison := rfl
@[simp] theorem State.setByte_seals (s : State) (p : Nat) (b : Byte) : (s.setByte p b).seals = s.seals := rfl
@[simp] theorem State.setByte_owners (s : State) (p : Nat) (b : Byte) : (s.setByte p b).owners = s.owners := rfl
@[simp] theorem State.setByte_dies (s : State) (p : Nat) (b : Byte) : (s.setByte p b).dies = s.dies := rfl
@[simp] theorem State.setByte_barns (s : State) (p : Nat) (b : Byte) : (s.setByte p b).barns = s.barns := rfl
@[simp] theorem State.setByte_lofts (s : State) (p : Nat) (b : Byte) : (s.setByte p b).lofts = s.lofts := rfl
@[simp] theorem State.setByte_handles (s : State) (p : Nat) (b : Byte) : (s.setByte p b).handles = s.handles := rfl
@[simp] theorem State.setByte_stores (s : State) (p : Nat) (b : Byte) : (s.setByte p b).stores = s.stores := rfl
@[simp] theorem State.setByte_hub (s : State) (p : Nat) (b : Byte) : (s.setByte p b).hub = s.hub := rfl
@[simp] theorem State.setByte_fabric (s : State) (p : Nat) (b : Byte) : (s.setByte p b).fabric = s.fabric := rfl
@[simp] theorem State.setByte_nextId (s : State) (p : Nat) (b : Byte) : (s.setByte p b).nextId = s.nextId := rfl
@[simp] theorem State.setByte_agenda (s : State) (p : Nat) (b : Byte) : (s.setByte p b).agenda = s.agenda := rfl
@[simp] theorem State.setByte_focusU (s : State) (p : Nat) (b : Byte) : (s.setByte p b).focusU = s.focusU := rfl
@[simp] theorem State.setByte_focusK (s : State) (p : Nat) (b : Byte) : (s.setByte p b).focusK = s.focusK := rfl
@[simp] theorem State.setByte_ir (s : State) (p : Nat) (b : Byte) : (s.setByte p b).ir = s.ir := rfl
@[simp] theorem State.setByte_ev (s : State) (p : Nat) (b : Byte) : (s.setByte p b).ev = s.ev := rfl
@[simp] theorem State.setByte_now (s : State) (p : Nat) (b : Byte) : (s.setByte p b).now = s.now := rfl
@[simp] theorem State.setByte_fresh (s : State) (p : Nat) (b : Byte) : (s.setByte p b).fresh = s.fresh := rfl

/-! State.setFull -/

@[simp] theorem State.setFull_cores (s : State) (p : Nat) (b : Bool) : (s.setFull p b).cores = s.cores := rfl
@[simp] theorem State.setFull_mem (s : State) (p : Nat) (b : Bool) : (s.setFull p b).mem = s.mem := rfl
@[simp] theorem State.setFull_hostMem (s : State) (p : Nat) (b : Bool) : (s.setFull p b).hostMem = s.hostMem := rfl
@[simp] theorem State.setFull_tags (s : State) (p : Nat) (b : Bool) : (s.setFull p b).tags = s.tags := rfl
@[simp] theorem State.setFull_poison (s : State) (p : Nat) (b : Bool) : (s.setFull p b).poison = s.poison := rfl
@[simp] theorem State.setFull_seals (s : State) (p : Nat) (b : Bool) : (s.setFull p b).seals = s.seals := rfl
@[simp] theorem State.setFull_owners (s : State) (p : Nat) (b : Bool) : (s.setFull p b).owners = s.owners := rfl
@[simp] theorem State.setFull_dies (s : State) (p : Nat) (b : Bool) : (s.setFull p b).dies = s.dies := rfl
@[simp] theorem State.setFull_barns (s : State) (p : Nat) (b : Bool) : (s.setFull p b).barns = s.barns := rfl
@[simp] theorem State.setFull_lofts (s : State) (p : Nat) (b : Bool) : (s.setFull p b).lofts = s.lofts := rfl
@[simp] theorem State.setFull_handles (s : State) (p : Nat) (b : Bool) : (s.setFull p b).handles = s.handles := rfl
@[simp] theorem State.setFull_stores (s : State) (p : Nat) (b : Bool) : (s.setFull p b).stores = s.stores := rfl
@[simp] theorem State.setFull_hub (s : State) (p : Nat) (b : Bool) : (s.setFull p b).hub = s.hub := rfl
@[simp] theorem State.setFull_fabric (s : State) (p : Nat) (b : Bool) : (s.setFull p b).fabric = s.fabric := rfl
@[simp] theorem State.setFull_nextId (s : State) (p : Nat) (b : Bool) : (s.setFull p b).nextId = s.nextId := rfl
@[simp] theorem State.setFull_agenda (s : State) (p : Nat) (b : Bool) : (s.setFull p b).agenda = s.agenda := rfl
@[simp] theorem State.setFull_focusU (s : State) (p : Nat) (b : Bool) : (s.setFull p b).focusU = s.focusU := rfl
@[simp] theorem State.setFull_focusK (s : State) (p : Nat) (b : Bool) : (s.setFull p b).focusK = s.focusK := rfl
@[simp] theorem State.setFull_ir (s : State) (p : Nat) (b : Bool) : (s.setFull p b).ir = s.ir := rfl
@[simp] theorem State.setFull_ev (s : State) (p : Nat) (b : Bool) : (s.setFull p b).ev = s.ev := rfl
@[simp] theorem State.setFull_now (s : State) (p : Nat) (b : Bool) : (s.setFull p b).now = s.now := rfl
@[simp] theorem State.setFull_fresh (s : State) (p : Nat) (b : Bool) : (s.setFull p b).fresh = s.fresh := rfl

/-! State.setTag -/

@[simp] theorem State.setTag_cores (s : State) (p : Nat) (t : BitVec 8) : (s.setTag p t).cores = s.cores := rfl
@[simp] theorem State.setTag_mem (s : State) (p : Nat) (t : BitVec 8) : (s.setTag p t).mem = s.mem := rfl
@[simp] theorem State.setTag_hostMem (s : State) (p : Nat) (t : BitVec 8) : (s.setTag p t).hostMem = s.hostMem := rfl
@[simp] theorem State.setTag_full (s : State) (p : Nat) (t : BitVec 8) : (s.setTag p t).full = s.full := rfl
@[simp] theorem State.setTag_poison (s : State) (p : Nat) (t : BitVec 8) : (s.setTag p t).poison = s.poison := rfl
@[simp] theorem State.setTag_seals (s : State) (p : Nat) (t : BitVec 8) : (s.setTag p t).seals = s.seals := rfl
@[simp] theorem State.setTag_owners (s : State) (p : Nat) (t : BitVec 8) : (s.setTag p t).owners = s.owners := rfl
@[simp] theorem State.setTag_dies (s : State) (p : Nat) (t : BitVec 8) : (s.setTag p t).dies = s.dies := rfl
@[simp] theorem State.setTag_barns (s : State) (p : Nat) (t : BitVec 8) : (s.setTag p t).barns = s.barns := rfl
@[simp] theorem State.setTag_lofts (s : State) (p : Nat) (t : BitVec 8) : (s.setTag p t).lofts = s.lofts := rfl
@[simp] theorem State.setTag_handles (s : State) (p : Nat) (t : BitVec 8) : (s.setTag p t).handles = s.handles := rfl
@[simp] theorem State.setTag_stores (s : State) (p : Nat) (t : BitVec 8) : (s.setTag p t).stores = s.stores := rfl
@[simp] theorem State.setTag_hub (s : State) (p : Nat) (t : BitVec 8) : (s.setTag p t).hub = s.hub := rfl
@[simp] theorem State.setTag_fabric (s : State) (p : Nat) (t : BitVec 8) : (s.setTag p t).fabric = s.fabric := rfl
@[simp] theorem State.setTag_nextId (s : State) (p : Nat) (t : BitVec 8) : (s.setTag p t).nextId = s.nextId := rfl
@[simp] theorem State.setTag_agenda (s : State) (p : Nat) (t : BitVec 8) : (s.setTag p t).agenda = s.agenda := rfl
@[simp] theorem State.setTag_focusU (s : State) (p : Nat) (t : BitVec 8) : (s.setTag p t).focusU = s.focusU := rfl
@[simp] theorem State.setTag_focusK (s : State) (p : Nat) (t : BitVec 8) : (s.setTag p t).focusK = s.focusK := rfl
@[simp] theorem State.setTag_ir (s : State) (p : Nat) (t : BitVec 8) : (s.setTag p t).ir = s.ir := rfl
@[simp] theorem State.setTag_ev (s : State) (p : Nat) (t : BitVec 8) : (s.setTag p t).ev = s.ev := rfl
@[simp] theorem State.setTag_now (s : State) (p : Nat) (t : BitVec 8) : (s.setTag p t).now = s.now := rfl
@[simp] theorem State.setTag_fresh (s : State) (p : Nat) (t : BitVec 8) : (s.setTag p t).fresh = s.fresh := rfl

/-! State.post -/

@[simp] theorem State.post_cores (s : State) (src dst : Nat) (w : Sender) (d : Clock) (n : Option (BitVec 32)) (b : Payload) : (s.post src dst w d n b).cores = s.cores := rfl
@[simp] theorem State.post_mem (s : State) (src dst : Nat) (w : Sender) (d : Clock) (n : Option (BitVec 32)) (b : Payload) : (s.post src dst w d n b).mem = s.mem := rfl
@[simp] theorem State.post_hostMem (s : State) (src dst : Nat) (w : Sender) (d : Clock) (n : Option (BitVec 32)) (b : Payload) : (s.post src dst w d n b).hostMem = s.hostMem := rfl
@[simp] theorem State.post_full (s : State) (src dst : Nat) (w : Sender) (d : Clock) (n : Option (BitVec 32)) (b : Payload) : (s.post src dst w d n b).full = s.full := rfl
@[simp] theorem State.post_tags (s : State) (src dst : Nat) (w : Sender) (d : Clock) (n : Option (BitVec 32)) (b : Payload) : (s.post src dst w d n b).tags = s.tags := rfl
@[simp] theorem State.post_poison (s : State) (src dst : Nat) (w : Sender) (d : Clock) (n : Option (BitVec 32)) (b : Payload) : (s.post src dst w d n b).poison = s.poison := rfl
@[simp] theorem State.post_seals (s : State) (src dst : Nat) (w : Sender) (d : Clock) (n : Option (BitVec 32)) (b : Payload) : (s.post src dst w d n b).seals = s.seals := rfl
@[simp] theorem State.post_owners (s : State) (src dst : Nat) (w : Sender) (d : Clock) (n : Option (BitVec 32)) (b : Payload) : (s.post src dst w d n b).owners = s.owners := rfl
@[simp] theorem State.post_dies (s : State) (src dst : Nat) (w : Sender) (d : Clock) (n : Option (BitVec 32)) (b : Payload) : (s.post src dst w d n b).dies = s.dies := rfl
@[simp] theorem State.post_barns (s : State) (src dst : Nat) (w : Sender) (d : Clock) (n : Option (BitVec 32)) (b : Payload) : (s.post src dst w d n b).barns = s.barns := rfl
@[simp] theorem State.post_lofts (s : State) (src dst : Nat) (w : Sender) (d : Clock) (n : Option (BitVec 32)) (b : Payload) : (s.post src dst w d n b).lofts = s.lofts := rfl
@[simp] theorem State.post_handles (s : State) (src dst : Nat) (w : Sender) (d : Clock) (n : Option (BitVec 32)) (b : Payload) : (s.post src dst w d n b).handles = s.handles := rfl
@[simp] theorem State.post_stores (s : State) (src dst : Nat) (w : Sender) (d : Clock) (n : Option (BitVec 32)) (b : Payload) : (s.post src dst w d n b).stores = s.stores := rfl
@[simp] theorem State.post_hub (s : State) (src dst : Nat) (w : Sender) (d : Clock) (n : Option (BitVec 32)) (b : Payload) : (s.post src dst w d n b).hub = s.hub := rfl
@[simp] theorem State.post_agenda (s : State) (src dst : Nat) (w : Sender) (d : Clock) (n : Option (BitVec 32)) (b : Payload) : (s.post src dst w d n b).agenda = s.agenda := rfl
@[simp] theorem State.post_focusU (s : State) (src dst : Nat) (w : Sender) (d : Clock) (n : Option (BitVec 32)) (b : Payload) : (s.post src dst w d n b).focusU = s.focusU := rfl
@[simp] theorem State.post_focusK (s : State) (src dst : Nat) (w : Sender) (d : Clock) (n : Option (BitVec 32)) (b : Payload) : (s.post src dst w d n b).focusK = s.focusK := rfl
@[simp] theorem State.post_ir (s : State) (src dst : Nat) (w : Sender) (d : Clock) (n : Option (BitVec 32)) (b : Payload) : (s.post src dst w d n b).ir = s.ir := rfl
@[simp] theorem State.post_ev (s : State) (src dst : Nat) (w : Sender) (d : Clock) (n : Option (BitVec 32)) (b : Payload) : (s.post src dst w d n b).ev = s.ev := rfl
@[simp] theorem State.post_now (s : State) (src dst : Nat) (w : Sender) (d : Clock) (n : Option (BitVec 32)) (b : Payload) : (s.post src dst w d n b).now = s.now := rfl
@[simp] theorem State.post_fresh (s : State) (src dst : Nat) (w : Sender) (d : Clock) (n : Option (BitVec 32)) (b : Payload) : (s.post src dst w d n b).fresh = s.fresh := rfl

/-! State.unpost -/

@[simp] theorem State.unpost_cores (s : State) (i : Nat) : (s.unpost i).cores = s.cores := rfl
@[simp] theorem State.unpost_mem (s : State) (i : Nat) : (s.unpost i).mem = s.mem := rfl
@[simp] theorem State.unpost_hostMem (s : State) (i : Nat) : (s.unpost i).hostMem = s.hostMem := rfl
@[simp] theorem State.unpost_full (s : State) (i : Nat) : (s.unpost i).full = s.full := rfl
@[simp] theorem State.unpost_tags (s : State) (i : Nat) : (s.unpost i).tags = s.tags := rfl
@[simp] theorem State.unpost_poison (s : State) (i : Nat) : (s.unpost i).poison = s.poison := rfl
@[simp] theorem State.unpost_seals (s : State) (i : Nat) : (s.unpost i).seals = s.seals := rfl
@[simp] theorem State.unpost_owners (s : State) (i : Nat) : (s.unpost i).owners = s.owners := rfl
@[simp] theorem State.unpost_dies (s : State) (i : Nat) : (s.unpost i).dies = s.dies := rfl
@[simp] theorem State.unpost_barns (s : State) (i : Nat) : (s.unpost i).barns = s.barns := rfl
@[simp] theorem State.unpost_lofts (s : State) (i : Nat) : (s.unpost i).lofts = s.lofts := rfl
@[simp] theorem State.unpost_handles (s : State) (i : Nat) : (s.unpost i).handles = s.handles := rfl
@[simp] theorem State.unpost_stores (s : State) (i : Nat) : (s.unpost i).stores = s.stores := rfl
@[simp] theorem State.unpost_hub (s : State) (i : Nat) : (s.unpost i).hub = s.hub := rfl
@[simp] theorem State.unpost_nextId (s : State) (i : Nat) : (s.unpost i).nextId = s.nextId := rfl
@[simp] theorem State.unpost_agenda (s : State) (i : Nat) : (s.unpost i).agenda = s.agenda := rfl
@[simp] theorem State.unpost_focusU (s : State) (i : Nat) : (s.unpost i).focusU = s.focusU := rfl
@[simp] theorem State.unpost_focusK (s : State) (i : Nat) : (s.unpost i).focusK = s.focusK := rfl
@[simp] theorem State.unpost_ir (s : State) (i : Nat) : (s.unpost i).ir = s.ir := rfl
@[simp] theorem State.unpost_ev (s : State) (i : Nat) : (s.unpost i).ev = s.ev := rfl
@[simp] theorem State.unpost_now (s : State) (i : Nat) : (s.unpost i).now = s.now := rfl
@[simp] theorem State.unpost_fresh (s : State) (i : Nat) : (s.unpost i).fresh = s.fresh := rfl

/-! Core.setSlot -/

@[simp] theorem Core.setSlot_cyc (c : Core) (k : Nat) (x : Slot) : (c.setSlot k x).cyc = c.cyc := rfl
@[simp] theorem Core.setSlot_holder (c : Core) (k : Nat) (x : Slot) : (c.setSlot k x).holder = c.holder := rfl
@[simp] theorem Core.setSlot_qs (c : Core) (k : Nat) (x : Slot) : (c.setSlot k x).qs = c.qs := rfl
@[simp] theorem Core.setSlot_v (c : Core) (k : Nat) (x : Slot) : (c.setSlot k x).v = c.v := rfl
@[simp] theorem Core.setSlot_m (c : Core) (k : Nat) (x : Slot) : (c.setSlot k x).m = c.m := rfl
@[simp] theorem Core.setSlot_t (c : Core) (k : Nat) (x : Slot) : (c.setSlot k x).t = c.t := rfl
@[simp] theorem Core.setSlot_final (c : Core) (k : Nat) (x : Slot) : (c.setSlot k x).final = c.final := rfl
@[simp] theorem Core.setSlot_cmds (c : Core) (k : Nat) (x : Slot) : (c.setSlot k x).cmds = c.cmds := rfl
@[simp] theorem Core.setSlot_accepted (c : Core) (k : Nat) (x : Slot) : (c.setSlot k x).accepted = c.accepted := rfl
@[simp] theorem Core.setSlot_deque (c : Core) (k : Nat) (x : Slot) : (c.setSlot k x).deque = c.deque := rfl
@[simp] theorem Core.setSlot_ready (c : Core) (k : Nat) (x : Slot) : (c.setSlot k x).ready = c.ready := rfl
@[simp] theorem Core.setSlot_ckey (c : Core) (k : Nat) (x : Slot) : (c.setSlot k x).ckey = c.ckey := rfl
@[simp] theorem Core.setSlot_inbound (c : Core) (k : Nat) (x : Slot) : (c.setSlot k x).inbound = c.inbound := rfl
@[simp] theorem Core.setSlot_serials (c : Core) (k : Nat) (x : Slot) : (c.setSlot k x).serials = c.serials := rfl
@[simp] theorem Core.setSlot_msgSerial (c : Core) (k : Nat) (x : Slot) : (c.setSlot k x).msgSerial = c.msgSerial := rfl
@[simp] theorem Core.setSlot_forwards (c : Core) (k : Nat) (x : Slot) : (c.setSlot k x).forwards = c.forwards := rfl
@[simp] theorem Core.setSlot_overflow (c : Core) (k : Nat) (x : Slot) : (c.setSlot k x).overflow = c.overflow := rfl
@[simp] theorem Core.setSlot_orphansLost (c : Core) (k : Nat) (x : Slot) : (c.setSlot k x).orphansLost = c.orphansLost := rfl
@[simp] theorem Core.setSlot_steal (c : Core) (k : Nat) (x : Slot) : (c.setSlot k x).steal = c.steal := rfl
@[simp] theorem Core.setSlot_stealFails (c : Core) (k : Nat) (x : Slot) : (c.setSlot k x).stealFails = c.stealFails := rfl
@[simp] theorem Core.setSlot_backoff (c : Core) (k : Nat) (x : Slot) : (c.setSlot k x).backoff = c.backoff := rfl
@[simp] theorem Core.setSlot_waiters (c : Core) (k : Nat) (x : Slot) : (c.setSlot k x).waiters = c.waiters := rfl
@[simp] theorem Core.setSlot_pending (c : Core) (k : Nat) (x : Slot) : (c.setSlot k x).pending = c.pending := rfl
@[simp] theorem Core.setSlot_bufs (c : Core) (k : Nat) (x : Slot) : (c.setSlot k x).bufs = c.bufs := rfl
@[simp] theorem Core.setSlot_counters (c : Core) (k : Nat) (x : Slot) : (c.setSlot k x).counters = c.counters := rfl
@[simp] theorem Core.setSlot_turns (c : Core) (k : Nat) (x : Slot) : (c.setSlot k x).turns = c.turns := rfl
@[simp] theorem Core.setSlot_icache (c : Core) (k : Nat) (x : Slot) : (c.setSlot k x).icache = c.icache := rfl
@[simp] theorem Core.setSlot_tlb (c : Core) (k : Nat) (x : Slot) : (c.setSlot k x).tlb = c.tlb := rfl

/-! Reading back -/

theorem kget_kput {α : Type} (m : List (Nat × α)) (a b : Nat) (v : α) :
    kget (kput m a v) b = if b = a then some v else kget m b := by
  split_ifs with h
  · subst h; exact kget_kput_self m b v
  · exact kget_kput_of_ne m v h

theorem core_setCore (s : State) (u v : Nat) (c : Core) : (s.setCore u c).core v = if v = u then c else s.core v := by
  unfold State.core State.setCore
  simp only [kget_kput]
  split_ifs <;> rfl

@[simp] theorem core_setCore_self (s : State) (u : Nat) (c : Core) : (s.setCore u c).core u = c := by simp [core_setCore]

theorem core_modCore (s : State) (u v : Nat) (f : Core → Core) :
    (s.modCore u f).core v = if v = u then f (s.core u) else s.core v := core_setCore s u v _

theorem setCore_setCore (s : State) (u : Nat) (c d : Core) : (s.setCore u c).setCore u d = s.setCore u d := by
  simp [State.setCore, kput_kput_self]

theorem modCore_modCore (s : State) (u : Nat) (f g : Core → Core) :
    (s.modCore u f).modCore u g = s.modCore u fun c => g (f c) := by
  simp [State.modCore, setCore_setCore]

theorem Core.slot_setSlot (c : Core) (k j : Nat) (x : Slot) :
    (c.setSlot k x).slot j = if j = k ∧ k < c.slots.length then x else c.slot j := by
  unfold Core.slot Core.setSlot
  by_cases h : j = k
  · subst h
    by_cases h2 : j < c.slots.length
    · simp [h2]
    · simp [h2, List.getD]
  · simp [h, List.getD, Ne.symm h]

@[simp] theorem Core.setSlot_length (c : Core) (k : Nat) (x : Slot) : (c.setSlot k x).slots.length = c.slots.length := by
  simp [Core.setSlot]

/-- A slot that holds a strand lies in its core: a number past the last slot reads as EMPTY. -/
theorem Core.live_lt {c : Core} {k : Nat} (h : (c.slot k).live = true) : k < c.slots.length := by
  by_contra hk
  simp [Core.slot, List.getD, hk, Slot.live, Slot.reset] at h

theorem here_setMe (s : State) (x : Slot) : (s.setMe x).here = s.here.setSlot s.focusK x := by
  simp [State.here, State.setMe, State.setSlot]

theorem me_setMe {s : State} (h : s.me.live = true) (x : Slot) : (s.setMe x).me = x := by
  have hk := Core.live_lt h
  simp [State.me, State.slot, State.setMe, State.setSlot, Core.slot_setSlot, hk]

theorem me_modMe {s : State} (h : s.me.live = true) (f : Slot → Slot) : (s.modMe f).me = f s.me := me_setMe h _

theorem me_modSt {s : State} (h : s.me.live = true) (f : Strand → Strand) :
    (s.modSt f).me = { s.me with st := f s.st } := me_modMe h _

theorem core_setMe_ne {s : State} {u : Nat} (h : u ≠ s.focusU) (x : Slot) : (s.setMe x).core u = s.core u := by
  simp [State.setMe, State.setSlot, core_setCore, h]

theorem slot_setMe_ne {s : State} {k : Nat} (h : k ≠ s.focusK) (x : Slot) :
    (s.setMe x).slot s.focusU k = s.slot s.focusU k := by
  simp [State.slot, State.setMe, State.setSlot, Core.slot_setSlot, h]

end Sys2Proof.Machine
end

