-- ==== Sys2Proof/Laws/Canonical.lean ====
section
/-! SUPPORT. The laws of memory: a byte reads as it was last written, a write leaves every other byte alone, and every memory operation keeps the maps in canonical form. -/

namespace Sys2Proof.Machine

/-! One byte -/

/-- A byte written reads as written. -/
theorem byte_setByte_self {s : State} (h : Memory.wf s.mem = true) (p : Nat) (b : Byte) : (s.setByte p b).byte p = b :=
  sget_sset_self h p b

/-- A byte written leaves every other byte alone. -/
theorem byte_setByte_of_ne {s : State} (h : Memory.wf s.mem = true) {p q : Nat} (b : Byte) (hq : q ≠ p) :
    (s.setByte p b).byte q = s.byte q := sget_sset_of_ne h b hq

theorem setByte_wf {s : State} (h : Memory.wf s.mem = true) (p : Nat) (b : Byte) :
    Memory.wf (s.setByte p b).mem = true := sset_swf h p b

/-! Bytes in a row -/

theorem setBytes_wf {s : State} (h : Memory.wf s.mem = true) (p : Nat) (bs : List Byte) :
    Memory.wf (s.setBytes p bs).mem = true := by
  induction bs generalizing s p with
  | nil => exact h
  | cons b bs ih => exact ih (setByte_wf h p b) (p + 1)

/-- Bytes written leave every byte before and after them alone. -/
theorem byte_setBytes_of_outside {s : State} (h : Memory.wf s.mem = true) {p q : Nat} (bs : List Byte)
    (hq : q < p ∨ p + bs.length ≤ q) : (s.setBytes p bs).byte q = s.byte q := by
  induction bs generalizing s p with
  | nil => rfl
  | cons b bs ih =>
    simp only [List.length_cons] at hq
    rw [State.setBytes, ih (setByte_wf h p b) (by omega), byte_setByte_of_ne h b (by omega)]

/-- Each byte written reads as written. -/
theorem byte_setBytes {s : State} (h : Memory.wf s.mem = true) (p : Nat) (bs : List Byte) {i : Nat} (hi : i < bs.length) :
    (s.setBytes p bs).byte (p + i) = bs[i] := by
  induction bs generalizing s p i with
  | nil => simp at hi
  | cons b bs ih =>
    cases i with
    | zero =>
      rw [State.setBytes, byte_setBytes_of_outside (setByte_wf h p b) bs (by omega)]
      exact byte_setByte_self h p b
    | succ i =>
      rw [State.setBytes, show p + (i + 1) = p + 1 + i by omega,
        ih (setByte_wf h p b) (p + 1) (by simpa using hi)]
      rfl

theorem setNum_wf {s : State} (h : Memory.wf s.mem = true) (p n v : Nat) : Memory.wf (s.setNum p n v).mem = true :=
  setBytes_wf h p _

theorem underUnit_wf {s : State} (h : Memory.wf s.mem = true) (key : Option (BitVec 256)) (i : Nat) :
    Memory.wf (s.underUnit key i).mem = true := by
  unfold State.underUnit
  split
  · exact h
  · split
    · exact h
    · generalize leBytes _ _ = bs
      exact setBytes_wf h (64 * i) bs

theorem underUnits_wf {s : State} (h : Memory.wf s.mem = true) (key : Option (BitVec 256)) (i n : Nat) :
    Memory.wf (underUnits key i n s).mem = true := by
  induction n generalizing s i with
  | zero => exact h
  | succ n ih => exact ih (underUnit_wf h key i) (i + 1)

theorem under_wf {s : State} (h : Memory.wf s.mem = true) (key : Option (BitVec 256)) (p n : Nat) :
    Memory.wf (s.under key p n).mem = true := by
  unfold State.under
  split
  · exact underUnits_wf h _ _ _
  · exact h

/-- Local memory is not encrypted: an access there finds memory as it stands. -/
theorem under_local (s : State) (key : Option (BitVec 256)) {p : Nat} (n : Nat) (h : hbmEnd ≤ p) : s.under key p n = s := by
  simp [State.under, Nat.not_lt.2 h]

theorem setBytesAt_wf {s : State} (h : Memory.wf s.mem = true) (ps : List (Nat × Option (BitVec 256))) (bs : List Byte) :
    Memory.wf (s.setBytesAt ps bs).mem = true := by
  induction ps generalizing s bs with
  | nil => exact h
  | cons p ps ih =>
    cases bs with
    | nil => exact h
    | cons b bs => exact ih (setByte_wf (under_wf h p.2 p.1 1) p.1 b) bs

/-! The maps apart -/

/-- Two states hold the same maps. -/
def SameMaps (s t : State) : Prop :=
  t.mem = s.mem ∧ t.hostMem = s.hostMem ∧ t.full = s.full ∧ t.tags = s.tags ∧ t.poison = s.poison ∧
    t.seals = s.seals

theorem SameMaps.refl (s : State) : SameMaps s s := by simp [SameMaps]

theorem SameMaps.trans {s t u : State} (h : SameMaps s t) (k : SameMaps t u) : SameMaps s u :=
  by simp_all only [SameMaps, and_self]

/-- A state with the same maps is canonical with the other. -/
theorem SameMaps.canonical {s t : State} (h : SameMaps s t) (hc : s.Canonical) : t.Canonical := by
  obtain ⟨h1, h2, h3, h4, h5, h6⟩ := h
  simpa only [State.Canonical, h1, h2, h3, h4, h5, h6] using hc

theorem sameMaps_setCore (s : State) (u : Nat) (c : Core) : SameMaps s (s.setCore u c) := .refl s
theorem sameMaps_modCore (s : State) (u : Nat) (f : Core → Core) : SameMaps s (s.modCore u f) := .refl s
theorem sameMaps_setDie (s : State) (d : Nat) (x : Die) : SameMaps s (s.setDie d x) := .refl s
theorem sameMaps_setContext (s : State) (c : BitVec 12) (x : Context) : SameMaps s (s.setContext c x) := .refl s

theorem sameMaps_learn (s : State) (d : Nat) (c : Clock) : SameMaps s (s.learn d c) := by
  cases c
  · exact .refl s
  · exact sameMaps_setDie s d _

/-! What a write does to filters touches no map -/

theorem sameMaps_count (s : State) (u : Nat) (ctx : BitVec 12) (code n : Nat) : SameMaps s (s.count u ctx code n) := by
  unfold State.count
  dsimp only
  split
  · exact .refl s
  · split
    · split <;> exact .refl s
    · exact .refl s

theorem sameMaps_countLf (s : State) (ctx : BitVec 12) (u code : Nat) : SameMaps s (s.countLf ctx u code) := by
  refine (sameMaps_count s u ctx code 1).trans ?_
  unfold State.countLf State.countHub
  split <;> exact .refl _

theorem sameMaps_foldl {α : Type} {f : State → α → State} (hf : ∀ s a, SameMaps s (f s a)) (l : List α) (s : State) :
    SameMaps s (l.foldl f s) := by
  induction l generalizing s with
  | nil => exact .refl s
  | cons a l ih => exact (hf s a).trans (ih _)

theorem sameMaps_takeElements (ctx : BitVec 12) (k u n i p : Nat) (s : State) :
    SameMaps s (takeElements ctx k u n i p s) := by
  induction n generalizing i p s with
  | zero => exact .refl s
  | succ n ih =>
    unfold takeElements
    split
    · exact .refl s
    · refine SameMaps.trans ?_ (ih _ _ _)
      dsimp only
      split
      · exact sameMaps_countLf s _ _ _
      · exact sameMaps_setContext s _ _

theorem sameMaps_takeWrite (p : Nat) (ctx : BitVec 12) (k : Nat) (f : Filter) (at0 : Int) (lo hi : Nat) (s : State) :
    SameMaps s (takeWrite p ctx k f at0 lo hi s) := by
  unfold takeWrite
  dsimp only
  split
  · exact (sameMaps_takeElements _ _ _ _ _ _ s).trans (sameMaps_countLf _ _ _ _)
  · exact sameMaps_takeElements _ _ _ _ _ _ s

theorem sameMaps_overFilters {act : BitVec 12 → Nat → Filter → Int → Nat → Nat → State → State}
    (h : ∀ ctx k f a lo hi s, SameMaps s (act ctx k f a lo hi s)) (p n : Nat) (s : State) :
    SameMaps s (overFilters act p n s) := by
  refine sameMaps_foldl (fun s c => sameMaps_foldl (fun s f => sameMaps_foldl (fun s g => ?_) _ _) _ _) _ s
  unfold filterTouch
  dsimp only
  split
  · exact .refl _
  · exact h ..

theorem sameMaps_untaken (p n : Nat) (s : State) : SameMaps s (untaken p n s) :=
  sameMaps_overFilters (fun _ _ _ _ _ _ s => sameMaps_countLf s _ _ _) p n s

/-- Filters count and take elements; memory is as it was. -/
theorem sameMaps_filtersWrite (takes : Bool) (p n : Nat) (s : State) : SameMaps s (filtersWrite takes p n s) := by
  unfold filtersWrite
  split
  · exact sameMaps_overFilters (sameMaps_takeWrite p) p n s
  · exact sameMaps_untaken p n s

/-! Every write keeps the canonical form -/

theorem canonical_setByte {s : State} (h : s.Canonical) (p : Nat) (b : Byte) : (s.setByte p b).Canonical :=
  ⟨setByte_wf h.1 p b, h.2⟩

theorem canonical_setBytes {s : State} (h : s.Canonical) (p : Nat) (bs : List Byte) : (s.setBytes p bs).Canonical := by
  induction bs generalizing s p with
  | nil => exact h
  | cons b bs ih => exact ih (canonical_setByte h p b) (p + 1)

theorem canonical_underUnit {s : State} (h : s.Canonical) (key : Option (BitVec 256)) (i : Nat) :
    (s.underUnit key i).Canonical := by
  have hs : ∀ {t : State} (_ : t.Canonical) (m : List (Nat × Option (Option (BitVec 256)))), swf none m = true →
      ({ t with seals := m } : State).Canonical := fun ht m hm =>
    ⟨ht.1, ht.2.1, ht.2.2.1, ht.2.2.2.1, ht.2.2.2.2.1, hm⟩
  have hm : swf none (sset none s.seals i (some key)) = true := sset_swf h.2.2.2.2.2 i _
  unfold State.underUnit
  split
  · exact hs h _ hm
  · split
    · exact h
    · generalize leBytes _ _ = bs
      exact hs (canonical_setBytes h _ bs) _ hm

theorem canonical_underUnits {s : State} (h : s.Canonical) (key : Option (BitVec 256)) (i n : Nat) :
    (underUnits key i n s).Canonical := by
  induction n generalizing s i with
  | zero => exact h
  | succ n ih => exact ih (canonical_underUnit h key i) (i + 1)

/-- Memory as an access under a key finds it is canonical. -/
theorem canonical_under {s : State} (h : s.Canonical) (key : Option (BitVec 256)) (p n : Nat) :
    (s.under key p n).Canonical := by
  unfold State.under
  split
  · exact canonical_underUnits h _ _ _
  · exact h

theorem canonical_setBytesUnder {s : State} (h : s.Canonical) (key : Option (BitVec 256)) (p : Nat) (bs : List Byte) :
    (s.setBytesUnder key p bs).Canonical := canonical_setBytes (canonical_under h _ _ _) p bs

theorem canonical_setBytesAt {s : State} (h : s.Canonical) (ps : List (Nat × Option (BitVec 256))) (bs : List Byte) :
    (s.setBytesAt ps bs).Canonical := by
  induction ps generalizing s bs with
  | nil => exact h
  | cons p ps ih =>
    cases bs with
    | nil => exact h
    | cons b bs => exact ih (canonical_setByte (canonical_under h p.2 p.1 1) p.1 b) bs

theorem canonical_store {s : State} (h : s.Canonical) (takes : Bool) (p : Nat) (bs : List Byte) :
    (s.store takes p bs).Canonical := by
  unfold State.store
  dsimp only
  split
  · exact (sameMaps_filtersWrite _ _ _ _).canonical (canonical_setBytes h p bs)
  · exact canonical_setBytes h p bs

theorem canonical_storePlain {s : State} (h : s.Canonical) (p : Nat) (bs : List Byte) : (s.storePlain p bs).Canonical := by
  unfold State.storePlain
  dsimp only
  split
  · exact (sameMaps_untaken _ _ _).canonical (canonical_setBytes h p bs)
  · exact canonical_setBytes h p bs

theorem canonical_storeNum {s : State} (h : s.Canonical) (takes : Bool) (p n v : Nat) :
    (s.storeNum takes p n v).Canonical := canonical_store h takes p _

theorem canonical_setFull {s : State} (h : s.Canonical) (p : Nat) (b : Bool) : (s.setFull p b).Canonical :=
  ⟨h.1, h.2.1, sset_swf h.2.2.1 _ b, h.2.2.2⟩

theorem canonical_setTag {s : State} (h : s.Canonical) (p : Nat) (t : BitVec 8) : (s.setTag p t).Canonical :=
  ⟨h.1, h.2.1, h.2.2.1, sset_swf h.2.2.2.1 _ t, h.2.2.2.2⟩

theorem canonical_setHostBytes {s : State} (h : s.Canonical) (a : Nat) (bs : List Byte) :
    (s.setHostBytes a bs).Canonical := by
  induction bs generalizing s a with
  | nil => exact h
  | cons b bs ih => exact ih (s := { s with hostMem := sset blank s.hostMem a b }) ⟨h.1, sset_swf (d := blank) h.2.1 a b, h.2.2⟩ (a + 1)

theorem canonical_clearCore {s : State} (h : s.Canonical) (u : Nat) : (clearCore s u).Canonical :=
  ⟨filter_swf _ h.1, h.2.1, filter_swf _ h.2.2.1, filter_swf _ h.2.2.2.1, filter_swf _ h.2.2.2.2.1,
    h.2.2.2.2.2⟩

/-! Pages of the management core (R199, R363) -/

theorem canonical_wipe {s : State} (h : s.Canonical) (frame : Nat → Bool) : (s.wipe frame).Canonical := by
  refine ⟨filter_swf _ h.1, h.2.1, h.2.2.1, h.2.2.2.1, h.2.2.2.2.1, ?_⟩
  have hm : (s.wipe frame).seals = s.seals.map fun p => (p.1, if frame (p.1 / 64) then some none else p.2) :=
    List.map_congr_left fun p _ => by split <;> rfl
  rw [hm]
  exact map_swf _ (fun p hp => by split <;> simp_all) h.2.2.2.2.2

theorem canonical_mapPage {s : State} (h : s.Canonical) (p : MappedPage) : (mapPage s p).Canonical :=
  canonical_wipe h fun f => p.covers f && (s.lastMapped f).any fun (q : MappedPage) => q.plain && q.ctx != p.ctx

theorem canonical_retirePages {s : State} (h : s.Canonical) (ctx : BitVec 12) : (retirePages s ctx).Canonical :=
  ⟨h.1, h.2.1, h.2.2.1, h.2.2.2.1, filter_swf _ h.2.2.2.2.1, h.2.2.2.2.2⟩

theorem canonical_writeEntry {s : State} (h : s.Canonical) (ctx : BitVec 12) (a : Nat) (v : BitVec 64) :
    (writeEntry s ctx a v).Canonical := by
  unfold writeEntry
  dsimp only
  split
  · split
    · exact h
    · exact canonical_storeNum (canonical_under (canonical_mapPage h _) _ _ _) _ _ _ _
  · exact canonical_storeNum (canonical_under h _ _ _) _ _ _ _

/-- The full/empty bit written reads as written, and every other granule's is left alone. -/
theorem isFull_setFull {s : State} (h : s.Canonical) (p q : Nat) (b : Bool) :
    (s.setFull p b).isFull q = if q / 16 = p / 16 then b else s.isFull q := by
  simp only [State.isFull, State.setFull]
  split
  · rename_i e; rw [e]; exact sget_sset_self h.2.2.1 _ b
  · rename_i e; exact sget_sset_of_ne h.2.2.1 b e

/-- The frame tag written reads as written, and every other page's is left alone. -/
theorem tag_setTag {s : State} (h : s.Canonical) (p q : Nat) (t : BitVec 8) :
    (s.setTag p t).tag q = if q / 4096 = p / 4096 then t else s.tag q := by
  simp only [State.tag, State.setTag]
  split
  · rename_i e; rw [e]; exact sget_sset_self h.2.2.2.1 _ t
  · rename_i e; exact sget_sset_of_ne h.2.2.2.1 t e

/-- Memory after reset lists nothing. -/
theorem reset_mem_wf : Memory.wf State.reset.mem = true := rfl

end Sys2Proof.Machine
end

