-- ==== Sys2Proof/Laws/Exec.lean ====
section
/-! SUPPORT. Which meaning each row of the table has: one equation for each arm of the dispatch. -/

namespace Sys2Proof.Machine

@[simp] theorem exec_add (w : Width) (s : State) : exec (.add w) s = execAdd w s := rfl
@[simp] theorem exec_sub (w : Width) (s : State) : exec (.sub w) s = execSub w s := rfl
@[simp] theorem exec_mul (w : Width) (s : State) : exec (.mul w) s = execMul w s := rfl
@[simp] theorem exec_mulh (f : IForm) (s : State) : exec (.mulh f) s = execMulh f s := rfl
@[simp] theorem exec_div (f : IForm) (s : State) : exec (.div f) s = execDiv f s := rfl
@[simp] theorem exec_rem (f : IForm) (s : State) : exec (.rem f) s = execRem f s := rfl
@[simp] theorem exec_min (f : IForm) (s : State) : exec (.min f) s = execMin f s := rfl
@[simp] theorem exec_max (f : IForm) (s : State) : exec (.max f) s = execMax f s := rfl
@[simp] theorem exec_adds (f : IForm) (s : State) : exec (.adds f) s = execAdds f s := rfl
@[simp] theorem exec_subs (f : IForm) (s : State) : exec (.subs f) s = execSubs f s := rfl
@[simp] theorem exec_neg (w : Width) (s : State) : exec (.neg w) s = execNeg w s := rfl
@[simp] theorem exec_sext (w : Narrow) (s : State) : exec (.sext w) s = execSext w s := rfl
@[simp] theorem exec_ceq (w : Wide) (s : State) : exec (.ceq w) s = execCeq w s := rfl
@[simp] theorem exec_cne (w : Wide) (s : State) : exec (.cne w) s = execCne w s := rfl
@[simp] theorem exec_clt (f : IForm) (s : State) : exec (.clt f) s = execClt f s := rfl
@[simp] theorem exec_cle (f : IForm) (s : State) : exec (.cle f) s = execCle f s := rfl
@[simp] theorem exec_mov64Reg (s : State) : exec .mov64Reg s = execMov64Reg s := rfl
@[simp] theorem exec_mov64LongImm (s : State) : exec .mov64LongImm s = execMov64LongImm s := rfl
@[simp] theorem exec_mov64PcRel (s : State) : exec .mov64PcRel s = execMov64PcRel s := rfl
@[simp] theorem exec_movh64 (s : State) : exec .movh64 s = execMovh64 s := rfl
@[simp] theorem exec_and64 (s : State) : exec .and64 s = execAnd64 s := rfl
@[simp] theorem exec_or64 (s : State) : exec .or64 s = execOr64 s := rfl
@[simp] theorem exec_xor64 (s : State) : exec .xor64 s = execXor64 s := rfl
@[simp] theorem exec_andn64 (s : State) : exec .andn64 s = execAndn64 s := rfl
@[simp] theorem exec_not64 (s : State) : exec .not64 s = execNot64 s := rfl
@[simp] theorem exec_zext (w : Narrow) (s : State) : exec (.zext w) s = execZext w s := rfl
@[simp] theorem exec_shl (w : Width) (s : State) : exec (.shl w) s = execShl w s := rfl
@[simp] theorem exec_shr (w : Width) (s : State) : exec (.shr w) s = execShr w s := rfl
@[simp] theorem exec_sar (w : Width) (s : State) : exec (.sar w) s = execSar w s := rfl
@[simp] theorem exec_rol (w : Width) (s : State) : exec (.rol w) s = execRol w s := rfl
@[simp] theorem exec_ror (w : Width) (s : State) : exec (.ror w) s = execRor w s := rfl
@[simp] theorem exec_popc (w : Width) (s : State) : exec (.popc w) s = execPopc w s := rfl
@[simp] theorem exec_clz (w : Width) (s : State) : exec (.clz w) s = execClz w s := rfl
@[simp] theorem exec_ctz (w : Width) (s : State) : exec (.ctz w) s = execCtz w s := rfl
@[simp] theorem exec_bext64 (s : State) : exec .bext64 s = execBext64 s := rfl
@[simp] theorem exec_bins64 (s : State) : exec .bins64 s = execBins64 s := rfl
@[simp] theorem exec_bswap64 (s : State) : exec .bswap64 s = execBswap64 s := rfl
@[simp] theorem exec_brev64 (s : State) : exec .brev64 s = execBrev64 s := rfl
@[simp] theorem exec_padd (l : Lane) (s : State) : exec (.padd l) s = execPadd l s := rfl
@[simp] theorem exec_psub (l : Lane) (s : State) : exec (.psub l) s = execPsub l s := rfl
@[simp] theorem exec_pshl (l : Lane) (s : State) : exec (.pshl l) s = execPshl l s := rfl
@[simp] theorem exec_pshr (l : Lane) (s : State) : exec (.pshr l) s = execPshr l s := rfl
@[simp] theorem exec_psar (l : Lane) (s : State) : exec (.psar l) s = execPsar l s := rfl
@[simp] theorem exec_pmul (l : Lane) (s : State) : exec (.pmul l) s = execPmul l s := rfl
@[simp] theorem exec_brOffset (s : State) : exec .brOffset s = execBrOffset s := rfl
@[simp] theorem exec_brRegister (s : State) : exec .brRegister s = execBrRegister s := rfl
@[simp] theorem exec_callOffset (s : State) : exec .callOffset s = execCallOffset s := rfl
@[simp] theorem exec_callRegister (s : State) : exec .callRegister s = execCallRegister s := rfl
@[simp] theorem exec_ret (s : State) : exec .ret s = execRet s := rfl
@[simp] theorem exec_pbrOffset (s : State) : exec .pbrOffset s = execPbrOffset s := rfl
@[simp] theorem exec_pbrRegister (s : State) : exec .pbrRegister s = execPbrRegister s := rfl
@[simp] theorem exec_gset (s : State) : exec .gset s = execGset s := rfl
@[simp] theorem exec_gres (s : State) : exec .gres s = execGres s := rfl
@[simp] theorem exec_gand (s : State) : exec .gand s = execGand s := rfl
@[simp] theorem exec_gor (s : State) : exec .gor s = execGor s := rfl
@[simp] theorem exec_gxor (s : State) : exec .gxor s = execGxor s := rfl
@[simp] theorem exec_gnot (s : State) : exec .gnot s = execGnot s := rfl
@[simp] theorem exec_gpend (s : State) : exec .gpend s = execGpend s := rfl
@[simp] theorem exec_gget (s : State) : exec .gget s = execGget s := rfl
@[simp] theorem exec_nop (s : State) : exec .nop s = execNop s := rfl
@[simp] theorem exec_addF32 (s : State) : exec .addF32 s = execAddF32 s := rfl
@[simp] theorem exec_subF32 (s : State) : exec .subF32 s = execSubF32 s := rfl
@[simp] theorem exec_mulF32 (s : State) : exec .mulF32 s = execMulF32 s := rfl
@[simp] theorem exec_divF32 (s : State) : exec .divF32 s = execDivF32 s := rfl
@[simp] theorem exec_fmaF32 (s : State) : exec .fmaF32 s = execFmaF32 s := rfl
@[simp] theorem exec_fmsF32 (s : State) : exec .fmsF32 s = execFmsF32 s := rfl
@[simp] theorem exec_sqrtF32 (s : State) : exec .sqrtF32 s = execSqrtF32 s := rfl
@[simp] theorem exec_rcpF32 (s : State) : exec .rcpF32 s = execRcpF32 s := rfl
@[simp] theorem exec_rsqF32 (s : State) : exec .rsqF32 s = execRsqF32 s := rfl
@[simp] theorem exec_exp2F32 (s : State) : exec .exp2F32 s = execExp2F32 s := rfl
@[simp] theorem exec_log2F32 (s : State) : exec .log2F32 s = execLog2F32 s := rfl
@[simp] theorem exec_minF32 (s : State) : exec .minF32 s = execMinF32 s := rfl
@[simp] theorem exec_maxF32 (s : State) : exec .maxF32 s = execMaxF32 s := rfl
@[simp] theorem exec_absF32 (s : State) : exec .absF32 s = execAbsF32 s := rfl
@[simp] theorem exec_negF32 (s : State) : exec .negF32 s = execNegF32 s := rfl
@[simp] theorem exec_ceqF32 (s : State) : exec .ceqF32 s = execCeqF32 s := rfl
@[simp] theorem exec_cltF32 (s : State) : exec .cltF32 s = execCltF32 s := rfl
@[simp] theorem exec_cleF32 (s : State) : exec .cleF32 s = execCleF32 s := rfl
@[simp] theorem exec_cunF32 (s : State) : exec .cunF32 s = execCunF32 s := rfl
@[simp] theorem exec_classF32 (s : State) : exec .classF32 s = execClassF32 s := rfl
@[simp] theorem exec_cvtF32FromInt (f : IForm) (s : State) : exec (.cvtF32FromInt f) s = execCvtF32FromInt f s := rfl
@[simp] theorem exec_cvtIntFromF32 (f : IForm) (s : State) : exec (.cvtIntFromF32 f) s = execCvtIntFromF32 f s := rfl
@[simp] theorem exec_cvtF32F16 (s : State) : exec .cvtF32F16 s = execCvtF32F16 s := rfl
@[simp] theorem exec_cvtF16F32 (s : State) : exec .cvtF16F32 s = execCvtF16F32 s := rfl
@[simp] theorem exec_cvtF32Bf16 (s : State) : exec .cvtF32Bf16 s = execCvtF32Bf16 s := rfl
@[simp] theorem exec_cvtBf16F32 (s : State) : exec .cvtBf16F32 s = execCvtBf16F32 s := rfl
@[simp] theorem exec_cvtF32B8 (s : State) : exec .cvtF32B8 s = execCvtF32B8 s := rfl
@[simp] theorem exec_cvtB8F32 (s : State) : exec .cvtB8F32 s = execCvtB8F32 s := rfl
@[simp] theorem exec_ld (w : Width) (s : State) : exec (.ld w) s = execLd w s := rfl
@[simp] theorem exec_lds (w : Narrow) (s : State) : exec (.lds w) s = execLds w s := rfl
@[simp] theorem exec_ldp128 (s : State) : exec .ldp128 s = execLdp128 s := rfl
@[simp] theorem exec_st (w : Width) (s : State) : exec (.st w) s = execSt w s := rfl
@[simp] theorem exec_st4 (s : State) : exec .st4 s = execSt4 s := rfl
@[simp] theorem exec_st2 (s : State) : exec .st2 s = execSt2 s := rfl
@[simp] theorem exec_stp128 (s : State) : exec .stp128 s = execStp128 s := rfl
@[simp] theorem exec_ldd (s : State) : exec .ldd s = execLdd s := rfl
@[simp] theorem exec_ldAcq (w : Wide) (s : State) : exec (.ldAcq w) s = execLdAcq w s := rfl
@[simp] theorem exec_stRel (w : Wide) (s : State) : exec (.stRel w) s = execStRel w s := rfl
@[simp] theorem exec_amadd (w : Wide) (od : Ord) (s : State) : exec (.amadd w od) s = execAmadd w od s := rfl
@[simp] theorem exec_amin (sg : Sgn) (od : Ord) (s : State) : exec (.amin sg od) s = execAmin sg od s := rfl
@[simp] theorem exec_amax (sg : Sgn) (od : Ord) (s : State) : exec (.amax sg od) s = execAmax sg od s := rfl
@[simp] theorem exec_aand (od : Ord) (s : State) : exec (.aand od) s = execAand od s := rfl
@[simp] theorem exec_aor (od : Ord) (s : State) : exec (.aor od) s = execAor od s := rfl
@[simp] theorem exec_axor (od : Ord) (s : State) : exec (.axor od) s = execAxor od s := rfl
@[simp] theorem exec_aswap (od : Ord) (s : State) : exec (.aswap od) s = execAswap od s := rfl
@[simp] theorem exec_acas (w : Wide) (od : Ord) (s : State) : exec (.acas w od) s = execAcas w od s := rfl
@[simp] theorem exec_fenceAcq (s : State) : exec .fenceAcq s = execFenceAcq s := rfl
@[simp] theorem exec_fenceRel (s : State) : exec .fenceRel s = execFenceRel s := rfl
@[simp] theorem exec_fence (s : State) : exec .fence s = execFence s := rfl
@[simp] theorem exec_fenceTotal (s : State) : exec .fenceTotal s = execFenceTotal s := rfl
@[simp] theorem exec_ldfC (w : Wide) (s : State) : exec (.ldfC w) s = execLdfC w s := rfl
@[simp] theorem exec_ldfK (w : Wide) (s : State) : exec (.ldfK w) s = execLdfK w s := rfl
@[simp] theorem exec_stf (w : Wide) (s : State) : exec (.stf w) s = execStf w s := rfl
@[simp] theorem exec_sete (s : State) : exec .sete s = execSete s := rfl
@[simp] theorem exec_setf (s : State) : exec .setf s = execSetf s := rfl
@[simp] theorem exec_tfe (s : State) : exec .tfe s = execTfe s := rfl
@[simp] theorem exec_bdecl (s : State) : exec .bdecl s = execBdecl s := rfl
@[simp] theorem exec_bstat (s : State) : exec .bstat s = execBstat s := rfl
@[simp] theorem exec_bfill (s : State) : exec .bfill s = execBfill s := rfl
@[simp] theorem exec_bpub (s : State) : exec .bpub s = execBpub s := rfl
@[simp] theorem exec_bdrain (s : State) : exec .bdrain s = execBdrain s := rfl
@[simp] theorem exec_bfree (s : State) : exec .bfree s = execBfree s := rfl
@[simp] theorem exec_hrd (s : State) : exec .hrd s = execHrd s := rfl
@[simp] theorem exec_hwr (s : State) : exec .hwr s = execHwr s := rfl
@[simp] theorem exec_push (s : State) : exec .push s = execPush s := rfl
@[simp] theorem exec_push2d (s : State) : exec .push2d s = execPush2d s := rfl
@[simp] theorem exec_pushFill (s : State) : exec .pushFill s = execPushFill s := rfl
@[simp] theorem exec_hpf (s : State) : exec .hpf s = execHpf s := rfl
@[simp] theorem exec_keysel (s : State) : exec .keysel s = execKeysel s := rfl
@[simp] theorem exec_hfence (s : State) : exec .hfence s = execHfence s := rfl
@[simp] theorem exec_fork (s : State) : exec .fork s = execFork s := rfl
@[simp] theorem exec_done (s : State) : exec .done s = execDone s := rfl
@[simp] theorem exec_callat (s : State) : exec .callat s = execCallat s := rfl
@[simp] theorem exec_send (s : State) : exec .send s = execSend s := rfl
@[simp] theorem exec_jinit (s : State) : exec .jinit s = execJinit s := rfl
@[simp] theorem exec_jarv (s : State) : exec .jarv s = execJarv s := rfl
@[simp] theorem exec_wmint (s : State) : exec .wmint s = execWmint s := rfl
@[simp] theorem exec_gform (s : State) : exec .gform s = execGform s := rfl
@[simp] theorem exec_gleave (s : State) : exec .gleave s = execGleave s := rfl
@[simp] theorem exec_barArv (s : State) : exec .barArv s = execBarArv s := rfl
@[simp] theorem exec_barDrop (s : State) : exec .barDrop s = execBarDrop s := rfl
@[simp] theorem exec_barWait (s : State) : exec .barWait s = execBarWait s := rfl
@[simp] theorem exec_barQry (s : State) : exec .barQry s = execBarQry s := rfl
@[simp] theorem exec_hset (s : State) : exec .hset s = execHset s := rfl
@[simp] theorem exec_hlock (s : State) : exec .hlock s = execHlock s := rfl
@[simp] theorem exec_hunlock (s : State) : exec .hunlock s = execHunlock s := rfl
@[simp] theorem exec_sdom (s : State) : exec .sdom s = execSdom s := rfl
@[simp] theorem exec_vadd (s : State) : exec .vadd s = execVadd s := rfl
@[simp] theorem exec_vsub (s : State) : exec .vsub s = execVsub s := rfl
@[simp] theorem exec_vmul (s : State) : exec .vmul s = execVmul s := rfl
@[simp] theorem exec_vdiv (s : State) : exec .vdiv s = execVdiv s := rfl
@[simp] theorem exec_vfma (s : State) : exec .vfma s = execVfma s := rfl
@[simp] theorem exec_vmin (s : State) : exec .vmin s = execVmin s := rfl
@[simp] theorem exec_vmax (s : State) : exec .vmax s = execVmax s := rfl
@[simp] theorem exec_vabs (s : State) : exec .vabs s = execVabs s := rfl
@[simp] theorem exec_vneg (s : State) : exec .vneg s = execVneg s := rfl
@[simp] theorem exec_vrcp (s : State) : exec .vrcp s = execVrcp s := rfl
@[simp] theorem exec_vrsq (s : State) : exec .vrsq s = execVrsq s := rfl
@[simp] theorem exec_vexp2 (s : State) : exec .vexp2 s = execVexp2 s := rfl
@[simp] theorem exec_vand (s : State) : exec .vand s = execVand s := rfl
@[simp] theorem exec_vor (s : State) : exec .vor s = execVor s := rfl
@[simp] theorem exec_vxor (s : State) : exec .vxor s = execVxor s := rfl
@[simp] theorem exec_vnot (s : State) : exec .vnot s = execVnot s := rfl
@[simp] theorem exec_vshl (s : State) : exec .vshl s = execVshl s := rfl
@[simp] theorem exec_vshr (s : State) : exec .vshr s = execVshr s := rfl
@[simp] theorem exec_vsar (s : State) : exec .vsar s = execVsar s := rfl
@[simp] theorem exec_vceq (s : State) : exec .vceq s = execVceq s := rfl
@[simp] theorem exec_vcne (s : State) : exec .vcne s = execVcne s := rfl
@[simp] theorem exec_vclt (s : State) : exec .vclt s = execVclt s := rfl
@[simp] theorem exec_vcle (s : State) : exec .vcle s = execVcle s := rfl
@[simp] theorem exec_vsel (s : State) : exec .vsel s = execVsel s := rfl
@[simp] theorem exec_vmov (s : State) : exec .vmov s = execVmov s := rfl
@[simp] theorem exec_vbcast (s : State) : exec .vbcast s = execVbcast s := rfl
@[simp] theorem exec_vcvt (s : State) : exec .vcvt s = execVcvt s := rfl
@[simp] theorem exec_vld (s : State) : exec .vld s = execVld s := rfl
@[simp] theorem exec_vst (s : State) : exec .vst s = execVst s := rfl
@[simp] theorem exec_vldd (s : State) : exec .vldd s = execVldd s := rfl
@[simp] theorem exec_vpush (s : State) : exec .vpush s = execVpush s := rfl
@[simp] theorem exec_vpop (s : State) : exec .vpop s = execVpop s := rfl
@[simp] theorem exec_vrsum (s : State) : exec .vrsum s = execVrsum s := rfl
@[simp] theorem exec_vrmax (s : State) : exec .vrmax s = execVrmax s := rfl
@[simp] theorem exec_vtrn (s : State) : exec .vtrn s = execVtrn s := rfl
@[simp] theorem exec_vshf (s : State) : exec .vshf s = execVshf s := rfl
@[simp] theorem exec_mand (s : State) : exec .mand s = execMand s := rfl
@[simp] theorem exec_mor (s : State) : exec .mor s = execMor s := rfl
@[simp] theorem exec_mxor (s : State) : exec .mxor s = execMxor s := rfl
@[simp] theorem exec_mnot (s : State) : exec .mnot s = execMnot s := rfl
@[simp] theorem exec_mset (s : State) : exec .mset s = execMset s := rfl
@[simp] theorem exec_mclr (s : State) : exec .mclr s = execMclr s := rfl
@[simp] theorem exec_mld (s : State) : exec .mld s = execMld s := rfl
@[simp] theorem exec_mst (s : State) : exec .mst s = execMst s := rfl
@[simp] theorem exec_mAny (s : State) : exec .mAny s = execMAny s := rfl
@[simp] theorem exec_mPopc (s : State) : exec .mPopc s = execMPopc s := rfl
@[simp] theorem exec_mFirst (s : State) : exec .mFirst s = execMFirst s := rfl
@[simp] theorem exec_mmaB8 (s : State) : exec .mmaB8 s = execMmaB8 s := rfl
@[simp] theorem exec_mmaF16 (s : State) : exec .mmaF16 s = execMmaF16 s := rfl
@[simp] theorem exec_mmaBf16 (s : State) : exec .mmaBf16 s = execMmaBf16 s := rfl
@[simp] theorem exec_mzero (s : State) : exec .mzero s = execMzero s := rfl
@[simp] theorem exec_acld (s : State) : exec .acld s = execAcld s := rfl
@[simp] theorem exec_acst (s : State) : exec .acst s = execAcst s := rfl
@[simp] theorem exec_acmv (s : State) : exec .acmv s = execAcmv s := rfl
@[simp] theorem exec_rstat (s : State) : exec .rstat s = execRstat s := rfl
@[simp] theorem exec_cpy (s : State) : exec .cpy s = execCpy s := rfl
@[simp] theorem exec_cpyFill (s : State) : exec .cpyFill s = execCpyFill s := rfl
@[simp] theorem exec_cpy2d (s : State) : exec .cpy2d s = execCpy2d s := rfl
@[simp] theorem exec_cpyGth (s : State) : exec .cpyGth s = execCpyGth s := rfl
@[simp] theorem exec_crdOpen (s : State) : exec .crdOpen s = execCrdOpen s := rfl
@[simp] theorem exec_crdDig (s : State) : exec .crdDig s = execCrdDig s := rfl
@[simp] theorem exec_crdWdig (s : State) : exec .crdWdig s = execCrdWdig s := rfl
@[simp] theorem exec_crdPlane (s : State) : exec .crdPlane s = execCrdPlane s := rfl
@[simp] theorem exec_crdElim (s : State) : exec .crdElim s = execCrdElim s := rfl
@[simp] theorem exec_crdRes (s : State) : exec .crdRes s = execCrdRes s := rfl
@[simp] theorem exec_crdWait (s : State) : exec .crdWait s = execCrdWait s := rfl
@[simp] theorem exec_crdClose (s : State) : exec .crdClose s = execCrdClose s := rfl
@[simp] theorem exec_kvNew (s : State) : exec .kvNew s = execKvNew s := rfl
@[simp] theorem exec_kvDrop (s : State) : exec .kvDrop s = execKvDrop s := rfl
@[simp] theorem exec_kvApp (s : State) : exec .kvApp s = execKvApp s := rfl
@[simp] theorem exec_kvLen (s : State) : exec .kvLen s = execKvLen s := rfl
@[simp] theorem exec_kvRef (s : State) : exec .kvRef s = execKvRef s := rfl
@[simp] theorem exec_kvCut (s : State) : exec .kvCut s = execKvCut s := rfl
@[simp] theorem exec_lfArm (s : State) : exec .lfArm s = execLfArm s := rfl
@[simp] theorem exec_lfTop (s : State) : exec .lfTop s = execLfTop s := rfl
@[simp] theorem exec_lfSum (s : State) : exec .lfSum s = execLfSum s := rfl
@[simp] theorem exec_lfEnd (s : State) : exec .lfEnd s = execLfEnd s := rfl
@[simp] theorem exec_stopSet (s : State) : exec .stopSet s = execStopSet s := rfl
@[simp] theorem exec_stopClr (s : State) : exec .stopClr s = execStopClr s := rfl
@[simp] theorem exec_trOpen (s : State) : exec .trOpen s = execTrOpen s := rfl
@[simp] theorem exec_trCall (s : State) : exec .trCall s = execTrCall s := rfl
@[simp] theorem exec_trPut (s : State) : exec .trPut s = execTrPut s := rfl
@[simp] theorem exec_trConf (s : State) : exec .trConf s = execTrConf s := rfl
@[simp] theorem exec_trMiss (s : State) : exec .trMiss s = execTrMiss s := rfl
@[simp] theorem exec_trClose (s : State) : exec .trClose s = execTrClose s := rfl
@[simp] theorem exec_trQry (s : State) : exec .trQry s = execTrQry s := rfl
@[simp] theorem exec_trLim (s : State) : exec .trLim s = execTrLim s := rfl
@[simp] theorem exec_emit (s : State) : exec .emit s = execEmit s := rfl
@[simp] theorem exec_dtNode (s : State) : exec .dtNode s = execDtNode s := rfl
@[simp] theorem exec_dtAccept (s : State) : exec .dtAccept s = execDtAccept s := rfl
@[simp] theorem exec_dtReset (s : State) : exec .dtReset s = execDtReset s := rfl
@[simp] theorem exec_trap (s : State) : exec .trap s = execTrap s := rfl
@[simp] theorem exec_brk (s : State) : exec .brk s = execBrk s := rfl
@[simp] theorem exec_tret (s : State) : exec .tret s = execTret s := rfl
@[simp] theorem exec_lkill (s : State) : exec .lkill s = execLkill s := rfl
@[simp] theorem exec_tvset (s : State) : exec .tvset s = execTvset s := rfl
@[simp] theorem exec_frset (s : State) : exec .frset s = execFrset s := rfl
@[simp] theorem exec_suspendDrain (s : State) : exec .suspendDrain s = execSuspendDrain s := rfl
@[simp] theorem exec_suspendRecord (s : State) : exec .suspendRecord s = execSuspendRecord s := rfl
@[simp] theorem exec_resume (s : State) : exec .resume s = execResume s := rfl
@[simp] theorem exec_ccopy (s : State) : exec .ccopy s = execCcopy s := rfl
@[simp] theorem exec_cdisc (s : State) : exec .cdisc s = execCdisc s := rfl
@[simp] theorem exec_cinsp (s : State) : exec .cinsp s = execCinsp s := rfl
@[simp] theorem exec_gthaw (s : State) : exec .gthaw s = execGthaw s := rfl
@[simp] theorem exec_crights (s : State) : exec .crights s = execCrights s := rfl
@[simp] theorem exec_collSmp (s : State) : exec .collSmp s = execCollSmp s := rfl
@[simp] theorem exec_collRed (s : State) : exec .collRed s = execCollRed s := rfl
@[simp] theorem exec_ckptSave (s : State) : exec .ckptSave s = execCkptSave s := rfl
@[simp] theorem exec_ckptCommit (s : State) : exec .ckptCommit s = execCkptCommit s := rfl
@[simp] theorem exec_ecntSel (s : State) : exec .ecntSel s = execEcntSel s := rfl
@[simp] theorem exec_ecntRd (s : State) : exec .ecntRd s = execEcntRd s := rfl
@[simp] theorem exec_keyWrite (s : State) : exec .keyWrite s = execKeyWrite s := rfl
@[simp] theorem exec_budWrite (s : State) : exec .budWrite s = execBudWrite s := rfl
@[simp] theorem exec_brmodeWrite (s : State) : exec .brmodeWrite s = execBrmodeWrite s := rfl
@[simp] theorem exec_vshapeWrite (s : State) : exec .vshapeWrite s = execVshapeWrite s := rfl
@[simp] theorem exec_mxcfgWrite (s : State) : exec .mxcfgWrite s = execMxcfgWrite s := rfl
@[simp] theorem exec_registerWrite (s : State) : exec .registerWrite s = execRegisterWrite s := rfl
@[simp] theorem exec_migrantArrival (s : State) : exec .migrantArrival s = execMigrantArrival s := rfl
@[simp] theorem exec_stayRequestAtHome (s : State) : exec .stayRequestAtHome s = execStayRequestAtHome s := rfl
@[simp] theorem exec_replyArrival (s : State) : exec .replyArrival s = execReplyArrival s := rfl
@[simp] theorem exec_forwardingEntryLapse (s : State) : exec .forwardingEntryLapse s = execForwardingEntryLapse s := rfl
@[simp] theorem exec_subbyteStoreAtHome (s : State) : exec .subbyteStoreAtHome s = execSubbyteStoreAtHome s := rfl
@[simp] theorem exec_pushGranuleWrite (s : State) : exec .pushGranuleWrite s = execPushGranuleWrite s := rfl
@[simp] theorem exec_callatArrival (s : State) : exec .callatArrival s = execCallatArrival s := rfl
@[simp] theorem exec_sendArrival (s : State) : exec .sendArrival s = execSendArrival s := rfl
@[simp] theorem exec_jarvArrival (s : State) : exec .jarvArrival s = execJarvArrival s := rfl
@[simp] theorem exec_handlerLockLapse (s : State) : exec .handlerLockLapse s = execHandlerLockLapse s := rfl
@[simp] theorem exec_slotSelect (s : State) : exec .slotSelect s = execSlotSelect s := rfl
@[simp] theorem exec_forcedSwitch (s : State) : exec .forcedSwitch s = execForcedSwitch s := rfl
@[simp] theorem exec_stealAttempt (s : State) : exec .stealAttempt s = execStealAttempt s := rfl
@[simp] theorem exec_stealGrantArrival (s : State) : exec .stealGrantArrival s = execStealGrantArrival s := rfl
@[simp] theorem exec_stealTimeout (s : State) : exec .stealTimeout s = execStealTimeout s := rfl
@[simp] theorem exec_stealBackoffExpiry (s : State) : exec .stealBackoffExpiry s = execStealBackoffExpiry s := rfl
@[simp] theorem exec_budgetExhausted (s : State) : exec .budgetExhausted s = execBudgetExhausted s := rfl
@[simp] theorem exec_weightReturn (s : State) : exec .weightReturn s = execWeightReturn s := rfl
@[simp] theorem exec_serialNoticeArrival (s : State) : exec .serialNoticeArrival s = execSerialNoticeArrival s := rfl
@[simp] theorem exec_notify (s : State) : exec .notify s = execNotify s := rfl
@[simp] theorem exec_queueMap (s : State) : exec .queueMap s = execQueueMap s := rfl
@[simp] theorem exec_launchStart (s : State) : exec .launchStart s = execLaunchStart s := rfl
@[simp] theorem exec_queueIdleUnmap (s : State) : exec .queueIdleUnmap s = execQueueIdleUnmap s := rfl
@[simp] theorem exec_queueEvict (s : State) : exec .queueEvict s = execQueueEvict s := rfl
@[simp] theorem exec_qctlCreate (s : State) : exec .qctlCreate s = execQctlCreate s := rfl
@[simp] theorem exec_qctlDisable (s : State) : exec .qctlDisable s = execQctlDisable s := rfl
@[simp] theorem exec_qctlDestroy (s : State) : exec .qctlDestroy s = execQctlDestroy s := rfl
@[simp] theorem exec_completionPost (s : State) : exec .completionPost s = execCompletionPost s := rfl
@[simp] theorem exec_clockNoticeSend (s : State) : exec .clockNoticeSend s = execClockNoticeSend s := rfl
@[simp] theorem exec_clockNoticeArrival (s : State) : exec .clockNoticeArrival s = execClockNoticeArrival s := rfl
@[simp] theorem exec_translationShootdown (s : State) : exec .translationShootdown s = execTranslationShootdown s := rfl
@[simp] theorem exec_ownershipChange (s : State) : exec .ownershipChange s = execOwnershipChange s := rfl
@[simp] theorem exec_engineCommandStart (s : State) : exec .engineCommandStart s = execEngineCommandStart s := rfl
@[simp] theorem exec_engineCommandComplete (s : State) : exec .engineCommandComplete s = execEngineCommandComplete s := rfl
@[simp] theorem exec_deferredFault (s : State) : exec .deferredFault s = execDeferredFault s := rfl
@[simp] theorem exec_carderRegistration (s : State) : exec .carderRegistration s = execCarderRegistration s := rfl
@[simp] theorem exec_fullerCompaction (s : State) : exec .fullerCompaction s = execFullerCompaction s := rfl
@[simp] theorem exec_scrubCheck (s : State) : exec .scrubCheck s = execScrubCheck s := rfl
@[simp] theorem exec_rposNotice (s : State) : exec .rposNotice s = execRposNotice s := rfl
@[simp] theorem exec_egressWrite (s : State) : exec .egressWrite s = execEgressWrite s := rfl
@[simp] theorem exec_replyDoorbell (s : State) : exec .replyDoorbell s = execReplyDoorbell s := rfl
@[simp] theorem exec_replyDeliver (s : State) : exec .replyDeliver s = execReplyDeliver s := rfl
@[simp] theorem exec_handlerBudgetExpiry (s : State) : exec .handlerBudgetExpiry s = execHandlerBudgetExpiry s := rfl
@[simp] theorem exec_launchClearComplete (s : State) : exec .launchClearComplete s = execLaunchClearComplete s := rfl
@[simp] theorem exec_collContributionArrival (s : State) : exec .collContributionArrival s = execCollContributionArrival s := rfl
@[simp] theorem exec_collWatchdogExpiry (s : State) : exec .collWatchdogExpiry s = execCollWatchdogExpiry s := rfl
@[simp] theorem exec_collAbandonArrival (s : State) : exec .collAbandonArrival s = execCollAbandonArrival s := rfl
@[simp] theorem exec_ckptBarrierTimeout (s : State) : exec .ckptBarrierTimeout s = execCkptBarrierTimeout s := rfl
@[simp] theorem exec_deviceRecovery (s : State) : exec .deviceRecovery s = execDeviceRecovery s := rfl
@[simp] theorem exec_flitReplay (s : State) : exec .flitReplay s = execFlitReplay s := rfl
@[simp] theorem exec_powerEstimate (s : State) : exec .powerEstimate s = execPowerEstimate s := rfl
@[simp] theorem exec_thermalThrottle (s : State) : exec .thermalThrottle s = execThermalThrottle s := rfl
@[simp] theorem exec_thermalStop (s : State) : exec .thermalStop s = execThermalStop s := rfl
@[simp] theorem exec_moduleReset (s : State) : exec .moduleReset s = execModuleReset s := rfl
@[simp] theorem exec_getVersion (s : State) : exec .getVersion s = execGetVersion s := rfl
@[simp] theorem exec_getCapabilities (s : State) : exec .getCapabilities s = execGetCapabilities s := rfl
@[simp] theorem exec_negotiateAlgorithms (s : State) : exec .negotiateAlgorithms s = execNegotiateAlgorithms s := rfl
@[simp] theorem exec_getDigests (s : State) : exec .getDigests s = execGetDigests s := rfl
@[simp] theorem exec_getCertificate (s : State) : exec .getCertificate s = execGetCertificate s := rfl
@[simp] theorem exec_challenge (s : State) : exec .challenge s = execChallenge s := rfl
@[simp] theorem exec_getMeasurements (s : State) : exec .getMeasurements s = execGetMeasurements s := rfl
@[simp] theorem exec_keyExchange (s : State) : exec .keyExchange s = execKeyExchange s := rfl
@[simp] theorem exec_finish (s : State) : exec .finish s = execFinish s := rfl
@[simp] theorem exec_endSession (s : State) : exec .endSession s = execEndSession s := rfl
@[simp] theorem exec_heartbeat (s : State) : exec .heartbeat s = execHeartbeat s := rfl
@[simp] theorem exec_illegalInstruction (s : State) : exec .illegalInstruction s = execIllegalInstruction s := rfl
@[simp] theorem exec_fetchFault (s : State) : exec .fetchFault s = execFetchFault s := rfl
@[simp] theorem exec_stealRequestAtVictim (s : State) : exec .stealRequestAtVictim s = execStealRequestAtVictim s := rfl
@[simp] theorem exec_writeAcknowledgement (s : State) : exec .writeAcknowledgement s = execWriteAcknowledgement s := rfl
@[simp] theorem exec_hostWindowAccess (s : State) : exec .hostWindowAccess s = execHostWindowAccess s := rfl
@[simp] theorem exec_contextCreate (s : State) : exec .contextCreate s = execContextCreate s := rfl
@[simp] theorem exec_contextEnd (s : State) : exec .contextEnd s = execContextEnd s := rfl
@[simp] theorem exec_keyPairDelivery (s : State) : exec .keyPairDelivery s = execKeyPairDelivery s := rfl

end Sys2Proof.Machine
end

