-- ==== Sys2Proof/Laws/Issue.lean ====
section
/-! SUPPORT. What the shared operations of issue do: performing, reading a source, writing a result, and the forms of one, two and three sources. -/

namespace Sys2Proof.Machine

/-! Performing -/

theorem perform_ready {s : State} (h : s.Ready) (body : State → Run) : perform s body = settleRun s (body s) := by
  simp [perform, h.1, h.2]

theorem perform_false {s : State} (h : s.me.live = true) (hc : s.cond = some false) (body : State → Run) :
    perform s body = .next s.passed := by
  simp [perform, h, hc, State.passed]

theorem perform_pending {s : State} (h : s.me.live = true) (hc : s.cond = none) (body : State → Run) :
    perform s body = .next (s.blockSlot s.focusU s.focusK) := by
  simp [perform, h, hc]

theorem performSeq_ok {s t : State} (h : s.Ready) {body : State → Run} (hb : body s = .ok t) :
    performSeq s body = .next t.passed := by
  simp [performSeq, perform_ready h, hb, settleRun, State.passed]

theorem performSeq_error {s : State} (h : s.Ready) {body : State → Run} {e : Stop} (hb : body s = .error e) :
    performSeq s body = settleRun s (.error e) := by
  simp [performSeq, perform_ready h, hb]

/-- A trap raised by an instruction's effect is taken at the strand that stands there. -/
theorem performSeq_trap {s : State} (h : s.Ready) {body : State → Run} {t : Trap} (hb : body s = .error (.trap t)) :
    performSeq s body = .next (s.trapHere t) := by rw [performSeq_error h hb]; rfl

/-- An effect that must wait blocks the strand in its slot. -/
theorem performSeq_block {s : State} (h : s.Ready) {body : State → Run} (hb : body s = .error (.block none)) :
    performSeq s body = .next (s.blockSlot s.focusU s.focusK) := by rw [performSeq_error h hb]; rfl

/-- Whatever an instruction's effect is, performing it for a strand that stands there answers a next state. -/
theorem settleRun_next (s : State) (r : Run) : ∃ t, settleRun s r = .next t := by
  unfold settleRun; split <;> exact ⟨_, rfl⟩

theorem perform_answers {s : State} (h : s.me.live = true) (body : State → Run) : ∃ t, perform s body = .next t := by
  simp only [perform, h, if_true]
  split
  · exact ⟨_, rfl⟩
  · exact ⟨_, rfl⟩
  · exact settleRun_next _ _

theorem performBranch_answers {s : State} (h : s.me.live = true) (o : Opd) (f : State → Except Stop (Nat × State)) :
    ∃ t, performBranch s o f = .next t := by
  simp only [performBranch, h, if_true]
  split
  · exact ⟨_, rfl⟩
  · exact ⟨_, rfl⟩
  · exact settleRun_next _ _

/-! Sources -/

/-- Reading a source changes nothing but the queues of the core in focus: a queue loses the entry read (R44, R255). -/
theorem src_frame {o : Opd} {s t : State} {a : Word} (h : src o s = .ok (a, t)) :
    t = s ∨ ∃ q, t = s.modCore s.focusU fun c => { c with qs := q } := by
  unfold src at h
  repeat' split at h
  all_goals first
    | cases h; exact .inl rfl
    | cases h; exact .inr ⟨_, rfl⟩
    | cases h

theorem src_ir {o : Opd} {s t : State} {a : Word} (h : src o s = .ok (a, t)) : t.ir = s.ir := by
  rcases src_frame h with rfl | ⟨q, rfl⟩ <;> rfl

/-- Reading a source leaves every strand as it was. -/
theorem src_slot {o : Opd} {s t : State} {a : Word} (h : src o s = .ok (a, t)) (u k : Nat) : t.slot u k = s.slot u k := by
  rcases src_frame h with rfl | ⟨q, rfl⟩
  · rfl
  · simp only [State.slot, core_modCore]
    split_ifs with hu
    · subst hu; rfl
    · rfl

/-- What two sources read when the entries they need are there: A, and then B. -/
theorem srcAB_cases {s t : State} {a b : Word} (h : s.ReadsAB a b t) :
    s.Whole [s.ir.a, s.ir.b] ∧ ∃ s1, src s.ir.a s = .ok (a, s1) ∧ src s1.ir.b s1 = .ok (b, t) := by
  simp only [State.ReadsAB, srcAB, whole] at h
  cases hw : s.short [s.ir.a, s.ir.b] with
  | true => simp [hw, bind, Except.bind] at h
  | false =>
    rcases hA : src s.ir.a s with e | ⟨a', s1⟩
    · simp [hw, hA, bind, Except.bind] at h
    · rcases hB : src s1.ir.b s1 with e | ⟨b', s2⟩
      · simp [hw, hA, hB, bind, Except.bind] at h
      · simp [hw, hA, hB, bind, Except.bind, pure, Except.pure] at h
        obtain ⟨rfl, rfl, rfl⟩ := h
        exact ⟨hw, s1, rfl, hB⟩

/-- What three sources read when the entries they need are there: A, B and then D. -/
theorem srcABD_cases {s t : State} {a b d : Word} (h : s.ReadsABD a b d t) :
    s.Whole [s.ir.a, s.ir.b, s.ir.d] ∧ ∃ s1 s2, src s.ir.a s = .ok (a, s1) ∧ src s1.ir.b s1 = .ok (b, s2) ∧
      src s2.ir.d s2 = .ok (d, t) := by
  simp only [State.ReadsABD, srcABD, whole] at h
  cases hw : s.short [s.ir.a, s.ir.b, s.ir.d] with
  | true => simp [hw, bind, Except.bind] at h
  | false =>
    rcases hA : src s.ir.a s with e | ⟨a', s1⟩
    · simp [hw, hA, bind, Except.bind] at h
    · rcases hB : src s1.ir.b s1 with e | ⟨b', s2⟩
      · simp [hw, hA, hB, bind, Except.bind] at h
      · rcases hD : src s2.ir.d s2 with e | ⟨d', s3⟩
        · simp [hw, hA, hB, hD, bind, Except.bind] at h
        · simp [hw, hA, hB, hD, bind, Except.bind, pure, Except.pure] at h
          obtain ⟨rfl, rfl, rfl, rfl⟩ := h
          exact ⟨hw, s1, s2, rfl, hB, hD⟩

theorem srcAB_ir {s t : State} {a b : Word} (h : srcAB s = .ok (a, b, t)) : t.ir = s.ir := by
  obtain ⟨-, s1, hA, hB⟩ := srcAB_cases h
  rw [src_ir hB, src_ir hA]

theorem srcABD_ir {s t : State} {a b d : Word} (h : srcABD s = .ok (a, b, d, t)) : t.ir = s.ir := by
  obtain ⟨-, s1, s2, hA, hB, hD⟩ := srcABD_cases h
  rw [src_ir hD, src_ir hB, src_ir hA]

/-! Sources that are all there (R44) -/

/-- An entry taken from a queue is one of those of its queue and slot, and the others stay. -/
theorem takeEntry_count {q p : Fin 8} {k : Nat} {l r : List QEntry} {v : QVal} (h : takeEntry q k l = some (v, r)) :
    (l.filter fun e => e.q == p && e.slot == k).length =
      (r.filter fun e => e.q == p && e.slot == k).length + if p = q then 1 else 0 := by
  induction l generalizing v r with
  | nil => simp [takeEntry] at h
  | cons e l ih =>
    simp only [takeEntry] at h
    split at h
    · rename_i he
      simp only [Option.some.injEq, Prod.mk.injEq] at h
      obtain ⟨rfl, rfl⟩ := h
      simp only [Bool.and_eq_true, beq_iff_eq] at he
      by_cases hp : p = q
      · subst hp; simp [he.1, he.2]
      · have : ¬ e.q = p := fun c => hp (by rw [← c, he.1])
        simp [this, hp]
    · split at h
      · rename_i v' r' hr
        simp only [Option.some.injEq, Prod.mk.injEq] at h
        obtain ⟨rfl, rfl⟩ := h
        have := ih hr
        by_cases hc : (e.q == p && e.slot == k) = true
        · simp only [List.filter_cons, hc, if_true, List.length_cons, this]; omega
        · simp only [List.filter_cons, hc, this, Bool.false_eq_true, if_false]
      · cases h

/-- A source that reads takes one entry of the queue it names, and none of another (R44). -/
theorem src_entries {o : Opd} {s t : State} {a : Word} (h : src o s = .ok (a, t)) (p : Fin 8) :
    s.entries p = t.entries p + if o = .q p then 1 else 0 := by
  rcases ho : o with _ | _ | _ | i | _ | _ | _ | _ | _ | _ | _
  all_goals subst ho
  all_goals simp only [src] at h
  case q i =>
    split at h
    · cases h
    · rename_i v r hr
      simp only [Except.ok.injEq, Prod.mk.injEq] at h
      obtain ⟨-, rfl⟩ := h
      have hk : (s.modCore s.focusU fun c => { c with qs := r }).here.qs = r := by
        simp [State.here, core_modCore]
      have hf : (s.modCore s.focusU fun c => { c with qs := r }).focusK = s.focusK := rfl
      simp only [State.entries]
      rw [takeEntry_count (p := p) hr, hk, hf]
      by_cases hp : p = i
      · subst hp; simp
      · have : ¬ (Opd.q i = Opd.q p) := fun c => hp (by injection c with c; exact c.symm)
        simp [hp, this]
    · cases h
  all_goals first
    | cases h; simp
    | split at h <;> first | (cases h; simp) | cases h

/-- Two sources that read one after the other found all the entries they need (R44). -/
theorem whole_two {o o' : Opd} {s t u : State} {a b : Word} (ha : src o s = .ok (a, t)) (hb : src o' t = .ok (b, u)) :
    whole [o, o'] s = .ok () := by
  have h : s.short [o, o'] = false := by
    simp only [State.short, List.any_eq_false]
    intro x hx
    split
    · rename_i i
      have h1 := src_entries ha i
      have h2 := src_entries hb i
      simp only [decide_eq_true_eq, not_lt]
      by_cases c1 : o = .q i <;> by_cases c2 : o' = .q i <;> simp [c1, c2] at * <;> omega
    · simp
  simp [whole, h]

theorem whole_one {o : Opd} {s t : State} {a : Word} (ha : src o s = .ok (a, t)) : whole [o] s = .ok () := by
  have h : s.short [o] = false := by
    simp only [State.short, List.any_eq_false]
    intro x hx
    split
    · rename_i i
      have h1 := src_entries ha i
      simp only [decide_eq_true_eq, not_lt]
      by_cases c1 : o = .q i <;> simp [c1] at * <;> omega
    · simp
  simp [whole, h]

/-! Results -/

theorem dst_room {t : State} (h : t.Room) (lat : Nat) (v : Word) : dst t.ir.d lat v t = .ok (t.put lat v) := by
  simp only [State.Room] at h
  simp only [dst, h, if_true, State.put]
  cases destReg t.ir.d <;> rfl

theorem dst_full {t : State} (h : t.destRoom t.ir.d = false) (lat : Nat) (v : Word) : dst t.ir.d lat v t = .error .hold := by
  simp [dst, h]

/-! The forms of one, two and three sources -/

theorem unary_next {s t : State} {a : Word} (h : s.Ready) (hs : s.ReadsA a t) (hr : t.Room) (lat : Nat) (f : Nat → Nat) :
    unary s lat f = .next (t.put lat (word (f a.toNat))).passed := by
  refine performSeq_ok h ?_
  simp only [State.ReadsA] at hs
  simp [hs, bind, Except.bind, dst_room hr]

theorem binary_next {s t : State} {a b : Word} (h : s.Ready) (hs : s.ReadsAB a b t) (hr : t.Room) (lat : Nat)
    (f : Nat → Nat → Nat) : binary s lat f = .next (t.put lat (word (f a.toNat b.toNat))).passed := by
  refine performSeq_ok h ?_
  simp only [State.ReadsAB] at hs
  simp [hs, bind, Except.bind, dst_room hr]

theorem ternary_next {s t : State} {a b d : Word} (h : s.Ready) (hs : s.ReadsABD a b d t) (hr : t.Room) (lat : Nat)
    (f : Nat → Nat → Nat → Nat) : ternary s lat f = .next (t.put lat (word (f d.toNat a.toNat b.toNat))).passed := by
  refine performSeq_ok h ?_
  simp only [State.ReadsABD] at hs
  simp [hs, bind, Except.bind, dst_room hr]

theorem addInto_next {s t : State} {a b d : Word} (h : s.Ready) (hs : s.ReadsDAB a b d t) (hr : t.Room) (lat : Nat)
    (f : Nat → Nat → Nat → Nat) : addInto s lat f = .next (t.put lat (word (f d.toNat a.toNat b.toNat))).passed := by
  refine performSeq_ok h ?_
  simp only [State.ReadsDAB] at hs
  simp [hs, bind, Except.bind, dst_room hr]

theorem compare_next {s t : State} {a b : Word} (h : s.Ready) (hs : s.ReadsAB a b t) (hr : t.Room)
    (f : Word → Word → Bool) : compare s f = .next (t.put 1 (ofBool (f a b))).passed := by
  refine performSeq_ok h ?_
  simp only [State.ReadsAB] at hs
  simp only [hs, bind, Except.bind, dstGuard, dst_room hr]
  cases f a b <;> rfl

/-! Commands -/

/-- A queue with room takes a command (R248). -/
theorem accept_took {s : State} {q : Nat} (h : s.Accepting q) {x : Cmd} (hx : queueOf x.engine = q) :
    accept x s = .ok (s.took x) := by
  have : ¬ 2 ≤ (s.here.queued q).length := by have := h.2.2.2.2; omega
  simp [accept, h.2.2.2.1, hx, this, State.took]

/-- A command form whose effect is its acceptance completes. -/
theorem performCmd_took {s t : State} {q : Nat} (h : s.Accepting q) {f : Option (Fin 8 × Bool) → State → Run}
    (hf : f s.boundTo s = .ok t) : performCmd s f = .next t.passed := by
  unfold performCmd
  obtain ⟨h1, h2, h3, -⟩ := h
  simp only [State.boundTo] at hf
  cases hc : s.cond with
  | none => simp only [hc] at hf; simp [h1, h3, failIf, bind, Except.bind, pure, Except.pure, settleRun, State.passed, hf]
  | some b => cases b with
    | false => exact absurd hc h2
    | true => simp only [hc] at hf; simp [h1, h3, failIf, bind, Except.bind, pure, Except.pure, settleRun, State.passed, hf]

end Sys2Proof.Machine
end

