-- ==== Sys2Proof/Laws/Landing.lean ====
section
/-! SUPPORT. What queues give when read, and what results leave when they land. -/

namespace Sys2Proof.Machine

theorem takeEntry_append {q : Fin 8} {k : Nat} {l m : List QEntry} {v : QVal} (h : ∀ e ∈ l, ¬ (e.q = q ∧ e.slot = k)) :
    takeEntry q k (l ++ ⟨q, k, v⟩ :: m) = some (v, l ++ m) := by
  induction l with
  | nil => simp [takeEntry]
  | cons e l ih =>
    have := h e (by simp)
    simp only [List.cons_append, takeEntry]
    rw [ih (fun e he => h e (by simp [he]))]
    simp_all

theorem takeEntry_none {q : Fin 8} {k : Nat} {l : List QEntry} (h : ∀ e ∈ l, ¬ (e.q = q ∧ e.slot = k)) :
    takeEntry q k l = none := by
  induction l with
  | nil => simp [takeEntry]
  | cons e l ih =>
    have := h e (by simp)
    simp only [takeEntry]
    rw [ih (fun e he => h e (by simp [he]))]
    simp_all

theorem settled_le (l : List Landing) : ∀ n, n ≤ l.foldl (fun n l => max n l.at_) n := by
  induction l with
  | nil => intro n; exact le_rfl
  | cons a l ih => intro n; exact le_trans (le_max_left _ _) (ih _)

theorem settled_mem (l : List Landing) : ∀ n, ∀ x ∈ l, x.at_ ≤ l.foldl (fun n l => max n l.at_) n := by
  induction l with
  | nil => intro n x hx; cases hx
  | cons a l ih =>
    intro n x hx; simp at hx; rcases hx with rfl | hx
    · exact le_trans (le_max_right _ _) (settled_le _ _)
    · exact ih _ x hx

theorem dropWhile_sorted (l : List Landing) (n : Nat) (h : l.Pairwise (fun a b => a.at_ ≤ b.at_)) :
   l.dropWhile (fun l => decide (l.at_ ≤ n)) = l.filter (fun l => decide (n < l.at_)) := by
  induction l with
  | nil => rfl
  | cons a l ih =>
    rw [List.pairwise_cons] at h
    by_cases ha : a.at_ ≤ n
    · simp [ha, Nat.not_lt.2 ha, ih h.2]
    · have : ∀ b ∈ l, n < b.at_ := fun b hb => by have := h.1 b hb; omega
      simp [ha, Nat.lt_of_not_le ha]
      exact (List.filter_eq_self.2 (by simpa using this)).symm

theorem takeWhile_sorted (l : List Landing) (n : Nat) (h : l.Pairwise (fun a b => a.at_ ≤ b.at_)) :
   l.takeWhile (fun l => decide (l.at_ ≤ n)) = l.filter (fun l => decide (l.at_ ≤ n)) := by
  induction l with
  | nil => rfl
  | cons a l ih =>
    rw [List.pairwise_cons] at h
    by_cases ha : a.at_ ≤ n
    · simp [ha, ih h.2]
    · have : ∀ b ∈ l, n < b.at_ := fun b hb => by have := h.1 b hb; omega
      simp [ha]
      intro b hb; exact this b hb

theorem landOne_slot {c : Core} {k : Nat} (hk : k < c.slots.length) (l : Landing) :
    (c.landOne k l).slot k = (c.slot k).landOne l ∧ (c.landOne k l).slots.length = c.slots.length := by
  unfold Core.landOne
  have e : (c.setSlot k ((c.slot k).landOne l)).slot k = (c.slot k).landOne l := by simp [Core.slot_setSlot, hk]
  have e2 : (c.setSlot k ((c.slot k).landOne l)).slots.length = c.slots.length := by simp
  dsimp only
  split
  · split
    · exact ⟨e, e2⟩
    · exact ⟨e, e2⟩
  · exact ⟨e, e2⟩
  · exact ⟨e, e2⟩

theorem landList_slot {k : Nat} (ls : List Landing) : ∀ {c : Core}, k < c.slots.length →
    (Core.landList c k ls).slot k = ls.foldl Slot.landOne (c.slot k) := by
  induction ls with
  | nil => intro c _; rfl
  | cons l ls ih =>
    intro c hk
    have := landOne_slot hk l
    simp only [Core.landList, List.foldl_cons]
    rw [ih (by omega), this.1]

theorem foldl_inflight (ls : List Landing) : ∀ sl : Slot, (ls.foldl Slot.landOne sl).inflight = sl.inflight := by
  induction ls with
  | nil => intro _; rfl
  | cons l ls ih => intro sl; simp only [List.foldl_cons, ih]; unfold Slot.landOne; split <;> rfl

theorem land_slot {c : Core} {k : Nat} (hk : k < c.slots.length) :
    (c.land k).slot k = ((c.slot k).inflight.takeWhile fun l => decide (l.at_ ≤ c.cyc)).foldl Slot.landOne
      { c.slot k with inflight := (c.slot k).inflight.dropWhile fun l => decide (l.at_ ≤ c.cyc) } := by
  simp only [Core.land]
  rw [landList_slot _ (by simpa using hk)]
  simp [Core.slot_setSlot, hk]

theorem foldl_x (ls : List Landing) (i : Fin 16) : ∀ sl : Slot, (ls.foldl Slot.landOne sl).st.x[i] =
    ((ls.filter fun l => l.reg == .x i).getLast?.map (·.val)).getD sl.st.x[i] := by
  induction ls using List.reverseRecOn with
  | nil => intro sl; simp
  | append_singleton ls l ih =>
    intro sl
    simp only [List.foldl_append, List.foldl_cons, List.foldl_nil, List.filter_append]
    by_cases h : l.reg = .x i
    · obtain ⟨n, r, v⟩ := l
      simp only at h; subst h
      simp [Slot.landOne]
    · have e : ([l].filter fun l => l.reg == .x i) = [] := by simp [h]
      rw [e, List.append_nil, ← ih]
      obtain ⟨n, r, v⟩ := l
      unfold Slot.landOne
      cases r <;> try rfl
      · rename_i j
        have hj : j ≠ i := fun e => h (by simp [e])
        have hj : (j : Nat) ≠ (i : Nat) := fun e => hj (Fin.ext e)
        simp [hj]
      · simp [Strand.setGuard]; split <;> rfl

end Sys2Proof.Machine
end

