-- ==== Sys2Proof/Laws/Frame.lean ====
section
/-! SUPPORT. What an instruction that only issues and writes D leaves unchanged: the frame of each operation of issue. -/

namespace Sys2Proof.Machine

/-! What issue may change, put out of sight -/

/-- A slot without its PC, its results in flight and the marks of an issue. -/
def Slot.still (sl : Slot) : Slot :=
  { sl with st := { sl.st with pc := 0 }, inflight := [], mode := .empty, blocked := false, readyAt := 0, lastIssue := 0,
            run := 0, answer := none, asked := false, long := none, hand := none, changed := 0, taken := [] }

/-- A core without its slots, its queues, its turns and its counters. -/
def Core.still (c : Core) : Core := { c with slots := [], qs := [], holder := 0, turns := 0, counters := [] }

/-- A state without its cores, the counters of barns and loft cores, and the count of free values used. -/
def State.still (s : State) : State := { s with cores := [], barns := [], lofts := [], fresh := 0 }

/-- A state that differs from another in what issue may change, and that holds a strand where the other does. -/
structure Quiet (s t : State) : Prop where
  rest : t.still = s.still
  barns : ∀ b, (t.barn b).sessions = (s.barn b).sessions ∧ (t.barn b).line = (s.barn b).line
  cores : ∀ u, u ≠ s.focusU → t.core u = s.core u
  slots : ∀ k, k ≠ s.focusK → t.slot s.focusU k = s.slot s.focusU k
  core : t.here.still = s.here.still
  queues : t.here.qs.Sublist s.here.qs
  slot : t.me.still = s.me.still
  live : s.me.live = true → t.me.live = true

namespace Quiet

variable {s t : State}

/-- Whatever does not depend on cores and counters is as before. -/
theorem keeps {α : Type} (h : Quiet s t) (g : State → α) : g t.still = g s.still := congrArg g h.rest

theorem focusU (h : Quiet s t) : t.focusU = s.focusU := h.keeps State.focusU
theorem focusK (h : Quiet s t) : t.focusK = s.focusK := h.keeps State.focusK
theorem ir (h : Quiet s t) : t.ir = s.ir := h.keeps State.ir

/-- The strand but its PC. -/
theorem strand (h : Quiet s t) : t.st = { s.st with pc := t.st.pc } := by
  have : ({ t.me.still.st with pc := t.st.pc } : Strand) = { s.me.still.st with pc := t.st.pc } := by rw [h.slot]
  exact this

theorem sameMemory (h : Quiet s t) : s.SameMemory t := by
  refine ⟨fun p => h.keeps (State.byte · p), fun p => h.keeps (State.isFull · p), fun p => h.keeps (State.tag · p), ?_⟩
  exact ⟨h.keeps State.poison, h.keeps State.seals, h.keeps State.hostMem⟩

theorem elsewhere (h : Quiet s t) : s.SameElsewhere t := by
  have := h.rest
  simp only [State.still, State.mk.injEq] at this
  have hm := h.sameMemory
  have hc := h.cores
  have hb := h.barns
  unfold State.SameElsewhere
  simp_all only [ne_eq, not_false_eq_true, implies_true, and_self]

theorem sameCore (h : Quiet s t) : s.SameCore t := by
  have hc := h.core
  have hs := h.slots
  have hq := h.queues
  simp only [Core.still, Core.mk.injEq] at hc
  simp_all only [State.SameCore, and_self, ne_eq, not_false_eq_true, implies_true]

/-- The frame of a slot, given where PC and the results in flight have come to. -/
theorem sameSlot (h : Quiet s t) (hp : t.st.pc = s.st.pc + 12)
    (hi : ∀ l ∈ t.me.inflight, l ∈ s.me.inflight ∨ destReg s.ir.d = some l.reg) : s.SameSlot t := by
  have hst := h.strand
  rw [hp] at hst
  have hs := h.slot
  simp only [Slot.still, Slot.mk.injEq] at hs
  unfold State.SameSlot
  refine ⟨hst, ?_⟩
  clear hst
  simp only [hs, true_and]
  exact hi

end Quiet

theorem Quiet.refl (s : State) : Quiet s s :=
  ⟨rfl, fun _ => ⟨rfl, rfl⟩, fun _ _ => rfl, fun _ _ => rfl, rfl, List.Sublist.refl _, rfl, id⟩

theorem Quiet.trans {s t u : State} (h : Quiet s t) (k : Quiet t u) : Quiet s u where
  rest := k.rest.trans h.rest
  barns b := ⟨(k.barns b).1.trans (h.barns b).1, (k.barns b).2.trans (h.barns b).2⟩
  cores v hv := (k.cores v (by rw [h.focusU]; exact hv)).trans (h.cores v hv)
  slots j hj := by
    have := k.slots j (by rw [h.focusK]; exact hj)
    rw [h.focusU] at this
    exact this.trans (h.slots j hj)
  core := k.core.trans h.core
  queues := k.queues.trans h.queues
  slot := k.slot.trans h.slot
  live x := k.live (h.live x)

/-- A change of the slot in focus that keeps what issue keeps. -/
theorem Quiet.modMe {s : State} (h : s.me.live = true) {f : Slot → Slot} (hf : (f s.me).still = s.me.still)
    (hl : (f s.me).live = true) : Quiet s (s.modMe f) where
  rest := rfl
  barns _ := ⟨rfl, rfl⟩
  cores _ hu := core_setMe_ne hu _
  slots _ hk := slot_setMe_ne hk _
  core := by simp only [State.modMe, here_setMe]; rfl
  queues := by simp only [State.modMe, here_setMe]; exact List.Sublist.refl _
  slot := by rw [me_modMe h]; exact hf
  live _ := by rw [me_modMe h]; exact hl

/-- A change of the core in focus that keeps all but the turn's holder, the turns, the counters and queue entries read. -/
theorem Quiet.modCore {s : State} {f : Core → Core} (hs : (f s.here).slots = s.here.slots)
    (hc : (f s.here).still = s.here.still) (hq : (f s.here).qs.Sublist s.here.qs) : Quiet s (s.modCore s.focusU f) := by
  have e : (s.modCore s.focusU f).here = f s.here := by simp [State.here, core_modCore]
  have em : ∀ k, (s.modCore s.focusU f).slot s.focusU k = s.slot s.focusU k := fun k => by
    show (s.modCore s.focusU f).here.slot k = s.here.slot k
    rw [e, Core.slot, hs]; rfl
  have es : (s.modCore s.focusU f).me = s.me := em s.focusK
  exact {
    rest := rfl
    barns := fun _ => ⟨rfl, rfl⟩
    cores := fun u hu => by simp [core_modCore, hu]
    slots := fun k _ => em k
    core := by rw [e]; exact hc
    queues := by rw [e]; exact hq
    slot := by rw [es]
    live := by rw [es]; exact id }

theorem barn_setBarn (s : State) (b a : Nat) (x : Barn) : (s.setBarn b x).barn a = if a = b then x else s.barn a := by
  unfold State.barn State.setBarn
  simp only [kget_kput]
  split <;> rfl

/-- A record of a barn's counters alone replaced. -/
theorem Quiet.setBarn {s : State} {b : Nat} {x : Barn} (h1 : x.sessions = (s.barn b).sessions)
    (h2 : x.line = (s.barn b).line) : Quiet s (s.setBarn b x) :=
  { Quiet.refl s with
    rest := rfl
    barns := fun a => by rw [barn_setBarn]; split <;> simp_all }

theorem Quiet.setLofts (s : State) (l : List (Nat × CounterSet)) : Quiet s { s with lofts := l } :=
  { Quiet.refl s with rest := rfl }

/-- Counting an event of the core in focus changes counters alone (R403). -/
theorem Quiet.count {s : State} {u : Nat} (hu : u = s.focusU) (ctx : BitVec 12) (code n : Nat) :
    Quiet s (s.count u ctx code n) := by
  subst hu
  have h : Quiet s (s.modCore s.focusU fun c => { c with counters := c.counters.map (bumpOne code n) }) :=
    Quiet.modCore rfl rfl (List.Sublist.refl _)
  unfold State.count
  dsimp only
  split
  · exact h.trans (Quiet.setBarn rfl rfl)
  · split
    · split
      · exact h.trans (Quiet.setLofts _ _)
      · exact h
    · exact h

theorem Quiet.turn {s : State} {u : Nat} (hu : u = s.focusU) : Quiet s (s.turn u) := by
  subst hu
  have h : Quiet s (s.modCore s.focusU fun c => { c with turns := c.turns + 1 }) :=
    Quiet.modCore rfl rfl (List.Sublist.refl _)
  exact h.trans (Quiet.count rfl _ _ _)

theorem Slot.issued_live {sl : Slot} (h : sl.live = true) (c g : Nat) : (sl.issued c g).live = true := by
  cases hm : sl.mode <;> simp_all [Slot.live, Slot.issued]

theorem Slot.rest_live {sl : Slot} (h : sl.live = true) : sl.rest.live = true := by
  unfold Slot.rest
  split
  · unfold Slot.live; dsimp only; split <;> rfl
  · exact h

theorem Slot.rest_still (sl : Slot) : sl.rest.still = sl.still := by unfold Slot.rest; split <;> rfl

theorem Quiet.issued {s : State} (h : s.me.live = true) (c g : Nat) : Quiet s (s.modMe fun sl => sl.issued c g) :=
  Quiet.modMe h rfl (Slot.issued_live h c g)

theorem Quiet.switchAway {s : State} (h : s.me.live = true) : Quiet s (s.modMe Slot.switchAway) := Quiet.modMe h rfl h

/-- The strand that rests after a long load or blocking form, or merely switches away. -/
theorem Quiet.resting {s : State} (h : s.me.live = true) : Quiet s (s.modMe fun sl => sl.switchAway.rest) :=
  Quiet.modMe h (Slot.rest_still _) (Slot.rest_live h)

theorem Quiet.advance {s : State} (h : s.me.live = true) : Quiet s s.advance :=
  Quiet.modMe (f := fun sl => { sl with st := { sl.st with pc := sl.st.pc + 12 } }) h rfl h

theorem Quiet.delay {s : State} (h : s.me.live = true) (n : Nat) : Quiet s (s.delay n) := Quiet.modMe h rfl h

theorem Quiet.draw (s : State) : Quiet s s.draw.2 := { Quiet.refl s with rest := rfl }

/-- What a branch leaves of its strand's next issue changes nothing else (R34). -/
theorem Quiet.redirect {s : State} (h : s.me.live = true) (n : Nat) (anew : Bool) : Quiet s (s.redirect n anew) := by
  unfold State.redirect
  split
  · exact Quiet.draw s
  · have hd := Quiet.delay h n
    exact (hd.trans (Quiet.modMe (hd.live h) rfl (hd.live h))).trans (Quiet.draw _)

theorem Quiet.fly {s : State} (h : s.me.live = true) (lat : Nat) (r : RegName) (v : Word) : Quiet s (s.fly lat r v) :=
  Quiet.modMe h rfl h

theorem Quiet.put {s : State} (h : s.me.live = true) (lat : Nat) (v : Word) : Quiet s (s.put lat v) := by
  unfold State.put
  split
  · exact Quiet.fly h _ _ _
  · exact Quiet.refl s

theorem Quiet.passTurn {s : State} {u k : Nat} (hu : u = s.focusU) : Quiet s (s.modCore u fun c => c.passTurn k) := by
  subst hu
  have e : ∃ g : Core → Nat, (fun c => Core.passTurn c k) = fun c => { c with holder := g c } :=
    ⟨fun c => if c.holder = k then c.nextHolder k else c.holder, by
      funext c; unfold Core.passTurn; by_cases h : c.holder = k <;> simp [h]⟩
  obtain ⟨g, e⟩ := e
  rw [e]
  exact Quiet.modCore rfl rfl (List.Sublist.refl _)

/-- Taking entries from the queues of the core in focus. -/
theorem Quiet.read {s : State} {q : List QEntry} (h : q.Sublist s.here.qs) :
    Quiet s (s.modCore s.focusU fun c => { c with qs := q }) :=
  Quiet.modCore rfl rfl h

theorem Quiet.finish {s : State} (h : s.me.live = true) : Quiet s s.finish := by
  unfold State.finish
  dsimp only
  have h1 := Quiet.issued h s.cyc s.ir.hd.gap.val
  have h2 := h1.trans (Quiet.turn rfl)
  split
  · have h3 := h2.trans (Quiet.resting (h2.live h))
    exact (h3.trans (Quiet.count rfl _ _ _)).trans (Quiet.passTurn rfl)
  · exact h2

theorem Quiet.passed {s : State} (h : s.me.live = true) : Quiet s s.passed :=
  (Quiet.advance h).trans (Quiet.finish ((Quiet.advance h).live h))

/-! The slot after an issue -/

theorem slot_modCore {s : State} {v : Nat} {f : Core → Core} (h : ∀ c, (f c).slots = c.slots) (u k : Nat) :
    (s.modCore v f).slot u k = s.slot u k := by
  simp only [State.slot, State.modCore, core_setCore]
  split
  · rename_i e; subst e; simp only [Core.slot, h]
  · rfl

theorem me_modCore {s : State} {v : Nat} {f : Core → Core} (h : ∀ c, (f c).slots = c.slots) : (s.modCore v f).me = s.me :=
  slot_modCore h _ _

theorem slot_setBarn (s : State) (b : Nat) (x : Barn) (u k : Nat) : (s.setBarn b x).slot u k = s.slot u k := rfl

theorem slot_setLofts (s : State) (l : List (Nat × CounterSet)) (u k : Nat) :
    State.slot { s with lofts := l } u k = s.slot u k := rfl

theorem slot_count (s : State) (v : Nat) (ctx : BitVec 12) (code n u k : Nat) :
    (s.count v ctx code n).slot u k = s.slot u k := by
  have h : (s.modCore v fun c => { c with counters := c.counters.map (bumpOne code n) }).slot u k = s.slot u k := by
    apply slot_modCore; intro c; rfl
  unfold State.count
  dsimp only
  split
  · rw [slot_setBarn, h]
  · split
    · split
      · rw [slot_setLofts, h]
      · rw [h]
    · rw [h]

@[simp] theorem focusU_count (s : State) (v : Nat) (ctx : BitVec 12) (code n : Nat) :
    (s.count v ctx code n).focusU = s.focusU := by
  unfold State.count; dsimp only; repeat' split
  all_goals rfl

@[simp] theorem focusK_count (s : State) (v : Nat) (ctx : BitVec 12) (code n : Nat) :
    (s.count v ctx code n).focusK = s.focusK := by
  unfold State.count; dsimp only; repeat' split
  all_goals rfl

theorem me_count (s : State) (v : Nat) (ctx : BitVec 12) (code n : Nat) : (s.count v ctx code n).me = s.me := by
  simp only [State.me, focusU_count, focusK_count, slot_count]

theorem me_turn (s : State) (u : Nat) : (s.turn u).me = s.me := by
  unfold State.turn
  rw [me_count]
  apply me_modCore; intro c; rfl

theorem me_passTurn (s : State) (u k : Nat) : (s.modCore u fun c => c.passTurn k).me = s.me :=
  slot_modCore (fun c => by unfold Core.passTurn; split <;> rfl) _ _

/-- The slot in focus after an issue: the marks of the issue, and a switch away when one is due (R32, R33). -/
theorem me_finish {s : State} (h : s.me.live = true) : ∃ f : Slot → Slot, (f = id ∨ f = fun sl => sl.switchAway.rest) ∧
    s.finish.me = f (s.me.issued s.cyc s.ir.hd.gap.val) := by
  have h1 := Quiet.issued h s.cyc s.ir.hd.gap.val
  have h2 := h1.trans (Quiet.turn rfl)
  unfold State.finish
  dsimp only
  split
  · refine ⟨_, .inr rfl, ?_⟩
    rw [me_passTurn, me_count, me_modMe (h2.live h), me_turn, me_modMe h]
  · refine ⟨_, .inl rfl, ?_⟩
    rw [me_turn, me_modMe h]; rfl

theorem finish_pc {s : State} (h : s.me.live = true) : s.finish.st = s.st ∧ s.finish.me.inflight = s.me.inflight := by
  obtain ⟨f, hf, e⟩ := me_finish h
  simp only [State.st, e]
  rcases hf with rfl | rfl
  · exact ⟨rfl, rfl⟩
  · unfold Slot.rest; dsimp only; split <;> exact ⟨rfl, rfl⟩

/-- PC at the next word, and the results in flight as they were, after an issue in sequence (R40). -/
theorem passed_pc {s : State} (h : s.me.live = true) :
    s.passed.st.pc = s.st.pc + 12 ∧ s.passed.me.inflight = s.me.inflight := by
  have h1 := finish_pc ((Quiet.advance h).live h)
  have e : s.advance.me = { s.me with st := { s.me.st with pc := s.me.st.pc + 12 } } := me_modSt h _
  refine ⟨?_, ?_⟩
  · rw [State.passed, h1.1, State.st, e]; rfl
  · rw [State.passed, h1.2, e]

theorem mem_addLanding {l m : Landing} : ∀ ls : List Landing, m ∈ addLanding ls l → m ∈ ls ∨ m = l
  | [], h => .inr (by simpa [addLanding] using h)
  | k :: ks, h => by
    unfold addLanding at h
    split at h
    · rcases List.mem_cons.1 h with h | h
      · exact .inr h
      · exact .inl h
    · rcases List.mem_cons.1 h with h | h
      · exact .inl (by simp [h])
      · rcases mem_addLanding ks h with h | h
        · exact .inl (by simp [h])
        · exact .inr h

/-- Only the register D names has a result on its way to it that was not there before. -/
theorem put_inflight {s : State} (h : s.me.live = true) (lat : Nat) (v : Word) :
    (s.put lat v).st = s.st ∧
      ∀ l ∈ (s.put lat v).me.inflight, l ∈ s.me.inflight ∨ destReg s.ir.d = some l.reg := by
  unfold State.put
  split
  · rename_i r hr
    have e : (s.fly lat r v).me = _ := me_modMe h _
    simp only [State.st, e, true_and]
    intro l hl
    rcases mem_addLanding _ hl with hl | rfl
    · exact .inl hl
    · exact .inr hr
  · exact ⟨rfl, fun l hl => .inl hl⟩

/-- The frame of an instruction that reads queue entries at most, writes D and passes on. -/
theorem frame_put {s t : State} (h : s.me.live = true) (ht : Quiet s t) (hp : t.me = s.me) (lat : Nat) (v : Word) :
    s.SameElsewhere (t.put lat v).passed ∧ s.SameCore (t.put lat v).passed ∧ s.SameSlot (t.put lat v).passed := by
  have hl := ht.live h
  have q := (ht.trans (Quiet.put hl lat v)).trans (Quiet.passed ((Quiet.put hl lat v).live hl))
  have hi := put_inflight hl lat v
  have hc := passed_pc ((Quiet.put hl lat v).live hl)
  have e : t.st = s.st := congrArg Slot.st hp
  refine ⟨q.elsewhere, q.sameCore, q.sameSlot ?_ ?_⟩
  · rw [hc.1, hi.1, e]
  · intro l hm
    rw [hc.2] at hm
    have := hi.2 l hm
    rwa [hp, ht.ir] at this

theorem src_quiet {o : Opd} {s t : State} {a : Word} (h : src o s = .ok (a, t)) : Quiet s t ∧ t.me = s.me := by
  have sub : ∀ q k (es : List QEntry) v r, takeEntry q k es = some (v, r) → r.Sublist es := by
    intro q k es
    induction es with
    | nil => intro v r h; simp [takeEntry] at h
    | cons e es ih =>
      intro v r h
      unfold takeEntry at h
      split at h
      · cases h; exact List.sublist_cons_self _ _
      · split at h
        · rename_i v' r' h'
          cases h
          exact (ih _ _ h').cons_cons _
        · cases h
  unfold src at h
  repeat' split at h
  all_goals first
    | (cases h; exact ⟨Quiet.refl _, rfl⟩)
    | (cases h; done)
    | skip
  rename_i hq
  cases h
  exact ⟨Quiet.read (sub _ _ _ _ _ hq), by apply me_modCore; intro c; rfl⟩

/-! Forms that read registers and write D -/

/-- What a form that reads sources and writes D comes to: its result on the way, or a stop that leaves nothing behind. -/
def WritesD (s : State) (r : Run) : Prop :=
  match r with
  | .ok u => ∃ t, Quiet s t ∧ t.me = s.me ∧ (u = t ∨ ∃ lat v, u = t.put lat v)
  | .error (.trap _ o) => o = none
  | .error (.block o) => o = none
  | .error .hold => True

/-- A stop of a source, which leaves nothing behind. -/
theorem src_stop {o : Opd} {s : State} {e : Stop} (h : src o s = .error e) : WritesD s (.error e) := by
  have hr : ∀ (r : VReg) e, r.read = .error e → WritesD s (.error e) := by
    intro r e he; unfold VReg.read at he; split at he
    · cases he
    · cases he; rfl
  unfold src at h
  repeat' split at h
  all_goals first
    | (cases h; done)
    | (cases h; rfl)
    | skip
  all_goals (cases h; rename_i he; exact hr _ _ he)

/-- A stop after entries have been read leaves what was there before. -/
theorem WritesD.error_of {s t : State} {e : Stop} (h : WritesD t (.error e)) : WritesD s (.error e) := by
  unfold WritesD at *
  split <;> simp_all

theorem dst_writes {s t : State} (ht : Quiet s t) (hm : t.me = s.me) (lat : Nat) (v : Word) :
    WritesD s (dst t.ir.d lat v t) := by
  by_cases hr : t.destRoom t.ir.d = true
  · rw [dst_room hr]; exact ⟨t, ht, hm, .inr ⟨lat, v, rfl⟩⟩
  · rw [dst_full (by simpa using hr)]; trivial

/-- A source read, and what follows. -/
theorem bind_writes {s t : State} (ht : Quiet s t) (hm : t.me = s.me) (o : Opd) {f : Word × State → Run}
    (hf : ∀ a u, Quiet s u → u.me = s.me → WritesD s (f (a, u))) : WritesD s (src o t >>= f) := by
  rcases e : src o t with x | ⟨a, u⟩
  · exact WritesD.error_of (src_stop e)
  · have := src_quiet e
    exact hf a u (ht.trans this.1) (this.2.trans hm)

theorem performSeq_frame {s u : State} (h : s.Ready) {body : State → Run} (hb : WritesD s (body s))
    (he : performSeq s body = .next u) : s.Stopped u ∨ (s.SameElsewhere u ∧ s.SameCore u ∧ s.SameSlot u) := by
  rcases hr : body s with e | t
  · rw [performSeq_error h hr] at he
    rw [hr] at hb
    left
    rcases e with ⟨t, o⟩ | o | _
    · cases (show o = none from hb); cases he; exact .inl ⟨t, rfl⟩
    · cases (show o = none from hb); cases he; exact .inr (.inl rfl)
    · cases he; exact .inr (.inr rfl)
  · rw [performSeq_ok h hr] at he
    cases he
    rw [hr] at hb
    obtain ⟨x, hq, hm, rfl | ⟨lat, v, rfl⟩⟩ := hb
    · right
      have q := hq.trans (Quiet.passed (hq.live h.1))
      have hc := passed_pc (hq.live h.1)
      have e : t.st = s.st := congrArg Slot.st hm
      refine ⟨q.elsewhere, q.sameCore, q.sameSlot ?_ ?_⟩
      · rw [hc.1, e]
      · intro l hl; rw [hc.2, hm] at hl; exact .inl hl
    · exact .inr (frame_put h.1 hq hm lat v)

/-- The entries that sources need are looked at first (R44). -/
theorem whole_writes {s : State} (l : List Opd) {r : Run} (hf : WritesD s r) :
    WritesD s (whole l s >>= fun _ => r) := by
  unfold whole
  split
  · rfl
  · exact hf

theorem srcAB_writes {s : State} {f : Word × Word × State → Run}
    (hf : ∀ a b u, Quiet s u → u.me = s.me → WritesD s (f (a, b, u))) : WritesD s (srcAB s >>= f) := by
  have h : srcAB s >>= f = whole [s.ir.a, s.ir.b] s >>= fun _ =>
      src s.ir.a s >>= fun x => src x.2.ir.b x.2 >>= fun y => f (x.1, y.1, y.2) := by
    simp only [srcAB, bind_assoc, pure_bind]
  rw [h]
  exact whole_writes _ (bind_writes (Quiet.refl s) rfl _ fun a u hu hm =>
    bind_writes hu hm _ fun b v hv hw => hf a b v hv hw)

theorem srcABD_writes {s : State} {f : Word × Word × Word × State → Run}
    (hf : ∀ a b d u, Quiet s u → u.me = s.me → WritesD s (f (a, b, d, u))) : WritesD s (srcABD s >>= f) := by
  have h : srcABD s >>= f = whole [s.ir.a, s.ir.b, s.ir.d] s >>= fun _ =>
      src s.ir.a s >>= fun x => src x.2.ir.b x.2 >>= fun y => src y.2.ir.d y.2 >>= fun z =>
        f (x.1, y.1, z.1, z.2) := by
    simp only [srcABD, bind_assoc, pure_bind]
  rw [h]
  exact whole_writes _ (bind_writes (Quiet.refl s) rfl _ fun a u hu hm =>
    bind_writes hu hm _ fun b v hv hw => bind_writes hv hw _ fun d w hd he => hf a b d w hd he)

theorem srcDAB_writes {s : State} {f : Word × Word × Word × State → Run}
    (hf : ∀ a b d u, Quiet s u → u.me = s.me → WritesD s (f (a, b, d, u))) : WritesD s (srcDAB s >>= f) := by
  have h : srcDAB s >>= f = whole [s.ir.a, s.ir.b, s.ir.d] s >>= fun _ =>
      src s.ir.d s >>= fun z => src z.2.ir.a z.2 >>= fun x => src x.2.ir.b x.2 >>= fun y =>
        f (x.1, y.1, z.1, y.2) := by
    simp only [srcDAB, bind_assoc, pure_bind]
  rw [h]
  exact whole_writes _ (bind_writes (Quiet.refl s) rfl _ fun d u hu hm =>
    bind_writes hu hm _ fun a v hv hw => bind_writes hv hw _ fun b w hd he => hf a b d w hd he)

end Sys2Proof.Machine
end

