-- ==== Sys2Proof/Laws/Memory.lean ====
section
/-! SUPPORT. What a form of class 10 does with its access: the tests, the way to its home and the result (R183, R187, R220 to R231). -/

namespace Sys2Proof.Machine

theorem served_first {s : State} (h : s.Standing) (g : Word → State → Run) (f : State → Run) : served s g f = f s := by
  simp [served, h.2.2.1, h.2.2.2]

theorem ea_of {s t : State} {b : Word} (h : s.ReadsA b t) : ea s = .ok (s.address b, t) := by
  simp only [State.ReadsA] at h
  unfold ea
  simp only [h, bind, Except.bind, pure, Except.pure, src_ir h, State.address]
  congr 2

/-- The tests of a form that is none of the full/empty forms nor `ldd`. -/
theorem locateForm_ok {t : State} {a : Nat} {f : MemForm} {p : Place} (ha : a % f.size = 0) (hf : f.fe = false)
    (hl : locate t t.focusU t.st.ctx a f.kind = .ok p) (hd : (f.op == .decode) = false)
    (hs : f.inSc = true → inScope t.focusU p.home t.ir.sc = true) : locateForm t a f = .ok p := by
  unfold locateForm
  simp only [ha, hf, hl, hd, if_true, bind, Except.bind, pure, Except.pure, Bool.false_and, Bool.false_eq_true, if_false]
  cases hi : f.inSc with
  | false => simp
  | true => simp [hs hi]

theorem releaseWait_ok {t : State} {sc : Scope} (h : t.Released sc) : releaseWait t sc = .ok () := by
  simp [releaseWait, refusedNow, h.1, h.2, earliest]

/-- A fence with nothing left to wait for goes on. -/
theorem fenceWaits_ok {t : State} {sc : Scope} {all : Bool} (h : t.Fenced sc all) : fenceWaits t sc all = .ok () := by
  have : (t.st.refused.filter fun r => inScope t.focusU r.home sc) = [] := by
    simpa [List.filter_eq_nil_iff] using h.2
  simp [fenceWaits, refusedNow, h.1, this, earliest]

theorem routeOf_near {t : State} {p : Place} (h : routeOf t p = .near) : p.near = true := by
  unfold routeOf at h
  cases hp : p.near with
  | true => rfl
  | false =>
    simp only [hp, Bool.false_eq_true, if_false] at h
    split at h <;> simp_all
    split at h <;> cases h

/-- A form whose access is made at issue, through L or as a read at its home: what the access gives is what the form
does. -/
theorem memory_now {s t u v : State} {a : Nat} {f : MemForm} {p : Place} {b : Word}
    {more : List Opd} {build : State → Except Stop (MemForm × State)} {put : Bool → Nat → State → Run}
    (h : s.Standing) (ha : s.ReadsA b u) (hm : whole (s.ir.a :: more) s = .ok ()) (hb : build u = .ok (f, t)) (he : a = s.address b)
    (hl : locateForm t a f = .ok p) (hr : f.rel = true → releaseWait s t.ir.sc = .ok ())
    (hw : (routeOf t p = .near ∧ f.op.takes = false) ∨ (routeOf t p = .home ∧ p.near = false ∧ f.op.plain = true ∧
      sends f p = false ∧ f.op.isSub = false))
    (hg : accessNow f p a put t = .ok v) :
    memory s more build put = .next (if p.near then v else takeBack s v).passed := by
  unfold memory
  rw [perform_ready h.1]
  have hgo : ∀ (r : Run) (w : State), r = .ok w → settleRun s r = .next w := by
    intro r w hr; rw [hr]; rfl
  apply hgo
  simp only [h.2.1, List.isEmpty_nil, if_true, hm, ea_of ha, ← he, hb, hl, bind, Except.bind, pure, Except.pure]
  have hn := @routeOf_near t p
  rcases hw with ⟨hw, hk⟩ | ⟨hw, hn', hk, hs, hi⟩
  · have hn := hn hw
    cases hf : f.rel <;> cases hi : f.op.isSub <;> simp_all [State.passed]
  · cases hf : f.rel <;> simp_all [State.passed]

/-- An access made at issue with nothing of its strand in its way. -/
theorem accessNow_ok {t v : State} {f : MemForm} {p : Place} {a x : Nat} {put : Bool → Nat → State → Run}
    (he : t.early p.home f.op.writes = false) (hp : performFor t t.st.ctx t.st.dep p f.op = .ok (x, v)) :
    accessNow f p a put t = put (!p.near) x (if f.op.replies then v.hear else v) := by
  simp [accessNow, he, hp]

/-! What a home gives -/

theorem performFor_load {t : State} {ctx : BitVec 12} {d : Clock} {p : Place} {n q : Nat} {sg : Bool}
    (h : reach t ctx p n = .ok q) :
    performFor t ctx d p (.load n sg) = .ok (if sg then wrap 64 (sgn (8 * n) ((t.under (p.key t ctx) q n).num q n))
      else (t.under (p.key t ctx) q n).num q n, t) := by
  simp [performFor, performAt, readAt, h, bind, Except.bind, pure, Except.pure, MemOp.writes, MemOp.fills]

theorem performFor_store {t : State} {ctx : BitVec 12} {d : Clock} {p : Place} {n q : Nat} {v : Word}
    (h : reach t ctx p n = .ok q) :
    performFor t ctx d p (.store n v) = .ok (0, ((t.under (p.key t ctx) q n).storeNum true q n v.toNat).learn (dieOf p.home) d) := by
  simp [performFor, performAt, h, bind, Except.bind, pure, Except.pure, MemOp.writes, MemOp.fills]

theorem performFor_atom {t : State} {ctx : BitVec 12} {d : Clock} {p : Place} {n q : Nat} {op : AtomOp} {v : Word}
    (h : reach t ctx p n = .ok q) :
    performFor t ctx d p (.atom op n v) = .ok ((t.under (p.key t ctx) q n).num q n,
      ((t.under (p.key t ctx) q n).storeNum false q n (op.apply (8 * n) ((t.under (p.key t ctx) q n).num q n) (v.toNat % 2 ^ (8 * n)))).learn (dieOf p.home) d) := by
  simp [performFor, performAt, h, bind, Except.bind, pure, Except.pure, MemOp.writes, MemOp.fills]

theorem loadDst_give {t : State} {p : Place} {lat v : Nat} (hr : t.Room) :
    loadDst lat (!p.near) v t = .ok (t.give p lat (word v)) := by
  unfold loadDst State.give
  cases p.near
  · simp only [State.Room] at hr
    simp [dstLong, State.putLong, hr]
  · simp [dst_room hr]

end Sys2Proof.Machine
end

