-- ==== Sys2Proof/Laws/PerInstr.lean ====
section
/-! SUPPORT. Statements made for every constructor of Instr, one lemma each: the opcode of an instruction has ten bits and
stands in the row of the opcode map that bears it (R39, R49, R50); an event of the table of steps has none. -/

namespace Sys2Proof.Laws.OpcodeRow

/-- The opcode of an instruction is a ten-bit code, and the map's row for it bears that code (R49, R50). -/
def Statement (i : Instr) : Prop := ∀ c, i.opc = some c → c < 1024 ∧ (opRow c).map Row.code = some c

/-- What has no opcode has no row to agree with. -/
theorem of_none {i : Instr} (h : i.opc = none) : Statement i := fun c hc => by rw [h] at hc; cases hc

/-- A code checked against its row. -/
theorem of_some {i : Instr} {c : Nat} (h : i.opc = some c) (hr : c < 1024 ∧ (opRow c).map Row.code = some c) : Statement i :=
  fun d hd => by rw [h] at hd; cases hd; exact hr

theorem add (w : Width) : Statement (.add w) := by cases w <;> exact of_some rfl (by decide)
theorem sub (w : Width) : Statement (.sub w) := by cases w <;> exact of_some rfl (by decide)
theorem mul (w : Width) : Statement (.mul w) := by cases w <;> exact of_some rfl (by decide)
theorem mulh (f : IForm) : Statement (.mulh f) := by cases f <;> exact of_some rfl (by decide)
theorem div (f : IForm) : Statement (.div f) := by cases f <;> exact of_some rfl (by decide)
theorem rem (f : IForm) : Statement (.rem f) := by cases f <;> exact of_some rfl (by decide)
theorem min (f : IForm) : Statement (.min f) := by cases f <;> exact of_some rfl (by decide)
theorem max (f : IForm) : Statement (.max f) := by cases f <;> exact of_some rfl (by decide)
theorem adds (f : IForm) : Statement (.adds f) := by cases f <;> exact of_some rfl (by decide)
theorem subs (f : IForm) : Statement (.subs f) := by cases f <;> exact of_some rfl (by decide)
theorem neg (w : Width) : Statement (.neg w) := by cases w <;> exact of_some rfl (by decide)
theorem sext (w : Narrow) : Statement (.sext w) := by cases w <;> exact of_some rfl (by decide)
theorem ceq (w : Wide) : Statement (.ceq w) := by cases w <;> exact of_some rfl (by decide)
theorem cne (w : Wide) : Statement (.cne w) := by cases w <;> exact of_some rfl (by decide)
theorem clt (f : IForm) : Statement (.clt f) := by cases f <;> exact of_some rfl (by decide)
theorem cle (f : IForm) : Statement (.cle f) := by cases f <;> exact of_some rfl (by decide)
theorem mov64Reg : Statement .mov64Reg := of_some rfl (by decide)
theorem mov64LongImm : Statement .mov64LongImm := of_some rfl (by decide)
theorem mov64PcRel : Statement .mov64PcRel := of_some rfl (by decide)
theorem movh64 : Statement .movh64 := of_some rfl (by decide)
theorem and64 : Statement .and64 := of_some rfl (by decide)
theorem or64 : Statement .or64 := of_some rfl (by decide)
theorem xor64 : Statement .xor64 := of_some rfl (by decide)
theorem andn64 : Statement .andn64 := of_some rfl (by decide)
theorem not64 : Statement .not64 := of_some rfl (by decide)
theorem zext (w : Narrow) : Statement (.zext w) := by cases w <;> exact of_some rfl (by decide)
theorem shl (w : Width) : Statement (.shl w) := by cases w <;> exact of_some rfl (by decide)
theorem shr (w : Width) : Statement (.shr w) := by cases w <;> exact of_some rfl (by decide)
theorem sar (w : Width) : Statement (.sar w) := by cases w <;> exact of_some rfl (by decide)
theorem rol (w : Width) : Statement (.rol w) := by cases w <;> exact of_some rfl (by decide)
theorem ror (w : Width) : Statement (.ror w) := by cases w <;> exact of_some rfl (by decide)
theorem popc (w : Width) : Statement (.popc w) := by cases w <;> exact of_some rfl (by decide)
theorem clz (w : Width) : Statement (.clz w) := by cases w <;> exact of_some rfl (by decide)
theorem ctz (w : Width) : Statement (.ctz w) := by cases w <;> exact of_some rfl (by decide)
theorem bext64 : Statement .bext64 := of_some rfl (by decide)
theorem bins64 : Statement .bins64 := of_some rfl (by decide)
theorem bswap64 : Statement .bswap64 := of_some rfl (by decide)
theorem brev64 : Statement .brev64 := of_some rfl (by decide)
theorem padd (l : Lane) : Statement (.padd l) := by cases l <;> exact of_some rfl (by decide)
theorem psub (l : Lane) : Statement (.psub l) := by cases l <;> exact of_some rfl (by decide)
theorem pshl (l : Lane) : Statement (.pshl l) := by cases l <;> exact of_some rfl (by decide)
theorem pshr (l : Lane) : Statement (.pshr l) := by cases l <;> exact of_some rfl (by decide)
theorem psar (l : Lane) : Statement (.psar l) := by cases l <;> exact of_some rfl (by decide)
theorem pmul (l : Lane) : Statement (.pmul l) := by cases l <;> exact of_some rfl (by decide)
theorem brOffset : Statement .brOffset := of_some rfl (by decide)
theorem brRegister : Statement .brRegister := of_some rfl (by decide)
theorem callOffset : Statement .callOffset := of_some rfl (by decide)
theorem callRegister : Statement .callRegister := of_some rfl (by decide)
theorem ret : Statement .ret := of_some rfl (by decide)
theorem pbrOffset : Statement .pbrOffset := of_some rfl (by decide)
theorem pbrRegister : Statement .pbrRegister := of_some rfl (by decide)
theorem gset : Statement .gset := of_some rfl (by decide)
theorem gres : Statement .gres := of_some rfl (by decide)
theorem gand : Statement .gand := of_some rfl (by decide)
theorem gor : Statement .gor := of_some rfl (by decide)
theorem gxor : Statement .gxor := of_some rfl (by decide)
theorem gnot : Statement .gnot := of_some rfl (by decide)
theorem gpend : Statement .gpend := of_some rfl (by decide)
theorem gget : Statement .gget := of_some rfl (by decide)
theorem nop : Statement .nop := of_some rfl (by decide)
theorem addF32 : Statement .addF32 := of_some rfl (by decide)
theorem subF32 : Statement .subF32 := of_some rfl (by decide)
theorem mulF32 : Statement .mulF32 := of_some rfl (by decide)
theorem divF32 : Statement .divF32 := of_some rfl (by decide)
theorem fmaF32 : Statement .fmaF32 := of_some rfl (by decide)
theorem fmsF32 : Statement .fmsF32 := of_some rfl (by decide)
theorem sqrtF32 : Statement .sqrtF32 := of_some rfl (by decide)
theorem rcpF32 : Statement .rcpF32 := of_some rfl (by decide)
theorem rsqF32 : Statement .rsqF32 := of_some rfl (by decide)
theorem exp2F32 : Statement .exp2F32 := of_some rfl (by decide)
theorem log2F32 : Statement .log2F32 := of_some rfl (by decide)
theorem minF32 : Statement .minF32 := of_some rfl (by decide)
theorem maxF32 : Statement .maxF32 := of_some rfl (by decide)
theorem absF32 : Statement .absF32 := of_some rfl (by decide)
theorem negF32 : Statement .negF32 := of_some rfl (by decide)
theorem ceqF32 : Statement .ceqF32 := of_some rfl (by decide)
theorem cltF32 : Statement .cltF32 := of_some rfl (by decide)
theorem cleF32 : Statement .cleF32 := of_some rfl (by decide)
theorem cunF32 : Statement .cunF32 := of_some rfl (by decide)
theorem classF32 : Statement .classF32 := of_some rfl (by decide)
theorem cvtF32FromInt (f : IForm) : Statement (.cvtF32FromInt f) := by cases f <;> exact of_some rfl (by decide)
theorem cvtIntFromF32 (f : IForm) : Statement (.cvtIntFromF32 f) := by cases f <;> exact of_some rfl (by decide)
theorem cvtF32F16 : Statement .cvtF32F16 := of_some rfl (by decide)
theorem cvtF16F32 : Statement .cvtF16F32 := of_some rfl (by decide)
theorem cvtF32Bf16 : Statement .cvtF32Bf16 := of_some rfl (by decide)
theorem cvtBf16F32 : Statement .cvtBf16F32 := of_some rfl (by decide)
theorem cvtF32B8 : Statement .cvtF32B8 := of_some rfl (by decide)
theorem cvtB8F32 : Statement .cvtB8F32 := of_some rfl (by decide)
theorem ld (w : Width) : Statement (.ld w) := by cases w <;> exact of_some rfl (by decide)
theorem lds (w : Narrow) : Statement (.lds w) := by cases w <;> exact of_some rfl (by decide)
theorem ldp128 : Statement .ldp128 := of_some rfl (by decide)
theorem st (w : Width) : Statement (.st w) := by cases w <;> exact of_some rfl (by decide)
theorem st4 : Statement .st4 := of_some rfl (by decide)
theorem st2 : Statement .st2 := of_some rfl (by decide)
theorem stp128 : Statement .stp128 := of_some rfl (by decide)
theorem ldd : Statement .ldd := of_some rfl (by decide)
theorem ldAcq (w : Wide) : Statement (.ldAcq w) := by cases w <;> exact of_some rfl (by decide)
theorem stRel (w : Wide) : Statement (.stRel w) := by cases w <;> exact of_some rfl (by decide)
theorem amadd (w : Wide) (od : Ord) : Statement (.amadd w od) := by cases w <;> cases od <;> exact of_some rfl (by decide)
theorem amin (sg : Sgn) (od : Ord) : Statement (.amin sg od) := by cases sg <;> cases od <;> exact of_some rfl (by decide)
theorem amax (sg : Sgn) (od : Ord) : Statement (.amax sg od) := by cases sg <;> cases od <;> exact of_some rfl (by decide)
theorem aand (od : Ord) : Statement (.aand od) := by cases od <;> exact of_some rfl (by decide)
theorem aor (od : Ord) : Statement (.aor od) := by cases od <;> exact of_some rfl (by decide)
theorem axor (od : Ord) : Statement (.axor od) := by cases od <;> exact of_some rfl (by decide)
theorem aswap (od : Ord) : Statement (.aswap od) := by cases od <;> exact of_some rfl (by decide)
theorem acas (w : Wide) (od : Ord) : Statement (.acas w od) := by cases w <;> cases od <;> exact of_some rfl (by decide)
theorem fenceAcq : Statement .fenceAcq := of_some rfl (by decide)
theorem fenceRel : Statement .fenceRel := of_some rfl (by decide)
theorem fence : Statement .fence := of_some rfl (by decide)
theorem fenceTotal : Statement .fenceTotal := of_some rfl (by decide)
theorem ldfC (w : Wide) : Statement (.ldfC w) := by cases w <;> exact of_some rfl (by decide)
theorem ldfK (w : Wide) : Statement (.ldfK w) := by cases w <;> exact of_some rfl (by decide)
theorem stf (w : Wide) : Statement (.stf w) := by cases w <;> exact of_some rfl (by decide)
theorem sete : Statement .sete := of_some rfl (by decide)
theorem setf : Statement .setf := of_some rfl (by decide)
theorem tfe : Statement .tfe := of_some rfl (by decide)
theorem bdecl : Statement .bdecl := of_some rfl (by decide)
theorem bstat : Statement .bstat := of_some rfl (by decide)
theorem bfill : Statement .bfill := of_some rfl (by decide)
theorem bpub : Statement .bpub := of_some rfl (by decide)
theorem bdrain : Statement .bdrain := of_some rfl (by decide)
theorem bfree : Statement .bfree := of_some rfl (by decide)
theorem hrd : Statement .hrd := of_some rfl (by decide)
theorem hwr : Statement .hwr := of_some rfl (by decide)
theorem push : Statement .push := of_some rfl (by decide)
theorem push2d : Statement .push2d := of_some rfl (by decide)
theorem pushFill : Statement .pushFill := of_some rfl (by decide)
theorem hpf : Statement .hpf := of_some rfl (by decide)
theorem keysel : Statement .keysel := of_some rfl (by decide)
theorem hfence : Statement .hfence := of_some rfl (by decide)
theorem fork : Statement .fork := of_some rfl (by decide)
theorem done : Statement .done := of_some rfl (by decide)
theorem callat : Statement .callat := of_some rfl (by decide)
theorem send : Statement .send := of_some rfl (by decide)
theorem jinit : Statement .jinit := of_some rfl (by decide)
theorem jarv : Statement .jarv := of_some rfl (by decide)
theorem wmint : Statement .wmint := of_some rfl (by decide)
theorem gform : Statement .gform := of_some rfl (by decide)
theorem gleave : Statement .gleave := of_some rfl (by decide)
theorem barArv : Statement .barArv := of_some rfl (by decide)
theorem barDrop : Statement .barDrop := of_some rfl (by decide)
theorem barWait : Statement .barWait := of_some rfl (by decide)
theorem barQry : Statement .barQry := of_some rfl (by decide)
theorem hset : Statement .hset := of_some rfl (by decide)
theorem hlock : Statement .hlock := of_some rfl (by decide)
theorem hunlock : Statement .hunlock := of_some rfl (by decide)
theorem sdom : Statement .sdom := of_some rfl (by decide)
theorem vadd : Statement .vadd := of_some rfl (by decide)
theorem vsub : Statement .vsub := of_some rfl (by decide)
theorem vmul : Statement .vmul := of_some rfl (by decide)
theorem vdiv : Statement .vdiv := of_some rfl (by decide)
theorem vfma : Statement .vfma := of_some rfl (by decide)
theorem vmin : Statement .vmin := of_some rfl (by decide)
theorem vmax : Statement .vmax := of_some rfl (by decide)
theorem vabs : Statement .vabs := of_some rfl (by decide)
theorem vneg : Statement .vneg := of_some rfl (by decide)
theorem vrcp : Statement .vrcp := of_some rfl (by decide)
theorem vrsq : Statement .vrsq := of_some rfl (by decide)
theorem vexp2 : Statement .vexp2 := of_some rfl (by decide)
theorem vand : Statement .vand := of_some rfl (by decide)
theorem vor : Statement .vor := of_some rfl (by decide)
theorem vxor : Statement .vxor := of_some rfl (by decide)
theorem vnot : Statement .vnot := of_some rfl (by decide)
theorem vshl : Statement .vshl := of_some rfl (by decide)
theorem vshr : Statement .vshr := of_some rfl (by decide)
theorem vsar : Statement .vsar := of_some rfl (by decide)
theorem vceq : Statement .vceq := of_some rfl (by decide)
theorem vcne : Statement .vcne := of_some rfl (by decide)
theorem vclt : Statement .vclt := of_some rfl (by decide)
theorem vcle : Statement .vcle := of_some rfl (by decide)
theorem vsel : Statement .vsel := of_some rfl (by decide)
theorem vmov : Statement .vmov := of_some rfl (by decide)
theorem vbcast : Statement .vbcast := of_some rfl (by decide)
theorem vcvt : Statement .vcvt := of_some rfl (by decide)
theorem vld : Statement .vld := of_some rfl (by decide)
theorem vst : Statement .vst := of_some rfl (by decide)
theorem vldd : Statement .vldd := of_some rfl (by decide)
theorem vpush : Statement .vpush := of_some rfl (by decide)
theorem vpop : Statement .vpop := of_some rfl (by decide)
theorem vrsum : Statement .vrsum := of_some rfl (by decide)
theorem vrmax : Statement .vrmax := of_some rfl (by decide)
theorem vtrn : Statement .vtrn := of_some rfl (by decide)
theorem vshf : Statement .vshf := of_some rfl (by decide)
theorem mand : Statement .mand := of_some rfl (by decide)
theorem mor : Statement .mor := of_some rfl (by decide)
theorem mxor : Statement .mxor := of_some rfl (by decide)
theorem mnot : Statement .mnot := of_some rfl (by decide)
theorem mset : Statement .mset := of_some rfl (by decide)
theorem mclr : Statement .mclr := of_some rfl (by decide)
theorem mld : Statement .mld := of_some rfl (by decide)
theorem mst : Statement .mst := of_some rfl (by decide)
theorem mAny : Statement .mAny := of_some rfl (by decide)
theorem mPopc : Statement .mPopc := of_some rfl (by decide)
theorem mFirst : Statement .mFirst := of_some rfl (by decide)
theorem mmaB8 : Statement .mmaB8 := of_some rfl (by decide)
theorem mmaF16 : Statement .mmaF16 := of_some rfl (by decide)
theorem mmaBf16 : Statement .mmaBf16 := of_some rfl (by decide)
theorem mzero : Statement .mzero := of_some rfl (by decide)
theorem acld : Statement .acld := of_some rfl (by decide)
theorem acst : Statement .acst := of_some rfl (by decide)
theorem acmv : Statement .acmv := of_some rfl (by decide)
theorem rstat : Statement .rstat := of_some rfl (by decide)
theorem cpy : Statement .cpy := of_some rfl (by decide)
theorem cpyFill : Statement .cpyFill := of_some rfl (by decide)
theorem cpy2d : Statement .cpy2d := of_some rfl (by decide)
theorem cpyGth : Statement .cpyGth := of_some rfl (by decide)
theorem crdOpen : Statement .crdOpen := of_some rfl (by decide)
theorem crdDig : Statement .crdDig := of_some rfl (by decide)
theorem crdWdig : Statement .crdWdig := of_some rfl (by decide)
theorem crdPlane : Statement .crdPlane := of_some rfl (by decide)
theorem crdElim : Statement .crdElim := of_some rfl (by decide)
theorem crdRes : Statement .crdRes := of_some rfl (by decide)
theorem crdWait : Statement .crdWait := of_some rfl (by decide)
theorem crdClose : Statement .crdClose := of_some rfl (by decide)
theorem kvNew : Statement .kvNew := of_some rfl (by decide)
theorem kvDrop : Statement .kvDrop := of_some rfl (by decide)
theorem kvApp : Statement .kvApp := of_some rfl (by decide)
theorem kvLen : Statement .kvLen := of_some rfl (by decide)
theorem kvRef : Statement .kvRef := of_some rfl (by decide)
theorem kvCut : Statement .kvCut := of_some rfl (by decide)
theorem lfArm : Statement .lfArm := of_some rfl (by decide)
theorem lfTop : Statement .lfTop := of_some rfl (by decide)
theorem lfSum : Statement .lfSum := of_some rfl (by decide)
theorem lfEnd : Statement .lfEnd := of_some rfl (by decide)
theorem stopSet : Statement .stopSet := of_some rfl (by decide)
theorem stopClr : Statement .stopClr := of_some rfl (by decide)
theorem trOpen : Statement .trOpen := of_some rfl (by decide)
theorem trCall : Statement .trCall := of_some rfl (by decide)
theorem trPut : Statement .trPut := of_some rfl (by decide)
theorem trConf : Statement .trConf := of_some rfl (by decide)
theorem trMiss : Statement .trMiss := of_some rfl (by decide)
theorem trClose : Statement .trClose := of_some rfl (by decide)
theorem trQry : Statement .trQry := of_some rfl (by decide)
theorem trLim : Statement .trLim := of_some rfl (by decide)
theorem emit : Statement .emit := of_some rfl (by decide)
theorem dtNode : Statement .dtNode := of_some rfl (by decide)
theorem dtAccept : Statement .dtAccept := of_some rfl (by decide)
theorem dtReset : Statement .dtReset := of_some rfl (by decide)
theorem trap : Statement .trap := of_some rfl (by decide)
theorem brk : Statement .brk := of_some rfl (by decide)
theorem tret : Statement .tret := of_some rfl (by decide)
theorem lkill : Statement .lkill := of_some rfl (by decide)
theorem tvset : Statement .tvset := of_some rfl (by decide)
theorem frset : Statement .frset := of_some rfl (by decide)
theorem suspendDrain : Statement .suspendDrain := of_some rfl (by decide)
theorem suspendRecord : Statement .suspendRecord := of_some rfl (by decide)
theorem resume : Statement .resume := of_some rfl (by decide)
theorem ccopy : Statement .ccopy := of_some rfl (by decide)
theorem cdisc : Statement .cdisc := of_some rfl (by decide)
theorem cinsp : Statement .cinsp := of_some rfl (by decide)
theorem gthaw : Statement .gthaw := of_some rfl (by decide)
theorem crights : Statement .crights := of_some rfl (by decide)
theorem collSmp : Statement .collSmp := of_some rfl (by decide)
theorem collRed : Statement .collRed := of_some rfl (by decide)
theorem ckptSave : Statement .ckptSave := of_some rfl (by decide)
theorem ckptCommit : Statement .ckptCommit := of_some rfl (by decide)
theorem ecntSel : Statement .ecntSel := of_some rfl (by decide)
theorem ecntRd : Statement .ecntRd := of_some rfl (by decide)
theorem keyWrite : Statement .keyWrite := of_some rfl (by decide)
theorem budWrite : Statement .budWrite := of_some rfl (by decide)
theorem brmodeWrite : Statement .brmodeWrite := of_some rfl (by decide)
theorem vshapeWrite : Statement .vshapeWrite := of_some rfl (by decide)
theorem mxcfgWrite : Statement .mxcfgWrite := of_some rfl (by decide)
theorem registerWrite : Statement .registerWrite := of_some rfl (by decide)
theorem migrantArrival : Statement (.migrantArrival) := of_none rfl
theorem stayRequestAtHome : Statement (.stayRequestAtHome) := of_none rfl
theorem replyArrival : Statement (.replyArrival) := of_none rfl
theorem forwardingEntryLapse : Statement (.forwardingEntryLapse) := of_none rfl
theorem subbyteStoreAtHome : Statement (.subbyteStoreAtHome) := of_none rfl
theorem pushGranuleWrite : Statement (.pushGranuleWrite) := of_none rfl
theorem callatArrival : Statement (.callatArrival) := of_none rfl
theorem sendArrival : Statement (.sendArrival) := of_none rfl
theorem jarvArrival : Statement (.jarvArrival) := of_none rfl
theorem handlerLockLapse : Statement (.handlerLockLapse) := of_none rfl
theorem slotSelect : Statement (.slotSelect) := of_none rfl
theorem forcedSwitch : Statement (.forcedSwitch) := of_none rfl
theorem stealAttempt : Statement (.stealAttempt) := of_none rfl
theorem stealGrantArrival : Statement (.stealGrantArrival) := of_none rfl
theorem stealTimeout : Statement (.stealTimeout) := of_none rfl
theorem stealBackoffExpiry : Statement (.stealBackoffExpiry) := of_none rfl
theorem budgetExhausted : Statement (.budgetExhausted) := of_none rfl
theorem weightReturn : Statement (.weightReturn) := of_none rfl
theorem serialNoticeArrival : Statement (.serialNoticeArrival) := of_none rfl
theorem notify : Statement (.notify) := of_none rfl
theorem queueMap : Statement (.queueMap) := of_none rfl
theorem launchStart : Statement (.launchStart) := of_none rfl
theorem queueIdleUnmap : Statement (.queueIdleUnmap) := of_none rfl
theorem queueEvict : Statement (.queueEvict) := of_none rfl
theorem qctlCreate : Statement (.qctlCreate) := of_none rfl
theorem qctlDisable : Statement (.qctlDisable) := of_none rfl
theorem qctlDestroy : Statement (.qctlDestroy) := of_none rfl
theorem completionPost : Statement (.completionPost) := of_none rfl
theorem clockNoticeSend : Statement (.clockNoticeSend) := of_none rfl
theorem clockNoticeArrival : Statement (.clockNoticeArrival) := of_none rfl
theorem translationShootdown : Statement (.translationShootdown) := of_none rfl
theorem ownershipChange : Statement (.ownershipChange) := of_none rfl
theorem engineCommandStart : Statement (.engineCommandStart) := of_none rfl
theorem engineCommandComplete : Statement (.engineCommandComplete) := of_none rfl
theorem deferredFault : Statement (.deferredFault) := of_none rfl
theorem carderRegistration : Statement (.carderRegistration) := of_none rfl
theorem fullerCompaction : Statement (.fullerCompaction) := of_none rfl
theorem scrubCheck : Statement (.scrubCheck) := of_none rfl
theorem rposNotice : Statement (.rposNotice) := of_none rfl
theorem egressWrite : Statement (.egressWrite) := of_none rfl
theorem replyDoorbell : Statement (.replyDoorbell) := of_none rfl
theorem replyDeliver : Statement (.replyDeliver) := of_none rfl
theorem handlerBudgetExpiry : Statement (.handlerBudgetExpiry) := of_none rfl
theorem launchClearComplete : Statement (.launchClearComplete) := of_none rfl
theorem collContributionArrival : Statement (.collContributionArrival) := of_none rfl
theorem collWatchdogExpiry : Statement (.collWatchdogExpiry) := of_none rfl
theorem collAbandonArrival : Statement (.collAbandonArrival) := of_none rfl
theorem ckptBarrierTimeout : Statement (.ckptBarrierTimeout) := of_none rfl
theorem deviceRecovery : Statement (.deviceRecovery) := of_none rfl
theorem flitReplay : Statement (.flitReplay) := of_none rfl
theorem powerEstimate : Statement (.powerEstimate) := of_none rfl
theorem thermalThrottle : Statement (.thermalThrottle) := of_none rfl
theorem thermalStop : Statement (.thermalStop) := of_none rfl
theorem moduleReset : Statement (.moduleReset) := of_none rfl
theorem getVersion : Statement (.getVersion) := of_none rfl
theorem getCapabilities : Statement (.getCapabilities) := of_none rfl
theorem negotiateAlgorithms : Statement (.negotiateAlgorithms) := of_none rfl
theorem getDigests : Statement (.getDigests) := of_none rfl
theorem getCertificate : Statement (.getCertificate) := of_none rfl
theorem challenge : Statement (.challenge) := of_none rfl
theorem getMeasurements : Statement (.getMeasurements) := of_none rfl
theorem keyExchange : Statement (.keyExchange) := of_none rfl
theorem finish : Statement (.finish) := of_none rfl
theorem endSession : Statement (.endSession) := of_none rfl
theorem heartbeat : Statement (.heartbeat) := of_none rfl
theorem illegalInstruction : Statement (.illegalInstruction) := of_none rfl
theorem fetchFault : Statement (.fetchFault) := of_none rfl
theorem stealRequestAtVictim : Statement (.stealRequestAtVictim) := of_none rfl
theorem writeAcknowledgement : Statement (.writeAcknowledgement) := of_none rfl
theorem hostWindowAccess : Statement (.hostWindowAccess) := of_none rfl
theorem contextCreate : Statement (.contextCreate) := of_none rfl
theorem contextEnd : Statement (.contextEnd) := of_none rfl
theorem keyPairDelivery : Statement (.keyPairDelivery) := of_none rfl

end Sys2Proof.Laws.OpcodeRow
end

