-- ==== Sys2Proof/Laws/Performs.lean ====
section
/-! SUPPORT. Every row of the opcode map is performed through the shared operations of issue: one lemma for each. -/

namespace Sys2Proof.Machine

/-- A meaning that goes through `perform`, or for a branch through `performBranch`, or for a row of class 11 through
`performCmd` too. -/
def Performs (branch cmd : Bool) (f : State → Host.Outcome State Fault Refusal) : Prop :=
  ∀ s, (branch = false ∧ ∃ b, f s = perform s b) ∨ (branch = true ∧ ∃ o b, f s = performBranch s o b) ∨
    (branch = false ∧ cmd = true ∧ ∃ b, f s = performCmd s b)

theorem performBranch_false {s : State} (h : s.me.live = true) (hc : s.cond = some false) (o : Opd)
    (f : State → Except Stop (Nat × State)) :
    performBranch s o f = .next (s.passed.redirect (s.branchDelay o false) false) := by
  simp [performBranch, h, hc, State.passed]

theorem performBranch_pending {s : State} (h : s.me.live = true) (hc : s.cond = none) (o : Opd)
    (f : State → Except Stop (Nat × State)) : performBranch s o f = .next (s.blockSlot s.focusU s.focusK) := by
  simp [performBranch, h, hc]

theorem performCmd_false {s : State} (h : s.me.live = true) (hc : s.cond = some false)
    (f : Option (Fin 8 × Bool) → State → Run) : performCmd s f = .next s.passed := by
  simp [performCmd, h, hc, State.passed]

theorem performCmd_answers {s : State} (h : s.me.live = true) (f : Option (Fin 8 × Bool) → State → Run) :
    ∃ t, performCmd s f = .next t := by
  simp only [performCmd, h, if_true]
  split
  · exact settleRun_next _ _
  · exact ⟨_, rfl⟩
  · exact settleRun_next _ _

theorem carderCmd_performs (s : State) (make : Option (Fin 8 × Bool) → State → Except Stop Cmd) :
    (false = false ∧ ∃ b, carderCmd s make = perform s b) ∨ (false = true ∧ ∃ o b, carderCmd s make = performBranch s o b) ∨
      (false = false ∧ true = true ∧ ∃ b, carderCmd s make = performCmd s b) := by
  unfold carderCmd
  split
  · exact .inl ⟨rfl, _, rfl⟩
  · exact .inr (.inr ⟨rfl, rfl, _, rfl⟩)

/-- A strand that stands at an instruction always comes to a next state. -/
theorem Performs.answers {branch cmd : Bool} {f : State → Host.Outcome State Fault Refusal} (hf : Performs branch cmd f) {s : State}
    (h : s.me.live = true) : ∃ t, f s = .next t := by
  rcases hf s with ⟨-, b, e⟩ | ⟨-, _, b, e⟩ | ⟨-, -, b, e⟩
  · rw [e]; exact perform_answers h b
  · rw [e]; exact performBranch_answers h _ b
  · rw [e]; exact performCmd_answers h b

theorem execAdd_performs (w : Width) : Performs false false (execAdd w) := by
  intro s; unfold execAdd binary performSeq; exact .inl ⟨rfl, _, rfl⟩
theorem execSub_performs (w : Width) : Performs false false (execSub w) := by
  intro s; unfold execSub binary performSeq; exact .inl ⟨rfl, _, rfl⟩
theorem execMul_performs (w : Width) : Performs false false (execMul w) := by
  intro s; unfold execMul binary performSeq; exact .inl ⟨rfl, _, rfl⟩
theorem execMulh_performs (f : IForm) : Performs false false (execMulh f) := by
  intro s; unfold execMulh binary performSeq; exact .inl ⟨rfl, _, rfl⟩
theorem execDiv_performs (f : IForm) : Performs false false (execDiv f) := by
  intro s; unfold execDiv binary performSeq; exact .inl ⟨rfl, _, rfl⟩
theorem execRem_performs (f : IForm) : Performs false false (execRem f) := by
  intro s; unfold execRem binary performSeq; exact .inl ⟨rfl, _, rfl⟩
theorem execMin_performs (f : IForm) : Performs false false (execMin f) := by
  intro s; unfold execMin binary performSeq; exact .inl ⟨rfl, _, rfl⟩
theorem execMax_performs (f : IForm) : Performs false false (execMax f) := by
  intro s; unfold execMax binary performSeq; exact .inl ⟨rfl, _, rfl⟩
theorem execAdds_performs (f : IForm) : Performs false false (execAdds f) := by
  intro s; unfold execAdds binary performSeq; exact .inl ⟨rfl, _, rfl⟩
theorem execSubs_performs (f : IForm) : Performs false false (execSubs f) := by
  intro s; unfold execSubs binary performSeq; exact .inl ⟨rfl, _, rfl⟩
theorem execNeg_performs (w : Width) : Performs false false (execNeg w) := by
  intro s; unfold execNeg unary performSeq; exact .inl ⟨rfl, _, rfl⟩
theorem execSext_performs (w : Narrow) : Performs false false (execSext w) := by
  intro s; unfold execSext unary performSeq; exact .inl ⟨rfl, _, rfl⟩
theorem execCeq_performs (w : Wide) : Performs false false (execCeq w) := by
  intro s; unfold execCeq compare performSeq; exact .inl ⟨rfl, _, rfl⟩
theorem execCne_performs (w : Wide) : Performs false false (execCne w) := by
  intro s; unfold execCne compare performSeq; exact .inl ⟨rfl, _, rfl⟩
theorem execClt_performs (f : IForm) : Performs false false (execClt f) := by
  intro s; unfold execClt compare performSeq; exact .inl ⟨rfl, _, rfl⟩
theorem execCle_performs (f : IForm) : Performs false false (execCle f) := by
  intro s; unfold execCle compare performSeq; exact .inl ⟨rfl, _, rfl⟩
theorem execMov64Reg_performs : Performs false false execMov64Reg := by
  intro s; unfold execMov64Reg performSeq; exact .inl ⟨rfl, _, rfl⟩
theorem execMov64LongImm_performs : Performs false false execMov64LongImm := by
  intro s; unfold execMov64LongImm performSeq; exact .inl ⟨rfl, _, rfl⟩
theorem execMov64PcRel_performs : Performs false false execMov64PcRel := by
  intro s; unfold execMov64PcRel performSeq; exact .inl ⟨rfl, _, rfl⟩
theorem execMovh64_performs : Performs false false execMovh64 := by
  intro s; unfold execMovh64 performSeq; exact .inl ⟨rfl, _, rfl⟩
theorem execAnd64_performs : Performs false false execAnd64 := by
  intro s; unfold execAnd64 binary performSeq; exact .inl ⟨rfl, _, rfl⟩
theorem execOr64_performs : Performs false false execOr64 := by
  intro s; unfold execOr64 binary performSeq; exact .inl ⟨rfl, _, rfl⟩
theorem execXor64_performs : Performs false false execXor64 := by
  intro s; unfold execXor64 binary performSeq; exact .inl ⟨rfl, _, rfl⟩
theorem execAndn64_performs : Performs false false execAndn64 := by
  intro s; unfold execAndn64 binary performSeq; exact .inl ⟨rfl, _, rfl⟩
theorem execNot64_performs : Performs false false execNot64 := by
  intro s; unfold execNot64 unary performSeq; exact .inl ⟨rfl, _, rfl⟩
theorem execZext_performs (w : Narrow) : Performs false false (execZext w) := by
  intro s; unfold execZext unary performSeq; exact .inl ⟨rfl, _, rfl⟩
theorem execShl_performs (w : Width) : Performs false false (execShl w) := by
  intro s; unfold execShl binary performSeq; exact .inl ⟨rfl, _, rfl⟩
theorem execShr_performs (w : Width) : Performs false false (execShr w) := by
  intro s; unfold execShr binary performSeq; exact .inl ⟨rfl, _, rfl⟩
theorem execSar_performs (w : Width) : Performs false false (execSar w) := by
  intro s; unfold execSar binary performSeq; exact .inl ⟨rfl, _, rfl⟩
theorem execRol_performs (w : Width) : Performs false false (execRol w) := by
  intro s; unfold execRol binary performSeq; exact .inl ⟨rfl, _, rfl⟩
theorem execRor_performs (w : Width) : Performs false false (execRor w) := by
  intro s; unfold execRor binary performSeq; exact .inl ⟨rfl, _, rfl⟩
theorem execPopc_performs (w : Width) : Performs false false (execPopc w) := by
  intro s; unfold execPopc unary performSeq; exact .inl ⟨rfl, _, rfl⟩
theorem execClz_performs (w : Width) : Performs false false (execClz w) := by
  intro s; unfold execClz unary performSeq; exact .inl ⟨rfl, _, rfl⟩
theorem execCtz_performs (w : Width) : Performs false false (execCtz w) := by
  intro s; unfold execCtz unary performSeq; exact .inl ⟨rfl, _, rfl⟩
theorem execBext64_performs : Performs false false execBext64 := by
  intro s; unfold execBext64 binary performSeq; exact .inl ⟨rfl, _, rfl⟩
theorem execBins64_performs : Performs false false execBins64 := by
  intro s; unfold execBins64 ternary performSeq; exact .inl ⟨rfl, _, rfl⟩
theorem execBswap64_performs : Performs false false execBswap64 := by
  intro s; unfold execBswap64 unary performSeq; exact .inl ⟨rfl, _, rfl⟩
theorem execBrev64_performs : Performs false false execBrev64 := by
  intro s; unfold execBrev64 unary performSeq; exact .inl ⟨rfl, _, rfl⟩
theorem execPadd_performs (l : Lane) : Performs false false (execPadd l) := by
  intro s; unfold execPadd binary performSeq; exact .inl ⟨rfl, _, rfl⟩
theorem execPsub_performs (l : Lane) : Performs false false (execPsub l) := by
  intro s; unfold execPsub binary performSeq; exact .inl ⟨rfl, _, rfl⟩
theorem execPshl_performs (l : Lane) : Performs false false (execPshl l) := by
  intro s; unfold execPshl binary performSeq; exact .inl ⟨rfl, _, rfl⟩
theorem execPshr_performs (l : Lane) : Performs false false (execPshr l) := by
  intro s; unfold execPshr binary performSeq; exact .inl ⟨rfl, _, rfl⟩
theorem execPsar_performs (l : Lane) : Performs false false (execPsar l) := by
  intro s; unfold execPsar binary performSeq; exact .inl ⟨rfl, _, rfl⟩
theorem execPmul_performs (l : Lane) : Performs false false (execPmul l) := by
  intro s; unfold execPmul binary performSeq; exact .inl ⟨rfl, _, rfl⟩
theorem execBrOffset_performs : Performs true false execBrOffset := by
  intro s; unfold execBrOffset; exact .inr (.inl ⟨rfl, _, _, rfl⟩)
theorem execBrRegister_performs : Performs true false execBrRegister := by
  intro s; unfold execBrRegister; exact .inr (.inl ⟨rfl, _, _, rfl⟩)
theorem execCallOffset_performs : Performs true false execCallOffset := by
  intro s; unfold execCallOffset; exact .inr (.inl ⟨rfl, _, _, rfl⟩)
theorem execCallRegister_performs : Performs true false execCallRegister := by
  intro s; unfold execCallRegister; exact .inr (.inl ⟨rfl, _, _, rfl⟩)
theorem execRet_performs : Performs true false execRet := by
  intro s; unfold execRet; exact .inr (.inl ⟨rfl, _, _, rfl⟩)
theorem execPbrOffset_performs : Performs false false execPbrOffset := by
  intro s; unfold execPbrOffset performSeq; exact .inl ⟨rfl, _, rfl⟩
theorem execPbrRegister_performs : Performs false false execPbrRegister := by
  intro s; unfold execPbrRegister performSeq; exact .inl ⟨rfl, _, rfl⟩
theorem execGset_performs : Performs false false execGset := by
  intro s; unfold execGset performSeq; exact .inl ⟨rfl, _, rfl⟩
theorem execGres_performs : Performs false false execGres := by
  intro s; unfold execGres performSeq; exact .inl ⟨rfl, _, rfl⟩
theorem execGand_performs : Performs false false execGand := by
  intro s; unfold execGand guardOp performSeq; exact .inl ⟨rfl, _, rfl⟩
theorem execGor_performs : Performs false false execGor := by
  intro s; unfold execGor guardOp performSeq; exact .inl ⟨rfl, _, rfl⟩
theorem execGxor_performs : Performs false false execGxor := by
  intro s; unfold execGxor guardOp performSeq; exact .inl ⟨rfl, _, rfl⟩
theorem execGnot_performs : Performs false false execGnot := by
  intro s; unfold execGnot guardOp performSeq; exact .inl ⟨rfl, _, rfl⟩
theorem execGpend_performs : Performs false false execGpend := by
  intro s; unfold execGpend performSeq; exact .inl ⟨rfl, _, rfl⟩
theorem execGget_performs : Performs false false execGget := by
  intro s; unfold execGget performSeq; exact .inl ⟨rfl, _, rfl⟩
theorem execNop_performs : Performs false false execNop := by
  intro s; unfold execNop performSeq; exact .inl ⟨rfl, _, rfl⟩
theorem execAddF32_performs : Performs false false execAddF32 := by
  intro s; unfold execAddF32 binary32 binary performSeq; exact .inl ⟨rfl, _, rfl⟩
theorem execSubF32_performs : Performs false false execSubF32 := by
  intro s; unfold execSubF32 binary32 binary performSeq; exact .inl ⟨rfl, _, rfl⟩
theorem execMulF32_performs : Performs false false execMulF32 := by
  intro s; unfold execMulF32 binary32 binary performSeq; exact .inl ⟨rfl, _, rfl⟩
theorem execDivF32_performs : Performs false false execDivF32 := by
  intro s; unfold execDivF32 binary32 binary performSeq; exact .inl ⟨rfl, _, rfl⟩
theorem execFmaF32_performs : Performs false false execFmaF32 := by
  intro s; unfold execFmaF32 addInto performSeq; exact .inl ⟨rfl, _, rfl⟩
theorem execFmsF32_performs : Performs false false execFmsF32 := by
  intro s; unfold execFmsF32 addInto performSeq; exact .inl ⟨rfl, _, rfl⟩
theorem execSqrtF32_performs : Performs false false execSqrtF32 := by
  intro s; unfold execSqrtF32 unary32 unary performSeq; exact .inl ⟨rfl, _, rfl⟩
theorem execRcpF32_performs : Performs false false execRcpF32 := by
  intro s; unfold execRcpF32 unary32 unary performSeq; exact .inl ⟨rfl, _, rfl⟩
theorem execRsqF32_performs : Performs false false execRsqF32 := by
  intro s; unfold execRsqF32 unary32 unary performSeq; exact .inl ⟨rfl, _, rfl⟩
theorem execExp2F32_performs : Performs false false execExp2F32 := by
  intro s; unfold execExp2F32 unary32 unary performSeq; exact .inl ⟨rfl, _, rfl⟩
theorem execLog2F32_performs : Performs false false execLog2F32 := by
  intro s; unfold execLog2F32 unary32 unary performSeq; exact .inl ⟨rfl, _, rfl⟩
theorem execMinF32_performs : Performs false false execMinF32 := by
  intro s; unfold execMinF32 binary32 binary performSeq; exact .inl ⟨rfl, _, rfl⟩
theorem execMaxF32_performs : Performs false false execMaxF32 := by
  intro s; unfold execMaxF32 binary32 binary performSeq; exact .inl ⟨rfl, _, rfl⟩
theorem execAbsF32_performs : Performs false false execAbsF32 := by
  intro s; unfold execAbsF32 unary32 unary performSeq; exact .inl ⟨rfl, _, rfl⟩
theorem execNegF32_performs : Performs false false execNegF32 := by
  intro s; unfold execNegF32 unary32 unary performSeq; exact .inl ⟨rfl, _, rfl⟩
theorem execCeqF32_performs : Performs false false execCeqF32 := by
  intro s; unfold execCeqF32 compare32 compare performSeq; exact .inl ⟨rfl, _, rfl⟩
theorem execCltF32_performs : Performs false false execCltF32 := by
  intro s; unfold execCltF32 compare32 compare performSeq; exact .inl ⟨rfl, _, rfl⟩
theorem execCleF32_performs : Performs false false execCleF32 := by
  intro s; unfold execCleF32 compare32 compare performSeq; exact .inl ⟨rfl, _, rfl⟩
theorem execCunF32_performs : Performs false false execCunF32 := by
  intro s; unfold execCunF32 compare32 compare performSeq; exact .inl ⟨rfl, _, rfl⟩
theorem execClassF32_performs : Performs false false execClassF32 := by
  intro s; unfold execClassF32 unary32 unary performSeq; exact .inl ⟨rfl, _, rfl⟩
theorem execCvtF32FromInt_performs (f : IForm) : Performs false false (execCvtF32FromInt f) := by
  intro s; unfold execCvtF32FromInt unary performSeq; exact .inl ⟨rfl, _, rfl⟩
theorem execCvtIntFromF32_performs (f : IForm) : Performs false false (execCvtIntFromF32 f) := by
  intro s; unfold execCvtIntFromF32 unary32 unary performSeq; exact .inl ⟨rfl, _, rfl⟩
theorem execCvtF32F16_performs : Performs false false execCvtF32F16 := by
  intro s; unfold execCvtF32F16 unary performSeq; exact .inl ⟨rfl, _, rfl⟩
theorem execCvtF16F32_performs : Performs false false execCvtF16F32 := by
  intro s; unfold execCvtF16F32 unary32 unary performSeq; exact .inl ⟨rfl, _, rfl⟩
theorem execCvtF32Bf16_performs : Performs false false execCvtF32Bf16 := by
  intro s; unfold execCvtF32Bf16 unary performSeq; exact .inl ⟨rfl, _, rfl⟩
theorem execCvtBf16F32_performs : Performs false false execCvtBf16F32 := by
  intro s; unfold execCvtBf16F32 unary32 unary performSeq; exact .inl ⟨rfl, _, rfl⟩
theorem execCvtF32B8_performs : Performs false false execCvtF32B8 := by
  intro s; unfold execCvtF32B8 convert8 performSeq; exact .inl ⟨rfl, _, rfl⟩
theorem execCvtB8F32_performs : Performs false false execCvtB8F32 := by
  intro s; unfold execCvtB8F32 convert8 performSeq; exact .inl ⟨rfl, _, rfl⟩
theorem execLd_performs (w : Width) : Performs false false (execLd w) := by
  intro s; unfold execLd memory; exact .inl ⟨rfl, _, rfl⟩
theorem execLds_performs (w : Narrow) : Performs false false (execLds w) := by
  intro s; unfold execLds memory; exact .inl ⟨rfl, _, rfl⟩
theorem execLdp128_performs : Performs false false execLdp128 := by
  intro s; unfold execLdp128 memory; exact .inl ⟨rfl, _, rfl⟩
theorem execSt_performs (w : Width) : Performs false false (execSt w) := by
  intro s; unfold execSt memory; exact .inl ⟨rfl, _, rfl⟩
theorem execSt4_performs : Performs false false execSt4 := by
  intro s; unfold execSt4 memory; exact .inl ⟨rfl, _, rfl⟩
theorem execSt2_performs : Performs false false execSt2 := by
  intro s; unfold execSt2 memory; exact .inl ⟨rfl, _, rfl⟩
theorem execStp128_performs : Performs false false execStp128 := by
  intro s; unfold execStp128 memory; exact .inl ⟨rfl, _, rfl⟩
theorem execLdd_performs : Performs false false execLdd := by
  intro s; unfold execLdd memory; exact .inl ⟨rfl, _, rfl⟩
theorem execLdAcq_performs (w : Wide) : Performs false false (execLdAcq w) := by
  intro s; unfold execLdAcq memory; exact .inl ⟨rfl, _, rfl⟩
theorem execStRel_performs (w : Wide) : Performs false false (execStRel w) := by
  intro s; unfold execStRel memory; exact .inl ⟨rfl, _, rfl⟩
theorem execAmadd_performs (w : Wide) (od : Ord) : Performs false false (execAmadd w od) := by
  intro s; unfold execAmadd atomic memory; exact .inl ⟨rfl, _, rfl⟩
theorem execAmin_performs (sg : Sgn) (od : Ord) : Performs false false (execAmin sg od) := by
  intro s; unfold execAmin atomic memory; exact .inl ⟨rfl, _, rfl⟩
theorem execAmax_performs (sg : Sgn) (od : Ord) : Performs false false (execAmax sg od) := by
  intro s; unfold execAmax atomic memory; exact .inl ⟨rfl, _, rfl⟩
theorem execAand_performs (od : Ord) : Performs false false (execAand od) := by
  intro s; unfold execAand atomic memory; exact .inl ⟨rfl, _, rfl⟩
theorem execAor_performs (od : Ord) : Performs false false (execAor od) := by
  intro s; unfold execAor atomic memory; exact .inl ⟨rfl, _, rfl⟩
theorem execAxor_performs (od : Ord) : Performs false false (execAxor od) := by
  intro s; unfold execAxor atomic memory; exact .inl ⟨rfl, _, rfl⟩
theorem execAswap_performs (od : Ord) : Performs false false (execAswap od) := by
  intro s; unfold execAswap atomic memory; exact .inl ⟨rfl, _, rfl⟩
theorem execAcas_performs (w : Wide) (od : Ord) : Performs false false (execAcas w od) := by
  intro s; unfold execAcas memory; exact .inl ⟨rfl, _, rfl⟩
theorem execFenceAcq_performs : Performs false false execFenceAcq := by
  intro s; unfold execFenceAcq performSeq; exact .inl ⟨rfl, _, rfl⟩
theorem execFenceRel_performs : Performs false false execFenceRel := by
  intro s; unfold execFenceRel fenceWait performSeq; exact .inl ⟨rfl, _, rfl⟩
theorem execFence_performs : Performs false false execFence := by
  intro s; unfold execFence fenceWait performSeq; exact .inl ⟨rfl, _, rfl⟩
theorem execFenceTotal_performs : Performs false false execFenceTotal := by
  intro s; unfold execFenceTotal performSeq; exact .inl ⟨rfl, _, rfl⟩
theorem execLdfC_performs (w : Wide) : Performs false false (execLdfC w) := by
  intro s; unfold execLdfC memory; exact .inl ⟨rfl, _, rfl⟩
theorem execLdfK_performs (w : Wide) : Performs false false (execLdfK w) := by
  intro s; unfold execLdfK memory; exact .inl ⟨rfl, _, rfl⟩
theorem execStf_performs (w : Wide) : Performs false false (execStf w) := by
  intro s; unfold execStf memory; exact .inl ⟨rfl, _, rfl⟩
theorem execSete_performs : Performs false false execSete := by
  intro s; unfold execSete memory; exact .inl ⟨rfl, _, rfl⟩
theorem execSetf_performs : Performs false false execSetf := by
  intro s; unfold execSetf memory; exact .inl ⟨rfl, _, rfl⟩
theorem execTfe_performs : Performs false false execTfe := by
  intro s; unfold execTfe memory; exact .inl ⟨rfl, _, rfl⟩
theorem execBdecl_performs : Performs false false execBdecl := by
  intro s; unfold execBdecl performSeq; exact .inl ⟨rfl, _, rfl⟩
theorem execBstat_performs : Performs false false execBstat := by
  intro s; unfold execBstat bufferForm performSeq; exact .inl ⟨rfl, _, rfl⟩
theorem execBfill_performs : Performs false false execBfill := by
  intro s; unfold execBfill bufferEvent bufferForm performSeq; exact .inl ⟨rfl, _, rfl⟩
theorem execBpub_performs : Performs false false execBpub := by
  intro s; unfold execBpub bufferEvent bufferForm performSeq; exact .inl ⟨rfl, _, rfl⟩
theorem execBdrain_performs : Performs false false execBdrain := by
  intro s; unfold execBdrain bufferEvent bufferForm performSeq; exact .inl ⟨rfl, _, rfl⟩
theorem execBfree_performs : Performs false false execBfree := by
  intro s; unfold execBfree bufferEvent bufferForm performSeq; exact .inl ⟨rfl, _, rfl⟩
theorem execHrd_performs : Performs false false execHrd := by
  intro s; unfold execHrd; exact .inl ⟨rfl, _, rfl⟩
theorem execHwr_performs : Performs false false execHwr := by
  intro s; unfold execHwr; exact .inl ⟨rfl, _, rfl⟩
theorem execPush_performs : Performs false false execPush := by
  intro s; unfold execPush performSeq; exact .inl ⟨rfl, _, rfl⟩
theorem execPush2d_performs : Performs false false execPush2d := by
  intro s; unfold execPush2d performSeq; exact .inl ⟨rfl, _, rfl⟩
theorem execPushFill_performs : Performs false false execPushFill := by
  intro s; unfold execPushFill performSeq; exact .inl ⟨rfl, _, rfl⟩
theorem execHpf_performs : Performs false false execHpf := by
  intro s; unfold execHpf performSeq; exact .inl ⟨rfl, _, rfl⟩
theorem execKeysel_performs : Performs false false execKeysel := by
  intro s; unfold execKeysel performSeq; exact .inl ⟨rfl, _, rfl⟩
theorem execHfence_performs : Performs false false execHfence := by
  intro s; unfold execHfence performSeq; exact .inl ⟨rfl, _, rfl⟩
theorem execFork_performs : Performs false false execFork := by
  intro s; unfold execFork performSeq; exact .inl ⟨rfl, _, rfl⟩
theorem execDone_performs : Performs false false execDone := by
  intro s; unfold execDone; exact .inl ⟨rfl, _, rfl⟩
theorem execCallat_performs : Performs false false execCallat := by
  intro s; unfold execCallat performSeq; exact .inl ⟨rfl, _, rfl⟩
theorem execSend_performs : Performs false false execSend := by
  intro s; unfold execSend performSeq; exact .inl ⟨rfl, _, rfl⟩
theorem execJinit_performs : Performs false false execJinit := by
  intro s; unfold execJinit performSeq; exact .inl ⟨rfl, _, rfl⟩
theorem execJarv_performs : Performs false false execJarv := by
  intro s; unfold execJarv performSeq; exact .inl ⟨rfl, _, rfl⟩
theorem execWmint_performs : Performs false false execWmint := by
  intro s; unfold execWmint performSeq; exact .inl ⟨rfl, _, rfl⟩
theorem execGform_performs : Performs false false execGform := by
  intro s; unfold execGform performSeq; exact .inl ⟨rfl, _, rfl⟩
theorem execGleave_performs : Performs false false execGleave := by
  intro s; unfold execGleave performSeq; exact .inl ⟨rfl, _, rfl⟩
theorem execBarArv_performs : Performs false false execBarArv := by
  intro s; unfold execBarArv arrival performSeq; exact .inl ⟨rfl, _, rfl⟩
theorem execBarDrop_performs : Performs false false execBarDrop := by
  intro s; unfold execBarDrop arrival performSeq; exact .inl ⟨rfl, _, rfl⟩
theorem execBarWait_performs : Performs false false execBarWait := by
  intro s; unfold execBarWait performSeq; exact .inl ⟨rfl, _, rfl⟩
theorem execBarQry_performs : Performs false false execBarQry := by
  intro s; unfold execBarQry performSeq; exact .inl ⟨rfl, _, rfl⟩
theorem execHset_performs : Performs false false execHset := by
  intro s; unfold execHset performSeq; exact .inl ⟨rfl, _, rfl⟩
theorem execHlock_performs : Performs false false execHlock := by
  intro s; unfold execHlock performSeq; exact .inl ⟨rfl, _, rfl⟩
theorem execHunlock_performs : Performs false false execHunlock := by
  intro s; unfold execHunlock performSeq; exact .inl ⟨rfl, _, rfl⟩
theorem execSdom_performs : Performs false false execSdom := by
  intro s; unfold execSdom performSeq; exact .inl ⟨rfl, _, rfl⟩
theorem execVadd_performs : Performs false true execVadd := by
  intro s; unfold execVadd; exact .inr (.inr ⟨rfl, rfl, _, rfl⟩)
theorem execVsub_performs : Performs false true execVsub := by
  intro s; unfold execVsub; exact .inr (.inr ⟨rfl, rfl, _, rfl⟩)
theorem execVmul_performs : Performs false true execVmul := by
  intro s; unfold execVmul; exact .inr (.inr ⟨rfl, rfl, _, rfl⟩)
theorem execVdiv_performs : Performs false true execVdiv := by
  intro s; unfold execVdiv; exact .inr (.inr ⟨rfl, rfl, _, rfl⟩)
theorem execVfma_performs : Performs false true execVfma := by
  intro s; unfold execVfma; exact .inr (.inr ⟨rfl, rfl, _, rfl⟩)
theorem execVmin_performs : Performs false true execVmin := by
  intro s; unfold execVmin; exact .inr (.inr ⟨rfl, rfl, _, rfl⟩)
theorem execVmax_performs : Performs false true execVmax := by
  intro s; unfold execVmax; exact .inr (.inr ⟨rfl, rfl, _, rfl⟩)
theorem execVabs_performs : Performs false true execVabs := by
  intro s; unfold execVabs; exact .inr (.inr ⟨rfl, rfl, _, rfl⟩)
theorem execVneg_performs : Performs false true execVneg := by
  intro s; unfold execVneg; exact .inr (.inr ⟨rfl, rfl, _, rfl⟩)
theorem execVrcp_performs : Performs false true execVrcp := by
  intro s; unfold execVrcp; exact .inr (.inr ⟨rfl, rfl, _, rfl⟩)
theorem execVrsq_performs : Performs false true execVrsq := by
  intro s; unfold execVrsq; exact .inr (.inr ⟨rfl, rfl, _, rfl⟩)
theorem execVexp2_performs : Performs false true execVexp2 := by
  intro s; unfold execVexp2; exact .inr (.inr ⟨rfl, rfl, _, rfl⟩)
theorem execVand_performs : Performs false true execVand := by
  intro s; unfold execVand; exact .inr (.inr ⟨rfl, rfl, _, rfl⟩)
theorem execVor_performs : Performs false true execVor := by
  intro s; unfold execVor; exact .inr (.inr ⟨rfl, rfl, _, rfl⟩)
theorem execVxor_performs : Performs false true execVxor := by
  intro s; unfold execVxor; exact .inr (.inr ⟨rfl, rfl, _, rfl⟩)
theorem execVnot_performs : Performs false true execVnot := by
  intro s; unfold execVnot; exact .inr (.inr ⟨rfl, rfl, _, rfl⟩)
theorem execVshl_performs : Performs false true execVshl := by
  intro s; unfold execVshl; exact .inr (.inr ⟨rfl, rfl, _, rfl⟩)
theorem execVshr_performs : Performs false true execVshr := by
  intro s; unfold execVshr; exact .inr (.inr ⟨rfl, rfl, _, rfl⟩)
theorem execVsar_performs : Performs false true execVsar := by
  intro s; unfold execVsar; exact .inr (.inr ⟨rfl, rfl, _, rfl⟩)
theorem execVceq_performs : Performs false true execVceq := by
  intro s; unfold execVceq; exact .inr (.inr ⟨rfl, rfl, _, rfl⟩)
theorem execVcne_performs : Performs false true execVcne := by
  intro s; unfold execVcne; exact .inr (.inr ⟨rfl, rfl, _, rfl⟩)
theorem execVclt_performs : Performs false true execVclt := by
  intro s; unfold execVclt; exact .inr (.inr ⟨rfl, rfl, _, rfl⟩)
theorem execVcle_performs : Performs false true execVcle := by
  intro s; unfold execVcle; exact .inr (.inr ⟨rfl, rfl, _, rfl⟩)
theorem execVsel_performs : Performs false true execVsel := by
  intro s; unfold execVsel; exact .inr (.inr ⟨rfl, rfl, _, rfl⟩)
theorem execVmov_performs : Performs false true execVmov := by
  intro s; unfold execVmov; exact .inr (.inr ⟨rfl, rfl, _, rfl⟩)
theorem execVbcast_performs : Performs false true execVbcast := by
  intro s; unfold execVbcast; exact .inr (.inr ⟨rfl, rfl, _, rfl⟩)
theorem execVcvt_performs : Performs false true execVcvt := by
  intro s; unfold execVcvt; exact .inr (.inr ⟨rfl, rfl, _, rfl⟩)
theorem execVld_performs : Performs false true execVld := by
  intro s; unfold execVld; exact .inr (.inr ⟨rfl, rfl, _, rfl⟩)
theorem execVst_performs : Performs false true execVst := by
  intro s; unfold execVst; exact .inr (.inr ⟨rfl, rfl, _, rfl⟩)
theorem execVldd_performs : Performs false true execVldd := by
  intro s; unfold execVldd; exact .inr (.inr ⟨rfl, rfl, _, rfl⟩)
theorem execVpush_performs : Performs false true execVpush := by
  intro s; unfold execVpush; exact .inr (.inr ⟨rfl, rfl, _, rfl⟩)
theorem execVpop_performs : Performs false true execVpop := by
  intro s; unfold execVpop; exact .inr (.inr ⟨rfl, rfl, _, rfl⟩)
theorem execVrsum_performs : Performs false true execVrsum := by
  intro s; unfold execVrsum; exact .inr (.inr ⟨rfl, rfl, _, rfl⟩)
theorem execVrmax_performs : Performs false true execVrmax := by
  intro s; unfold execVrmax; exact .inr (.inr ⟨rfl, rfl, _, rfl⟩)
theorem execVtrn_performs : Performs false true execVtrn := by
  intro s; unfold execVtrn; exact .inr (.inr ⟨rfl, rfl, _, rfl⟩)
theorem execVshf_performs : Performs false true execVshf := by
  intro s; unfold execVshf; exact .inr (.inr ⟨rfl, rfl, _, rfl⟩)
theorem execMand_performs : Performs false true execMand := by
  intro s; unfold execMand; exact .inr (.inr ⟨rfl, rfl, _, rfl⟩)
theorem execMor_performs : Performs false true execMor := by
  intro s; unfold execMor; exact .inr (.inr ⟨rfl, rfl, _, rfl⟩)
theorem execMxor_performs : Performs false true execMxor := by
  intro s; unfold execMxor; exact .inr (.inr ⟨rfl, rfl, _, rfl⟩)
theorem execMnot_performs : Performs false true execMnot := by
  intro s; unfold execMnot; exact .inr (.inr ⟨rfl, rfl, _, rfl⟩)
theorem execMset_performs : Performs false true execMset := by
  intro s; unfold execMset; exact .inr (.inr ⟨rfl, rfl, _, rfl⟩)
theorem execMclr_performs : Performs false true execMclr := by
  intro s; unfold execMclr; exact .inr (.inr ⟨rfl, rfl, _, rfl⟩)
theorem execMld_performs : Performs false true execMld := by
  intro s; unfold execMld; exact .inr (.inr ⟨rfl, rfl, _, rfl⟩)
theorem execMst_performs : Performs false true execMst := by
  intro s; unfold execMst; exact .inr (.inr ⟨rfl, rfl, _, rfl⟩)
theorem execMAny_performs : Performs false false execMAny := by
  intro s; unfold execMAny maskQuery performSeq; exact .inl ⟨rfl, _, rfl⟩
theorem execMPopc_performs : Performs false false execMPopc := by
  intro s; unfold execMPopc maskQuery performSeq; exact .inl ⟨rfl, _, rfl⟩
theorem execMFirst_performs : Performs false false execMFirst := by
  intro s; unfold execMFirst maskQuery performSeq; exact .inl ⟨rfl, _, rfl⟩
theorem execMmaB8_performs : Performs false true execMmaB8 := by
  intro s; unfold execMmaB8; exact .inr (.inr ⟨rfl, rfl, _, rfl⟩)
theorem execMmaF16_performs : Performs false true execMmaF16 := by
  intro s; unfold execMmaF16; exact .inr (.inr ⟨rfl, rfl, _, rfl⟩)
theorem execMmaBf16_performs : Performs false true execMmaBf16 := by
  intro s; unfold execMmaBf16; exact .inr (.inr ⟨rfl, rfl, _, rfl⟩)
theorem execMzero_performs : Performs false true execMzero := by
  intro s; unfold execMzero; exact .inr (.inr ⟨rfl, rfl, _, rfl⟩)
theorem execAcld_performs : Performs false true execAcld := by
  intro s; unfold execAcld; exact .inr (.inr ⟨rfl, rfl, _, rfl⟩)
theorem execAcst_performs : Performs false true execAcst := by
  intro s; unfold execAcst; exact .inr (.inr ⟨rfl, rfl, _, rfl⟩)
theorem execAcmv_performs : Performs false true execAcmv := by
  intro s; unfold execAcmv; exact .inr (.inr ⟨rfl, rfl, _, rfl⟩)
theorem execRstat_performs : Performs false true execRstat := by
  intro s; unfold execRstat; exact .inr (.inr ⟨rfl, rfl, _, rfl⟩)
theorem execCpy_performs : Performs false true execCpy := by
  intro s; unfold execCpy; exact .inr (.inr ⟨rfl, rfl, _, rfl⟩)
theorem execCpyFill_performs : Performs false true execCpyFill := by
  intro s; unfold execCpyFill; exact .inr (.inr ⟨rfl, rfl, _, rfl⟩)
theorem execCpy2d_performs : Performs false true execCpy2d := by
  intro s; unfold execCpy2d; exact .inr (.inr ⟨rfl, rfl, _, rfl⟩)
theorem execCpyGth_performs : Performs false true execCpyGth := by
  intro s; unfold execCpyGth; exact .inr (.inr ⟨rfl, rfl, _, rfl⟩)
theorem execCrdOpen_performs : Performs false true execCrdOpen := by
  intro s; exact carderCmd_performs s _
theorem execCrdDig_performs : Performs false true execCrdDig := by
  intro s; exact carderCmd_performs s _
theorem execCrdWdig_performs : Performs false true execCrdWdig := by
  intro s; exact carderCmd_performs s _
theorem execCrdPlane_performs : Performs false true execCrdPlane := by
  intro s; exact carderCmd_performs s _
theorem execCrdElim_performs : Performs false true execCrdElim := by
  intro s; exact carderCmd_performs s _
theorem execCrdRes_performs : Performs false true execCrdRes := by
  intro s; exact carderCmd_performs s _
theorem execCrdWait_performs : Performs false true execCrdWait := by
  intro s; exact carderCmd_performs s _
theorem execCrdClose_performs : Performs false true execCrdClose := by
  intro s; exact carderCmd_performs s _
theorem execKvNew_performs : Performs false false execKvNew := by
  intro s; unfold execKvNew blocking performSeq; exact .inl ⟨rfl, _, rfl⟩
theorem execKvDrop_performs : Performs false false execKvDrop := by
  intro s; unfold execKvDrop blocking performSeq; exact .inl ⟨rfl, _, rfl⟩
theorem execKvApp_performs : Performs false false execKvApp := by
  intro s; unfold execKvApp blocking performSeq; exact .inl ⟨rfl, _, rfl⟩
theorem execKvLen_performs : Performs false false execKvLen := by
  intro s; unfold execKvLen blocking performSeq; exact .inl ⟨rfl, _, rfl⟩
theorem execKvRef_performs : Performs false false execKvRef := by
  intro s; unfold execKvRef blocking performSeq; exact .inl ⟨rfl, _, rfl⟩
theorem execKvCut_performs : Performs false false execKvCut := by
  intro s; unfold execKvCut blocking performSeq; exact .inl ⟨rfl, _, rfl⟩
theorem execLfArm_performs : Performs false false execLfArm := by
  intro s; unfold execLfArm blocking performSeq; exact .inl ⟨rfl, _, rfl⟩
theorem execLfTop_performs : Performs false false execLfTop := by
  intro s; unfold execLfTop blocking performSeq; exact .inl ⟨rfl, _, rfl⟩
theorem execLfSum_performs : Performs false false execLfSum := by
  intro s; unfold execLfSum blocking performSeq; exact .inl ⟨rfl, _, rfl⟩
theorem execLfEnd_performs : Performs false false execLfEnd := by
  intro s; unfold execLfEnd blocking performSeq; exact .inl ⟨rfl, _, rfl⟩
theorem execStopSet_performs : Performs false false execStopSet := by
  intro s; unfold execStopSet blocking performSeq; exact .inl ⟨rfl, _, rfl⟩
theorem execStopClr_performs : Performs false false execStopClr := by
  intro s; unfold execStopClr blocking performSeq; exact .inl ⟨rfl, _, rfl⟩
theorem execTrOpen_performs : Performs false false execTrOpen := by
  intro s; unfold execTrOpen blocking performSeq; exact .inl ⟨rfl, _, rfl⟩
theorem execTrCall_performs : Performs false false execTrCall := by
  intro s; unfold execTrCall hubForm blocking performSeq; exact .inl ⟨rfl, _, rfl⟩
theorem execTrPut_performs : Performs false false execTrPut := by
  intro s; unfold execTrPut hubForm blocking performSeq; exact .inl ⟨rfl, _, rfl⟩
theorem execTrConf_performs : Performs false false execTrConf := by
  intro s; unfold execTrConf hubForm blocking performSeq; exact .inl ⟨rfl, _, rfl⟩
theorem execTrMiss_performs : Performs false false execTrMiss := by
  intro s; unfold execTrMiss hubForm blocking performSeq; exact .inl ⟨rfl, _, rfl⟩
theorem execTrClose_performs : Performs false false execTrClose := by
  intro s; unfold execTrClose hubForm blocking performSeq; exact .inl ⟨rfl, _, rfl⟩
theorem execTrQry_performs : Performs false false execTrQry := by
  intro s; unfold execTrQry hubForm blocking performSeq; exact .inl ⟨rfl, _, rfl⟩
theorem execTrLim_performs : Performs false false execTrLim := by
  intro s; unfold execTrLim hubForm blocking performSeq; exact .inl ⟨rfl, _, rfl⟩
theorem execEmit_performs : Performs false false execEmit := by
  intro s; unfold execEmit hubForm blocking performSeq; exact .inl ⟨rfl, _, rfl⟩
theorem execDtNode_performs : Performs false false execDtNode := by
  intro s; unfold execDtNode hubForm blocking performSeq; exact .inl ⟨rfl, _, rfl⟩
theorem execDtAccept_performs : Performs false false execDtAccept := by
  intro s; unfold execDtAccept hubForm blocking performSeq; exact .inl ⟨rfl, _, rfl⟩
theorem execDtReset_performs : Performs false false execDtReset := by
  intro s; unfold execDtReset hubForm blocking performSeq; exact .inl ⟨rfl, _, rfl⟩
theorem execTrap_performs : Performs false false execTrap := by
  intro s; unfold execTrap; exact .inl ⟨rfl, _, rfl⟩
theorem execBrk_performs : Performs false false execBrk := by
  intro s; unfold execBrk; exact .inl ⟨rfl, _, rfl⟩
theorem execTret_performs : Performs false false execTret := by
  intro s; unfold execTret; exact .inl ⟨rfl, _, rfl⟩
theorem execLkill_performs : Performs false false execLkill := by
  intro s; unfold execLkill performSeq; exact .inl ⟨rfl, _, rfl⟩
theorem execTvset_performs : Performs false false execTvset := by
  intro s; unfold execTvset performSeq; exact .inl ⟨rfl, _, rfl⟩
theorem execFrset_performs : Performs false false execFrset := by
  intro s; unfold execFrset performSeq; exact .inl ⟨rfl, _, rfl⟩
theorem execSuspendDrain_performs : Performs false false execSuspendDrain := by
  intro s; unfold execSuspendDrain suspend blocking performSeq; exact .inl ⟨rfl, _, rfl⟩
theorem execSuspendRecord_performs : Performs false false execSuspendRecord := by
  intro s; unfold execSuspendRecord suspend blocking performSeq; exact .inl ⟨rfl, _, rfl⟩
theorem execResume_performs : Performs false false execResume := by
  intro s; unfold execResume blocking performSeq; exact .inl ⟨rfl, _, rfl⟩
theorem execCcopy_performs : Performs false false execCcopy := by
  intro s; unfold execCcopy blocking performSeq; exact .inl ⟨rfl, _, rfl⟩
theorem execCdisc_performs : Performs false false execCdisc := by
  intro s; unfold execCdisc blocking performSeq; exact .inl ⟨rfl, _, rfl⟩
theorem execCinsp_performs : Performs false false execCinsp := by
  intro s; unfold execCinsp blocking performSeq; exact .inl ⟨rfl, _, rfl⟩
theorem execGthaw_performs : Performs false false execGthaw := by
  intro s; unfold execGthaw blocking performSeq; exact .inl ⟨rfl, _, rfl⟩
theorem execCrights_performs : Performs false false execCrights := by
  intro s; unfold execCrights blocking performSeq; exact .inl ⟨rfl, _, rfl⟩
theorem execCollSmp_performs : Performs false false execCollSmp := by
  intro s; unfold execCollSmp collForm blocking performSeq; exact .inl ⟨rfl, _, rfl⟩
theorem execCollRed_performs : Performs false false execCollRed := by
  intro s; unfold execCollRed collForm blocking performSeq; exact .inl ⟨rfl, _, rfl⟩
theorem execCkptSave_performs : Performs false false execCkptSave := by
  intro s; unfold execCkptSave blocking performSeq; exact .inl ⟨rfl, _, rfl⟩
theorem execCkptCommit_performs : Performs false false execCkptCommit := by
  intro s; unfold execCkptCommit blocking performSeq; exact .inl ⟨rfl, _, rfl⟩
theorem execEcntSel_performs : Performs false false execEcntSel := by
  intro s; unfold execEcntSel performSeq; exact .inl ⟨rfl, _, rfl⟩
theorem execEcntRd_performs : Performs false false execEcntRd := by
  intro s; unfold execEcntRd performSeq; exact .inl ⟨rfl, _, rfl⟩
theorem execKeyWrite_performs : Performs false false execKeyWrite := by
  intro s; unfold execKeyWrite writeSr performSeq; exact .inl ⟨rfl, _, rfl⟩
theorem execBudWrite_performs : Performs false false execBudWrite := by
  intro s; unfold execBudWrite writeSr performSeq; exact .inl ⟨rfl, _, rfl⟩
theorem execBrmodeWrite_performs : Performs false false execBrmodeWrite := by
  intro s; unfold execBrmodeWrite; exact .inl ⟨rfl, _, rfl⟩
theorem execVshapeWrite_performs : Performs false false execVshapeWrite := by
  intro s; unfold execVshapeWrite writeSr performSeq; exact .inl ⟨rfl, _, rfl⟩
theorem execMxcfgWrite_performs : Performs false false execMxcfgWrite := by
  intro s; unfold execMxcfgWrite writeSr performSeq; exact .inl ⟨rfl, _, rfl⟩
theorem execRegisterWrite_performs : Performs false false execRegisterWrite := by
  intro s; unfold execRegisterWrite writeSr performSeq; exact .inl ⟨rfl, _, rfl⟩

/-- The rows of the opcode map and no others are performed through the operations of issue. -/
theorem exec_performs {i : Instr} (h : i.opc.isSome = true) : Performs (branchForm i) (engineForm i) (exec i) := by
  cases i with
  | add w => cases w <;> exact execAdd_performs _
  | sub w => cases w <;> exact execSub_performs _
  | mul w => cases w <;> exact execMul_performs _
  | mulh f => cases f <;> exact execMulh_performs _
  | div f => cases f <;> exact execDiv_performs _
  | rem f => cases f <;> exact execRem_performs _
  | min f => cases f <;> exact execMin_performs _
  | max f => cases f <;> exact execMax_performs _
  | adds f => cases f <;> exact execAdds_performs _
  | subs f => cases f <;> exact execSubs_performs _
  | neg w => cases w <;> exact execNeg_performs _
  | sext w => cases w <;> exact execSext_performs _
  | ceq w => cases w <;> exact execCeq_performs _
  | cne w => cases w <;> exact execCne_performs _
  | clt f => cases f <;> exact execClt_performs _
  | cle f => cases f <;> exact execCle_performs _
  | mov64Reg => exact execMov64Reg_performs
  | mov64LongImm => exact execMov64LongImm_performs
  | mov64PcRel => exact execMov64PcRel_performs
  | movh64 => exact execMovh64_performs
  | and64 => exact execAnd64_performs
  | or64 => exact execOr64_performs
  | xor64 => exact execXor64_performs
  | andn64 => exact execAndn64_performs
  | not64 => exact execNot64_performs
  | zext w => cases w <;> exact execZext_performs _
  | shl w => cases w <;> exact execShl_performs _
  | shr w => cases w <;> exact execShr_performs _
  | sar w => cases w <;> exact execSar_performs _
  | rol w => cases w <;> exact execRol_performs _
  | ror w => cases w <;> exact execRor_performs _
  | popc w => cases w <;> exact execPopc_performs _
  | clz w => cases w <;> exact execClz_performs _
  | ctz w => cases w <;> exact execCtz_performs _
  | bext64 => exact execBext64_performs
  | bins64 => exact execBins64_performs
  | bswap64 => exact execBswap64_performs
  | brev64 => exact execBrev64_performs
  | padd l => cases l <;> exact execPadd_performs _
  | psub l => cases l <;> exact execPsub_performs _
  | pshl l => cases l <;> exact execPshl_performs _
  | pshr l => cases l <;> exact execPshr_performs _
  | psar l => cases l <;> exact execPsar_performs _
  | pmul l => cases l <;> exact execPmul_performs _
  | brOffset => exact execBrOffset_performs
  | brRegister => exact execBrRegister_performs
  | callOffset => exact execCallOffset_performs
  | callRegister => exact execCallRegister_performs
  | ret => exact execRet_performs
  | pbrOffset => exact execPbrOffset_performs
  | pbrRegister => exact execPbrRegister_performs
  | gset => exact execGset_performs
  | gres => exact execGres_performs
  | gand => exact execGand_performs
  | gor => exact execGor_performs
  | gxor => exact execGxor_performs
  | gnot => exact execGnot_performs
  | gpend => exact execGpend_performs
  | gget => exact execGget_performs
  | nop => exact execNop_performs
  | addF32 => exact execAddF32_performs
  | subF32 => exact execSubF32_performs
  | mulF32 => exact execMulF32_performs
  | divF32 => exact execDivF32_performs
  | fmaF32 => exact execFmaF32_performs
  | fmsF32 => exact execFmsF32_performs
  | sqrtF32 => exact execSqrtF32_performs
  | rcpF32 => exact execRcpF32_performs
  | rsqF32 => exact execRsqF32_performs
  | exp2F32 => exact execExp2F32_performs
  | log2F32 => exact execLog2F32_performs
  | minF32 => exact execMinF32_performs
  | maxF32 => exact execMaxF32_performs
  | absF32 => exact execAbsF32_performs
  | negF32 => exact execNegF32_performs
  | ceqF32 => exact execCeqF32_performs
  | cltF32 => exact execCltF32_performs
  | cleF32 => exact execCleF32_performs
  | cunF32 => exact execCunF32_performs
  | classF32 => exact execClassF32_performs
  | cvtF32FromInt f => cases f <;> exact execCvtF32FromInt_performs _
  | cvtIntFromF32 f => cases f <;> exact execCvtIntFromF32_performs _
  | cvtF32F16 => exact execCvtF32F16_performs
  | cvtF16F32 => exact execCvtF16F32_performs
  | cvtF32Bf16 => exact execCvtF32Bf16_performs
  | cvtBf16F32 => exact execCvtBf16F32_performs
  | cvtF32B8 => exact execCvtF32B8_performs
  | cvtB8F32 => exact execCvtB8F32_performs
  | ld w => cases w <;> exact execLd_performs _
  | lds w => cases w <;> exact execLds_performs _
  | ldp128 => exact execLdp128_performs
  | st w => cases w <;> exact execSt_performs _
  | st4 => exact execSt4_performs
  | st2 => exact execSt2_performs
  | stp128 => exact execStp128_performs
  | ldd => exact execLdd_performs
  | ldAcq w => cases w <;> exact execLdAcq_performs _
  | stRel w => cases w <;> exact execStRel_performs _
  | amadd w od => cases w <;> cases od <;> exact execAmadd_performs _ _
  | amin sg od => cases sg <;> cases od <;> exact execAmin_performs _ _
  | amax sg od => cases sg <;> cases od <;> exact execAmax_performs _ _
  | aand od => cases od <;> exact execAand_performs _
  | aor od => cases od <;> exact execAor_performs _
  | axor od => cases od <;> exact execAxor_performs _
  | aswap od => cases od <;> exact execAswap_performs _
  | acas w od => cases w <;> cases od <;> exact execAcas_performs _ _
  | fenceAcq => exact execFenceAcq_performs
  | fenceRel => exact execFenceRel_performs
  | fence => exact execFence_performs
  | fenceTotal => exact execFenceTotal_performs
  | ldfC w => cases w <;> exact execLdfC_performs _
  | ldfK w => cases w <;> exact execLdfK_performs _
  | stf w => cases w <;> exact execStf_performs _
  | sete => exact execSete_performs
  | setf => exact execSetf_performs
  | tfe => exact execTfe_performs
  | bdecl => exact execBdecl_performs
  | bstat => exact execBstat_performs
  | bfill => exact execBfill_performs
  | bpub => exact execBpub_performs
  | bdrain => exact execBdrain_performs
  | bfree => exact execBfree_performs
  | hrd => exact execHrd_performs
  | hwr => exact execHwr_performs
  | push => exact execPush_performs
  | push2d => exact execPush2d_performs
  | pushFill => exact execPushFill_performs
  | hpf => exact execHpf_performs
  | keysel => exact execKeysel_performs
  | hfence => exact execHfence_performs
  | fork => exact execFork_performs
  | done => exact execDone_performs
  | callat => exact execCallat_performs
  | send => exact execSend_performs
  | jinit => exact execJinit_performs
  | jarv => exact execJarv_performs
  | wmint => exact execWmint_performs
  | gform => exact execGform_performs
  | gleave => exact execGleave_performs
  | barArv => exact execBarArv_performs
  | barDrop => exact execBarDrop_performs
  | barWait => exact execBarWait_performs
  | barQry => exact execBarQry_performs
  | hset => exact execHset_performs
  | hlock => exact execHlock_performs
  | hunlock => exact execHunlock_performs
  | sdom => exact execSdom_performs
  | vadd => exact execVadd_performs
  | vsub => exact execVsub_performs
  | vmul => exact execVmul_performs
  | vdiv => exact execVdiv_performs
  | vfma => exact execVfma_performs
  | vmin => exact execVmin_performs
  | vmax => exact execVmax_performs
  | vabs => exact execVabs_performs
  | vneg => exact execVneg_performs
  | vrcp => exact execVrcp_performs
  | vrsq => exact execVrsq_performs
  | vexp2 => exact execVexp2_performs
  | vand => exact execVand_performs
  | vor => exact execVor_performs
  | vxor => exact execVxor_performs
  | vnot => exact execVnot_performs
  | vshl => exact execVshl_performs
  | vshr => exact execVshr_performs
  | vsar => exact execVsar_performs
  | vceq => exact execVceq_performs
  | vcne => exact execVcne_performs
  | vclt => exact execVclt_performs
  | vcle => exact execVcle_performs
  | vsel => exact execVsel_performs
  | vmov => exact execVmov_performs
  | vbcast => exact execVbcast_performs
  | vcvt => exact execVcvt_performs
  | vld => exact execVld_performs
  | vst => exact execVst_performs
  | vldd => exact execVldd_performs
  | vpush => exact execVpush_performs
  | vpop => exact execVpop_performs
  | vrsum => exact execVrsum_performs
  | vrmax => exact execVrmax_performs
  | vtrn => exact execVtrn_performs
  | vshf => exact execVshf_performs
  | mand => exact execMand_performs
  | mor => exact execMor_performs
  | mxor => exact execMxor_performs
  | mnot => exact execMnot_performs
  | mset => exact execMset_performs
  | mclr => exact execMclr_performs
  | mld => exact execMld_performs
  | mst => exact execMst_performs
  | mAny => exact execMAny_performs
  | mPopc => exact execMPopc_performs
  | mFirst => exact execMFirst_performs
  | mmaB8 => exact execMmaB8_performs
  | mmaF16 => exact execMmaF16_performs
  | mmaBf16 => exact execMmaBf16_performs
  | mzero => exact execMzero_performs
  | acld => exact execAcld_performs
  | acst => exact execAcst_performs
  | acmv => exact execAcmv_performs
  | rstat => exact execRstat_performs
  | cpy => exact execCpy_performs
  | cpyFill => exact execCpyFill_performs
  | cpy2d => exact execCpy2d_performs
  | cpyGth => exact execCpyGth_performs
  | crdOpen => exact execCrdOpen_performs
  | crdDig => exact execCrdDig_performs
  | crdWdig => exact execCrdWdig_performs
  | crdPlane => exact execCrdPlane_performs
  | crdElim => exact execCrdElim_performs
  | crdRes => exact execCrdRes_performs
  | crdWait => exact execCrdWait_performs
  | crdClose => exact execCrdClose_performs
  | kvNew => exact execKvNew_performs
  | kvDrop => exact execKvDrop_performs
  | kvApp => exact execKvApp_performs
  | kvLen => exact execKvLen_performs
  | kvRef => exact execKvRef_performs
  | kvCut => exact execKvCut_performs
  | lfArm => exact execLfArm_performs
  | lfTop => exact execLfTop_performs
  | lfSum => exact execLfSum_performs
  | lfEnd => exact execLfEnd_performs
  | stopSet => exact execStopSet_performs
  | stopClr => exact execStopClr_performs
  | trOpen => exact execTrOpen_performs
  | trCall => exact execTrCall_performs
  | trPut => exact execTrPut_performs
  | trConf => exact execTrConf_performs
  | trMiss => exact execTrMiss_performs
  | trClose => exact execTrClose_performs
  | trQry => exact execTrQry_performs
  | trLim => exact execTrLim_performs
  | emit => exact execEmit_performs
  | dtNode => exact execDtNode_performs
  | dtAccept => exact execDtAccept_performs
  | dtReset => exact execDtReset_performs
  | trap => exact execTrap_performs
  | brk => exact execBrk_performs
  | tret => exact execTret_performs
  | lkill => exact execLkill_performs
  | tvset => exact execTvset_performs
  | frset => exact execFrset_performs
  | suspendDrain => exact execSuspendDrain_performs
  | suspendRecord => exact execSuspendRecord_performs
  | resume => exact execResume_performs
  | ccopy => exact execCcopy_performs
  | cdisc => exact execCdisc_performs
  | cinsp => exact execCinsp_performs
  | gthaw => exact execGthaw_performs
  | crights => exact execCrights_performs
  | collSmp => exact execCollSmp_performs
  | collRed => exact execCollRed_performs
  | ckptSave => exact execCkptSave_performs
  | ckptCommit => exact execCkptCommit_performs
  | ecntSel => exact execEcntSel_performs
  | ecntRd => exact execEcntRd_performs
  | keyWrite => exact execKeyWrite_performs
  | budWrite => exact execBudWrite_performs
  | brmodeWrite => exact execBrmodeWrite_performs
  | vshapeWrite => exact execVshapeWrite_performs
  | mxcfgWrite => exact execMxcfgWrite_performs
  | registerWrite => exact execRegisterWrite_performs
  | migrantArrival => exact absurd h (by decide)
  | stayRequestAtHome => exact absurd h (by decide)
  | replyArrival => exact absurd h (by decide)
  | forwardingEntryLapse => exact absurd h (by decide)
  | subbyteStoreAtHome => exact absurd h (by decide)
  | pushGranuleWrite => exact absurd h (by decide)
  | callatArrival => exact absurd h (by decide)
  | sendArrival => exact absurd h (by decide)
  | jarvArrival => exact absurd h (by decide)
  | handlerLockLapse => exact absurd h (by decide)
  | slotSelect => exact absurd h (by decide)
  | forcedSwitch => exact absurd h (by decide)
  | stealAttempt => exact absurd h (by decide)
  | stealGrantArrival => exact absurd h (by decide)
  | stealTimeout => exact absurd h (by decide)
  | stealBackoffExpiry => exact absurd h (by decide)
  | budgetExhausted => exact absurd h (by decide)
  | weightReturn => exact absurd h (by decide)
  | serialNoticeArrival => exact absurd h (by decide)
  | notify => exact absurd h (by decide)
  | queueMap => exact absurd h (by decide)
  | launchStart => exact absurd h (by decide)
  | queueIdleUnmap => exact absurd h (by decide)
  | queueEvict => exact absurd h (by decide)
  | qctlCreate => exact absurd h (by decide)
  | qctlDisable => exact absurd h (by decide)
  | qctlDestroy => exact absurd h (by decide)
  | completionPost => exact absurd h (by decide)
  | clockNoticeSend => exact absurd h (by decide)
  | clockNoticeArrival => exact absurd h (by decide)
  | translationShootdown => exact absurd h (by decide)
  | ownershipChange => exact absurd h (by decide)
  | engineCommandStart => exact absurd h (by decide)
  | engineCommandComplete => exact absurd h (by decide)
  | deferredFault => exact absurd h (by decide)
  | carderRegistration => exact absurd h (by decide)
  | fullerCompaction => exact absurd h (by decide)
  | scrubCheck => exact absurd h (by decide)
  | rposNotice => exact absurd h (by decide)
  | egressWrite => exact absurd h (by decide)
  | replyDoorbell => exact absurd h (by decide)
  | replyDeliver => exact absurd h (by decide)
  | handlerBudgetExpiry => exact absurd h (by decide)
  | launchClearComplete => exact absurd h (by decide)
  | collContributionArrival => exact absurd h (by decide)
  | collWatchdogExpiry => exact absurd h (by decide)
  | collAbandonArrival => exact absurd h (by decide)
  | ckptBarrierTimeout => exact absurd h (by decide)
  | deviceRecovery => exact absurd h (by decide)
  | flitReplay => exact absurd h (by decide)
  | powerEstimate => exact absurd h (by decide)
  | thermalThrottle => exact absurd h (by decide)
  | thermalStop => exact absurd h (by decide)
  | moduleReset => exact absurd h (by decide)
  | getVersion => exact absurd h (by decide)
  | getCapabilities => exact absurd h (by decide)
  | negotiateAlgorithms => exact absurd h (by decide)
  | getDigests => exact absurd h (by decide)
  | getCertificate => exact absurd h (by decide)
  | challenge => exact absurd h (by decide)
  | getMeasurements => exact absurd h (by decide)
  | keyExchange => exact absurd h (by decide)
  | finish => exact absurd h (by decide)
  | endSession => exact absurd h (by decide)
  | heartbeat => exact absurd h (by decide)
  | illegalInstruction => exact absurd h (by decide)
  | fetchFault => exact absurd h (by decide)
  | stealRequestAtVictim => exact absurd h (by decide)
  | writeAcknowledgement => exact absurd h (by decide)
  | hostWindowAccess => exact absurd h (by decide)
  | contextCreate => exact absurd h (by decide)
  | contextEnd => exact absurd h (by decide)
  | keyPairDelivery => exact absurd h (by decide)

end Sys2Proof.Machine
end

