-- ==== Sys2Proof/Tests/Slice0.lean ====
section
/-! SUPPORT. Tests: ill-formed terms that the checks refuse, words written out from the encodings of R39 to R50, one step of single instructions with results from the manual, and for each statement a state that meets its hypotheses. -/

open Sys2Proof Sys2Proof.Machine

namespace Sys2Proof.Tests

set_option maxRecDepth 8000
set_option Elab.async false

/-! Decoding: words worked from R39, R41, R42 and R50 -/

/-- A word under no guard and no hint. -/
def plain : Hdr := Hdr.plain
/-- `(!g6)` with a gap of 5 and SW. -/
def guarded : Hdr := ⟨true, 6, 5, true, false, false⟩
/-- The hint `t`. -/
def taken : Hdr := ⟨false, 0, 0, false, true, false⟩
/-- The hint `stay`. -/
def stay : Hdr := ⟨false, 0, 0, false, false, true⟩

/-- The operands of a class 00 or 11 word. -/
def three (h : Hdr) (d a b : Opd) : Operands := { hd := h, d := d, a := a, b := b }
/-- The operands of a class 01 word. -/
def long (h : Hdr) (d : Opd) (imm : BitVec 48) : Operands := { hd := h, d := d, imm := imm }
/-- The operands of a class 10 word. -/
def mem (h : Hdr) (d a : Opd) (sc : Scope) (off : BitVec 21) : Operands := { hd := h, d := d, a := a, sc := sc, off := off }

/-- Every word decodes to its instruction and is the word of it. -/
def reads (l : List (Nat × Instr × Operands)) : Bool :=
  l.all fun p => decide (decodeWord none p.1 = .ok ⟨p.2.1, p.2.2⟩) && encodeWord ⟨p.2.1, p.2.2⟩ == p.1

/-- Group 0 of R50, integer. -/
theorem test_decode_group_0_a : reads [
    (0x00C000000026000015FFFFF4, .add .w8, three plain (.x 9) (.q 5) (.imm (-3))),
    (0x01C000000026000015FFFFF4, .sub .w8, three plain (.x 9) (.q 5) (.imm (-3))),
    (0x02FAC0000026000015FFFFF4, .mul .w8, three guarded (.x 9) (.q 5) (.imm (-3))),
    (0x03C000000026000015FFFFF4, .mulh .n32, three plain (.x 9) (.q 5) (.imm (-3))),
    (0x04C000000026000015FFFFF4, .div .n32, three plain (.x 9) (.q 5) (.imm (-3))),
    (0x05FAC0000026000015FFFFF4, .rem .n32, three guarded (.x 9) (.q 5) (.imm (-3))),
    (0x06C000000026000015FFFFF4, .min .n32, three plain (.x 9) (.q 5) (.imm (-3))),
    (0x07C000000026000015FFFFF4, .max .n32, three plain (.x 9) (.q 5) (.imm (-3))),
    (0x08FAC0000026000015FFFFF4, .adds .n32, three guarded (.x 9) (.q 5) (.imm (-3))),
    (0x09C000000026000015FFFFF4, .subs .n32, three plain (.x 9) (.q 5) (.imm (-3))),
    (0x0AC000000026000014000000, .neg .w8, three plain (.x 9) (.q 5) (.x 0)),
    (0x0B7AC0000026000014000000, .sext .w16, three guarded (.x 9) (.q 5) (.x 0)),
    (0x0C4003800036000015FFFFF4, .ceq .w32, three plain (.g 5) (.q 5) (.imm (-3))),
    (0x0CC003800036000015FFFFF4, .cne .w32, three plain (.g 5) (.q 5) (.imm (-3))),
    (0x0DFAC3800036000015FFFFF4, .clt .n32, three guarded (.g 5) (.q 5) (.imm (-3))),
    (0x0EC003800036000015FFFFF4, .cle .n32, three plain (.g 5) (.q 5) (.imm (-3))),
    (0x0F000200000B000020000000, .mov64Reg, three plain (.q 2) (.sr 8) (.x 0)),
    (0x0F7AC0000027FFFFEC00001D, .mov64LongImm, long guarded (.x 9) 0xFFFFFB000007),
    (0x0F800080001800000003F849, .movh64, long plain (.o 6) 0xFE12),
    (0x0FC000000027FFFFEC00001D, .mov64PcRel, long plain (.x 9) 0xFFFFFB000007),
    (0x0F0003000004000014000000, .budWrite, three plain (.sr 1) (.x 5) (.x 0)),
    (0x0F0003000008000014000000, .keyWrite, three plain (.sr 2) (.x 5) (.x 0)),
    (0x0F0003000024000014000000, .brmodeWrite, three plain (.sr 9) (.x 5) (.x 0)),
    (0x0F0003000028000014000000, .vshapeWrite, three plain (.sr 10) (.x 5) (.x 0))] = true := by decide

/-- Group 0 of R50, integer. -/
theorem test_decode_group_0_b : reads [
    (0x0F000300003C000014000000, .mxcfgWrite, three plain (.sr 15) (.x 5) (.x 0)),
    (0x0F000300005C000014000000, .registerWrite, three plain (.sr 23) (.x 5) (.x 0))] = true := by decide

/-- Group 1 of R50, bit. -/
theorem test_decode_group_1 : reads [
    (0x103AC0000026000015FFFFF4, .and64, three guarded (.x 9) (.q 5) (.imm (-3))),
    (0x104000000026000015FFFFF4, .or64, three plain (.x 9) (.q 5) (.imm (-3))),
    (0x108000000026000015FFFFF4, .xor64, three plain (.x 9) (.q 5) (.imm (-3))),
    (0x10FAC0000026000015FFFFF4, .andn64, three guarded (.x 9) (.q 5) (.imm (-3))),
    (0x110000000026000014000000, .not64, three plain (.x 9) (.q 5) (.x 0)),
    (0x118000000026000014000000, .zext .w16, three plain (.x 9) (.q 5) (.x 0)),
    (0x12FAC0000026000015FFFFF4, .shl .w8, three guarded (.x 9) (.q 5) (.imm (-3))),
    (0x13C000000026000015FFFFF4, .shr .w8, three plain (.x 9) (.q 5) (.imm (-3))),
    (0x14C000000026000015FFFFF4, .sar .w8, three plain (.x 9) (.q 5) (.imm (-3))),
    (0x15FAC0000026000015FFFFF4, .rol .w8, three guarded (.x 9) (.q 5) (.imm (-3))),
    (0x16C000000026000015FFFFF4, .ror .w8, three plain (.x 9) (.q 5) (.imm (-3))),
    (0x17C000000026000014000000, .popc .w8, three plain (.x 9) (.q 5) (.x 0)),
    (0x18FAC0000026000014000000, .clz .w8, three guarded (.x 9) (.q 5) (.x 0)),
    (0x19C000000026000014000000, .ctz .w8, three plain (.x 9) (.q 5) (.x 0)),
    (0x1A0000000026000015FFFFF4, .bext64, three plain (.x 9) (.q 5) (.imm (-3))),
    (0x1A7AC080001A000015FFFFF4, .bins64, three guarded (.o 6) (.q 5) (.imm (-3))),
    (0x1A8000000026000014000000, .bswap64, three plain (.x 9) (.q 5) (.x 0)),
    (0x1AC000000026000014000000, .brev64, three plain (.x 9) (.q 5) (.x 0)),
    (0x1B7AC0000026000015FFFFF4, .padd .p16, three guarded (.x 9) (.q 5) (.imm (-3))),
    (0x1BC000000026000015FFFFF4, .psub .p16, three plain (.x 9) (.q 5) (.imm (-3))),
    (0x1C4000000026000015FFFFF4, .pshl .p16, three plain (.x 9) (.q 5) (.imm (-3))),
    (0x1CFAC0000026000015FFFFF4, .pshr .p16, three guarded (.x 9) (.q 5) (.imm (-3))),
    (0x1D4000000026000015FFFFF4, .psar .p16, three plain (.x 9) (.q 5) (.imm (-3))),
    (0x1DC000000026000015FFFFF4, .pmul .p16, three plain (.x 9) (.q 5) (.imm (-3)))] = true := by decide

/-- Group 2 of R50, control. -/
theorem test_decode_group_2 : reads [
    (0x200020000003FFFFEC00001D, .brOffset, long taken (.x 0) 0xFFFFFB000007),
    (0x204020000003800008000000, .brRegister, three taken (.x 0) (.b 2) (.x 0)),
    (0x208020000003FFFFEC00001D, .callOffset, long taken (.x 0) 0xFFFFFB000007),
    (0x20C020000003800008000000, .callRegister, three taken (.x 0) (.b 2) (.x 0)),
    (0x210020000000000000000000, .ret, three taken (.x 0) (.x 0) (.x 0)),
    (0x21400380000FFFFFEC00001D, .pbrOffset, long plain (.b 3) 0xFFFFFB000007),
    (0x21BAC380000D000004000000, .pbrRegister, three guarded (.b 3) (.z 1) (.x 0)),
    (0x220003800036000014000000, .gset, three plain (.g 5) (.q 5) (.x 0)),
    (0x22400380003780002B80003C, .gand, three plain (.g 5) (.g 2) (.g 7)),
    (0x22BAC380003780002B80003C, .gor, three guarded (.g 5) (.g 2) (.g 7)),
    (0x22C00380003780002B80003C, .gxor, three plain (.g 5) (.g 2) (.g 7)),
    (0x230003800037800028000000, .gnot, three plain (.g 5) (.g 2) (.x 0)),
    (0x237AC3800034000000000000, .gpend, three guarded (.g 5) (.x 0) (.x 0)),
    (0x238003800036000014000000, .gres, three plain (.g 5) (.q 5) (.x 0)),
    (0x23C000000027800028000000, .gget, three plain (.x 9) (.g 2) (.x 0)),
    (0x243AC0000000000000000000, .nop, three guarded (.x 0) (.x 0) (.x 0))] = true := by decide

/-- Group 3 of R50, scalar float. -/
theorem test_decode_group_3_a : reads [
    (0x300000000026000015FFFFF4, .addF32, three plain (.x 9) (.q 5) (.imm (-3))),
    (0x304000000026000015FFFFF4, .subF32, three plain (.x 9) (.q 5) (.imm (-3))),
    (0x30BAC0000026000015FFFFF4, .mulF32, three guarded (.x 9) (.q 5) (.imm (-3))),
    (0x30C000000026000015FFFFF4, .divF32, three plain (.x 9) (.q 5) (.imm (-3))),
    (0x31000080001A000015FFFFF4, .fmaF32, three plain (.o 6) (.q 5) (.imm (-3))),
    (0x317AC080001A000015FFFFF4, .fmsF32, three guarded (.o 6) (.q 5) (.imm (-3))),
    (0x318000000026000014000000, .sqrtF32, three plain (.x 9) (.q 5) (.x 0)),
    (0x31C000000026000014000000, .rcpF32, three plain (.x 9) (.q 5) (.x 0)),
    (0x323AC0000026000014000000, .rsqF32, three guarded (.x 9) (.q 5) (.x 0)),
    (0x324000000026000014000000, .exp2F32, three plain (.x 9) (.q 5) (.x 0)),
    (0x328000000026000014000000, .log2F32, three plain (.x 9) (.q 5) (.x 0)),
    (0x32FAC0000026000015FFFFF4, .minF32, three guarded (.x 9) (.q 5) (.imm (-3))),
    (0x330000000026000015FFFFF4, .maxF32, three plain (.x 9) (.q 5) (.imm (-3))),
    (0x334000000026000014000000, .absF32, three plain (.x 9) (.q 5) (.x 0)),
    (0x33BAC0000026000014000000, .negF32, three guarded (.x 9) (.q 5) (.x 0)),
    (0x33C003800036000015FFFFF4, .ceqF32, three plain (.g 5) (.q 5) (.imm (-3))),
    (0x340003800036000015FFFFF4, .cltF32, three plain (.g 5) (.q 5) (.imm (-3))),
    (0x347AC3800036000015FFFFF4, .cleF32, three guarded (.g 5) (.q 5) (.imm (-3))),
    (0x348003800036000015FFFFF4, .cunF32, three plain (.g 5) (.q 5) (.imm (-3))),
    (0x34C000000026000014000000, .classF32, three plain (.x 9) (.q 5) (.x 0)),
    (0x38FAC0000026000014000000, .cvtF32FromInt .n32, three guarded (.x 9) (.q 5) (.x 0)),
    (0x39C000000026000014000000, .cvtIntFromF32 .n32, three plain (.x 9) (.q 5) (.x 0)),
    (0x3A0000000026000014000000, .cvtF32F16, three plain (.x 9) (.q 5) (.x 0)),
    (0x3A7AC0000026000014000000, .cvtF16F32, three guarded (.x 9) (.q 5) (.x 0))] = true := by decide

/-- Group 3 of R50, scalar float. -/
theorem test_decode_group_3_b : reads [
    (0x3A8000000026000014000000, .cvtF32Bf16, three plain (.x 9) (.q 5) (.x 0)),
    (0x3AC000000026000014000000, .cvtBf16F32, three plain (.x 9) (.q 5) (.x 0)),
    (0x3B3AC0000026000015800024, .cvtF32B8, three guarded (.x 9) (.q 5) (.imm 9)),
    (0x3B4000000026000015800024, .cvtB8F32, three plain (.x 9) (.q 5) (.imm 9))] = true := by decide

/-- Group 4 of R50, loads and stores. -/
theorem test_decode_group_4 : reads [
    (0x40C0010000010000047FFFC2, .ld .w8, mem plain (.z 0) (.z 1) .core 0x1FFFF0),
    (0x417AC10000010000047FFFC2, .lds .w16, mem guarded (.z 0) (.z 1) .core 0x1FFFF0),
    (0x41C0000000310000047FFFC2, .ldp128, mem plain (.x 12) (.z 1) .core 0x1FFFF0),
    (0x42C0020000190000047FFFC2, .st .w8, mem plain (.q 6) (.z 1) .core 0x1FFFF0),
    (0x433AC20000190000047FFFC2, .st4, mem guarded (.q 6) (.z 1) .core 0x1FFFF0),
    (0x4340020000190000047FFFC2, .st2, mem plain (.q 6) (.z 1) .core 0x1FFFF0),
    (0x43C0100000310000047FFFC2, .stp128, mem stay (.x 12) (.z 1) .core 0x1FFFF0),
    (0x443AC10000010000047FFFC2, .ldd, mem guarded (.z 0) (.z 1) .core 0x1FFFF0),
    (0x454001000001000005FFFFC2, .ldAcq .w32, mem plain (.z 0) (.z 1) .module 0x1FFFF0),
    (0x45C002000019000005FFFFC2, .stRel .w32, mem plain (.q 6) (.z 1) .module 0x1FFFF0)] = true := by decide

/-- Group 5 of R50, atomics and fences. -/
theorem test_decode_group_5 : reads [
    (0x51C010800019000005FFFFC2, .amadd .w32 .ar, mem stay (.o 6) (.z 1) .module 0x1FFFF0),
    (0x53C010800019000005FFFFC2, .amin .n .ar, mem stay (.o 6) (.z 1) .module 0x1FFFF0),
    (0x55C010800019000005FFFFC2, .amax .n .ar, mem stay (.o 6) (.z 1) .module 0x1FFFF0),
    (0x56C010800019000005FFFFC2, .aand .ar, mem stay (.o 6) (.z 1) .module 0x1FFFF0),
    (0x57C010800019000005FFFFC2, .aor .ar, mem stay (.o 6) (.z 1) .module 0x1FFFF0),
    (0x58C010800019000005FFFFC2, .axor .ar, mem stay (.o 6) (.z 1) .module 0x1FFFF0),
    (0x59C010800019000005FFFFC2, .aswap .ar, mem stay (.o 6) (.z 1) .module 0x1FFFF0),
    (0x5BC010000031000005FFFFC2, .acas .w32 .ar, mem stay (.x 12) (.z 1) .module 0x1FFFF0),
    (0x5C0000000001800010000000, .fenceAcq, three plain (.x 0) (.imm 4) (.x 0)),
    (0x5C7AC0000001800010000000, .fenceRel, three guarded (.x 0) (.imm 4) (.x 0)),
    (0x5C8000000001800010000000, .fence, three plain (.x 0) (.imm 4) (.x 0)),
    (0x5CC000000001800010000000, .fenceTotal, three plain (.x 0) (.imm 4) (.x 0))] = true := by decide

/-- Group 6 of R50, buffers and full/empty. -/
theorem test_decode_group_6 : reads [
    (0x603AC0000026000015FFFFF4, .bdecl, three guarded (.x 9) (.q 5) (.imm (-3))),
    (0x604000000026000014000000, .bstat, three plain (.x 9) (.q 5) (.x 0)),
    (0x608000000002000014000000, .bfill, three plain (.x 0) (.q 5) (.x 0)),
    (0x60FAC0000002000014000000, .bpub, three guarded (.x 0) (.q 5) (.x 0)),
    (0x610000000002000014000000, .bdrain, three plain (.x 0) (.q 5) (.x 0)),
    (0x614000000002000014000000, .bfree, three plain (.x 0) (.q 5) (.x 0)),
    (0x64BAC10000010000047FFFC2, .ldfC .w32, mem guarded (.z 0) (.z 1) .core 0x1FFFF0),
    (0x64C0010000010000047FFFC2, .ldfK .w32, mem plain (.z 0) (.z 1) .core 0x1FFFF0),
    (0x6540020000190000047FFFC2, .stf .w32, mem plain (.q 6) (.z 1) .core 0x1FFFF0),
    (0x6580100000010000047FFFC2, .sete, mem stay (.x 0) (.z 1) .core 0x1FFFF0),
    (0x65C0100000010000047FFFC2, .setf, mem stay (.x 0) (.z 1) .core 0x1FFFF0),
    (0x6600010000010000047FFFC2, .tfe, mem plain (.z 0) (.z 1) .core 0x1FFFF0)] = true := by decide

/-- Group 7 of R50, parallel work. -/
theorem test_decode_group_7 : reads [
    (0x703AC0000001000005FFFFF4, .fork, three guarded (.x 0) (.z 1) (.imm (-3))),
    (0x704000000000000000000000, .done, three plain (.x 0) (.x 0) (.x 0)),
    (0x708000800019000005FFFFF4, .callat, three plain (.o 6) (.z 1) (.imm (-3))),
    (0x70FAC080001A000014000000, .send, three guarded (.o 6) (.q 5) (.x 0)),
    (0x71000080001A000015FFFFF4, .jinit, three plain (.o 6) (.q 5) (.imm (-3))),
    (0x714000000002000014000000, .jarv, three plain (.x 0) (.q 5) (.x 0)),
    (0x71BAC0000002000014000000, .wmint, three guarded (.x 0) (.q 5) (.x 0)),
    (0x720000000002000015FFFFF4, .gform, three plain (.x 0) (.q 5) (.imm (-3))),
    (0x724000000000000000000000, .gleave, three plain (.x 0) (.x 0) (.x 0)),
    (0x72BAC0000026000014000000, .barArv, three guarded (.x 9) (.q 5) (.x 0)),
    (0x72C000000026000014000000, .barDrop, three plain (.x 9) (.q 5) (.x 0)),
    (0x730000000002000015FFFFF4, .barWait, three plain (.x 0) (.q 5) (.imm (-3))),
    (0x737AC0000026000014000000, .barQry, three guarded (.x 9) (.q 5) (.x 0)),
    (0x738000000002000015FFFFF4, .hset, three plain (.x 0) (.q 5) (.imm (-3))),
    (0x73C000000002000014000000, .hlock, three plain (.x 0) (.q 5) (.x 0)),
    (0x743AC0000002000014000000, .hunlock, three guarded (.x 0) (.q 5) (.x 0)),
    (0x744000000026000014000000, .sdom, three plain (.x 9) (.q 5) (.x 0))] = true := by decide

/-- Group 8 of R50, vector. -/
theorem test_decode_group_8_a : reads [
    (0x80000280003A80002080000B, .vadd, three plain (.v 14) (.v 8) (.o 2)),
    (0x807AC280003A80002080000B, .vsub, three guarded (.v 14) (.v 8) (.o 2)),
    (0x80800280003A80002080000B, .vmul, three plain (.v 14) (.v 8) (.o 2)),
    (0x80C00280003A80002080000B, .vdiv, three plain (.v 14) (.v 8) (.o 2)),
    (0x813AC280003A80002080000B, .vfma, three guarded (.v 14) (.v 8) (.o 2)),
    (0x81400280003A80002080000B, .vmin, three plain (.v 14) (.v 8) (.o 2)),
    (0x81800280003A80002080000B, .vmax, three plain (.v 14) (.v 8) (.o 2)),
    (0x81FAC280003A800020000003, .vabs, three guarded (.v 14) (.v 8) (.x 0)),
    (0x82000280003A800020000003, .vneg, three plain (.v 14) (.v 8) (.x 0)),
    (0x82400280003A800020000003, .vrcp, three plain (.v 14) (.v 8) (.x 0)),
    (0x82BAC280003A800020000003, .vrsq, three guarded (.v 14) (.v 8) (.x 0)),
    (0x82C00280003A800020000003, .vexp2, three plain (.v 14) (.v 8) (.x 0)),
    (0x84000280003A80002080000B, .vand, three plain (.v 14) (.v 8) (.o 2)),
    (0x847AC280003A80002080000B, .vor, three guarded (.v 14) (.v 8) (.o 2)),
    (0x84800280003A80002080000B, .vxor, three plain (.v 14) (.v 8) (.o 2)),
    (0x84C00280003A800020000003, .vnot, three plain (.v 14) (.v 8) (.x 0)),
    (0x853AC280003A80002080000B, .vshl, three guarded (.v 14) (.v 8) (.o 2)),
    (0x85400280003A80002080000B, .vshr, three plain (.v 14) (.v 8) (.o 2)),
    (0x85800280003A80002080000B, .vsar, three plain (.v 14) (.v 8) (.o 2)),
    (0x863AC2A0001A80002080000B, .vceq, three guarded (.m 6) (.v 8) (.o 2)),
    (0x864002A0001A80002080000B, .vcne, three plain (.m 6) (.v 8) (.o 2)),
    (0x868002A0001A80002080000B, .vclt, three plain (.m 6) (.v 8) (.o 2)),
    (0x86FAC2A0001A80002080000B, .vcle, three guarded (.m 6) (.v 8) (.o 2)),
    (0x88000280003A80002080000B, .vsel, three plain (.v 14) (.v 8) (.o 2))] = true := by decide

/-- Group 8 of R50, vector. -/
theorem test_decode_group_8_b : reads [
    (0x88400280003A80000C000003, .vmov, three plain (.v 14) (.v 3) (.x 0)),
    (0x88BAC2800039000004000003, .vbcast, three guarded (.v 14) (.z 1) (.x 0)),
    (0x88C00280003A80000D800027, .vcvt, three plain (.v 14) (.v 3) (.imm 9)),
    (0x890002800039000004800013, .vld, three plain (.v 14) (.z 1) (.o 4)),
    (0x897AC2800039000004800013, .vst, three guarded (.v 14) (.z 1) (.o 4)),
    (0x898002800039000004800013, .vldd, three plain (.v 14) (.z 1) (.o 4)),
    (0x89C00200000A80000C800013, .vpush, three plain (.q 2) (.v 3) (.o 4)),
    (0x8A3AC280003A000004800013, .vpop, three guarded (.v 14) (.q 1) (.o 4)),
    (0x8C000280003A80000C000003, .vrsum, three plain (.v 14) (.v 3) (.x 0)),
    (0x8C400280003A80000C000003, .vrmax, three plain (.v 14) (.v 3) (.x 0)),
    (0x8CBAC280003A80000C000003, .vtrn, three guarded (.v 14) (.v 3) (.x 0)),
    (0x8CC00280003A80000E80002F, .vshf, three plain (.v 14) (.v 3) (.v 11))] = true := by decide

/-- Group 9 of R50, masks. -/
theorem test_decode_group_9 : reads [
    (0x900002A0001AA00006A0000F, .mand, three plain (.m 6) (.m 1) (.m 3)),
    (0x907AC2A0001AA00006A0000F, .mor, three guarded (.m 6) (.m 1) (.m 3)),
    (0x908002A0001AA00006A0000F, .mxor, three plain (.m 6) (.m 1) (.m 3)),
    (0x90C002A0001AA00004000003, .mnot, three plain (.m 6) (.m 1) (.x 0)),
    (0x913AC2A00019000004000003, .mset, three guarded (.m 6) (.z 1) (.x 0)),
    (0x914002A00018000000000003, .mclr, three plain (.m 6) (.x 0) (.x 0)),
    (0x918002A00019000004000003, .mld, three plain (.m 6) (.z 1) (.x 0)),
    (0x91FAC2A00019000004000003, .mst, three guarded (.m 6) (.z 1) (.x 0)),
    (0x920000000026A00004000000, .mAny, three plain (.x 9) (.m 1) (.x 0)),
    (0x924000000026A00004000000, .mPopc, three plain (.x 9) (.m 1) (.x 0)),
    (0x92BAC0000026A00004000000, .mFirst, three guarded (.x 9) (.m 1) (.x 0))] = true := by decide

/-- Group A of R50, matrix and copy. -/
theorem test_decode_group_A : reads [
    (0xA00002C0000E80001C000013, .mmaB8, three plain (.t 3) (.v 7) (.x 4)),
    (0xA04002C0000E80001C000013, .mmaF16, three plain (.t 3) (.v 7) (.x 4)),
    (0xA0BAC2C0000E80001C000013, .mmaBf16, three guarded (.t 3) (.v 7) (.x 4)),
    (0xA0C002C0000C000000000003, .mzero, three plain (.t 3) (.x 0) (.x 0)),
    (0xA10002C0000D000004800013, .acld, three plain (.t 3) (.z 1) (.o 4)),
    (0xA17AC2C0000D000004800013, .acst, three guarded (.t 3) (.z 1) (.o 4)),
    (0xA18002C00006800015800027, .acmv, three plain (.t 1) (.v 5) (.imm 9)),
    (0xA2000280003AC00009800027, .rstat, three plain (.v 14) (.t 2) (.imm 9)),
    (0xA43AC1000005000005FFFFF7, .cpy, three guarded (.z 1) (.z 1) (.imm (-3))),
    (0xA44001000005000005FFFFF7, .cpy2d, three plain (.z 1) (.z 1) (.imm (-3))),
    (0xA48001000006000015FFFFF7, .cpyFill, three plain (.z 1) (.q 5) (.imm (-3))),
    (0xA4FAC1000005000005FFFFF7, .cpyGth, three guarded (.z 1) (.z 1) (.imm (-3)))] = true := by decide

/-- Group B of R50, selection. -/
theorem test_decode_group_B : reads [
    (0xB00000000000000018800013, .crdOpen, three plain (.x 0) (.x 6) (.o 4)),
    (0xB04001000005000004000003, .crdDig, three plain (.z 1) (.z 1) (.x 0)),
    (0xB0BAC1000005000004800013, .crdWdig, three guarded (.z 1) (.z 1) (.o 4)),
    (0xB0C001000005000004000003, .crdPlane, three plain (.z 1) (.z 1) (.x 0)),
    (0xB10000000001000004000003, .crdElim, three plain (.x 0) (.z 1) (.x 0)),
    (0xB17AC1000005000004800013, .crdRes, three guarded (.z 1) (.z 1) (.o 4)),
    (0xB18000000001000004000003, .crdWait, three plain (.x 0) (.z 1) (.x 0)),
    (0xB1C000000001000004000003, .crdClose, three plain (.x 0) (.z 1) (.x 0))] = true := by decide

/-- Group C of R50, key-value and sampler. -/
theorem test_decode_group_C : reads [
    (0xC03AC0000026000015FFFFF4, .kvNew, three guarded (.x 9) (.q 5) (.imm (-3))),
    (0xC04000000002000014000000, .kvDrop, three plain (.x 0) (.q 5) (.x 0)),
    (0xC0800080001A000015FFFFF4, .kvApp, three plain (.o 6) (.q 5) (.imm (-3))),
    (0xC0FAC0000026000014000000, .kvLen, three guarded (.x 9) (.q 5) (.x 0)),
    (0xC1000200001A000015FFFFF4, .kvRef, three plain (.q 6) (.q 5) (.imm (-3))),
    (0xC14000000002000015FFFFF4, .kvCut, three plain (.x 0) (.q 5) (.imm (-3))),
    (0xC23AC0000026000015FFFFF4, .lfArm, three guarded (.x 9) (.q 5) (.imm (-3))),
    (0xC2400200001A000014000000, .lfTop, three plain (.q 6) (.q 5) (.x 0)),
    (0xC28000000026000014000000, .lfSum, three plain (.x 9) (.q 5) (.x 0)),
    (0xC2FAC0000002000014000000, .lfEnd, three guarded (.x 0) (.q 5) (.x 0)),
    (0xC30000000002000015FFFFF4, .stopSet, three plain (.x 0) (.q 5) (.imm (-3))),
    (0xC34000000002000014000000, .stopClr, three plain (.x 0) (.q 5) (.x 0))] = true := by decide

/-- Group D of R50, retirement. -/
theorem test_decode_group_D : reads [
    (0xD03AC0000026000015FFFFF4, .trOpen, three guarded (.x 9) (.q 5) (.imm (-3))),
    (0xD04000000026000014000000, .trCall, three plain (.x 9) (.q 5) (.x 0)),
    (0xD08000000026000015FFFFF4, .trPut, three plain (.x 9) (.q 5) (.imm (-3))),
    (0xD0FAC0000002000015FFFFF4, .trConf, three guarded (.x 0) (.q 5) (.imm (-3))),
    (0xD10000000002000015FFFFF4, .trMiss, three plain (.x 0) (.q 5) (.imm (-3))),
    (0xD14000000002000014000000, .trClose, three plain (.x 0) (.q 5) (.x 0)),
    (0xD1BAC0000026000015FFFFF4, .trQry, three guarded (.x 9) (.q 5) (.imm (-3))),
    (0xD1C000000026000015FFFFF4, .trLim, three plain (.x 9) (.q 5) (.imm (-3))),
    (0xD20000000026000015FFFFF4, .emit, three plain (.x 9) (.q 5) (.imm (-3))),
    (0xD33AC0000026000015FFFFF4, .dtNode, three guarded (.x 9) (.q 5) (.imm (-3))),
    (0xD34000000026000015FFFFF4, .dtAccept, three plain (.x 9) (.q 5) (.imm (-3))),
    (0xD38000000002000014000000, .dtReset, three plain (.x 0) (.q 5) (.x 0))] = true := by decide

/-- Group E of R50, traps and continuations. -/
theorem test_decode_group_E : reads [
    (0xE03AC0000002000014000000, .trap, three guarded (.x 0) (.q 5) (.x 0)),
    (0xE04000000002000014000000, .brk, three plain (.x 0) (.q 5) (.x 0)),
    (0xE08000000002000015FFFFF4, .tret, three plain (.x 0) (.q 5) (.imm (-3))),
    (0xE0FAC0000026000014000000, .lkill, three guarded (.x 9) (.q 5) (.x 0)),
    (0xE10000000002000014000000, .tvset, three plain (.x 0) (.q 5) (.x 0)),
    (0xE14000000002000015FFFFF4, .frset, three plain (.x 0) (.q 5) (.imm (-3))),
    (0xE43AC080001A000015FFFFF4, .suspendDrain, three guarded (.o 6) (.q 5) (.imm (-3))),
    (0xE4400080001A000015FFFFF4, .suspendRecord, three plain (.o 6) (.q 5) (.imm (-3))),
    (0xE48000000026000015FFFFF4, .resume, three plain (.x 9) (.q 5) (.imm (-3))),
    (0xE4FAC080001A000015FFFFF4, .ccopy, three guarded (.o 6) (.q 5) (.imm (-3))),
    (0xE50000000002000014000000, .cdisc, three plain (.x 0) (.q 5) (.x 0)),
    (0xE54000000026000015FFFFF4, .cinsp, three plain (.x 9) (.q 5) (.imm (-3))),
    (0xE5BAC0000000000000000000, .gthaw, three guarded (.x 0) (.x 0) (.x 0)),
    (0xE5C000000026000015FFFFF4, .crights, three plain (.x 9) (.q 5) (.imm (-3)))] = true := by decide

/-- Group F of R50, collectives, counters and loft. -/
theorem test_decode_group_F : reads [
    (0xF00000000026000015FFFFF4, .collSmp, three plain (.x 9) (.q 5) (.imm (-3))),
    (0xF07AC0000026000015FFFFF4, .collRed, three guarded (.x 9) (.q 5) (.imm (-3))),
    (0xF08000000026000015FFFFF4, .ckptSave, three plain (.x 9) (.q 5) (.imm (-3))),
    (0xF0C000000026000014000000, .ckptCommit, three plain (.x 9) (.q 5) (.x 0)),
    (0xF13AC0000026000015FFFFF4, .ecntSel, three guarded (.x 9) (.q 5) (.imm (-3))),
    (0xF14000000026000014000000, .ecntRd, three plain (.x 9) (.q 5) (.x 0)),
    (0xF800020000190000047FFFC2, .hrd, mem plain (.q 6) (.z 1) .core 0x1FFFF0),
    (0xF87AC20000190000047FFFC2, .hwr, mem guarded (.q 6) (.z 1) .core 0x1FFFF0),
    (0xF8800200001A000015FFFFF4, .push, three plain (.q 6) (.q 5) (.imm (-3))),
    (0xF8C00200001A000015FFFFF4, .push2d, three plain (.q 6) (.q 5) (.imm (-3))),
    (0xF93AC200001A000015FFFFF4, .pushFill, three guarded (.q 6) (.q 5) (.imm (-3))),
    (0xF94000000002000014000000, .hpf, three plain (.x 0) (.q 5) (.x 0)),
    (0xF98000000026000014000000, .keysel, three plain (.x 9) (.q 5) (.x 0)),
    (0xF9FAC0000024000000000000, .hfence, three guarded (.x 9) (.x 0) (.x 0))] = true := by decide
/-- The words worked in the manual (R50, R99, R124, R162, R171 to R173, R227, R230, R261, R274, R281, R293, R296, R324, R339,
R340, R342, R367, R368, R399, R404). -/
theorem test_decode_worked_words : reads [
    (0x0C8003800024000009800000, .cne .w64, three plain (.g 1) (.x 2) (.imm 0)),
    (0x00288100000000001000000C, .add .w64, three ⟨true, 2, 1, false, false, false⟩ (.z 0) (.x 4) (.x 3)),
    (0x64800000000C00001C000142, .ldfC .w32, mem plain (.x 3) (.x 7) .core 80),
    (0x508000000014000019000002, .amadd .w64 .rel, mem plain (.x 5) (.x 6) .yard 0),
    (0x530010000034000011800002, .amin .n .plain, mem stay (.x 13) (.x 4) .module 0),
    (0x868002A00005800002800003, .vclt, three plain (.m 1) (.imm 0) (.v 0)),
    (0xA04002C00002800000000013, .mmaF16, three plain (.t 0) (.v 0) (.x 4)),
    (0xA2000280000AC00001800013, .rstat, three plain (.v 2) (.t 0) (.imm 4)),
    (0xB0800000001980141000001F, .crdWdig, three plain (.x 6) (.imm 0x504) (.x 7)),
    (0xB04000000018000028000003, .crdDig, three plain (.x 6) (.x 10) (.x 0)),
    (0xB1400000001D80000000000B, .crdRes, three plain (.x 7) (.imm 0) (.x 2)),
    (0xC20000000008000000000004, .lfArm, three plain (.x 2) (.x 0) (.x 1)),
    (0xD0800000000C000004000008, .trPut, three plain (.x 3) (.x 1) (.x 2)),
    (0xD0C000000000000005800008, .trConf, three plain (.x 0) (.x 1) (.imm 2)),
    (0xD20000000010000004000024, .emit, three plain (.x 4) (.x 1) (.x 9)),
    (0x72A80000001000001C000000, .barArv, three ⟨true, 2, 0, false, false, false⟩ (.x 4) (.x 7) (.x 0)),
    (0x73000000000000001C000010, .barWait, three plain (.x 0) (.x 7) (.x 4)),
    (0xF0000000000C000004000008, .collSmp, three plain (.x 3) (.x 1) (.x 2))] = true := by decide

/-- The bytes of a word at rising addresses (R40): the words of R162, R99 and R124. -/
theorem test_decode_bytes :
    decode none [0xA0, 0x0F, 0x80, 0x25, 0, 0, 0, 0, 0, 0, 0, 0x70] = .ok ⟨.fork, three plain (.x 0) (.x 9) (.imm 1000)⟩ ∧
    decode none [0, 0, 0, 0x08, 0, 0, 0x2C, 0, 0x80, 0x03, 0x80, 0x23] = .ok ⟨.gres, three plain (.g 3) (.x 2) (.x 0)⟩ ∧
    decode none [0x40, 0, 0x80, 0x0D, 0, 0, 0x18, 0, 0, 0, 0x40, 0x3B] =
      .ok ⟨.cvtB8F32, three plain (.x 6) (.x 3) (.imm 0x10)⟩ := by decide

/-- A word whose fields are these numbers, with no guard. -/
def word_ (opc hints d a b cls : Nat) : Nat := opc * 2 ^ 86 + hints * 2 ^ 74 + d * 2 ^ 50 + a * 2 ^ 26 + b * 2 ^ 2 + cls

/-- What is wrong with a word. -/
def wrong (p : Option Profile) (w : Nat) : Option Illegal := match decodeWord p w with | .ok _ => none | .error e => some e

/-- ILL.OPC and ILL.PROF (R47): a code that no row lists, and a loft form on a compute core. -/
theorem test_wrong_opcode : wrong none (word_ 0x02F 0 0 0 0 0) = some .opc ∧ wrong none (word_ 0x10E 0 0 0 0 2) = some .opc ∧
    wrong (some .compute) (word_ 0x3E2 0 0 0 0 0) = some .prof ∧ wrong (some .loft) (word_ 0x200 0 0 0 0 0) = some .prof ∧
    wrong (some .management) (word_ 0x1C0 0 0 0 0 0) = some .prof ∧ wrong (some .management) (word_ 0x090 0 0 0 0 0) = none := by
  decide

/-- The detail codes of ILL.FORM, the first failing field first (R47): CLS; TKN, STAY and a reserved bit; kind 3, a bit that
must be zero, a file that names nothing and an odd index in D; A; B; SC; and STAY with a D other than q7 (R219). -/
theorem test_wrong_form :
    [(0x000, 0, 0, 0, 0, 1), (0x000, 8, 0, 0, 0, 0), (0x107, 4, 0, 0, 0, 2), (0x000, 1, 0, 0, 0, 0), (0x000, 0, 0x600000, 0, 0, 0),
      (0x108, 0, 0x600000, 0, 0, 2), (0x290, 0, 0x600000, 0, 0, 3), (0x000, 0, 0x10, 0, 0, 0), (0x200, 0, 0xB80000, 0, 0, 3),
      (0x107, 0, 3, 0, 0, 2), (0x100, 4, 0, 0, 0, 2), (0x03C, 0, 0xC00018, 0, 0, 0), (0x03C, 0, 0xC00001, 0xC00001, 0, 0),
      (0x000, 0, 0, 0xE00000, 0, 0), (0x028, 0, 0, 0, 1, 0), (0x100, 0, 0, 0, 0x200000, 2), (0x140, 0, 0, 0, 0xA00000, 2),
      (0x090, 0, 1, 1, 1, 0), (0x03E, 0, 0, 1, 0, 1)].map (fun f => wrong none (word_ f.1 f.2.1 f.2.2.1 f.2.2.2.1 f.2.2.2.2.1 f.2.2.2.2.2)) =
      [1, 2, 2, 2, 3, 3, 3, 3, 3, 3, 3, 3, 4, 4, 5, 5, 5, 3, 4].map fun k => some (.form k) := by decide

/-! Well-formed terms, and an ill-formed one for each check -/

theorem test_wf_good : Decoded.wf ⟨.add .w64, three guarded (.x 1) (.x 2) (.imm 3)⟩ = true ∧
    Decoded.wf ⟨.brOffset, long taken (.x 0) 5⟩ = true ∧ Decoded.wf ⟨.ld .w32, mem stay (.q 7) (.x 1) .core 8⟩ = true := by decide

/-- Hints: TKN where no branch is, STAY where none is listed. -/
theorem test_wf_hints : Decoded.wf ⟨.add .w64, three taken (.x 1) (.x 2) (.x 3)⟩ = false ∧
    Decoded.wf ⟨.ldp128, mem stay (.x 2) (.x 1) .core 0⟩ = false := by decide

/-- Fields: D, A and B outside their kind sets, an immediate in D, and a field with no use. -/
theorem test_wf_fields : Decoded.wf ⟨.add .w64, three plain (.g 1) (.x 2) (.x 3)⟩ = false ∧
    Decoded.wf ⟨.add .w64, three plain (.x 1) (.v 2) (.x 3)⟩ = false ∧
    Decoded.wf ⟨.add .w64, three plain (.x 1) (.x 2) (.b 3)⟩ = false ∧
    Decoded.wf ⟨.st .w64, mem plain (.imm 1) (.x 1) .core 0⟩ = false ∧
    Decoded.wf ⟨.not64, three plain (.x 1) (.x 2) (.x 3)⟩ = false := by decide

/-- Parts: IMM48 outside class 01, an offset outside class 10, a scope where it has no meaning, and IMM48 too large. -/
theorem test_wf_parts : Decoded.wf ⟨.nop, long plain (.x 0) 1⟩ = false ∧ Decoded.wf ⟨.nop, mem plain (.x 0) (.x 0) .core 4⟩ = false ∧
    Decoded.wf ⟨.ld .w64, mem plain (.x 0) (.x 0) .yard 0⟩ = false ∧ Decoded.wf ⟨.movh64, long plain (.x 0) 0x10000⟩ = false := by
  decide

/-- A row that the fields do not name, and a row that is an event. -/
theorem test_wf_row : Decoded.wf ⟨.mov64Reg, three plain (.sr 1) (.x 0) (.x 0)⟩ = false ∧
    Decoded.wf ⟨.stealAttempt, three plain (.x 0) (.x 0) (.x 0)⟩ = false := by decide

/-! One step of single instructions -/

/-- One strand that issues on compute core 0, in context 1, with half of the weight of a launch (R25, R149). -/
def hart : State := bootstrap State.reset 0

/-- The same on the first loft core. -/
def loftHart : State := bootstrap State.reset 0x100000

/-- A state with an x-register of the strand in focus set. -/
def setX (i : Fin 16) (v : Word) (s : State) : State := s.modSt fun st => { st with x := st.x.set i v }

/-- A state whose instruction in hand has these operands. -/
def doing (o : Operands) (s : State) : State := { s with ir := o }

/-- The next state, where there is one. -/
def after (r : Host.Outcome State Fault Refusal) : State := match r with | .next t => t | _ => State.reset

/-- The last result on its way to a register. -/
def result (r : Host.Outcome State Fault Refusal) : Option (RegName × Word) :=
  (after r).me.inflight.getLast?.map fun l => (l.reg, l.val)

/-- What an instruction gives of two sources, for D x3, whose value is `d`. -/
def of2 (i : Instr) (a b : Word) (d : Word := 0) : Option Word :=
  match result (exec i (doing (three plain (.x 3) (.x 1) (.x 2)) (setX 1 a (setX 2 b (setX 3 d hart))))) with
  | some (.x 3, v) => some v
  | _ => none

/-- What an instruction gives of one source. -/
def of1 (i : Instr) (a : Word) : Option Word := of2 i a 0

/-- What a comparison writes into its guard. -/
def cmp (i : Instr) (a b : Word) : Option Word :=
  match result (exec i (doing (three plain (.g 3) (.x 1) (.x 2)) (setX 1 a (setX 2 b hart)))) with
  | some (.g 3, v) => some v
  | _ => none

/-- Groups 0 and 1: R81 to R87, with the results those rules give. -/
theorem test_integer :
    of2 (.add .w8) 0x1FF 2 = some 1 ∧ of2 (.sub .w64) 0 1 = some 0xFFFF_FFFF_FFFF_FFFF ∧ of2 (.mul .w16) 0x8001 2 = some 2 ∧
    of2 (.mulh .i64) 0xFFFF_FFFF_FFFF_FFFF 1 = some 0xFFFF_FFFF_FFFF_FFFF ∧ of2 (.mulh .n64) (2 ^ 63) 2 = some 1 ∧
    of2 (.rem .i32) 0xFFFF_FFF9 2 = some 0xFFFF_FFFF ∧ of2 (.div .i64) (2 ^ 63) 0xFFFF_FFFF_FFFF_FFFF = some (2 ^ 63) ∧
    of2 (.div .n32) 5 0 = some 0xFFFF_FFFF ∧ of2 (.rem .i32) 5 0 = some 5 ∧ of2 (.min .i32) 0xFFFF_FFFF 0 = some 0xFFFF_FFFF ∧
    of2 (.max .n64) 3 0xFFFF_FFFF_FFFF_FFFF = some 0xFFFF_FFFF_FFFF_FFFF ∧ of2 (.subs .n32) 0 1 = some 0 ∧
    of2 (.adds .i32) 0x7FFF_FFFF 1 = some 0x7FFF_FFFF ∧ of1 (.neg .w32) 1 = some 0xFFFF_FFFF ∧
    of1 (.sext .w8) 0x180 = some 0xFFFF_FFFF_FFFF_FF80 := by decide +kernel

/-- R87: a comparison of the low bits, signed and unsigned. -/
theorem test_comparisons :
    cmp (.ceq .w32) 0x1_0000_0005 5 = some 1 ∧ cmp (.cne .w64) 0x1_0000_0005 5 = some 1 ∧
    cmp (.clt .i32) 0xFFFF_FFFF 0 = some 1 ∧ cmp (.clt .n32) 0xFFFF_FFFF 0 = some 0 ∧ cmp (.cle .n64) 7 7 = some 1 := by decide +kernel

/-- R91 to R95: the examples of `andn`, `shr`, `clz`, `bext` and `psar.p16`, and amounts of the width and above. -/
theorem test_bits :
    of2 .andn64 0x1237 0xF = some 0x1230 ∧ of2 (.shr .w32) 0x80 3 = some 0x10 ∧ of2 (.shl .w32) 1 32 = some 0 ∧
    of2 (.sar .w8) 0x80 200 = some 0xFF ∧ of2 (.rol .w16) 0x8001 17 = some 3 ∧ of2 (.ror .w8) 1 9 = some 0x80 ∧
    of1 (.clz .w64) 0 = some 64 ∧ of1 (.ctz .w16) 0x10000 = some 16 ∧ of1 (.popc .w8) 0x1FF = some 8 ∧
    of2 .bext64 0x1F00 0x0805 = some 0x1F ∧ of2 .bins64 3 0x0402 0xFFFF = some 0xFFFF ∧
    of1 .bswap64 0x0102_0304_0506_0708 = some 0x0807_0605_0403_0201 ∧ of1 .brev64 1 = some (2 ^ 63) ∧
    of1 (.zext .w16) 0x12345 = some 0x2345 ∧ of2 (.padd .p8) 0x01FF 0x0101 = some 0x0200 ∧
    of2 (.psar .p16) 0x8000_7FFF_F000_0010 0x0010_000F_0004_0102 = some 0xFFFF_0000_FF00_0000 := by decide +kernel

/-- R89, R90: an immediate sign-extended, an address relative to PC, and the high part of 2^63. -/
theorem test_moves :
    result (exec .mov64LongImm (doing (long plain (.x 4) 0xFFFF_FFFF_FFFF) hart)) = some (.x 4, 0xFFFF_FFFF_FFFF_FFFF) ∧
    result (exec .mov64PcRel (doing (long plain (.x 4) 24) hart)) = some (.x 4, 0x80_0000_0000_0018) ∧
    result (exec .movh64 (doing (long plain (.x 0) 0x8000) hart)) = some (.x 0, 0x8000_0000_0000_0000) ∧
    result (exec .mov64Reg (doing (three plain (.x 6) (.sr 8) (.x 0)) hart)) = some (.x 6, 0) := by decide +kernel

/-- R100: false decides `gand` while the other guard is pending; R99: a guard that is not pending raises GUARD.STATE (R101)
and leaves its trap frame when TVEC is set. -/
theorem test_guards :
    let s := hart.modSt fun st => { st with g := #v[.t, .p, .f, .f, .f, .f, .f, .f] }
    result (exec .gand (doing (three plain (.g 3) (.g 1) (.g 2)) s)) = some (.g 3, 0) ∧
    result (exec .gor (doing (three plain (.g 3) (.g 1) (.g 2)) s)) = some (.g 3, 2) ∧
    result (exec .gnot (doing (three plain (.g 3) (.g 1) (.x 0)) s)) = some (.g 3, 2) ∧
    result (exec .gres (doing (three plain (.g 1) (.imm 7) (.x 0)) s)) = some (.g 1, 1) ∧
    (after (exec .gres (doing (three plain (.g 2) (.imm 7) (.x 0)) s))).me.inflight = [] := by decide +kernel

/-- R103, R104: a taken branch of −1 words, and a call with its link in x15 at the next word. -/
theorem test_branches :
    (after (exec .brOffset (doing (long plain (.x 0) 0xFFFF_FFFF_FFFF) hart))).st.pc = 0x7F_FFFF_FFFF_FFF4 ∧
    (after (exec .callOffset (doing (long taken (.x 0) 3) hart))).st.pc = 0x80_0000_0000_0024 ∧
    result (exec .callOffset (doing (long taken (.x 0) 3) hart)) = some (.x 15, 0x80_0000_0000_000C) ∧
    (after (exec .ret (doing (three plain (.x 0) (.x 0) (.x 0)) (setX 15 0x1000 hart)))).st.pc = 0x1000 := by decide +kernel

/-- R45: a guard that fails only uses the issue; R44: an empty queue as a source leaves the strand WAITING. -/
theorem test_issue :
    (after (exec (.add .w64) (doing (three guarded (.x 3) (.x 1) (.x 2)) (hart.modSt fun st =>
      { st with g := #v[.t, .t, .t, .t, .t, .t, .t, .t] })))).me.inflight = [] ∧
    (after (exec (.add .w64) (doing (three plain (.x 3) (.q 1) (.x 2)) hart))).me.mode = .waiting ∧
    (after (exec .nop (doing (three plain (.x 0) (.x 0) (.x 0)) hart))).st.pc = 0x80_0000_0000_000C := by decide +kernel

/-- The single rounding of R112 and the two of R110: the manual's worked task, and conversions of R119, R121, R124. -/
theorem test_float :
    of2 .mulF32 0x3F80_0800 0x3F80_0800 = some 0x3F80_1000 ∧ of2 .addF32 0x3F80_1000 0xBF80_0000 = some 0x3A00_0000 ∧
    of2 .fmaF32 0x3F80_0800 0x3F80_0800 0xBF80_0000 = some 0x3A00_0400 ∧ of2 .divF32 0x3F80_0000 0 = some 0x7F80_0000 ∧
    of1 .sqrtF32 0x4080_0000 = some 0x4000_0000 ∧ of1 .exp2F32 0x4040_0000 = some 0x4100_0000 ∧
    of1 .log2F32 0x4100_0000 = some 0x4040_0000 ∧ of1 .negF32 0 = some 0x8000_0000 ∧
    of1 (.cvtIntFromF32 .i32) 0xC030_0000 = some 0xFFFF_FFFE ∧ of1 (.cvtIntFromF32 .i32) 0x4F32_D05E = some 0x7FFF_FFFF ∧
    of1 .cvtF16F32 0x477F_F000 = some 0x7C00 ∧ of1 .cvtF16F32 0x477F_EF00 = some 0x7BFF ∧
    of1 (.cvtF32FromInt .n32) 0x0100_0001 = some 0x4B80_0000 ∧ cmp .cltF32 0x7FC0_0000 0 = some 0 := by decide +kernel

/-- The codes worked under R72: narrowing to b8p4s and b8p4sf, with and without saturation. -/
theorem test_narrowing :
    let to_ := fun (a : Word) (f : BitVec 21) =>
      (result (exec .cvtB8F32 (doing (three plain (.x 3) (.x 1) (.imm f)) (setX 1 a hart)))).map (·.2)
    [0x3F80_0000, 0x3E99_999A, 0x4368_0000, 0x4370_0000, 0x3A00_0000, 0x3A40_0000, 0x8000_0000, 0x7FC0_0001].map (to_ · 0x10) =
      [0x40, 0x32, 0x7E, 0x7F, 0, 1, 0, 0x80].map some ∧
    to_ 0x4370_0000 0x30 = some 0x7E ∧ to_ 0x437A_0000 0x11 = some 0x80 ∧ to_ 0x437A_0000 0x31 = some 0x7F := by decide +kernel

/-- R75: the worked group, whose exact sum keeps 2^−20. -/
theorem test_group_sum :
    groupAdd 0x3F80_0000 [(value8 0x10 0x7E, value8 0x10 0x7E), (value8 0x10 1, value8 0x10 1), (value8 0x10 0xFE, value8 0x10 0x7E)] =
      0x3F80_0008 := by decide +kernel

/-- A state with a trap vector for context 1 (R351). -/
def vectored (s : State) : State := s.setContext 1 { s.context 1 with tvec := 0x2000 }

/-- The cause, detail and EPC of the frame that an instruction's trap leaves (R352). -/
def trapOf (r : Host.Outcome State Fault Refusal) : Option (Nat × Nat × Word) :=
  (after r).me.frames.head?.map fun f => (f.ecause.toNat % 2 ^ 16, f.ecause.toNat / 2 ^ 32, f.epc)

/-- Addresses, units and homes: the worked figures of R17, R178, R188 and R275. -/
theorem test_addresses :
    barnOf 0x028CA7 = 0x028CA0 ∧ localOf 0x028CA7 0x1_0014_6538_0100 = some (0x028CA7, 0x100) ∧
    localOf 0x028CA0 0x0138_0100 = some (0x028CA7, 0x100) ∧ loftUnit 0x1_2345_6000 = 0x110016 ∧
    rowAddr (0x1000, 0x0000_0100_0000_0200) 3 = 0x1630 := by decide +kernel

/-- R221 to R224: bytes lie little-endian, a narrow load extends, `st.4` writes the high half of a byte, and a misaligned
address raises ALIGN on the instruction. -/
theorem test_loads_and_stores :
    let s := setX 1 0x100 (hart.setBytes (localPlace 0 0x100) [0x01, 0x82, 0xFF, 0x80])
    result (exec (.ld .w32) (doing (mem plain (.x 3) (.x 1) .core 0) s)) = some (.x 3, 0x80FF_8201) ∧
    result (exec (.lds .w16) (doing (mem plain (.x 3) (.x 1) .core 0) s)) = some (.x 3, 0xFFFF_FFFF_FFFF_8201) ∧
    ((after (exec (.st .w16) (doing (mem plain (.x 2) (.x 1) .core 2) (setX 2 0x1234 s)))).num (localPlace 0 0x100) 4 =
      0x1234_8201) ∧
    ((after (exec .st4 (doing (mem plain (.x 6) (.x 1) .core 3) (setX 6 0x10A s)))).byte (localPlace 0 0x103) = 0xA0) ∧
    ((after (exec .st4 (doing (mem plain (.x 6) (.x 1) .core 3) (setX 6 0x11A s)))).byte (localPlace 0 0x103) = 0xA0) ∧
    trapOf (exec (.ld .w32) (doing (mem plain (.x 3) (.x 1) .core 2) (vectored s))) = some (0x0201, 0, 0x80_0000_0000_0000) := by
  decide +kernel

/-- R227, R228, R230, R231: an atomic gives the old value and writes the new, a failed compare writes nothing, a full/empty
store fills its granule and a consuming load empties it. -/
theorem test_atomics :
    let s := setX 1 0x100 (setX 2 5 (setX 3 9 (hart.setBytes (localPlace 0 0x100) (leBytes 8 7))))
    let at_ := fun i o => exec i (doing o s)
    let o := mem plain (.x 2) (.x 1) .core 0
    result (at_ (.amadd .w64 .plain) o) = some (.x 2, 7) ∧
    (after (at_ (.amadd .w64 .plain) o)).num (localPlace 0 0x100) 8 = 12 ∧
    (after (at_ (.amin .i .plain) o)).num (localPlace 0 0x100) 8 = 5 ∧
    result (at_ (.acas .w64 .plain) o) = some (.x 2, 7) ∧
    (after (at_ (.acas .w64 .plain) o)).num (localPlace 0 0x100) 8 = 7 ∧
    (after (at_ (.stf .w64) o)).isFull (localPlace 0 0x100) = true ∧
    result (at_ (.ldfC .w64) o) = none ∧
    (let t := after (exec (.ldfC .w64) (doing o (s.setFull (localPlace 0 0x100) true)))
     let u := after (beginSlot exec 0 0 (t.modMe fun sl => { sl with readyAt := 0 }))
     t.isFull (localPlace 0 0x100) = true ∧ u.isFull (localPlace 0 0x100) = false ∧ (u.slot 0 0).st.x[2] = 7 ∧
       (u.slot 0 0).mode = .issuing) := by
  decide +kernel

/-- R162, R166, R132: `fork` halves the weight of its task and buffers a record with x0 to x3; a budget of 0 raises REC.BAD. -/
theorem test_tasks :
    let s := setX 9 0x1000 (setX 0 42 hart)
    let f := after (exec .fork (doing (three plain (.x 0) (.x 9) (.imm 1000)) s))
    f.st.wgt = 2 ^ 62 ∧ (f.st.sends.map fun e => (e.q.weight, e.q.crec.budget, e.q.crec.arg[0], e.q.crec.code)) =
      [(2 ^ 62, 1000, 42, 0x1000)] ∧
    trapOf (exec .fork (doing (three plain (.x 0) (.x 9) (.imm 0)) (vectored s))) = some (0x0302, 0, 0x80_0000_0000_0000) ∧
    (after (exec .wmint (doing (three plain (.x 0) (.imm 0xF0000) (.x 0)) s))).st.wgt = 2 ^ 63 + 0xF0000 ∧
    (after (exec .done (doing (three plain (.x 0) (.x 0) (.x 0)) s))).me.mode = .empty := by decide +kernel

/-- R171, R172: the last member to arrive moves the phase on, and each is told the phase it arrived in. -/
theorem test_barrier :
    let s := setX 7 0x200 ((hart.setBytes (localPlace 0 0x200) (leBytes 16 (3 + 1 * 2 ^ 48 + 9 * 2 ^ 96))).modSt fun st =>
      { st with strid := 1 })
    let t := after (exec .barArv (doing (three plain (.x 4) (.x 7) (.x 0)) s))
    result (.next t) = some (.x 4, 9) ∧ t.num (localPlace 0 0x200) 16 = 3 + 10 * 2 ^ 96 ∧
    (after (exec .barWait (doing (three plain (.x 0) (.x 7) (.imm 9)) s))).me.mode = .waiting := by decide +kernel

/-- R352, R359, R366 to R370: `trap` saves the next word and its operand, `brk` its own word; `tret` resumes at EPC; `tvset`
tests its vector. -/
theorem test_traps :
    let s := vectored hart
    let t := after (exec .trap (doing (three plain (.x 0) (.imm 7) (.x 0)) s))
    trapOf (.next t) = some (0x0701, 7, 0x80_0000_0000_000C) ∧ t.me.mode = .handler ∧ t.st.pc = 0x2000 ∧
    trapOf (exec .brk (doing (three plain (.x 0) (.imm 3) (.x 0)) s)) = some (0x0702, 3, 0x80_0000_0000_0000) ∧
    (after (exec .tret (doing (three plain (.x 0) (.imm 0) (.imm 0)) t))).st.pc = 0x80_0000_0000_000C ∧
    (after (exec .tret (doing (three plain (.x 0) (.imm 0) (.imm 0)) t))).me.mode = .issuing ∧
    trapOf (exec .tvset (doing (three plain (.x 0) (.imm 2) (.x 0)) s)) = some (0x0708, 0, 0x80_0000_0000_0000) ∧
    ((after (exec .tvset (doing (three plain (.x 0) (.imm 0x3000) (.x 0)) s))).context 1).tvec = 0x3000 := by decide +kernel

/-- R355, R364: with TVEC 0 a trap kills its launch; `lkill` kills it too and its strand waits. -/
theorem test_kill :
    (((after (exec .trap (doing (three plain (.x 0) (.imm 7) (.x 0)) hart))).launch 1).map (·.state)) = some .killing ∧
    (((after (exec .lkill (doing (three plain (.x 1) (.imm 0) (.x 0)) hart))).launch 1).map (·.state)) = some .killing := by
  decide +kernel

/-- R248, R256 to R259: a command is taken with its scalar captured, starts, and writes its register when it completes. -/
theorem test_vector_command :
    let s := after (exec .vbcast (doing (three plain (.v 2) (.imm 5) (.x 0)) hart))
    let t := after (exec .engineCommandStart { s with ev := some (.engineCommandStart 0 .vector) })
    let u := after (exec .engineCommandComplete { t with ev := some (.engineCommandComplete 0 .vector) })
    (s.here.cmds.map fun x => (x.sa, x.phase)) = [(5, .queued)] ∧ (t.here.cmds.map (·.phase)) = [.executing] ∧
    u.here.cmds = [] ∧ u.here.v[2] ≠ 0 ∧ u.st.cseq = 1 := by decide +kernel

/-- R242, R243: `keysel` on a loft core gives the old PFMT and sets the new one; on a compute core its word is none (R50). -/
theorem test_keysel :
    (after (exec .keysel (doing (three plain (.x 2) (.imm 0x180) (.x 0)) loftHart))).me.pfmt = 0x180 ∧
    tagFmt 0x80 = 0x10 ∧ tagBlk 0x80 = 0 := by decide +kernel

/-- R77 with NH = 1: the keys of the weighted median's codes. -/
theorem test_keys : [0x40, 0xC0, 0x38, 0x48, 0, 0x44].map (image8 0x10 true) = [0xBF, 0x3F, 0xB7, 0xC7, 0x7F, 0xC3] := by
  decide +kernel

/-- R307: the worked rows of b8p4s: 100 takes scale 0x7F and code 0x74, 300 then needs 0x80, and the old codes follow. -/
theorem test_key_value_scales :
    firstScale 0x10 [⟨100, 0⟩] = some 0x7F ∧ scaledCode 0x10 0x7F ⟨100, 0⟩ = some 0x74 ∧
    nextScale 0x10 { PageDesc.none with fill := 1, scale := 0x7F } [⟨300, 0⟩] = some (0x80, 1) ∧
    scaledCode 0x10 0x80 ⟨300, 0⟩ = some 0x79 ∧ requantise 0x10 1 0x74 = 0x6C ∧ requantise 0x10 1 1 = 0 := by decide +kernel

/-- R321 to R323: the worked filter: M 2.0, S 0x4017_8B56, the shortlist, SEEN and NANCNT. -/
theorem test_logit_filter :
    let p := (List.zipIdx [0x3F80_0000, 0x4000_0000, 0xFF80_0000, 0x4000_0000, 0x7FC0_0000, 0xFF80_0000]).foldl
      (fun p e => FilterPart.take p 0 e.2 e.1) FilterPart.empty
    p.m = 0x4000_0000 ∧ p.s = 0x4017_8B56 ∧ p.best.take 3 = [(1, 0x4000_0000), (3, 0x4000_0000), (0, 0x3F80_0000)] ∧
    p.seen = 5 ∧ p.nans = 1 := by decide +kernel

/-- R399: the worked greedy merge of two members. -/
theorem test_collective :
    let c := fun (self base : Nat) (ms : Word) (i code : Nat) =>
      (⟨0, self, true, 3, 0, false, 0, BitVec.ofNat 32 base, ms, leBytes 16 1 ++ leBytes 4 i ++ leBytes 4 code, none⟩ : Contribution)
    foldSmp (fun _ => 0) [c 0 0 0x4000_0000_3FC0_0000 3 0x4000_0000, c 1 8 0x4040_0000_3F80_0000 1 0x4040_0000] =
      ⟨0, 9, 0x3F24_F7B9, []⟩ := by decide +kernel

/-- R404: hub counter 3 counts what its context selects: `ecnt.sel` gives the old code and clears the count. -/
theorem test_counters :
    trapOf (exec .ecntRd (doing (three plain (.x 5) (.imm 0xC4) (.x 0)) (vectored hart))) ≠ none ∧
    trapOf (exec .ecntRd (doing (three plain (.x 5) (.imm 0x110) (.x 0)) (vectored hart))) ≠ none := by decide +kernel

/-- R199: SM4 on the example of GB/T 32907, and the first two blocks of a data unit under SM4-XTS with the keys and the
tweak that OpenSSL's test vectors give (log 35: the cipher's tables are from outside the spec). -/
theorem test_cipher :
    sm4Block (sm4Keys 0x0123456789ABCDEFFEDCBA9876543210) 0x0123456789ABCDEFFEDCBA9876543210 =
      0x681EDF34D206965E86B3E94F536E4246 ∧
    (xtsUnit false 0x2B7E151628AED2A6ABF7158809CF4F3C000102030405060708090A0B0C0D0E0F
      0xfffefdfcfbfaf9f8f7f6f5f4f3f2f1f0 0x518eaf45ac6fb79e9cac031e578a2dae2a179373117e3de9969f402ee2bec16b).setWidth 256 =
      0x26839fb37dff635d578c40603e1adbb3d17b49ef3f48e4bb807b1dc7518253e9 := by
  decide +kernel

/-- R40, R134, log 10: the word placed where the next step fetches runs in that step, here `add.64 x1, x1, 4` of R81. -/
theorem test_step_runs_word :
    result (step (State.reset.withFetchWord 96 0x000000000004000005800010)) = some (.x 1, 4) ∧
    (after (step (State.reset.withFetchWord 96 0x000000000004000005800010))).st.pc = 0x80_0000_0000_000C := by decide +kernel

/-! For each statement a state and operands that meet its hypotheses, clause by clause -/

/-- Three register operands. -/
def regs : Operands := three plain (.x 3) (.x 1) (.x 2)

/-- The instruction in hand reads x1 and x2 and writes x3. -/
def reading (a b : Word) : State := doing regs (setX 1 a (setX 2 b hart))

theorem witness_IntegerAndBitwise : (reading (2 ^ 64 - 1) 1).Ready ∧ (reading (2 ^ 64 - 1) 1).ReadsAB (2 ^ 64 - 1) 1 (reading (2 ^ 64 - 1) 1) ∧
    (reading (2 ^ 64 - 1) 1).ReadsA (2 ^ 64 - 1) (reading (2 ^ 64 - 1) 1) ∧ (reading (2 ^ 64 - 1) 1).Room :=
  ⟨⟨rfl, rfl⟩, rfl, rfl, rfl⟩

theorem witness_ProductsDivisionAndClamping : (reading (2 ^ 63) 0).Ready ∧ (reading (2 ^ 63) 0).ReadsAB (2 ^ 63) 0 (reading (2 ^ 63) 0) ∧
    (reading (2 ^ 63) 0).Room := ⟨⟨rfl, rfl⟩, rfl, rfl⟩

theorem witness_ShiftsAndRotates : (reading 1 64).Ready ∧ (reading 1 64).ReadsAB 1 64 (reading 1 64) ∧ (reading 1 64).Room :=
  ⟨⟨rfl, rfl⟩, rfl, rfl⟩

theorem witness_BitsAndPackedLanes : (reading 5 0x3F7F).Ready ∧ (reading 5 0x3F7F).ReadsABD 5 0x3F7F 0 (reading 5 0x3F7F) ∧
    (reading 5 0x3F7F).ReadsAB 5 0x3F7F (reading 5 0x3F7F) ∧ (reading 5 0x3F7F).ReadsA 5 (reading 5 0x3F7F) ∧
    (reading 5 0x3F7F).Room := ⟨⟨rfl, rfl⟩, rfl, rfl, rfl, rfl⟩

/-- A strand whose guards are g0, a pending g1 and a false g2, for an instruction under guard `i`. -/
def guardedBy (i : Fin 8) (sense : Bool) : State :=
  doing (three ⟨sense, i, 0, false, false, false⟩ (.g 3) (.g 1) (.g 2))
    (hart.modSt fun st => { st with g := #v[.t, .p, .f, .t, .p, .f, .t, .p] })

theorem witness_GuardDecidesIssue : (guardedBy 0 true).ir.hd.gidx = 0 ∧ (guardedBy 0 true).cond = some false ∧
    (guardedBy 2 false).cond = some false ∧ (guardedBy 1 false).cond = none ∧ (guardedBy 1 false).me.live = true ∧
    engineForm (.add .w8) = false ∧ (Instr.add .w8).opc.isSome = true := by decide +kernel

/-- `mov.64` of a source. -/
def moving (a : Opd) : State := doing (three plain (.x 3) a (.x 0)) hart

theorem witness_RegisterFiles : (moving (.x 15)).Ready ∧ (moving (.x 15)).Room ∧ (moving (.imm (-1))).Room ∧ (moving (.o 7)).Ready ∧
    (moving (.o 7)).me.o[7].valid = false ∧ (moving (.z 1)).Ready ∧ (moving (.b 3)).Ready ∧ (moving (.b 3)).me.b[3].valid = false :=
  ⟨⟨rfl, rfl⟩, rfl, rfl, ⟨rfl, rfl⟩, rfl, ⟨rfl, rfl⟩, ⟨rfl, rfl⟩, rfl⟩

/-- An instruction with queue sources while the core's queues hold these entries. -/
def queued (qs : List QEntry) (d a b : Opd) : State := doing (three plain d a b) (hart.modCore 0 fun c => { c with qs := qs })

theorem witness_QueueOperands :
    let e : QEntry := ⟨3, 0, .word 7⟩
    let o : QEntry := ⟨3, 1, .word 9⟩
    (queued [o, e] (.x 3) (.q 3) (.x 0)).Ready ∧ (queued [o, e] (.x 3) (.q 3) (.x 0)).here.qs = [o] ++ e :: [] ∧
    (queued [o] (.x 3) (.q 3) (.x 0)).Room ∧ (queued [o] (.x 3) (.q 3) (.x 0)).here.qs = [o] ∧
    (queued [⟨7, 0, .failure .pfOwn 1 2 3⟩] (.x 3) (.q 7) (.x 0)).Ready ∧
    (queued [e, e] (.x 3) (.q 3) (.q 3)).Ready ∧ (queued [e, e] (.x 3) (.q 3) (.q 3)).here.qs = [] ++ e :: ([] ++ e :: []) ∧
    ¬ (queued [⟨1, 0, .word 0⟩, ⟨1, 0, .word 0⟩, ⟨1, 1, .word 0⟩, ⟨1, 2, .word 0⟩] (.q 1) (.q 3) (.x 0)).Room :=
  ⟨⟨rfl, rfl⟩, rfl, rfl, rfl, ⟨rfl, rfl⟩, ⟨rfl, rfl⟩, rfl, by unfold State.Room; decide +kernel⟩

/-- A queue of B that lacks an entry, beside a queue A and beside an o-register whose valid bit is clear. -/
theorem witness_QueueOperands_lack :
    let s := queued [⟨3, 0, .word 7⟩] (.x 3) (.q 3) (.q 4)
    s.Ready ∧ s.ir.b = .q 4 ∧ (∀ e ∈ s.here.qs, ¬ (e.q = 4 ∧ e.slot = s.focusK)) ∧ s.me.o[0].valid = false :=
  ⟨⟨rfl, rfl⟩, rfl, by decide +kernel, rfl⟩

/-- A core with results of slot 0 due in this cycle and later. -/
def landing : Core := ((hart.modSlot 0 0 fun sl => { sl with inflight := [⟨0, .x 3, 1⟩, ⟨0, .x 3, 2⟩, ⟨5, .z, 3⟩] }).core 0)

theorem witness_LandingOrder : (landing.slot 0).inflight.Pairwise (fun a b => a.at_ ≤ b.at_) ∧ 0 < landing.slots.length ∧
    (⟨0, .x 3, 1⟩ : Landing).reg = (⟨0, .x 3, 2⟩ : Landing).reg ∧ (⟨0, .x 3, 1⟩ : Landing).reg ≠ .z ∧
    (⟨5, .z, 3⟩ : Landing) ∈ (landing.slot 0).inflight ∧ 0 ∈ landing.candidates := by decide +kernel

theorem witness_RegisterFormsFrame : registerForm .nop = true ∧ (reading 1 2).Ready ∧ ∃ t, exec .nop (reading 1 2) = .next t :=
  ⟨rfl, ⟨rfl, rfl⟩, _, rfl⟩

theorem witness_GuardInstructions : (moving (.imm 0)).Ready ∧ (moving (.imm 0)).ReadsA 0 (moving (.imm 0)) ∧
    (guardedBy 0 false).Ready ∧ (guardedBy 0 false).Room ∧ (guardedBy 0 false).ir.a = .g 1 ∧ (guardedBy 0 false).ir.b = .g 2 ∧
    (doing (three plain (.g 1) (.imm 0) (.x 0)) (guardedBy 0 false)).st.guard (guardIdx (.g 1)) = .p ∧
    (doing (three plain (.g 2) (.imm 0) (.x 0)) (guardedBy 0 false)).st.guard (guardIdx (.g 2)) ≠ .p ∧
    (let s := doing (three plain (.g 0) (.imm 0) (.x 0)) (guardedBy 0 false)
     s.Ready ∧ s.Whole [s.ir.a] ∧ s.ir.d = .g 0) :=
  ⟨⟨rfl, rfl⟩, rfl, ⟨rfl, rfl⟩, rfl, rfl, rfl, by decide +kernel, by decide +kernel, ⟨rfl, rfl⟩, rfl, rfl⟩

theorem witness_Branches : (reading 0x1003 0).Ready ∧ (reading 0x1003 0).st.pc.toNat % 4 = 0 ∧
    (reading 0x1003 0).ReadsA 0x1003 (reading 0x1003 0) ∧ ((0x1003 : Word).setWidth 56).toNat % 4 ≠ 0 ∧
    (reading 0x1000 0).ReadsA 0x1000 (reading 0x1000 0) ∧ ((0x1000 : Word).setWidth 56).toNat % 4 = 0 :=
  ⟨⟨rfl, rfl⟩, by decide +kernel, rfl, by decide, rfl, by decide⟩

/-- A strand in prepare mode in cycle `n`, its `pbr` of b1 issued in cycle 10. -/
def prepared (n : Nat) : State :=
  ((doing (three taken (.b 1) (.x 1) (.x 0)) hart).modCore 0 fun c => { c with cyc := n }).modMe fun sl =>
    { sl with st := { sl.st with brmode := 1 }, pbrAt := #v[0, 10, 0, 0] }

theorem witness_BranchTiming : hart.st.brmode.getLsbD 0 = false ∧ (prepared 15).st.brmode.getLsbD 0 = true ∧
    (prepared 15).cyc = (prepared 15).me.pbrAt[1] + 5 ∧ (prepared 16).me.pbrAt[1] + 6 ≤ (prepared 16).cyc ∧
    (prepared 15).ir.d = .b 1 ∧ (prepared 15).Ready ∧ (prepared 15).ReadsA 0 (prepared 15) :=
  ⟨by decide +kernel, by decide +kernel, by decide +kernel, by decide +kernel, rfl, ⟨rfl, rfl⟩, rfl⟩

/-- A branch by its taken hint to x15, which has changed, and to x14, which has not. -/
theorem witness_BranchTiming_moved :
    let s := doing (three taken (.x 0) (.x 15) (.x 0)) (hart.modMe fun sl => { sl with changed := 0x8000 })
    s.ir.hd.tkn = true ∧ s.me.moved (.x 15) = true ∧ s.me.moved (.x 14) = false ∧ (moving (.x 0)).ir.hd.tkn = false := by
  decide +kernel

/-- A strand in its trap handler, its frame on the stack. -/
def handling : State := after (exec .trap (doing (three plain (.x 0) (.imm 7) (.x 0)) (vectored hart)))

/-- A write of a state register from x1, in the handler or not. -/
def writing (s : State) (n : Fin 24) (a : Word) : State := doing (three plain (.sr n) (.x 1) (.x 0)) (setX 1 a s)

theorem witness_MovesAndStateRegisters : (moving (.sr 23)).Ready ∧ (moving (.sr 0)).Room ∧ (moving (.sr 0)).me.mode ≠ .handler ∧
    (doing (three plain (.x 3) (.sr 16) (.x 0)) handling).me.mode = .handler ∧
    (doing (long plain (.x 3) 5) hart).Ready ∧ src (.x 3) (doing (long plain (.x 3) 5) hart) = .ok (0, doing (long plain (.x 3) 5) hart) ∧
    (writing hart 2 9).Ready ∧ movSrc (writing hart 2 9) = .ok (9, writing hart 2 9) ∧ (writing handling 16 0x1000).me.mode = .handler ∧
    movSrc (writing handling 16 0x1002) = .ok (0x1002, writing handling 16 0x1002) ∧ (writing hart 0 9).ir.d = .sr 0 :=
  ⟨⟨rfl, rfl⟩, rfl, by decide +kernel, by decide +kernel, ⟨rfl, rfl⟩, rfl, ⟨rfl, rfl⟩, rfl, by decide +kernel, rfl, rfl⟩

theorem witness_FloatArithmetic : (reading 0x3F80_0000 0).Ready ∧ (reading 0x3F80_0000 0).ReadsABD 0x3F80_0000 0 0 (reading 0x3F80_0000 0) ∧
    (reading 0x3F80_0000 0).Room ∧ isNan32 0x7F80_0001 = true ∧ isNan32 0x7F80_0000 = false ∧ (0x8000_0000 < 0x8000_0001) :=
  ⟨⟨rfl, rfl⟩, rfl, rfl, by decide, by decide, by decide⟩

theorem witness_FloatComparisonsAndConversions : (reading 0x7FC0_0000 0x30).Ready ∧
    (reading 0x7FC0_0000 0x30).ReadsAB 0x7FC0_0000 0x30 (reading 0x7FC0_0000 0x30) ∧ (reading 0x7FC0_0000 0x30).Room ∧
    ((0x30 : Word).toNat < 64 ∧ 4 ≤ (0x30 : Word).toNat % 32) ∧ (0x10 : Word).getLsbD 5 = false ∧ ¬ (4 ≤ (3 : Word).toNat % 32) ∧
    key32 0x8000_0001 < key32 0 ∧ ((reading 0x7FC0_0000 0x30).Whole [(reading 0x7FC0_0000 0x30).ir.a, (reading 0x7FC0_0000 0x30).ir.b]) ∧
    (reading 0x7FC0_0000 0x30).ReadsB 0x30 (reading 0x7FC0_0000 0x30) ∧ isNan32 0x3F80_0000 = false :=
  ⟨⟨rfl, rfl⟩, rfl, rfl, by decide, by decide, by decide, by decide, rfl, rfl, by decide⟩

/-- A memory form with base x1 and data x3. -/
def at_ (off : BitVec 21) (a d : Word) (s : State) : State := doing (mem plain (.x 2) (.x 1) .core off) (setX 1 a (setX 2 d s))

/-- A place of core 0's own memory through L, and one of core 1's through W. -/
def inL (off : Nat) (tag : BitVec 8) : Place := ⟨0, localPlace 0 off, some off, tag, false, false, true⟩
/-- A place of core 1's memory, in core 0's barn. -/
def inW (off : Nat) : Place := ⟨1, localPlace 1 off, some off, 0, false, false, false⟩

/-- A strand whose local memory from offset 0x1000 on has a frame tag. -/
def tagged (t : BitVec 8) : State := hart.setTag (localPlace 0 0x1000) t

theorem witness_Loads :
    let s := at_ 0 0x100 0 hart
    let w := at_ (-8) 0x108_0010 0 hart
    (s.Finds .load 16 0x100 (inL 0x100 0) s ∧ s.Direct (inL 0x100 0) false ∧ reach s s.st.ctx (inL 0x100 0) 16 = .ok (localPlace 0 0x100) ∧
      s.hear.Room ∧ s.ir.d = .x 2 ∧ inScope s.focusU 0 s.ir.sc = true) ∧
    (w.Finds .load 8 0x108_0008 (inW 8) w ∧ w.Direct (inW 8) false ∧ reach w w.st.ctx (inW 8) 8 = .ok (localPlace 1 8) ∧ w.hear.Room) :=
  ⟨⟨⟨⟨⟨rfl, rfl⟩, rfl, rfl, rfl⟩, ⟨0x100, rfl, by decide +kernel⟩, by decide, by decide +kernel⟩, ⟨.inl (by decide +kernel), by decide +kernel⟩, by decide +kernel, rfl, rfl, by decide⟩,
    ⟨⟨⟨rfl, rfl⟩, rfl, rfl, rfl⟩, ⟨0x108_0010, rfl, by decide +kernel⟩, by decide, by decide +kernel⟩, ⟨.inr (by decide +kernel), by decide +kernel⟩, by decide +kernel, rfl⟩

/-- The formats of `ldd`: raw, a binary8 byte that holds a scale, and elements of each format. -/
theorem witness_Loads_formats :
    let at1 := fun (a : Nat) (t : BitVec 8) => (at_ 0 (BitVec.ofNat 64 a) 0 (tagged t)).Finds .load 1 a (inL a t) (at_ 0 (BitVec.ofNat 64 a) 0 (tagged t))
    (at1 0x1004 0 ∧ formatOf 0 = .raw) ∧ (at1 0x1000 0x80 ∧ formatOf 0x80 = .b8 0x10 ∧ slotOf 0x80 (inL 0x1000 0x80).inFrame = none) ∧
    (at1 0x1001 0x80 ∧ slotOf 0x80 (inL 0x1001 0x80).inFrame = some (0, 0)) ∧ (at1 0x1004 0x08 ∧ formatOf 0x08 = .fp32) ∧
    (at1 0x1002 0x10 ∧ formatOf 0x10 = .fp16) ∧ (at1 0x1002 0x18 ∧ formatOf 0x18 = .bf16) := by
  refine ⟨⟨?_, by decide⟩, ⟨?_, by decide, by decide +kernel⟩, ⟨?_, by decide +kernel⟩, ⟨?_, by decide⟩, ⟨?_, by decide⟩, ?_, by decide⟩ <;>
    exact ⟨⟨⟨rfl, rfl⟩, rfl, rfl, rfl⟩, ⟨_, rfl, by decide +kernel⟩, by decide, by decide +kernel⟩

theorem witness_Stores :
    let s := at_ 0 0x100 0x103 hart
    let w := at_ 0 0x108_0010 7 loftHart
    (s.FindsD .store 16 0x100 (inL 0x100 0) 0x103 s ∧ s.Finds .store 16 0x100 (inL 0x100 0) s ∧ s.Direct (inL 0x100 0) true ∧
      (inL 0x100 0).near = true ∧ inScope s.focusU 0 s.ir.sc = true ∧ s.Released s.ir.sc ∧
      reach s s.st.ctx (inL 0x100 0) 16 = .ok (localPlace 0 0x100) ∧ s.ir.d = .x 2) ∧
    s.Canonical ∧ isCompute w.focusU = false :=
  ⟨⟨⟨⟨⟨rfl, rfl⟩, rfl, rfl, rfl⟩, ⟨0x100, _, rfl, by decide +kernel, rfl⟩, by decide, by decide +kernel⟩,
      ⟨⟨⟨rfl, rfl⟩, rfl, rfl, rfl⟩, ⟨0x100, rfl, by decide +kernel⟩, by decide, by decide +kernel⟩, ⟨.inl (by decide +kernel), by decide +kernel⟩, rfl, by decide,
      ⟨by decide +kernel, by decide +kernel⟩, by decide +kernel, rfl⟩,
    by unfold State.Canonical; decide +kernel, by decide +kernel⟩

/-- Stores and atomics that release while a write is out, and once one was refused. -/
theorem witness_Stores_releasing :
    let r : Refused := ⟨4, 0, 0x100, 0x2000, .pfOwn⟩
    let s := at_ 0 0x100 7 (hart.modSt fun st => { st with refused := [r] })
    let w := at_ 0 0x100 7 (hart.modSt fun st => { st with writes := [⟨9, false, 0, 0, 0⟩] })
    (s.FindsD .store 8 0x100 (inL 0x100 0) 7 s ∧ s.FindsD .atomic 8 0x100 (inL 0x100 0) 7 s) ∧
    (s.settledIn s.ir.sc true = true ∧ r ∈ s.st.refused ∧ (∀ x ∈ s.st.refused, x ≠ r → r.id < x.id)) ∧
    (w.FindsD .store 8 0x100 (inL 0x100 0) 7 w ∧ w.settledIn w.ir.sc true = false ∧ inScope w.focusU 0 w.ir.sc = true) :=
  ⟨⟨⟨⟨⟨rfl, rfl⟩, rfl, rfl, rfl⟩, ⟨0x100, _, rfl, by decide +kernel, rfl⟩, by decide, by decide +kernel⟩,
      ⟨⟨rfl, rfl⟩, rfl, rfl, rfl⟩, ⟨0x100, _, rfl, by decide +kernel, rfl⟩, by decide, by decide +kernel⟩,
    by decide +kernel,
    ⟨⟨⟨rfl, rfl⟩, rfl, rfl, rfl⟩, ⟨0x100, _, rfl, by decide +kernel, rfl⟩, by decide, by decide +kernel⟩, by decide +kernel, by decide⟩

theorem witness_Atomics :
    let s := at_ 8 0x100 (2 ^ 63) hart
    s.FindsD .atomic 8 0x108 (inL 0x108 0) (2 ^ 63) s ∧ s.FindsD .atomic 4 0x108 (inL 0x108 0) (2 ^ 63) s ∧
      s.Finds .atomic 8 0x108 (inL 0x108 0) s ∧ s.Direct (inL 0x108 0) true ∧ inScope s.focusU 0 s.ir.sc = true ∧
      (∀ od, ordReleases od = true → s.Released s.ir.sc) ∧ reach s s.st.ctx (inL 0x108 0) 8 = .ok (localPlace 0 0x108) ∧ s.ir.d = .x 2 :=
  ⟨⟨⟨⟨rfl, rfl⟩, rfl, rfl, rfl⟩, ⟨0x100, _, rfl, by decide +kernel, rfl⟩, by decide, by decide +kernel⟩,
    ⟨⟨⟨rfl, rfl⟩, rfl, rfl, rfl⟩, ⟨0x100, _, rfl, by decide +kernel, rfl⟩, by decide, by decide +kernel⟩,
    ⟨⟨⟨rfl, rfl⟩, rfl, rfl, rfl⟩, ⟨0x100, rfl, by decide +kernel⟩, by decide, by decide +kernel⟩, ⟨.inl (by decide +kernel), by decide +kernel⟩, by decide,
    fun _ _ => ⟨by decide +kernel, by decide +kernel⟩, by decide +kernel, rfl⟩

/-- What a strand at `a` finds, for an access: a cause or a home. -/
def finds (s : State) (a : Nat) (k : Access) : Except Cause Nat :=
  match locate s s.focusU s.st.ctx a k with | .error c => .error c | .ok p => .ok p.home

/-- Accesses aligned to their own size alone, with each failure. -/
theorem witness_AccessFaults_narrow :
    let s := at_ 0 0x101 5 hart
    finds hart 0x5B002 .load = .error .schedReg ∧ finds hart 0x60008 .store = .error .pfHole ∧ finds hart 0x60008 .atomic = .error .pfHole ∧
    (finds hart 0x108_0008 .load = .ok 1 ∧ finds hart 0x108_0008 .store = .ok 1 ∧ finds hart 0x108_0008 .atomic = .ok 1 ∧ inScope 0 1 s.ir.sc = false) ∧
    regionOf 0x5B002 ≠ .h ∧ regionOf (2 ^ 55 + 4) = .h ∧ 0x5B002 % 2 = 0 ∧ 0x60008 % 8 = 0 ∧ 0x60008 % 16 ≠ 0 := by decide +kernel

theorem witness_AccessFaults :
    let s := at_ 0 0x101 5 hart
    s.Standing ∧ s.ReadsA 0x101 s ∧ src s.ir.d s = .ok (5, s) ∧ s.address 0x101 % 2 ≠ 0 ∧
    (regionOf (2 ^ 55) = .h ∧ 2 ^ 55 % 16 = 0) ∧ finds hart 0x5AFF0 .load = .ok 0 ∧ finds hart 0x5B000 .load = .error .schedReg ∧
    finds hart 0x60000 .store = .error .pfHole ∧ finds hart 0x1_0100_0000_0000 .atomic = .error .pfHole ∧
    finds hart 0x1_0000_0080_0000 .load = .error .pfOwn ∧ finds hart (2 ^ 55) .store = .error .pfPerm ∧
    (finds hart 0x108_0000 .atomic = .ok 1 ∧ inScope 0 1 s.ir.sc = false) :=
  ⟨⟨⟨rfl, rfl⟩, rfl, rfl, rfl⟩, rfl, rfl, by decide +kernel, by decide, by decide +kernel, by decide +kernel, by decide +kernel,
    by decide +kernel, by decide +kernel, by decide +kernel, by decide +kernel⟩

/-- A memory form with STAY. -/
def asking (d : Opd) (a v : Word) (s : State) : State := doing (mem stay d (.x 1) .core 0) (setX 1 a (setX 2 v s))

theorem witness_Messages :
    let w := at_ 0 0x108_0008 7 hart
    let q := asking (.q 7) 0x108_0008 7 hart
    let d := asking (.x 2) 0x100 7 hart
    let full := q.modCore 0 fun c => { c with pending := 8 }
    (w.FindsD .store 8 0x108_0008 (inW 8) 7 w ∧ routeOf w (inW 8) = .home ∧ (inW 8).off.isSome = true ∧ isCompute w.focusU = true ∧
      noKey w w.st.ctx (inW 8) = false ∧ settle w (inW 8) = .ok (localPlace 1 8) ∧ w.st.asked = []) ∧
    (q.Finds .load 8 0x108_0008 (inW 8) q ∧ q.ir.hd.stay = true ∧ q.here.pending < 8 ∧ full.here.pending = 8) ∧
    (d.FindsD .atomic 8 0x100 (inL 0x100 0) 7 d ∧ inScope d.focusU 0 d.ir.sc = true ∧ ordReleases .acq = false) :=
  ⟨⟨⟨⟨⟨rfl, rfl⟩, rfl, rfl, rfl⟩, ⟨0x108_0008, _, rfl, by decide +kernel, rfl⟩, by decide, by decide +kernel⟩, rfl, rfl, rfl, rfl, rfl, rfl⟩,
    ⟨⟨⟨⟨rfl, rfl⟩, rfl, rfl, rfl⟩, ⟨0x108_0008, rfl, by decide +kernel⟩, by decide, by decide +kernel⟩, rfl, by decide +kernel, by decide +kernel⟩,
    ⟨⟨⟨rfl, rfl⟩, rfl, rfl, rfl⟩, ⟨0x100, _, rfl, by decide +kernel, rfl⟩, by decide, by decide +kernel⟩, by decide, rfl⟩

/-- Forms under STAY, on each kind of access; and a sub-byte store to a home that L does not name. -/
theorem witness_Messages_kinds :
    let q := asking (.x 2) 0x100 7 hart
    let w := at_ 0 0x108_0008 7 hart
    (q.ir.hd.stay = true ∧ noKey q q.st.ctx (inL 0x100 0) = false ∧ (q.st.asked.any fun x => x.writes && x.home != 0) = false) ∧
    (q.FindsD .store 8 0x100 (inL 0x100 0) 7 q ∧ q.Finds .store 16 0x100 (inL 0x100 0) q ∧ q.Released q.ir.sc) ∧
    (q.Finds .load 16 0x100 (inL 0x100 0) q ∧ inScope q.focusU 0 q.ir.sc = true ∧ regionOf 0x100 ≠ .h) ∧
    (asking (.x 2) 0x1001 7 (tagged 0x80)).Finds .load 1 0x1001 (inL 0x1001 0x80) (asking (.x 2) 0x1001 7 (tagged 0x80)) ∧
    decodeTests (inL 0x1001 0x80) 0x1001 = .ok () ∧
    (q.FindsD .atomic 8 0x100 (inL 0x100 0) 7 q ∧ q.Finds .atomic 8 0x100 (inL 0x100 0) q ∧ q.ir.d = .x 2 ∧ q.here.pending < 8) ∧
    (w.FindsD .store 1 0x108_0008 (inW 8) 7 w ∧ (inW 8).near = false) :=
  have f : ∀ k : Access, (asking (.x 2) 0x100 7 hart).Finds k 16 0x100 (inL 0x100 0) (asking (.x 2) 0x100 7 hart) :=
    fun k => ⟨⟨⟨rfl, rfl⟩, rfl, rfl, rfl⟩, ⟨0x100, rfl, by decide +kernel⟩, by decide, by cases k <;> decide +kernel⟩
  have g : ∀ k : Access, (asking (.x 2) 0x100 7 hart).FindsD k 8 0x100 (inL 0x100 0) 7 (asking (.x 2) 0x100 7 hart) :=
    fun k => ⟨⟨⟨rfl, rfl⟩, rfl, rfl, rfl⟩, ⟨0x100, _, rfl, by decide +kernel, rfl⟩, by decide, (f k).2.2.2⟩
  ⟨by decide +kernel, ⟨g _, f _, ⟨by decide +kernel, rfl⟩⟩, ⟨f _, by decide +kernel⟩,
    ⟨⟨⟨rfl, rfl⟩, rfl, rfl, rfl⟩, ⟨0x1001, rfl, by decide +kernel⟩, by decide, by decide +kernel⟩, rfl,
    ⟨g _, ⟨(f .atomic).1, (f .atomic).2.1, by decide, (f .atomic).2.2.2⟩, rfl, by decide +kernel⟩,
    ⟨⟨⟨rfl, rfl⟩, rfl, rfl, rfl⟩, ⟨0x108_0008, _, rfl, by decide +kernel, rfl⟩, by decide, by decide +kernel⟩, rfl⟩

/-- A strand of context 1 that owns a second barn, whose first core is 16. -/
def twoBarns : State := { hart with owners := kput hart.owners 16 1 }

/-- A place of core 16's memory, which core 0 reaches only by migration. -/
def faraway : Place := ⟨16, localPlace 16 0, some 0, 0, false, false, false⟩

theorem witness_Migration :
    let s := at_ 0 0x1_0000_0080_0000 0 twoBarns
    let h := at_ 0 0x1_0000_0080_0000 0 (twoBarns.modMe fun sl => { sl with mode := .handler })
    let g := at_ 0 0x1_0000_0080_0000 0 (twoBarns.modSt fun st => { st with g := #v[.t, .p, .f, .t, .p, .f, .t, .p] })
    (s.Finds .load 8 0x1_0000_0080_0000 faraway s ∧ routeOf s faraway = .away ∧ noKey s s.st.ctx faraway = false ∧
      s.me.mode ≠ .handler ∧ (∀ g, s.st.guard g ≠ .p) ∧ s.memberMay 16 = true ∧ s.mayEnd 0 0 = true ∧ s.here.forwards.length < 64) ∧
    (h.Finds .load 8 0x1_0000_0080_0000 faraway h ∧ h.me.mode = .handler) ∧ g.st.guard 1 = .p ∧
    (s.modSt fun st => { st with writes := [⟨9, false, 0, 0, 0⟩] }).mayEnd 0 0 = false :=
  ⟨⟨⟨⟨⟨rfl, rfl⟩, rfl, rfl, rfl⟩, ⟨0x1_0000_0080_0000, rfl, by decide +kernel⟩, by decide, by decide +kernel⟩, rfl, rfl, by decide +kernel,
      by decide +kernel, by decide +kernel, by decide +kernel, by decide +kernel⟩,
    ⟨⟨⟨⟨rfl, rfl⟩, rfl, rfl, rfl⟩, ⟨0x1_0000_0080_0000, rfl, by decide +kernel⟩, by decide, by decide +kernel⟩, by decide +kernel⟩,
    by decide +kernel, by decide +kernel⟩

/-- Stores, pairs and atomics to that place too, and a full forwarding table. -/
theorem witness_Migration_kinds :
    let s := at_ 0 0x1_0000_0080_0000 7 twoBarns
    let full := s.modCore 0 fun c => { c with forwards := List.replicate 64 ⟨1, 0, false, 0, 0⟩ }
    let out := s.setLaunch 1 { (s.launch 1).getD ⟨.live, 0, 0, 0, 0, none, 0, none, 0⟩ with group := some ⟨0, 1, [0], [16]⟩ }
    (∀ k, s.FindsD k 8 0x1_0000_0080_0000 faraway 7 s ∧ s.Finds k 16 0x1_0000_0080_0000 faraway s) ∧ s.Released s.ir.sc ∧
    decodeTests { faraway with tag := 8 } 0x1_0000_0080_0000 = .ok () ∧
    ¬ (full.here.forwards.length < 64) ∧ (out.modSt fun st => { st with member := some 0 }).memberMay (2 ^ 15) = false :=
  ⟨fun k => ⟨⟨⟨⟨rfl, rfl⟩, rfl, rfl, rfl⟩, ⟨0x1_0000_0080_0000, _, rfl, by decide +kernel, rfl⟩, by decide, by cases k <;> decide +kernel⟩,
      ⟨⟨rfl, rfl⟩, rfl, rfl, rfl⟩, ⟨0x1_0000_0080_0000, rfl, by decide +kernel⟩, by decide, by cases k <;> decide +kernel⟩,
    ⟨by decide +kernel, rfl⟩, rfl, by decide +kernel, by decide +kernel⟩

theorem witness_FullEmpty :
    let s := at_ 0 0x100 7 hart
    let f := at_ 0 0x100 7 (hart.setFull (localPlace 0 0x100) true)
    let x : Waiter := ⟨⟨.setFull, 0, 0, false⟩, hart.self, 0, [], false⟩
    (s.Finds .load 16 0x100 (inL 0x100 0) s ∧ s.FindsD .store 8 0x100 (inL 0x100 0) 7 s ∧ s.Finds .store 16 0x100 (inL 0x100 0) s ∧
      regionOf 0x100 ≠ .h ∧ s.Direct (inL 0x100 0) true ∧ settle s (inL 0x100 0) = .ok (localPlace 0 0x100) ∧
      s.isFull (localPlace 0 0x100) = false ∧ (s.core 0).waiters.length < 16) ∧
    (f.Finds .load 8 0x100 (inL 0x100 0) f ∧ f.isFull (localPlace 0 0x100) = true ∧ f.hear.Room ∧
      reach f f.st.ctx (inL 0x100 0) 8 = .ok (localPlace 0 0x100)) ∧
    16 ≤ ((s.modCore 0 fun c => { c with waiters := List.replicate 16 x }).core 0).waiters.length ∧
    (s.modMe fun sl => { sl with asked := true }).Ready ∧ (s.modMe fun sl => { sl with answer := some (.value 7) }).Ready :=
  ⟨⟨⟨⟨⟨rfl, rfl⟩, rfl, rfl, rfl⟩, ⟨0x100, rfl, by decide +kernel⟩, by decide, by decide +kernel⟩,
      ⟨⟨⟨rfl, rfl⟩, rfl, rfl, rfl⟩, ⟨0x100, _, rfl, by decide +kernel, rfl⟩, by decide, by decide +kernel⟩,
      ⟨⟨⟨rfl, rfl⟩, rfl, rfl, rfl⟩, ⟨0x100, rfl, by decide +kernel⟩, by decide, by decide +kernel⟩, by decide, ⟨.inl (by decide +kernel), by decide +kernel⟩, by decide +kernel,
      by decide +kernel, by decide +kernel⟩,
    ⟨⟨⟨⟨rfl, rfl⟩, rfl, rfl, rfl⟩, ⟨0x100, rfl, by decide +kernel⟩, by decide, by decide +kernel⟩, by decide +kernel, rfl, by decide +kernel⟩,
    by decide +kernel, ⟨rfl, rfl⟩, ⟨rfl, rfl⟩⟩

/-- A fence of the scope `n`, by a strand with these writes out and refused. -/
def fencing (n : BitVec 21) (ws : List OutWrite) (rs : List Refused) : State :=
  doing (three plain (.x 0) (.imm n) (.x 0)) (hart.modSt fun st => { st with writes := ws, refused := rs })

theorem witness_Fences :
    let r : Refused := ⟨4, 0, 0x100, 0x2000, .pfOwn⟩
    (fencing 4 [] []).Ready ∧ (fencing 4 [] []).ir.a = .imm (BitVec.ofNat 21 4) ∧ (fencing 0 [] []).Released .core ∧
    sequencerUp (fencing 4 [] []) = true ∧ (fencing 0 [⟨3, false, 0, 0, 0⟩] []).settledIn .core false = false ∧
    (fencing 0 [⟨3, false, 16, 0, 0⟩] []).settledIn .core false = true ∧ (fencing 0 [⟨3, false, 16, 0, 0⟩] []).settledIn .core true = false ∧
    (fencing 0 [] []).Fenced .core true ∧ (fencing 0 [] [r]).settledIn .core true = true ∧ r ∈ (fencing 0 [] [r]).st.refused ∧ inScope 0 r.home .core = true :=
  ⟨⟨rfl, rfl⟩, rfl, ⟨by decide +kernel, by decide +kernel⟩, by decide +kernel, by decide +kernel, by decide +kernel, by decide +kernel,
    ⟨by decide +kernel, by decide +kernel⟩, by decide +kernel, by decide +kernel, by decide⟩

/-- A declared buffer of 16 bytes at offset 0x1000 of core 0, in a state of R196. -/
def buffered (state : Nat) : State := hart.modCore 0 fun c => c.setBuf 0 (Buf.make state false true 0 16 0x1000)

/-- An instruction whose A and B are x1 and x2. -/
def given (a b : Word) (s : State) : State := doing (three plain (.x 3) (.x 1) (.x 2)) (setX 1 a (setX 2 b s))

theorem witness_Buffers :
    let s := given 0x1000 16 hart
    let b := given 0x1000 16 (buffered 2)
    (s.Standing ∧ s.ReadsAB 0x1000 16 s ∧ bufferPlace s (0x1000 % 2 ^ 56) = .ok (0, 0x1000) ∧ s.early 0 true = false ∧
      declBad (s.core 0) 0x1000 16 = false ∧ (s.core 0).freeBuf = some 0 ∧ (s.core 0).bufAt 0x1000 = none ∧
      declBad (s.core 0) 0x1008 16 = true ∧ declBad (s.core 0) 0x1000 8 = true ∧ s.crossing s.focusU s.focusK 0 = false ∧
      s.crossing s.focusU s.focusK 16 = false ∧ s.early 0 false = false) ∧
    (b.Standing ∧ b.ReadsA 0x1000 b ∧ bufferPlace b (0x1000 % 2 ^ 56) = .ok (0, 0x1000) ∧ (b.core 0).bufAt 0x1000 = some 0 ∧
      (b.core 0).bufAt 0x101F = some 0 ∧ (b.core 0).bufAt 0x1020 = none ∧ declBad (b.core 0) 0x1010 16 = true ∧ b.Room) ∧
    (List.range 4).map (fun n => Buf.state ((buffered n).core 0).bufs[0]) = [0, 1, 2, 3] :=
  ⟨⟨⟨⟨rfl, rfl⟩, rfl, rfl, rfl⟩, rfl, rfl, by decide +kernel⟩,
    ⟨⟨⟨rfl, rfl⟩, rfl, rfl, rfl⟩, rfl, rfl, by decide +kernel, by decide +kernel, by decide +kernel, by decide +kernel, rfl⟩,
    by decide +kernel⟩

/-- Forms that begin to wait, with and without a request sent; and buffers of an image that `bdecl` would take or refuse. -/
theorem witness_FullEmpty_waits :
    let sent := hart.modMe fun sl => { sl with asked := true }
    let none_ := hart.modCore 0 fun c => (List.finRange 16).foldl (fun c i => c.setBuf i (Buf.make 1 false true 0 16 (0x1000 + 64 * i.val))) c
    (hart.me.asked = false ∧ hart.me.live = true ∧ sent.me.asked = true ∧ sent.me.live = true ∧ sent.focusU = hart.focusU ∧ sent.focusK = hart.focusK) ∧
    (declBad (hart.core 0) 0x1003 16 = true ∧ declBad (hart.core 0) 0x1000 16 = false ∧ (hart.core 0).freeBuf = some 0 ∧ (none_.core 0).freeBuf = none) := by
  decide +kernel

/-- A home on another die, whose ingress holds back what depends on a third die's write. -/
theorem witness_Buffers_crossing :
    let s := (given 0x1000 16 hart).modSt fun st => { st with dep := [(2, 5)] }
    s.crossing s.focusU s.focusK (2 ^ 15) = true ∧ s.crossing s.focusU s.focusK 0 = false := by decide +kernel

/-- A result that is the one named. -/
theorem okOf {α β : Type} [DecidableEq β] {r : Except α β} {b : β}
    (h : (match r with | .ok c => decide (c = b) | .error _ => false) = true) : r = .ok b := by
  cases r with
  | ok c => simpa using h
  | error e => simp at h

/-- Two pages of HBM that its context may read and write, from 0x80_0001_0000_0000 of region H on: the frames from 0 and those from 2^32 (R180, R181). -/
def paged (s : State) : State := (s.setNum 0x14008 8 (5 * 2 ^ 9 + 7)).setNum 0x14010 8 (2 ^ 32 + 5 * 2 ^ 9 + 7)

/-- An address of those pages. -/
def inPage (off : Nat) : Word := BitVec.ofNat 64 (2 ^ 55 + 2 ^ 32 + off)

/-- What stands in HBM there. -/
def inH (home off : Nat) : Place := ⟨home, off, none, 0, false, false, false⟩

/-- A result that exists and has a property. -/
theorem okWith {α β : Type} {r : Except α β} (p : β → Bool)
    (h : (match r with | .ok c => p c | .error _ => false) = true) : ∃ c, r = .ok c ∧ p c = true := by
  cases r with
  | ok c => exact ⟨c, rfl, h⟩
  | error e => simp at h

/-- The same with two properties. -/
theorem okWithBoth {α β : Type} {r : Except α β} (p : β → Bool) {q : Prop}
    (h : (match r with | .ok c => p c | .error _ => false) = true) (k : q) : ∃ c, r = .ok c ∧ p c = true ∧ q :=
  let ⟨c, e, f⟩ := okWith p h
  ⟨c, e, f, k⟩

/-- A strand of core 0 whose wait for an access at `p` is over. -/
def waited (op : LongOp) (p : Place) (s : State := hart) : State :=
  s.modMe fun sl => { sl with mode := .waiting, blocked := true, readyAt := 0, long := some ⟨0x1000, 1, false, [], some ⟨op, 0x100, p⟩⟩ }

/-- Waits that are over, of stores, atomics and full/empty loads, and what their home finds. -/
theorem witness_Waited :
    (∀ op ∈ [LongOp.mem (.store 8 7) [], .mem (.atom .add 8 7) [.x 2], .mem (.cas 8 7 9) [.x 2], .mem (.take 8 true) [.x 2],
        .mem (.take 8 false) [.x 2]],
      let s := waited op (inL 0x100 0)
      let f := s.setFull (localPlace 0 0x100) true
      s.Waited 0 0 ⟨0x1000, 1, false, [], some ⟨op, 0x100, inL 0x100 0⟩⟩ ⟨op, 0x100, inL 0x100 0⟩ ∧
      reach s (s.slot 0 0).st.ctx (inL 0x100 0) 8 = .ok (localPlace 0 0x100) ∧ settle s (inL 0x100 0) = .ok (localPlace 0 0x100) ∧
      reach (poisonUnit s (localPlace 0 0x100)) (s.slot 0 0).st.ctx (inL 0x100 0) 8 = .error .memPoison ∧
      [RegName.x 2].all (s.core 0).takes = true ∧ s.isFull (localPlace 0 0x100) = false ∧ f.isFull (localPlace 0 0x100) = true ∧
      (s.core 0).waiters.length < 16 ∧ 0 < (s.core 0).slots.length) := by
  intro op h
  simp only [List.mem_cons, List.not_mem_nil, or_false] at h
  obtain rfl | rfl | rfl | rfl | rfl := h <;> exact ⟨by unfold State.Waited; decide +kernel, by decide +kernel⟩

/-- A copy from HBM that a loft core's strand waits for. -/
theorem witness_Waited_copyIn :
    let s := waited (.copyIn 0x1000) (inH 0x100000 0) (paged loftHart)
    let ps := (List.range 4).map fun i => localPlace 0x100000 0x1000 + 16 * i
    (s.slot 0x100000 0).long = some ⟨0x1000, 1, false, [], some ⟨.copyIn 0x1000, 0x100, inH 0x100000 0⟩⟩ ∧
    ((s.slot 0x100000 0).answer = none ∧ (s.slot 0x100000 0).asked = false ∧ (s.slot 0x100000 0).readyAt ≤ (s.core 0x100000).cyc) ∧
    reach s (s.slot 0x100000 0).st.ctx (inH 0x100000 0) 64 = .ok 0 ∧ settleAll s (ownPlace s 0x100000 0x1000) 4 0 = .ok ps ∧
    (∀ y ∈ ps, s.anyPoison y 16 = false) :=
  ⟨by decide +kernel, by decide +kernel, by decide +kernel, okOf (by decide +kernel), by decide +kernel⟩

/-- A store, a pair and atomics to HBM of the loft core's own die. -/
theorem witness_Stores_sent :
    let h := at_ 0 (inPage 0x40) 7 (paged loftHart)
    let p := inH 0x100000 0x40
    (∀ k, k ≠ .fetch → h.FindsD k 8 (inPage 0x40).toNat p 7 h ∧ h.Finds k 16 (inPage 0x40).toNat p h) ∧
    (h.Direct p true ∧ p.near = false ∧ p.off = none ∧ inScope h.focusU p.home h.ir.sc = true ∧ h.Released h.ir.sc ∧
      h.ir.d = .x 2 ∧ h.Room) :=
  have f : ∀ k : Access, k ≠ .fetch →
      locate (at_ 0 (inPage 0x40) 7 (paged loftHart)) 0x100000 1 (inPage 0x40).toNat k = .ok (inH 0x100000 0x40) :=
    fun k n => by cases k <;> first | exact absurd rfl n | exact okOf (by decide +kernel)
  ⟨fun k n => ⟨⟨⟨⟨rfl, rfl⟩, rfl, rfl, rfl⟩, ⟨inPage 0x40, _, rfl, by decide +kernel, rfl⟩, by decide, f k n⟩,
      ⟨⟨rfl, rfl⟩, rfl, rfl, rfl⟩, ⟨inPage 0x40, rfl, by decide +kernel⟩, by decide, f k n⟩,
    ⟨.inr (by decide +kernel), by decide +kernel⟩, rfl, rfl, by decide +kernel, ⟨by decide +kernel, by decide +kernel⟩, rfl, rfl⟩

/-- An `hfence` behind an acquire. -/
theorem witness_LoftTransfers_held : let s := doing regs (loftHart.modMe fun sl => { sl with acquires := [9] })
    s.Ready ∧ s.me.acquires ≠ [] := ⟨⟨rfl, rfl⟩, by decide⟩

/-- `hrd` or `hwr` of the first loft core, at offset 0x1000 of its memory. -/
def lofty (a : Word) : State := doing (mem plain (.x 2) (.x 1) .core 0) (setX 1 a (setX 2 0x1000 (paged loftHart)))

theorem witness_LoftTransfers :
    let s := lofty (inPage 0)
    let f := lofty (inPage (2 ^ 32))
    let w := doing regs (loftHart.modSt fun st => { st with writes := [⟨9, true, 0, 0, 0⟩] })
    let ps := (List.range 4).map fun i => localPlace 0x100000 0x1000 + 16 * i
    (s.Standing ∧ s.ReadsA (inPage 0) s ∧ (inPage 0).toNat = s.address (inPage 0) ∧ src s.ir.d s = .ok (0x1000, s) ∧
      localSide s 0x1000 = .ok 0x1000 ∧ farSide s (inPage 0).toNat .load = .ok (inH 0x100000 0) ∧
      farSide s (inPage 0).toNat .store = .ok (inH 0x100000 0) ∧ dieOf 0x100000 = dieOf s.focusU ∧
      s.early 0x100000 false = false ∧ s.early s.focusU true = false ∧ reach s s.st.ctx (inH 0x100000 0) 64 = .ok 0 ∧
      settleAll s (ownPlace s s.focusU 0x1000) 4 0 = .ok ps ∧ (∀ x ∈ ps, s.anyPoison x 16 = false) ∧
      noKey s s.st.ctx (inH 0x100000 0) = false ∧ s.Whole [s.ir.a, s.ir.d] ∧ f.Whole [f.ir.a, f.ir.d] ∧
      (s.st.asked.any fun x => x.writes && x.home != 0x100000) = false ∧
      readRun s s.focusU 0x1000 0x1000 64 = .ok (List.replicate 64 0)) ∧
    (f.Standing ∧ f.ReadsA (inPage (2 ^ 32)) f ∧ farSide f (inPage (2 ^ 32)).toNat .load = .ok (inH 0x140000 (2 ^ 32)) ∧
      farSide f (inPage (2 ^ 32)).toNat .store = .ok (inH 0x140000 (2 ^ 32)) ∧ dieOf 0x140000 ≠ dieOf f.focusU) ∧
    (1 % 64 ≠ 0 ∧ 64 % 64 = 0 ∧ regionOf 64 ≠ .h ∧ (localOf s.focusU 64).isSome = true ∧ (lofty 64).address 64 = 64) ∧
    (w.Ready ∧ (∃ x ∈ w.st.writes, x.loft = true)) ∧ (∀ x ∈ s.st.writes, x.loft = false) ∧ s.Ready ∧
    (doing regs (loftHart.modSt fun st => { st with hfRefused := 0 })).Room :=
  ⟨⟨⟨⟨rfl, rfl⟩, rfl, rfl, rfl⟩, rfl, by decide +kernel, rfl, okOf (by decide +kernel), okOf (by decide +kernel), okOf (by decide +kernel),
      by decide, by decide +kernel, by decide +kernel, by decide +kernel, okOf (by decide +kernel), by decide +kernel, rfl, rfl, rfl,
      by decide +kernel, okOf (by decide +kernel)⟩,
    ⟨⟨⟨rfl, rfl⟩, rfl, rfl, rfl⟩, rfl, okOf (by decide +kernel), okOf (by decide +kernel), by decide +kernel⟩,
    by decide +kernel, ⟨⟨rfl, rfl⟩, by decide +kernel⟩, by decide +kernel, ⟨rfl, rfl⟩, rfl⟩

/-- A push from offset 0x1000 to offset 0x2000 of the first loft core's memory, with the second operand given. -/
def pushing (b : Word) (a : Word := 0x1000) (s : State := loftHart) : State :=
  doing regs (setX 1 a (setX 2 b (setX 3 0x2000 (paged s))))

theorem witness_Pushes :
    let s := pushing 32
    let h := pushing 32 (inPage 0)
    let r := pushing (16 + 2 * 2 ^ 16 + 32 * 2 ^ 32 + 16 * 2 ^ 48)
    let p := (⟨0x100000, localPlace 0x100000 0x1010, some 0x1010, 0, false, false, true⟩ : Place)
    let at_ := [(0x1000, 0x2000), (0x1020, 0x2010)]
    let o := pushing 32 0x1000 { loftHart with owners := kput loftHart.owners 0 1 }
    (s.Standing ∧ s.ReadsDAB 0x1000 32 0x2000 s ∧ pushLenBad 32 = false ∧ pushLenBad 4112 = true ∧ s.early s.focusU false = false ∧
      pushDest s 0x2000 32 = .ok 0x100000 ∧ (s.st.asked.any fun x => x.writes && x.home != 0x100000) = false ∧
      pushSource s 0x1000 32 = .ok (.ok p) ∧ pushRead s 0x1000 32 (.ok p) = .ok (List.replicate 32 0)) ∧
    (h.ReadsDAB (inPage 0) 32 0x2000 h ∧ regionOf ((inPage 0).toNat % 2 ^ 56) = .h ∧
      pushSource h ((inPage 0).toNat % 2 ^ 56) 32 = .ok (.ok (inH 0x100000 0)) ∧
      pushRead h ((inPage 0).toNat % 2 ^ 56) 32 (.ok (inH 0x100000 0)) = .ok (List.replicate 32 0)) ∧
    (r.Standing ∧ r.ReadsDAB 0x1000 (16 + 2 * 2 ^ 16 + 32 * 2 ^ 32 + 16 * 2 ^ 48) 0x2000 r ∧
      pushRows 16 none at_ r = .ok [⟨0x100000, 0x2000, List.replicate 16 0⟩, ⟨0x100000, 0x2010, List.replicate 16 0⟩]) ∧
    (pushSource o 0x1000 32 = .ok (.ok p) ∧ pushDest o 0x1_0000_0000_2000 32 = .ok 0 ∧ 0 ≠ o.focusU ∧
      pushRead o 0x1000 32 (.ok p) = .ok (List.replicate 32 0)) ∧
    (s.Ready ∧ s.ReadsA 0x1000 s ∧ (0x14A : BitVec 9).getLsbD 8 = true ∧ tagBad ((0x106 : BitVec 9).setWidth 8) = true ∧
      tagBad ((0x10A : BitVec 9).setWidth 8) = true ∧ tagBad ((0x180 : BitVec 9).setWidth 8) = false ∧ s.Room) :=
  ⟨⟨⟨⟨rfl, rfl⟩, rfl, rfl, rfl⟩, rfl, by decide, by decide, by decide +kernel, okOf (by decide +kernel), by decide +kernel,
      okOf (by decide +kernel), okOf (by decide +kernel)⟩,
    ⟨rfl, by decide +kernel, okOf (by decide +kernel), okOf (by decide +kernel)⟩,
    ⟨⟨⟨rfl, rfl⟩, rfl, rfl, rfl⟩, rfl, okOf (by decide +kernel)⟩,
    ⟨okOf (by decide +kernel), okOf (by decide +kernel), by decide +kernel, okOf (by decide +kernel)⟩,
    ⟨rfl, rfl⟩, rfl, by decide, by decide, by decide, by decide, rfl⟩

theorem witness_TaskSends :
    let s := doing regs (setX 1 0x1000 (setX 2 1000 (setX 3 16 (hart.modSt fun st => { st with sends := [] }))))
    let full := s.modSt fun st => { st with sends := List.replicate 16 ⟨⟨Rec.zero, 0, .fork, 0, 0, 0, [], none, false, false, none⟩, 0, 0⟩ }
    let light := s.modSt fun st => { st with wgt := 1 }
    let owned := { s with owners := kput s.owners 16 1 }
    let index := doing regs (setX 1 255 (setX 3 16 { hart with owners := kput hart.owners 16 1 }))
    (s.Ready ∧ s.ReadsAB 0x1000 1000 s ∧ s.ReadsABD 0x1000 1000 16 s ∧ s.st.sends.length < 16 ∧ 2 ≤ s.st.wgt.toNat ∧
      s.owner 16 ≠ some s.st.ctx) ∧
    (full.Ready ∧ full.ReadsAB 0x1000 1000 full ∧ 16 ≤ full.st.sends.length) ∧
    (light.Ready ∧ light.ReadsAB 0x1000 1000 light ∧ light.st.wgt.toNat < 2) ∧
    (owned.Ready ∧ owned.ReadsABD 0x1000 1000 16 owned ∧ owned.owner 16 = some owned.st.ctx ∧ isWorker 16 = true) ∧
    (index.Ready ∧ index.ReadsA 255 index ∧ src index.ir.d index = .ok (16, index) ∧ index.owner 16 = some index.st.ctx) :=
  ⟨⟨⟨rfl, rfl⟩, rfl, rfl, by decide +kernel, by decide +kernel, by decide +kernel⟩, ⟨⟨rfl, rfl⟩, rfl, by decide +kernel⟩,
    ⟨⟨rfl, rfl⟩, rfl, by decide +kernel⟩, ⟨⟨rfl, rfl⟩, rfl, by decide +kernel, by decide +kernel⟩, ⟨rfl, rfl⟩, rfl, rfl, by decide +kernel⟩

theorem witness_TaskEnd :
    let r : Refused := ⟨4, 0, 0x100, 0x2000, .pfOwn⟩
    let s := doing regs hart
    let t := s.modCore s.focusU fun c => c.endGuards s.focusK
    let w := s.modSt fun st => { st with writes := [⟨9, false, 0, 0, 0⟩] }
    let h := s.modMe fun sl => { sl with mode := .handler }
    let f := s.modSt fun st => { st with refused := [r] }
    s.Ready ∧ t.mayEnd t.focusU t.focusK = true ∧ t.me.mode ≠ .handler ∧ t.st.refused = [] ∧
    (w.Ready ∧ (w.modCore w.focusU fun c => c.endGuards w.focusK).mayEnd 0 0 = false) ∧
    (h.Ready ∧ (h.modCore h.focusU fun c => c.endGuards h.focusK).me.mode = .handler ∧
      (h.modCore h.focusU fun c => c.endGuards h.focusK).mayEnd 0 0 = true) ∧
    (f.Ready ∧ r ∈ f.st.refused ∧ ∀ q ∈ f.st.refused, q ≠ r → r.id < q.id) ∧
    t.here.ready.length + (t.here.deque.length + 0 - 16) ≤ readyRoom ∧
    (let q : Queued := ⟨Rec.zero, 0, .fork, 0, 0, 0, [], none, false, false, none⟩
     let b := s.modCore 0 fun c => { c with ready := List.replicate readyRoom q, deque := List.replicate 17 q }
     b.Ready ∧ (b.modCore 0 fun c => c.endGuards 0).mayEnd 0 0 = true ∧
      ¬ ((b.modCore 0 fun c => c.endGuards 0).here.ready.length + ((b.modCore 0 fun c => c.endGuards 0).here.deque.length + 0 - 16) ≤ readyRoom)) :=
  ⟨⟨rfl, rfl⟩, by decide +kernel, by decide +kernel, rfl, ⟨⟨rfl, rfl⟩, by decide +kernel⟩,
    ⟨⟨rfl, rfl⟩, by decide +kernel, by decide +kernel⟩, ⟨⟨rfl, rfl⟩, by decide +kernel, by decide +kernel⟩, by decide +kernel,
    ⟨⟨rfl, rfl⟩, by decide +kernel, by decide +kernel⟩⟩
/-- A strand that names a join cell of state `n` at 0x400, a record of budget 1000 at 0x200 and a count of 2. -/
def joining (n : Nat) : State :=
  doing regs (setX 1 0x200 (setX 2 2 (setX 3 0x400 ((hart.setNum (localPlace 0 0x23C) 4 1000).setNum (localPlace 0 0x400) 4 n))))

theorem witness_JoinCells :
    let pc : Place := ⟨0, localPlace 0 0x400, some 0x400, 0, false, false, true⟩
    let pr : Place := ⟨0, localPlace 0 0x200, some 0x200, 0, false, false, true⟩
    let m := doing regs (setX 1 0x200 (setX 2 2 (setX 3 0x410 hart)))
    let j := doing regs (setX 1 0x400 hart)
    let k := doing regs (setX 1 0x410 hart)
    (∀ n ∈ [0, 1, 2, 3], let s := joining n
      s.Standing ∧ s.ReadsDAB 0x200 2 0x400 s ∧ locate s s.focusU s.st.ctx 0x400 .atomic = .ok pc ∧
      locate s s.focusU s.st.ctx 0x200 .load = .ok pr ∧ pc.home = pr.home ∧ 2 ≤ s.st.wgt.toNat ∧
      (s.early 0 true = false ∧ s.crossing s.focusU s.focusK 0 = false) ∧
      (∃ bs, readAll s s.st.ctx pr 4 = .ok bs ∧ (!(Rec.ofNum (leNat bs)).bad) = true) ∧
      (∃ qc, reachAll s s.st.ctx pc 2 = .ok qc ∧ (leNat (s.gather qc) % 2 ^ 32 == n) = true) ∧
      (s.modSt fun st => { st with writes := [⟨9, false, 16, 0, 0⟩] }).early 0 true = true) ∧
    (m.Standing ∧ m.ReadsDAB 0x200 2 0x410 m ∧ (0x410 : Word).toNat % 32 ≠ 0) ∧
    (j.Standing ∧ j.ReadsA 0x400 j ∧ (∀ x ∈ j.st.asked, x.writes = false) ∧ regionOf 0x400 ≠ .h ∧
      locate j j.focusU j.st.ctx 0x400 .atomic = .ok pc) ∧
    (k.Standing ∧ k.ReadsA 0x410 k ∧ k.st.writes = []) ∧ (pc.off.isSome = true ∧ pr.off.isSome = true) ∧
    (j.Ready ∧ 2 ^ 64 ≤ j.st.wgt.toNat + (2 ^ 63 : Word).toNat ∧ j.st.wgt.toNat + (0x400 : Word).toNat < 2 ^ 64) := by
  refine ⟨?_, ⟨⟨⟨rfl, rfl⟩, rfl, rfl, rfl⟩, rfl, by decide⟩, ⟨⟨⟨rfl, rfl⟩, rfl, rfl, rfl⟩, rfl, by decide +kernel, by decide +kernel, by decide +kernel⟩,
    ⟨⟨⟨rfl, rfl⟩, rfl, rfl, rfl⟩, rfl, by decide +kernel⟩, ⟨rfl, rfl⟩, ⟨rfl, rfl⟩, by decide +kernel, by decide +kernel⟩
  intro n hn
  simp only [List.mem_cons, List.not_mem_nil, or_false] at hn
  obtain rfl | rfl | rfl | rfl := hn <;>
    exact ⟨⟨⟨rfl, rfl⟩, rfl, rfl, rfl⟩, rfl, by decide +kernel, by decide +kernel, rfl, by decide +kernel, by decide +kernel,
      okWith (fun bs => _) (by decide +kernel), okWith (fun qc => _) (by decide +kernel), by decide +kernel⟩

/-- Cells, records and barriers in a hole, in the scheduler region, in HBM and at two homes. -/
theorem witness_JoinCells_places :
    let s := fun c r : Word => doing regs (setX 1 r (setX 2 2 (setX 3 c (paged hart))))
    let j := fun a : Word => doing regs (setX 1 a (paged hart))
    let at_ := fun (a : Nat) (k : Access) => locate (paged hart) 0 1 a k
    let off := fun (a : Nat) (k : Access) => match at_ a k with | .ok p => some p.off.isSome | .error _ => none
    (∀ c ∈ [(0x60000 : Word), 0x5B000, inPage 0, 0x108_0000], (s c 0x200).Standing ∧ (s c 0x200).ReadsDAB 0x200 2 c (s c 0x200) ∧
      (j c).Standing ∧ (j c).ReadsA c (j c) ∧ c.toNat % 64 = 0 ∧ c.toNat < 2 ^ 56) ∧
    ((s 0x400 0x60000).ReadsDAB 0x60000 2 0x400 (s 0x400 0x60000) ∧ at_ 0x60000 .atomic = .error .pfHole ∧
      at_ 0x60000 .load = .error .pfHole ∧ at_ 0x5B000 .atomic = .error .schedReg) ∧
    (off (inPage 0).toNat .atomic = some false ∧ off 0x108_0000 .atomic = some true ∧ (paged hart).st.writes = []) := by
  refine ⟨?_, ⟨rfl, by decide +kernel⟩, by decide +kernel⟩
  intro c h
  simp only [List.mem_cons, List.not_mem_nil, or_false] at h
  obtain rfl | rfl | rfl | rfl := h <;>
    exact ⟨⟨⟨rfl, rfl⟩, rfl, rfl, rfl⟩, rfl, ⟨⟨rfl, rfl⟩, rfl, rfl, rfl⟩, rfl, by decide +kernel, by decide +kernel⟩

/-- A strand that forms a group of `n` of the record at 0x200. -/
def forming (n : Word) (s : State) : State :=
  doing regs (setX 1 0x200 (setX 2 n (s.setNum (localPlace s.focusU 0x23C) 4 1000)))

theorem witness_Groups :
    let made := fun (s : State) (n : Word) (p : Rec → State → Bool) => s.Standing ∧ s.ReadsAB 0x200 n s ∧
      ∃ q, readRec s ((0x200 : Word).toNat % 2 ^ 56) = .ok q ∧ p q.1 q.2 = true
    let busy := hart.setLaunch 1 { (hart.launch 1).getD ⟨.live, 0, 0, 0, 0, none, 0, none, 0⟩ with group := some ⟨0, 1, [0], [16]⟩ }
    let member := (doing regs hart).modSt fun st => { st with member := some 0 }
    made (forming 2 hart) 2 (fun r u => !r.bad && isCompute u.focusU && !u.hasGroup u.st.launch && 1 ≤ u.st.wgt.toNat / 2 / 2) ∧
    made (forming 256 (hart.modSt fun st => { st with wgt := 511 })) 256 (fun r u => !r.bad && !u.hasGroup u.st.launch && u.st.wgt.toNat / 2 / 256 == 0) ∧
    made (forming 257 hart) 257 (fun r _ => !r.bad) ∧ made (forming 2 busy) 2 (fun r u => !r.bad && isCompute u.focusU && u.hasGroup u.st.launch) ∧
    made (forming 2 loftHart) 2 (fun r u => !r.bad && !isCompute u.focusU) ∧
    made (doing regs (setX 1 0x200 (setX 2 2 hart))) 2 (fun r _ => r.bad) ∧
    ((doing regs hart).Ready ∧ (doing regs hart).st.member = none) ∧
    (member.Ready ∧ member.st.member = some 0 ∧ member.here.freeSerial = some 1 ∧
      (member.modCore 0 fun c => { c with serials := BitVec.allOnes 1024 }).Ready ∧
      (member.modCore 0 fun c => { c with serials := BitVec.allOnes 1024 }).here.freeSerial = none) ∧
    ((forming 2 hart).st.writes = [] ∧ (forming 2 hart).st.asked = [] ∧
      made (forming 2 (hart.modSt fun st => { st with writes := [⟨9, false, 16, 0, 0⟩] })) 2 fun r u =>
        !r.bad && isCompute u.focusU && !u.hasGroup u.st.launch && 1 ≤ u.st.wgt.toNat / 2 / 2 && u.st.writes != []) :=
  ⟨⟨⟨⟨rfl, rfl⟩, rfl, rfl, rfl⟩, rfl, okWith (fun q => _) (by decide +kernel)⟩, ⟨⟨⟨rfl, rfl⟩, rfl, rfl, rfl⟩, rfl, okWith (fun q => _) (by decide +kernel)⟩,
    ⟨⟨⟨rfl, rfl⟩, rfl, rfl, rfl⟩, rfl, okWith (fun q => _) (by decide +kernel)⟩, ⟨⟨⟨rfl, rfl⟩, rfl, rfl, rfl⟩, rfl, okWith (fun q => _) (by decide +kernel)⟩,
    ⟨⟨⟨rfl, rfl⟩, rfl, rfl, rfl⟩, rfl, okWith (fun q => _) (by decide +kernel)⟩, ⟨⟨⟨rfl, rfl⟩, rfl, rfl, rfl⟩, rfl, okWith (fun q => _) (by decide +kernel)⟩,
    ⟨⟨rfl, rfl⟩, rfl⟩, ⟨⟨rfl, rfl⟩, rfl, by decide +kernel, ⟨rfl, rfl⟩, by decide +kernel⟩,
    rfl, rfl, ⟨⟨rfl, rfl⟩, rfl, rfl, rfl⟩, rfl, okWith (fun q => _) (by decide +kernel)⟩

/-- A strand of STRID 1 at a barrier at 0x200 whose members are 0 and 1, with these arrived, in phase 9. -/
def atBarrier (arrived : Nat) : State :=
  doing (three plain (.x 4) (.x 7) (.imm 9)) (setX 7 0x200
    ((hart.setBytes (localPlace 0 0x200) (leBytes 16 (3 + arrived * 2 ^ 48 + 9 * 2 ^ 96))).modSt fun st => { st with strid := 1 }))

theorem witness_Barriers :
    let q := localPlace 0 0x200
    let p := inL 0x200 0
    let w := (atBarrier 1).modSt fun st => { st with writes := [⟨9, false, 16, 0, 0⟩] }
    let k := (atBarrier 1).modSt fun st => { st with asked := [⟨9, 0, false⟩] }
    let bad := (atBarrier 1).setByte (q + 6) 0x80
    (∀ n ∈ [0, 1, 2], let s := atBarrier n
      s.Standing ∧ s.ReadsA 0x200 s ∧ s.ReadsAB 0x200 9 s ∧ barrierPlace s (0x200 : Word).toNat = .ok p ∧
      (∃ c, barrierAt s p (0x200 : Word).toNat = .ok c ∧ (c.1 == q && c.2.base == 0 && c.2.member == 3 && c.2.arrived == n &&
        c.2.phase == 9) = true) ∧
      (s.early 0 true = false ∧ s.early 0 false = false ∧ s.crossing s.focusU s.focusK 0 = false) ∧ s.hear.Room) ∧
    (w.Standing ∧ w.ReadsA 0x200 w ∧ barrierPlace w (0x200 : Word).toNat = .ok p ∧ w.early 0 true = true) ∧
    (k.Standing ∧ k.ReadsA 0x200 k ∧ barrierPlace k (0x200 : Word).toNat = .ok p ∧ k.early 0 false = true) ∧
    (bad.Standing ∧ bad.ReadsA 0x200 bad ∧ barrierPlace bad (0x200 : Word).toNat = .ok p ∧
      objectAt bad p (0x200 : Word).toNat 16 = .ok q ∧ (Barrier.ofNum (bad.num q 16)).isNone = true ∧ bad.early 0 true = false) ∧
    (let m := setX 7 0x208 (atBarrier 1)
     m.Standing ∧ m.ReadsA 0x208 m ∧ (0x208 : Word).toNat % 16 ≠ 0) := by
  refine ⟨?_, ⟨⟨⟨rfl, rfl⟩, rfl, rfl, rfl⟩, rfl, okOf (by decide +kernel), by decide +kernel⟩,
    ⟨⟨⟨rfl, rfl⟩, rfl, rfl, rfl⟩, rfl, okOf (by decide +kernel), by decide +kernel⟩,
    ⟨⟨⟨rfl, rfl⟩, rfl, rfl, rfl⟩, rfl, okOf (by decide +kernel), okOf (by decide +kernel), by decide +kernel⟩,
    ⟨⟨rfl, rfl⟩, rfl, rfl, rfl⟩, rfl, by decide⟩
  intro n hn
  simp only [List.mem_cons, List.not_mem_nil, or_false] at hn
  obtain rfl | rfl | rfl := hn <;>
    exact ⟨⟨⟨rfl, rfl⟩, rfl, rfl, rfl⟩, rfl, rfl, okOf (by decide +kernel), okWith (fun c => _) (by decide +kernel), by decide +kernel, rfl⟩

/-- A lock that has stood for 64 cycles, and one that has not. -/
theorem witness_HandlerTable_lapse :
    let e : HandlerEntry := hart.context 1 |>.handler 7
    let s := { hart.setHandler 1 7 { e with lock := some (⟨1, freeStrid 0 0⟩, 5) } with now := 69 }
    ((s.context 1).handler 7).lock = some (⟨1, freeStrid 0 0⟩, 5) ∧ 5 + 64 ≤ s.now ∧ ¬ (5 + 64 ≤ ({ s with now := 68 } : State).now) := by
  decide +kernel

theorem witness_HandlerTable :
    let h : Holder := ⟨1, freeStrid 0 0⟩
    let e : HandlerEntry := hart.context 1 |>.handler 7
    let s := doing regs (setX 1 7 (setX 2 0 (hart.setNum (localPlace 0 0x23C) 4 1000)))
    let mine := s.setHandler 1 7 { e with lock := some (h, 5) }
    let other := s.setHandler 1 7 { e with lock := some (⟨1, 9⟩, 5) }
    let lapsed := s.setHandler 1 7 { e with lapsed := [h] }
    let d := doing regs (setX 1 3 hart)
    (s.Ready ∧ s.ReadsA 7 s ∧ ((s.context 1).handler 7).lock = none ∧ h ∉ ((s.context 1).handler 7).lapsed) ∧
    (mine.Ready ∧ mine.ReadsA 7 mine ∧ ((mine.context 1).handler 7).lock = some (h, 5) ∧ (⟨mine.st.launch, mine.st.strid⟩ : Holder) = h ∧
      h ∉ ((mine.context 1).handler 7).lapsed) ∧
    (other.Ready ∧ other.ReadsA 7 other ∧ (∀ n, ((other.context 1).handler 7).lock ≠ some (h, n)) ∧
      ((other.context 1).handler 7).lock ≠ none) ∧
    (lapsed.Ready ∧ lapsed.ReadsA 7 lapsed ∧ h ∈ ((lapsed.context 1).handler 7).lapsed) ∧
    ((setX 1 256 s).Ready ∧ (setX 1 256 s).ReadsA 256 (setX 1 256 s)) ∧
    (d.Ready ∧ d.ReadsA 3 d ∧ (d.launch d.st.launch).isSome = true ∧ d.Room) ∧
    (s.Standing ∧ s.ReadsAB 7 0 s ∧ (let b := setX 2 0x200 s
      b.Standing ∧ b.ReadsAB 7 0x200 b ∧ ∃ q, readRec b ((0x200 : Word).toNat % 2 ^ 56) = .ok q ∧
        (!q.1.bad && !((q.2.context 1).handler 7).lapsed.contains q.2.holder && ((q.2.context 1).handler 7).lock.isNone) = true)) ∧
    (mine.Standing ∧ mine.ReadsAB 7 0 mine ∧ mine.holder = h) ∧ (lapsed.Standing ∧ lapsed.ReadsAB 7 0 lapsed ∧ lapsed.holder = h) ∧ (other.Standing ∧ other.ReadsAB 7 0 other ∧
      ((other.context 1).handler 7).lock = some (⟨1, 9⟩, 5) ∧ (⟨1, 9⟩ : Holder) ≠ other.holder) :=
  ⟨⟨⟨rfl, rfl⟩, rfl, by decide +kernel, by decide +kernel⟩, ⟨⟨rfl, rfl⟩, rfl, by decide +kernel, by decide +kernel, by decide +kernel⟩,
    ⟨⟨rfl, rfl⟩, rfl, fun n h => absurd (congrArg (Option.map fun p : Holder × Nat => p.1.strid) h) (show _ ≠ some (freeStrid 0 0) by decide +kernel), by decide +kernel⟩, ⟨⟨rfl, rfl⟩, rfl, by decide +kernel⟩, ⟨⟨rfl, rfl⟩, rfl⟩,
    ⟨⟨rfl, rfl⟩, rfl, by decide +kernel, rfl⟩,
    ⟨⟨⟨rfl, rfl⟩, rfl, rfl, rfl⟩, rfl, ⟨⟨rfl, rfl⟩, rfl, rfl, rfl⟩, rfl, okWith (fun q => _) (by decide +kernel)⟩,
    ⟨⟨⟨rfl, rfl⟩, rfl, rfl, rfl⟩, rfl, by decide +kernel⟩, ⟨⟨⟨rfl, rfl⟩, rfl, rfl, rfl⟩, rfl, by decide +kernel⟩, ⟨⟨rfl, rfl⟩, rfl, rfl, rfl⟩, rfl, by decide +kernel, by decide +kernel⟩

/-- A strand whose VSHAPE is 4 rows of 4 columns of the type given, with this command in hand. -/
def shaped (type : Nat) (o : Operands) (s : State := hart) : State :=
  doing o (s.modMe fun sl => { sl with vshape := BitVec.ofNat 64 (type * 2 ^ 24 + 4 * 2 ^ 16 + 4) })

theorem witness_VectorCommands :
    let s := shaped 0 (three plain (.v 1) (.v 2) (.v 3))
    let p := (doing (three ⟨false, 1, 0, false, false, false⟩ (.v 1) (.v 2) (.v 3)) (s.modSt fun st => { st with g := #v[.t, .p, .f, .t, .p, .f, .t, .p] }))
    let held := s.setLaunch 9 { (hart.launch 1).getD ⟨.live, 0, 0, 0, 0, none, 0, none, 0⟩ with group := some ⟨0, 1, [0], [0]⟩ }
    let full := s.modCore 0 fun c => { c with cmds := [newCmd s .vadd .vector none, newCmd s .vadd .vector none] }
    let wide := doing s.ir (s.modMe fun sl => { sl with vshape := BitVec.ofNat 64 (5 * 2 ^ 24 + 2 ^ 16 + 128) })
    (s.Accepting 0 ∧ scalar s.ir.a s = .ok 0 ∧ scalar s.ir.b s = .ok 0 ∧ s.boundTo = none ∧ (vkind s.me.vshape).isFloat = true ∧
      (∃ n, typeSize 0 = some n ∧ rowsOf s.me.vshape * colsOf s.me.vshape * n ≤ 512) ∧ colsOf s.me.vshape ≤ 16) ∧
    (p.Accepting 0 ∧ p.boundTo = some (1, false)) ∧
    (wide.Accepting 0 ∧ (vkind wide.me.vshape).isFloat = false ∧ 16 < colsOf wide.me.vshape ∧
      512 < rowsOf wide.me.vshape * colsOf wide.me.vshape * 8 ∧ typeSize 3 = some 8) ∧
    (engineForm .vadd = true ∧ held.me.live = true ∧ held.me.asked = false ∧ held.cond ≠ some false ∧ engOwn held = true) ∧
    (full.me.live = true ∧ full.cond ≠ some false ∧ engOwn full = false ∧ 2 ≤ (full.here.queued 0).length ∧
      scalar full.ir.a full = .ok 0 ∧ scalar full.ir.b full = .ok 0) := by
  refine ⟨⟨by unfold State.Accepting; decide +kernel, rfl, rfl, by decide +kernel, by decide +kernel, ⟨4, rfl, by decide +kernel⟩, by decide +kernel⟩,
    ⟨by unfold State.Accepting; decide +kernel, by decide +kernel⟩, ⟨by unfold State.Accepting; decide +kernel, by decide +kernel, by decide +kernel, by decide +kernel, by decide⟩,
    by decide +kernel, by decide +kernel, by decide +kernel, by decide +kernel, by decide +kernel, rfl, rfl⟩

theorem witness_MemoryAndTileCommands :
    let s := shaped 0 (three plain (.v 1) (.x 1) (.x 2)) (setX 1 0x1000 (setX 2 16 hart))
    let i := shaped 5 (three plain (.v 1) (.x 1) (.x 2)) (setX 1 0x1000 (setX 2 16 hart))
    let d := shaped 0 (three plain (.v 1) (.x 1) (.x 2)) (setX 1 0x1000 (setX 2 16 (hart.setTag (localPlace 0 0x1000) 0x10)))
    let t := doing (three plain (.t 1) (.v 2) (.x 2)) (setX 2 3 hart)
    let u := doing (three plain (.v 1) (.t 2) (.x 2)) (setX 2 4 hart)
    let v := doing (three plain (.t 1) (.v 2) (.v 3)) hart
    let w := doing (three plain (.t 1) (.x 4) (.x 6)) (setX 4 0x1000 (setX 5 32 (setX 6 0x1000 (setX 7 32 (hart.setTag (localPlace 0 0x1000) 0x10)))))
    let pair := ((0x1000 : Word), (32 : Word))
    (s.Accepting 0 ∧ scalar s.ir.a s = .ok 0x1000 ∧ scalar s.ir.b s = .ok 16 ∧
      (∃ gs, tileGrains ((0x1000 : Word).toNat % 2 ^ 56) (16 : Word).toInt s = .ok gs ∧
        (match bufTests s gs with | .ok _ => true | .error _ => false) = true) ∧
      (∃ gs, grainsOf s ((0x1000 : Word).toNat % 2 ^ 56) 64 = .ok gs ∧
        (match bufTests s gs with | .ok _ => true | .error _ => false) = true)) ∧
    (i.Accepting 0 ∧ (vkind i.me.vshape).isFloat = false) ∧
    (d.Accepting 0 ∧ (vkind d.me.vshape).isFloat = true ∧
      ∃ rs, decodedRows d ((0x1000 : Word).toNat % 2 ^ 56) (16 : Word).toInt = .ok rs ∧
        (match bufTests d (rs.map (·.2)).flatten with | .ok _ => true | .error _ => false) = true) ∧
    (s.Accepting 1 ∧ ∃ gs, tileRows s ((0x1000 : Word).toNat % 2 ^ 56) (16 : Word).toInt = .ok gs ∧
        (match bufTests s gs with | .ok _ => true | .error _ => false) = true) ∧
    (t.Accepting 1 ∧ scalar t.ir.b t = .ok 3 ∧ t.ir.d = .t 1 ∧ t.ir.a = .v 2) ∧
    (u.Accepting 1 ∧ scalar u.ir.b u = .ok 4 ∧ u.ir.d = .v 1 ∧ u.ir.a = .t 2) ∧
    (v.Accepting 1 ∧ v.ir.a = .v 2 ∧ v.ir.b = .v 3) ∧
    (w.Accepting 1 ∧ w.ir.a = .x 4 ∧ w.ir.b = .x 6 ∧ (w.st.x[4], w.st.x[5]) = pair ∧ descBad pair = false ∧ descBad (0x1000, 8) = true ∧
      rowTests w .f16 pair = .ok () ∧ ∃ g, operandRows w .f16 pair = .ok g ∧
        (match bufTests w (g.1 ++ g.1) with | .ok _ => true | .error _ => false) = true) := by
  intro s i d t u v w pair
  exact ⟨⟨by unfold State.Accepting; decide +kernel, rfl, rfl, okWith (fun gs => _) (by decide +kernel), okWith (fun gs => _) (by decide +kernel)⟩,
    ⟨by unfold State.Accepting; decide +kernel, by decide +kernel⟩,
    ⟨by unfold State.Accepting; decide +kernel, by decide +kernel, okWith (fun gs => _) (by decide +kernel)⟩,
    ⟨by unfold State.Accepting; decide +kernel, okWith (fun gs => _) (by decide +kernel)⟩,
    ⟨by unfold State.Accepting; decide +kernel, rfl, rfl, rfl⟩, ⟨by unfold State.Accepting; decide +kernel, rfl, rfl, rfl⟩,
    ⟨by unfold State.Accepting; decide +kernel, rfl, rfl⟩,
    by unfold State.Accepting; decide +kernel, rfl, rfl, rfl, by decide +kernel, by decide +kernel, okOf (by decide +kernel), okWith (fun gs => _) (by decide +kernel)⟩
/-- A matrix command with one operand in a register and one in memory, good and malformed. -/
theorem witness_MemoryAndTileCommands_mixed :
    let s := fun (a b : Opd) (n : Word) => doing (three plain (.t 1) a b) (setX 4 0x1000 (setX 5 n (hart.setTag (localPlace 0 0x1000) 0x10)))
    (∀ o ∈ [(Opd.x 4, Opd.v 2), (.v 2, .x 4)], ((s o.1 o.2 32).me.live = true ∧ (s o.1 o.2 32).cond ≠ some false ∧
      engOwn (s o.1 o.2 32) = false ∧ (s o.1 o.2 32).me.acquires = [] ∧ ((s o.1 o.2 32).here.queued 1).length < 2) ∧
      descBad ((s o.1 o.2 32).st.x[4], (s o.1 o.2 32).st.x[5]) = false ∧ descBad ((s o.1 o.2 8).st.x[4], (s o.1 o.2 8).st.x[5]) = true ∧
      (match rowTests (s o.1 o.2 32) .f16 (0x1000, 32), operandRows (s o.1 o.2 32) .f16 (0x1000, 32) with
        | .ok _, .ok g => (match bufTests (s o.1 o.2 32) g.1 with | .ok _ => true | .error _ => false)
        | _, _ => false) = true) := by decide +kernel

/-- Whether a test passes. -/
def passes {ε α : Type} (r : Except ε α) : Bool := match r with | .ok _ => true | .error _ => false

/-- A copy from 0x2000 to the shadow half of a filling buffer at 0x1000, whose third operand is `b`. -/
def copying (b : Word) : State :=
  doing regs (setX 1 0x2000 (setX 2 b (setX 3 0x1040 (hart.modCore 0 fun c => c.setBuf 0 (Buf.make 1 false true 0 64 0x1000)))))

/-- A strand that owns session 0 of its barn, a column of 16 elements at 0x1000 with its area at 0x2000. -/
def selecting (a b : Word) : State :=
  let s := doing regs (setX 1 a (setX 2 b (setX 3 0x3000 hart)))
  s.setBarn 0 { s.barn 0 with sessions := [(0, ⟨1, 1, freeStrid 0 0, false, 0, 0x1000, 0, 0x2000, 16, 0, false, false⟩)] }

/-- Whether a form's command is made, and registers at once. -/
def registers (mk : Option (Fin 8 × Bool) → State → Except Stop Cmd) (s : State) : Bool :=
  match mk s.boundTo s with
  | .ok x => let y := { x with awaited := true }
    !registerWaits (s.took y) y && passes (registerTests (s.took y) y)
  | .error _ => false

theorem witness_CopyAndSelectionCommands :
    let s := copying 64
    let r := copying (32 + 2 * 2 ^ 16 + 32 * 2 ^ 32 + 32 * 2 ^ 48)
    let bad := copying 0x88
    let fed := doing (three plain (.x 3) (.x 1) (.q 2)) ((copying 0).modCore 0 fun c => { c with qs := [⟨2, 0, .word 64⟩] })
    let first := { newCmd hart .crdDig .selection none with order := 0 }
    let late := (selecting 0 64).modCore 0 fun c => { c with cmds := [first], accepted := 1 }
    let held := { newCmd hart .crdDig .selection none with sa := 256, awaited := true }
    let back := ((selecting 256 0).modCore 0 fun c => { c with cmds := [held], accepted := 1 }).modMe fun sl => { sl with asked := true }
    let pending := doing ⟨⟨false, 1, 0, false, false, false⟩, .x 3, .x 1, .x 2, 0, .core, 0⟩ ((selecting 256 0).modSt fun st => { st with g := #v[.t, .p, .f, .t, .p, .f, .t, .p] })
    (∀ t ∈ [s, r], t.Accepting 2 ∧ scalar t.ir.d t = .ok 0x1040 ∧ scalar t.ir.a t = .ok 0x2000) ∧
    (scalar s.ir.b s = .ok 64 ∧ scalar r.ir.b r = .ok (32 + 2 * 2 ^ 16 + 32 * 2 ^ 32 + 32 * 2 ^ 48)) ∧
    (fed.Accepting 2 ∧ scalar fed.ir.d fed = .ok 0x1040 ∧ scalar fed.ir.a fed = .ok 0x2000 ∧ scalar fed.ir.b fed = .ok 0 ∧ fed.ir.b = .q 2 ∧
      (∃ ga, grainRows fed 16 [0x2000] = .ok ga ∧ passes (bufTests fed ga) = true ∧ passes (grainRows fed 8 [0x2000]) = true) ∧
      (∃ gb, grainRows fed 16 [0x1040] = .ok gb ∧ (match shadowOf fed 0x1040 gb with | .ok p => p == (0, 0) | .error _ => false) = true)) ∧
    (∃ ga, grainRows s 64 [0x2000] = .ok ga ∧ passes (bufTests s ga) = true) ∧
    (∃ gb, grainRows s 64 [0x1040] = .ok gb ∧ (match shadowOf s 0x1040 gb with | .ok p => p == (0, 0) | .error _ => false) = true) ∧
    Buf.filling (s.core 0).bufs[0] = true ∧ passes (bufTests s []) = true ∧
    (rectBad (32 + 2 * 2 ^ 16 + 32 * 2 ^ 32 + 32 * 2 ^ 48) = false ∧ passes (grainRows r 32 [0x2000, 0x2020]) = true ∧
      (∃ gb, grainRows r 32 [0x1040, 0x1060] = .ok gb ∧ passes (shadowOf r 0x1040 gb) = true)) ∧
    (passes (grainsOf s 0x2000 (8 * 4)) = true ∧ (∃ gb, grainsOf s 0x1040 (16 * 4) = .ok gb ∧ passes (shadowOf s 0x1040 gb) = true)) ∧
    (bad.Accepting 2 ∧ scalar bad.ir.b bad = .ok 0x88 ∧ (0x88 : Word).toNat % 16 ≠ 0) ∧
    ((selecting 256 0x4000).Accepting 3 ∧ (selecting 256 0x4000).me.asked = false ∧ (selecting 256 0x4000).cond = some true ∧
      registers makeCrdDig (selecting 256 0x4000) = true ∧ registers makeCrdWdig (selecting 256 0x4000) = true ∧
      registers makeCrdPlane (selecting 256 0x4000) = true ∧ registers makeCrdElim (selecting 256 0x4000) = true) ∧
    ((selecting 0 64).Accepting 3 ∧ registers makeCrdRes (selecting 0 64) = true ∧ registers makeCrdWait (selecting 0 64) = true ∧
      registers makeCrdClose (selecting 0 64) = true) ∧
    (let o := doing ⟨plain, .x 3, .x 4, .x 2, 0, .core, 0⟩ (setX 4 0x5000 (setX 5 (BitVec.ofNat 64 (16 + 2 ^ 40)) (selecting 0 0x6000)))
     o.Accepting 3 ∧ registers makeCrdOpen o = true) ∧
    (late.Accepting 3 ∧ (match makeCrdWait none late with | .ok x => registerWaits (late.took { x with awaited := true }) { x with awaited := true } | .error _ => false) = true) ∧
    (back.Ready ∧ back.me.asked = true ∧ back.waitingCmd = some held ∧ registerWaits back held = false ∧
      passes (registerTests back held) = true) ∧
    (pending.Accepting 3 ∧ pending.cond = none ∧ passes (makeCrdDig pending.boundTo pending) = true) := by
  intro s r bad fed first late held back pending
  refine ⟨?_, ⟨rfl, rfl⟩, ⟨by unfold State.Accepting; decide +kernel, rfl, rfl, rfl, rfl, okWithBoth (fun g => _) (by decide +kernel) (by decide +kernel),
      okWith (fun g => _) (by decide +kernel)⟩, okWith (fun g => _) (by decide +kernel), okWith (fun g => _) (by decide +kernel), by decide +kernel, by decide +kernel,
    ⟨by decide +kernel, by decide +kernel, okWith (fun g => _) (by decide +kernel)⟩, ⟨by decide +kernel, okWith (fun g => _) (by decide +kernel)⟩,
    ⟨by unfold State.Accepting; decide +kernel, rfl, by decide⟩,
    ⟨by unfold State.Accepting; decide +kernel, by decide +kernel⟩, ⟨by unfold State.Accepting; decide +kernel, by decide +kernel⟩,
    ⟨by unfold State.Accepting; decide +kernel, by decide +kernel⟩, ⟨by unfold State.Accepting; decide +kernel, by decide +kernel⟩,
    ⟨⟨rfl, rfl⟩, by decide +kernel⟩, by unfold State.Accepting; decide +kernel, by decide +kernel⟩
  intro t ht
  simp only [List.mem_cons, List.not_mem_nil, or_false] at ht
  obtain rfl | rfl := ht <;> exact ⟨by unfold State.Accepting; decide +kernel, rfl, rfl⟩

/-- A copy command whose word B is still in its queue, with the lengths 64 and 8, and with none. -/
theorem witness_CopyAndSelectionCommands_late :
    let s := fun l : List QEntry => doing (three plain (.x 3) (.x 1) (.q 2)) ((copying 0).modCore 0 fun c => { c with qs := l })
    let x := { newCmd (s []) .cpy .copy none with sd := 0x1040, sa := 0x2000, buffer := some (0, 0) }
    let t := { (s []) with focusU := x.unit, focusK := x.slot }
    (x.step = 0 ∧ x.loaded = false ∧ x.present (s [⟨2, 0, .word 64⟩]) = true ∧ x.ops.b = .q 2 ∧ x.ops.a = .x 1) ∧
    takeEntry 2 x.slot ((s []).core x.unit).qs = none ∧
    takeEntry 2 x.slot ((s [⟨2, 0, .word 64⟩]).core x.unit).qs = some (.word 64, []) ∧
    takeEntry 2 x.slot ((s [⟨2, 0, .word 8⟩]).core x.unit).qs = some (.word 8, []) ∧
    (copyLenBad .cpy 8 = true ∧ copyLenBad .cpy 64 = false) ∧
    (match copyTests .cpy t 0x2000 0x1040 64 with | .ok g => g.2.2 == (0, 0) | .error _ => false) = true := by decide +kernel

theorem witness_EngineOrder :
    let o := three plain (.v 1) (.v 2) (.v 3)
    let x := newCmd (shaped 0 o) .vadd .vector none
    let s := { (shaped 0 o).modCore 0 fun c => { c with cmds := [x], accepted := 1 } with ev := some (.engineCommandStart 0 .vector) }
    let y := { x with order := 1 }
    let b := { x with bound := some (1, false) }
    let h := { (shaped 0 o).modCore 0 fun c => { c with cmds := [b], accepted := 1 } with ev := some (.engineCommandStart 0 .vector) }
    let e := { x with phase := .executing }
    let c := { (shaped 0 o).modCore 0 fun c => { c with cmds := [e, y], accepted := 2 } with ev := some (.engineCommandComplete 0 .vector) }
    let v := { newCmd (shaped 0 o) .vpush .vector none with ops := three plain (.q 4) (.v 2) (.x 3) }
    let f := { (shaped 0 o).modCore 0 fun c =>
      { c with cmds := [{ v with phase := .executing }], qs := List.replicate 32 ⟨4, 0, .word 0⟩ } with ev := some (.engineCommandComplete 0 .vector) }
    let q := doing (three plain (.x 3) (.m 2) (.x 0)) hart
    let w := q.modCore 0 fun c => { c with cmds := [x], accepted := 1 }
    (s.ev = some (.engineCommandStart 0 .vector) ∧ (s.core 0).head .vector = some x ∧ starts s x = true) ∧
    (h.ev = some (.engineCommandStart 0 .vector) ∧ (h.core 0).head .vector = some b ∧ starts h b = false) ∧
    (c.ev = some (.engineCommandComplete 0 .vector) ∧ (c.core 0).executing .vector = some e ∧ (engineEffect .vector c e).isSome = true) ∧
    (f.ev = some (.engineCommandComplete 0 .vector) ∧ ∃ z, (f.core 0).executing .vector = some z ∧ engineEffect .vector f z = none) ∧
    (q.Standing ∧ q.ir.a = .m 2 ∧ q.here.vectorBusy q.here.accepted = false ∧ q.Room) ∧
    (w.Standing ∧ w.here.vectorBusy w.here.accepted = true) ∧
    ((1 : BitVec 512) ≠ 0 ∧ (0 : BitVec 512) = 0) := by
  intro o x s y b h e c v f q w
  exact ⟨by decide +kernel, by decide +kernel, by decide +kernel, ⟨by decide +kernel, { v with phase := .executing }, by decide +kernel⟩,
    ⟨⟨⟨rfl, rfl⟩, rfl, rfl, rfl⟩, rfl, by decide +kernel, rfl⟩, ⟨⟨⟨rfl, rfl⟩, rfl, rfl, rfl⟩, by decide +kernel⟩, by decide +kernel⟩

theorem witness_VectorResults :
    let o := three plain (.v 1) (.v 2) (.v 3)
    let e := { newCmd (shaped 0 o) .vadd .vector none with phase := .executing }
    let c := { (shaped 0 o).modCore 0 fun c => { c with cmds := [e], accepted := 1 } with ev := some (.engineCommandComplete 0 .vector) }
    (c.ev = some (.engineCommandComplete 0 .vector) ∧ (c.core 0).executing .vector = some e ∧ e.unit = 0 ∧
      e.row ∉ [Instr.vld, .vst, .vldd, .mld, .mst, .vpush, .vpop]) ∧
    (e.ops.d = .v 1 ∧ vshapeBad e.vshape.toNat = false) ∧
    ({ e with row := .vceq, ops := three plain (.m 1) (.v 2) (.v 3) }).ops.d = .m 1 ∧
    (∀ r ∈ [Instr.vadd, .vshl, .vcvt, .vrsum, .vrmax, .vtrn, .vshf, .vmov], ({ e with row := r }).ops.a = .v 2 ∧
      ({ e with row := r }).ops.b = .v 3) ∧
    (let k := { e with ops := three plain (.m 1) (.m 2) (.m 3), row := .mand, sa := 512 }
     k.ops.d = .m 1 ∧ k.ops.a = .m 2 ∧ k.ops.b = .m 3) ∧
    ((List.range 6).all fun i => (typeSize i).isSome) = true ∧ 0 < rowsOf e.vshape ∧ 0 < colsOf e.vshape ∧
    (∀ y ∈ (255 : Nat) :: [0], y < 2 ^ 8) ∧ val true 8 255 < val true 8 0 := by
  intro o e c
  refine ⟨by decide +kernel, ⟨rfl, by decide +kernel⟩, rfl, ?_, ⟨rfl, rfl, rfl⟩, by decide +kernel⟩
  intro r _; exact ⟨rfl, rfl⟩
/-- A state in which core 0 executes a command of an engine, and the engine goes on with it. -/
def executing (e : Engine) (x : Cmd) (s : State := hart) : State :=
  { s.modCore 0 fun c => { c with cmds := [x], accepted := 1 } with ev := some (.engineCommandComplete 0 e) }

/-- An executing command with two granules at 0x1000 to read or write, one of which has a scale. -/
def working (i : Instr) (e : Engine) (o : Operands) : Cmd :=
  { newCmd (shaped 0 o) i e none with
    phase := .executing, memA := [⟨0x1000, 0, 0x1000, 16, none⟩, ⟨0x1010, 0, 0x1010, 16, some 0x1005⟩] }

/-- Whether the engine of core 0 has a command before it, with its strand there or gone. -/
def atWork (e : Engine) (x : Cmd) (s : State := hart) (there : Bool := true) : Bool :=
  (executing e x s).ev == some (.engineCommandComplete 0 e) && ((executing e x s).core 0).executing e == some x && x.unit == 0 &&
    x.present (executing e x s) == there

/-- A command whose strand has gone. -/
def orphaned (x : Cmd) : Cmd := { x with sender := { x.sender with strid := 77 } }

/-- What a command has read of all its operands. -/
def readAll (x : Cmd) : Cmd :=
  { x with got := (x.memA ++ x.memB).map fun g => (granuleOf g.home g.off, List.replicate 16 7) }

theorem witness_VectorResults_memory :
    let x := working .vld .vector (three plain (.v 1) (.x 1) (.x 2))
    let g : Grain := ⟨0x1000, 0, 0x1000, 16, none⟩
    let bad := { hart with poison := [(eccUnit (localPlace 0 0x1000 / 16), true)] }
    let v := working .vst .vector (three plain (.v 1) (.x 1) (.x 2))
    let w := { v.begin_ v.memA (List.replicate 32 (some 5)) with step := 1 }
    let m := { working .mld .vector (three plain (.m 1) (.x 1) (.x 2)) with row := .mst }
    let p := working .vpush .vector (three plain (.q 2) (.v 3) (.x 2))
    let q := working .vpop .vector (three plain (.v 1) (.q 2) (.x 2))
    let holds := fun (v : QVal) => hart.modCore 0 fun c => { c with qs := [⟨2, 0, v⟩] }
    let full := hart.modCore 0 fun c => { c with qs := List.replicate 4 ⟨2, 1, .word 0⟩ }
    (∀ y ∈ [x, { x with row := .vldd }, v, p, q, m], atWork .vector y = true) ∧
    (x.nextRead x.memA = some g ∧ passes (readGranule hart x g) = true ∧ passes (readGranule bad x g) = false ∧
      (readAll x).nextRead x.memA = none) ∧
    ((readAll x).memA[1]? = some ⟨0x1010, 0, 0x1010, 16, some 0x1005⟩ ∧ kget (readAll x).got (granuleOf 0 0x1010) = some (List.replicate 16 7)) ∧
    (w.todo = w.memA ∧ v.todo = [] ∧ bad.anyPoison (writePlace bad 0 0x1000) 16 = true ∧ hart.anyPoison (writePlace hart 0 0x1000) 16 = false) ∧
    (atWork .vector (orphaned p) hart false = true ∧ ((executing .vector p).core 0).roomFor 2 = true ∧ ((executing .vector p full).core 0).roomFor 2 = false) ∧
    (atWork .vector q (holds (.word 9)) = true ∧ atWork .vector (orphaned q) hart false = true ∧ takeEntry 2 q.slot (holds (.word 9)).here.qs = some (.word 9, []) ∧
      takeEntry 2 q.slot (holds (.failure .align 1 2 3)).here.qs = some (.failure .align 1 2 3, []) ∧ takeEntry 2 q.slot hart.here.qs = none ∧
      q.sb.toNat < rowsOf q.vshape * colsOf q.vshape ∧ vshapeBad q.vshape.toNat = false) ∧
    ((bytesOf (x.grains x.memA)).length ≤ 512 ∧ (x.grains x.memA).length ≤ rowsOf x.vshape * colsOf x.vshape) ∧
    (hart.Canonical ∧ Outside 16 16 0 ∧ (List.take 16 ([some 5] : List (Option Byte))).any Option.isSome = true) ∧
    (formatOf 0x10 = .fp16 ∧ formatOf 0 = .raw) := by
  unfold State.Canonical Outside; decide +kernel

theorem witness_MemoryAndTileCommands_results :
    let l := three plain (.t 1) (.x 1) (.x 2)
    let x := working .acld .array l
    let z := { working .mzero .array l with memA := [], mxcfg := BitVec.ofNat 64 (2 ^ 32), step := 16, loaded := true }
    let bad := { hart with poison := [(eccUnit (localPlace 0 0x1000 / 16), true)] }
    let full := hart.modCore 0 fun c => { c with qs := List.replicate 4 ⟨4, 1, .word 0⟩ }
    let early := hart.modCore 0 fun c => { c with cmds := [{ z with order := 0, step := 3 }] }
    let s := working .acst .row l
    let r := working .rstat .row (three plain (.v 1) (.t 2) (.x 2))
    let noted := { r with step := 16, sb := 256 }
    let wait := hart.modCore 0 fun c => { c with final := c.final.set 1 0 }
    (atWork .array x = true ∧ x.loaded = false ∧ x.nextRead (x.memA ++ x.memB) = some ⟨0x1000, 0, 0x1000, 16, none⟩ ∧
      passes (readGranule hart x ⟨0x1000, 0, 0x1000, 16, none⟩) = true ∧ passes (readGranule bad x ⟨0x1000, 0, 0x1000, 16, none⟩) = false ∧
      (readAll x).nextRead (x.memA ++ x.memB) = none) ∧
    (atWork .array z = true ∧ z.loaded = true ∧ z.ops.d = .t 1 ∧ z.mxcfg.getLsbD 32 = true ∧ x.mxcfg.getLsbD 32 = false ∧ z.present hart = true ∧
      (orphaned z).present hart = false ∧ (hart.core 0).tilesBefore z = true ∧ (hart.core 0).roomFor 4 = true ∧ (full.core 0).roomFor 4 = false ∧
      (early.core 0).tilesBefore { z with order := 1 } = false) ∧
    (∀ p ∈ [(Instr.acmv, Opd.v 3, (0 : Word)), (.acmv, .v 3, 2), (.acmv, .v 3, 3), (.mmaB8, .v 3, 0), (.mmaF16, .x 4, 0)],
      let y := { x with row := p.1, sb := p.2.2, ops := three plain (.t 1) p.2.1 (.x 2) }
      y.ops.d = .t 1 ∧ y.ops.a = p.2.1) ∧
    (formatOf ((0x20 : BitVec 512).extractLsb' 0 8) = .b8 4) ∧
    (atWork .row s = true ∧ s.step < (((executing .row s).core 0).final[1]).toNat ∧ s.todo = [] ∧ s.row = .acst ∧
      (((executing .row s wait).core 0).final[1]).toNat ≤ s.step ∧ (s.begin_ s.memA [some 1]).todo ≠ []) ∧
    (atWork .row r = true ∧ r.ops.d = .v 1 ∧ r.ops.a = .t 2 ∧ r.row ≠ .acst ∧ r.sb.getLsbD 8 = false) ∧
    (atWork .row noted = true ∧ atWork .row (orphaned noted) hart false = true ∧ 16 ≤ noted.step ∧ noted.sb.getLsbD 8 = true ∧
      ((executing .row noted).core 0).firstMatrix noted = true ∧ ((executing .row noted).core 0).roomFor 4 = true ∧
      ((executing .row noted full).core 0).roomFor 4 = false ∧ (early.core 0).firstMatrix { noted with order := 1 } = false) := by
  and_intros <;> decide +kernel

theorem witness_CopyAndSelectionCommands_results :
    let l := three plain (.x 3) (.x 1) (.x 2)
    let c := { working .cpy .copy l with memB := [⟨0x1040, 0, 0x1040, 16, none⟩], sb := 16 }
    let n := { c with step := 2 }
    let full := hart.modCore 0 fun k => { k with qs := List.replicate 2 ⟨6, 1, .word 0⟩ ++ List.replicate 4 ⟨5, 1, .word 0⟩ }
    let q := { working .cpyGth .copy l with memA := [⟨0x2000, 0, 0x2000, 8, none⟩], sb := 1, got := [(granuleOf 0 0x2000, leBytes 16 0x1000)] }
    let bad := { hart with poison := [(eccUnit (localPlace 0 0x1000 / 16), true)] }
    let y : Session := ⟨1, 1, freeStrid 0 0, false, 0, 0x1000, 0, 0x2000, 16, 0, false, false⟩
    let k := { working .crdDig .selection l with sess := some y, sa := 256 }
    let m := { readAll { k with memA := k.carderReads y } with memB := [] }
    (∀ x ∈ [c, { c with row := .cpy2d }, { c with row := .cpyFill }, q, n], atWork .copy x = true) ∧
    (c.step = 0 ∧ c.lateOpds = [] ∧ q.nextRead q.memA = none ∧ { q with got := [] }.nextRead q.memA ≠ none) ∧
    (let e := gatherEntry (bytesOf (q.grains q.memA)) (q.out.length / 16)
     passes (gatherOne hart q e) = true ∧ passes (gatherOne bad q e) = false) ∧
    (atWork .copy (orphaned n) hart false = true ∧ ((executing .copy n).core 0).roomFor 6 = true ∧ ((executing .copy n full).core 0).roomFor 6 = false) ∧
    ({ c with sb := BitVec.ofNat 64 (2 ^ 32) }.sb.getLsbD 32 = true ∧ c.sb.getLsbD 32 = false) ∧
    (c.todo = [] ∧ { c with todo := c.memB }.todo = ⟨0x1040, 0, 0x1040, 16, none⟩ :: [] ∧
      bad.anyPoison (writePlace bad 0 0x1000) 16 = true ∧ hart.anyPoison (writePlace hart 0 0x1040) 16 = false) ∧
    (hart.Canonical ∧ 24 % 8 = 0 ∧ 23 < 24) ∧
    (∀ i ∈ [0, 1, 2], atWork .selection { k with step := i } = true ∧ k.sess = some y) ∧
    (atWork .selection (orphaned { k with step := 2 }) hart false = true ∧ ((executing .selection k).core 0).roomFor 5 = true ∧
      ((executing .selection k full).core 0).roomFor 5 = false) ∧
    ((statesOf m y)[0]? = some 3 ∧ (statesOf m y)[2]? = some 0 ∧ (keysOf m y).length = 16) := by
  unfold State.Canonical; decide +kernel

/-- Context 1 with a key, a live handle in table slot 0 of one plane with rows of 16 elements and one row, and a page free for it. -/
def kvHart : State :=
  let s := { hart with hub := { hart.hub with security := { hart.hub.security with keys := [(1, 0)] } } }
  let h : Handle := { Handle.reset with state := .live, ctx := 1, planes := 1, rb := 1, fmt := 0x10, bound := 4 }
  (s.setHandle 0 (h.setPage 0 { PageDesc.none with fill := 1, pfn := 0x800, scale := 0x80 })).setPool 0 ⟨[0], []⟩

/-- The word that names that handle. -/
def kvWord : Word := BitVec.ofNat 64 (2 ^ 52 + 4)

/-- That handle with a row in place. -/
def kvRow : State := kvHart.setHandle 0 { kvHart.handle 0 with next := [(0, 1)] }

theorem witness_KeyValueForms :
    let geo : Word := BitVec.ofNat 64 (2 ^ 16 + 0x10)
    let n := doing regs (setX 1 geo (setX 2 4 hart))
    let full := doing regs (setX 1 (BitVec.ofNat 64 (23 * 2 ^ 40 + 2 ^ 16 + 0x10)) (setX 2 0x100000 hart))
    let s := doing regs (setX 1 kvWord (setX 2 1 kvRow))
    let late := doing regs (setX 1 kvWord (setX 2 2 kvRow))
    let tied := doing s.ir (s.setHandle 0 { s.handle 0 with slot := some 0 })
    let other := doing regs (setX 1 4 kvRow)
    let app := doing regs (setX 1 kvWord (setX 2 0x1000 (setX 3 0 kvRow)))
    let fullRow := app.setHandle 0 { app.handle 0 with bound := 0 }
    let ref := doing regs (setX 1 kvWord (setX 2 (BitVec.ofNat 64 (2 ^ 44)) (setX 3 0x3000 kvRow)))
    (geometryBad geo.toNat 4 = false ∧ geometryBad geo.toNat 0x100000 = true) ∧
    (n.Standing ∧ n.ReadsAB geo 4 n ∧ homeSlot n 0 = some 0 ∧ n.Room) ∧ (full.Standing ∧ full.ReadsAB (BitVec.ofNat 64 (23 * 2 ^ 40 + 2 ^ 16 + 0x10)) 0x100000 full) ∧
    (s.Standing ∧ s.ReadsAB kvWord 1 s ∧ s.ReadsA kvWord s ∧ (match checkHandle s s.st.ctx kvWord with | .ok i => i == 0 | .error _ => false) = true ∧
      (s.handle 0).clen.toNat ≤ 1 ∧ (s.handle 0).len = 1 ∧ (s.handle 0).slot = none ∧ s.Room) ∧
    (late.Standing ∧ late.ReadsAB kvWord 2 late ∧ (late.handle 0).len < 2) ∧
    (tied.Standing ∧ tied.ReadsAB kvWord 1 tied ∧ passes (checkHandle tied tied.st.ctx kvWord) = true ∧ (tied.handle 0).slot ≠ none) ∧
    (other.Standing ∧ other.ReadsA 4 other ∧ (match checkHandle other other.st.ctx 4 with | .ok _ => false | .error c => c == .kvTenant) = true) ∧
    (app.Standing ∧ app.ReadsABD kvWord 0x1000 0 app ∧ regionOf 0x1000 = .l ∧ 0 < (app.handle 0).planes ∧ 0x1000 + 4 * (app.handle 0).elems ≤ schedBase ∧
      mayReach app app.focusU app.focusU app.st.ctx .l = true ∧ app.early app.focusU false = false ∧
      readRun app app.focusU 0x1000 0x1000 64 = .ok (List.replicate 64 0) ∧ passes (appendAt kvWord 0 0 (List.replicate 16 0) 2 app app) = true ∧
      (fullRow.Standing ∧ fullRow.ReadsABD kvWord 0x1000 0 fullRow ∧ 32 * (fullRow.handle 0).bound ≤ ((fullRow.handle 0).nextOf 0).toNat ∧
        readRun fullRow fullRow.focusU 0x1000 0x1000 64 = .ok (List.replicate 64 0))) ∧
    (ref.Standing ∧ ref.ReadsABD kvWord (BitVec.ofNat 64 (2 ^ 44)) 0x3000 ref ∧ localOf ref.focusU 0x3000 = some (0, 0x3000) ∧ regionOf 0x3000 ≠ .h ∧
      ref.st.writes = [] ∧ ref.st.asked = [] ∧ 0 + 1 * (ref.handle 0).elems ≤ 3840 ∧ 0 + 1 ≤ (ref.handle 0).len ∧ ((ref.handle 0).page 0).pois = false ∧
      refDest ref 0x3000 [(0, 16), (3840, 16)] = .ok 0 ∧ ref.crossing ref.focusU ref.focusK 0 = false ∧ fillRefused ref 0 0x3000 = false ∧ fillRefused ref 0 0x3F00 = false ∧
      (kget ref.hub.security.keys ref.st.ctx.toNat).isSome = true ∧ damagedRow ref (ref.handle 0) ((ref.handle 0).page 0) [0] = none) := by
  intro geo n full s late tied other app fullRow ref
  exact ⟨by decide +kernel, ⟨⟨⟨rfl, rfl⟩, rfl, rfl, rfl⟩, rfl, by decide +kernel, rfl⟩, ⟨⟨⟨rfl, rfl⟩, rfl, rfl, rfl⟩, rfl⟩,
    ⟨⟨⟨rfl, rfl⟩, rfl, rfl, rfl⟩, rfl, rfl, by decide +kernel, by decide +kernel, by decide +kernel, by decide +kernel, rfl⟩,
    ⟨⟨⟨rfl, rfl⟩, rfl, rfl, rfl⟩, rfl, by decide +kernel⟩, ⟨⟨⟨rfl, rfl⟩, rfl, rfl, rfl⟩, rfl, by decide +kernel, by decide +kernel⟩,
    ⟨⟨⟨rfl, rfl⟩, rfl, rfl, rfl⟩, rfl, by decide +kernel⟩,
    ⟨⟨⟨rfl, rfl⟩, rfl, rfl, rfl⟩, rfl, by decide +kernel, by decide +kernel, by decide +kernel, by decide +kernel, by decide +kernel,
      okOf (by decide +kernel), by decide +kernel, ⟨⟨rfl, rfl⟩, rfl, rfl, rfl⟩, rfl, by decide +kernel, okOf (by decide +kernel)⟩,
    ⟨⟨rfl, rfl⟩, rfl, rfl, rfl⟩, rfl, by decide +kernel, by decide +kernel, rfl, rfl, by decide +kernel, by decide +kernel,
      by decide +kernel, okOf (by decide +kernel), by decide +kernel, by decide +kernel⟩

/-- A page of HBM that is a logits region, at the same address. -/
def logits (s : State) : State := s.setNum 0x14008 8 (2 ^ 55 + 5 * 2 ^ 9 + 7)

/-- `lf.arm` of 16 elements in it. -/
def arming : State := doing regs (setX 1 (inPage 4096) (setX 2 16 (logits hart)))

/-- What it finds there, by frame. -/
def found (s : State) : List (Nat × Except Cause Bool) :=
  (regionPlaces s ((inPage 4096).toNat % 2 ^ 56) 1).map fun p => (p.1, p.2.map (·.smp))

theorem witness_FilterForms :
    let a := inPage 4096
    let f : Filter := ⟨0, [], 1, 0, 16, [], [(0, FilterPart.empty)]⟩
    let armed := fun s : State => s.setFilter 1 3 f
    let s := arming
    let clear := doing regs (setX 1 a (setX 2 16 (paged hart)))
    let hole := doing regs (setX 1 a (setX 2 16 hart))
    let idle := doing regs (setX 1 3 (setX 3 0x3000 hart))
    let taken := doing regs (setX 1 a (setX 2 16 ((logits hart).setContext 1 { hart.context 1 with filters := (List.range 16).map fun k => (k, f) })))
    let bad := doing regs (setX 1 a (setX 2 0 (logits hart)))
    let stop := doing regs (setX 1 5 (setX 2 9 (hart.setReq 5 { ReqSlot.reset with state := .opened, ctx := 1, stops := [9] })))
    let many := doing regs (setX 1 5 (setX 2 9 (hart.setReq 5 { ReqSlot.reset with state := .opened, ctx := 1, stops := List.replicate 16 0 })))
    let sum := doing regs (setX 1 3 (setX 3 0x3000 (armed hart)))
    let out := sum.modSt fun st => { st with writes := [⟨9, false, 0, 0, 0⟩] }
    (s.Standing ∧ s.ReadsAB a 16 s ∧ filterBad 16 = false ∧ found s = [(a.toNat % 2 ^ 56, .ok true)] ∧
      (s.context s.st.ctx).filters = [] ∧ (s.context s.st.ctx).idleFilter = some 0 ∧ s.Room) ∧
    (clear.Standing ∧ clear.ReadsAB a 16 clear ∧ found clear = [(a.toNat % 2 ^ 56, .ok false)]) ∧
    (hole.Standing ∧ hole.ReadsAB a 16 hole ∧ (hole.context hole.st.ctx).idleFilter = some 0 ∧ ((found hole).all fun p => !passes p.2) = true ∧ (found hole).length = 1) ∧
    (idle.Standing ∧ idle.ReadsA 3 idle ∧ idle.Whole [idle.ir.a, idle.ir.d] ∧ kget (idle.context idle.st.ctx).filters 3 = none ∧ idle.settledIn .module true = true ∧
      src idle.ir.d idle = .ok (0x3000, idle) ∧ localOf idle.focusU 0x3000 = some (0, 0x3000)) ∧
    (taken.Standing ∧ taken.ReadsAB a 16 taken ∧ (taken.context taken.st.ctx).idleFilter = none ∧
      (∀ p ∈ (taken.context taken.st.ctx).filters, overlaps (a.toNat % 2 ^ 56) 64 p.2.base.toNat p.2.size = false)) ∧
    (bad.Standing ∧ bad.ReadsAB a 0 bad ∧ filterBad 0 = true) ∧
    (stop.Standing ∧ stop.ReadsAB 5 9 stop ∧ stop.ReadsA 5 stop ∧ (stop.req 5).state = .opened ∧ (stop.req 5).ctx = stop.st.ctx ∧
      (stop.req 5).stops.contains 9 = true ∧ (stop.req 5).stops.contains 8 = false ∧ (stop.req 5).stops.length < 16) ∧
    (many.Standing ∧ many.ReadsAB 5 9 many ∧ (many.req 5).state = .opened ∧ (many.req 5).ctx = many.st.ctx ∧ (many.req 5).stops.contains 9 = false ∧ 16 ≤ (many.req 5).stops.length) ∧
    (sum.Standing ∧ sum.ReadsA 3 sum ∧ kget (sum.context sum.st.ctx).filters 3 = some f ∧ sum.settledIn .module true = true ∧ sum.Whole [sum.ir.a, sum.ir.d] ∧ sum.hear.Room ∧
      src sum.ir.d sum = .ok (0x3000, sum) ∧ localOf sum.focusU 0x3000 = some (0, 0x3000) ∧ pushDest sum 0x3000 f.block.length = .ok 0 ∧
      (∀ j < f.block.length / 16, fillRefused sum 0 (0x3000 + 16 * j) = false) ∧ sum.crossing sum.focusU sum.focusK 0 = false) ∧
    (let meets := doing regs (setX 1 a (setX 2 16 ((logits hart).setContext 1 { hart.context 1 with filters := [(0, { f with base := low 56 a })] })))
     meets.Standing ∧ meets.ReadsAB a 16 meets ∧ found meets = [(a.toNat % 2 ^ 56, .ok true)] ∧
      (∃ p ∈ (meets.context meets.st.ctx).filters, overlaps (a.toNat % 2 ^ 56) 64 p.2.base.toNat p.2.size = true)) ∧
    (out.Standing ∧ out.ReadsA 3 out ∧ out.settledIn .module true = false) := by
  intro a f armed s clear hole idle taken bad stop many sum out
  refine ⟨?_, ?_, ?_, ?_, ?_, ?_, ?_, ?_, ?_, ⟨⟨⟨rfl, rfl⟩, rfl, rfl, rfl⟩, rfl, by decide +kernel, by decide +kernel⟩, ?_⟩
  · exact ⟨⟨⟨rfl, rfl⟩, rfl, rfl, rfl⟩, rfl, by decide +kernel, by decide +kernel, by decide +kernel, by decide +kernel, rfl⟩
  · exact ⟨⟨⟨rfl, rfl⟩, rfl, rfl, rfl⟩, rfl, by decide +kernel⟩
  · exact ⟨⟨⟨rfl, rfl⟩, rfl, rfl, rfl⟩, rfl, by decide +kernel⟩
  · exact ⟨⟨⟨rfl, rfl⟩, rfl, rfl, rfl⟩, rfl, rfl, by decide +kernel, by decide +kernel, rfl, rfl⟩
  · exact ⟨⟨⟨rfl, rfl⟩, rfl, rfl, rfl⟩, rfl, by decide +kernel, by decide +kernel⟩
  · exact ⟨⟨⟨rfl, rfl⟩, rfl, rfl, rfl⟩, rfl, by decide +kernel⟩
  · exact ⟨⟨⟨rfl, rfl⟩, rfl, rfl, rfl⟩, rfl, rfl, by decide +kernel⟩
  · exact ⟨⟨⟨rfl, rfl⟩, rfl, rfl, rfl⟩, rfl, by decide +kernel⟩
  · exact ⟨⟨⟨rfl, rfl⟩, rfl, rfl, rfl⟩, rfl, by decide +kernel, by decide +kernel, rfl, rfl, rfl, by decide +kernel, okOf (by decide +kernel), by decide +kernel, by decide +kernel⟩
  · exact ⟨⟨⟨rfl, rfl⟩, rfl, rfl, rfl⟩, rfl, by decide +kernel⟩

/-- An instruction on request slot 5, which is open with one level and a node, whose second operand is `b`. -/
def onSlot (b : Word) (r : ReqSlot) : State :=
  doing regs (setX 1 5 (setX 2 b (hart.setReq 5 { r with state := .opened, ctx := 1, limit := 2 })))

/-- Puts and accepts on a slot bound to a handle, whose RPOS stands or moves, and at the limit. -/
theorem witness_RequestSlotForms_bound :
    let kv := fun (r : ReqSlot) => (onSlot 0 { r with handle := some 0 }).setHandle 0
      { Handle.reset with state := .live, ctx := 1, planes := 1, rb := 1, fmt := 0x10, bound := 4, slot := some 5 }
    let one : ReqSlot := { ReqSlot.reset with toks := [⟨7, 1⟩], levels := [⟨0, 0, false⟩], tree := [⟨3, 0, 1⟩], stack := [(0, 0)] }
    let free := { one with levels := [], toks := [] }
    let full := { one with toks := [⟨7, 0⟩, ⟨8, 0⟩] }
    let put := fun (r : ReqSlot) => (putTokens (kv r) (kv r).self 5 [0]).req 5
    ((kv one).Standing ∧ (kv one).ReadsAB 5 0 (kv one)) ∧
    ((kv one).req 5).waiting = [] ∧ ((kv one).req 5).unret < ((kv one).req 5).limit ∧ ((kv one).req 5).tree[(0 : Word).toNat]? = some ⟨3, 0, 1⟩ ∧
    ((put one).handle = some 0 ∧ (put one).rpos = ((kv one).req 5).rpos) ∧
    ((put free).handle = some 0 ∧ (put free).rpos ≠ ((kv free).req 5).rpos) ∧
    (((kv full).req 5).limit ≤ ((kv full).req 5).unret ∧ (pathOf ((kv full).req 5) 1).length ≤ ((kv full).req 5).limit ∧
      ((kv full).req 5).limit < ((kv full).req 5).unret + (pathOf ((kv full).req 5) 1).length) := by
  intro kv one free full put
  refine ⟨⟨⟨⟨rfl, rfl⟩, rfl, rfl, rfl⟩, rfl⟩, ?_⟩
  and_intros <;> decide +kernel

theorem witness_RequestSlotForms :
    let block := doing regs (setX 1 0 (setX 2 0x200 (hart.setNum (localPlace 0 0x20D) 1 4)))
    let one : ReqSlot := { ReqSlot.reset with toks := [⟨7, 1⟩], levels := [⟨0, 0, false⟩], tree := [⟨3, 0, 1⟩], stack := [(0, 0)] }
    let tied : ReqSlot := { one with handle := some 0, levels := [⟨0, 0, false⟩] }
    let kv := (onSlot 1 tied).setHandle 0 { Handle.reset with state := .live, ctx := 1, planes := 1, rb := 1, fmt := 0x10, bound := 4, slot := some 5 }
    let fresh := doing regs (setX 1 5 ((onSlot 0 ReqSlot.reset)))
    let back := fun (x : Answer) => (doing regs hart).modMe fun sl => { sl with asked := true, answer := some x }
    let ready := fun (b : Word) (r : ReqSlot) => let s := onSlot b r
      s.Standing ∧ s.ReadsAB 5 b s ∧ s.ReadsA 5 s ∧ (s.req 5).state = .opened ∧ (s.req 5).ctx = s.st.ctx ∧ (s.req 5).waiting = [] ∧ s.Room ∧ s.st.writes = [] ∧ s.st.asked = []
    (block.Standing ∧ block.ReadsAB 0 0x200 block ∧ (∃ q, readBlock block 0x200 = .ok q ∧ (!blockBad (leNat q.1)) = true) ∧
      (List.range 65536).find? (fun n => (block.req n).state == .free) = some 0) ∧
    (ready 0x200 one ∧ ∃ q, readBlock (onSlot 0x200 one) 0x200 = .ok q ∧ blockBad (leNat q.1) = true) ∧
    (ready 1 one ∧ ((onSlot 1 one).req 5).levels[0]? = some ⟨0, 0, false⟩ ∧ ((onSlot 1 one).req 5).depth = 1 ∧ ((onSlot 1 one).req 5).unret < 2 ∧
      ((onSlot 1 one).req 5).handle = none ∧ (onSlot 1 one).early 0 false = false ∧ (onSlot 1 one).Released .system ∧
      mayReach (onSlot 1 one) 0 0 1 .l = true) ∧
    (ready 1 { one with levels := [⟨0, 0, true⟩] } ∧ ready 0 one ∧ ready 64 one ∧ ready 65 one ∧ ready 3 one ∧ ready (BitVec.ofNat 64 (2 + 256)) one) ∧
    (ready 5 { one with toks := [⟨7, 1⟩, ⟨8, 1⟩] } ∧ ((onSlot 5 { one with toks := [⟨7, 1⟩, ⟨8, 1⟩] }).req 5).unret = 2) ∧
    (kv.Standing ∧ kv.ReadsAB 5 1 kv ∧
      ((retireStep (kv.setReq 5 { kv.req 5 with levels := [⟨0, 0, true⟩] }) kv.self 5).req 5).handle = some 0 ∧
      ((retireStep (kv.setReq 5 { kv.req 5 with levels := [⟨0, 0, true⟩] }) kv.self 5).req 5).rpos ≠ (kv.req 5).rpos) ∧
    (ready 0 { one with tree := List.replicate 64 ⟨3, 0, 1⟩ } ∧ ready 2 one ∧ ready 0 { one with tree := List.replicate 3 ⟨3, 0, 7⟩ } ∧
      2 < (pathOf ((onSlot 0 { one with tree := List.replicate 3 ⟨3, 0, 7⟩ }).req 5) 7).length ∧ (pathOf ((onSlot 0 one).req 5) 1).length = 1) ∧
    (ready 0x400 one ∧ readRun (onSlot 0x400 one) 0 0x400 0x400 64 = .ok (List.replicate 64 0)) ∧
    (fresh.Standing ∧ fresh.ReadsA 5 fresh ∧ (fresh.req 5).depth ≠ 8 ∧ (fresh.req 5).npos = (fresh.req 5).start ∧
      ((onSlot 1 one).req 5).npos ≠ ((onSlot 1 one).req 5).start ∧
      ready 0 { one with levels := List.replicate 8 ⟨0, 0, false⟩ } ∧ ((onSlot 0 { one with levels := List.replicate 8 ⟨0, 0, false⟩ }).req 5).depth = 8) ∧
    ((back .done).Ready ∧ (back .done).me.acquires = [] ∧ (back (.value 7)).Ready ∧ (back (.value 7)).Room ∧ (back (.fault .slotClosed 0 0)).Ready) := by
  intro block one tied kv fresh back ready
  have go : ∀ b r, r.waiting = [] → ready b r := by
    intro b r h
    exact ⟨⟨⟨rfl, rfl⟩, rfl, rfl, rfl⟩, rfl, rfl, rfl, rfl, h, rfl, rfl, rfl⟩
  exact ⟨⟨⟨⟨rfl, rfl⟩, rfl, rfl, rfl⟩, rfl, okWith (fun _ => _) (by decide +kernel), by decide +kernel⟩,
    ⟨go _ _ rfl, okWith (fun _ => _) (by decide +kernel)⟩,
    ⟨go _ _ rfl, by decide +kernel, by decide +kernel, by decide +kernel, by decide +kernel, by decide +kernel,
      ⟨by decide +kernel, by decide +kernel⟩, by decide +kernel⟩,
    ⟨go _ _ rfl, go _ _ rfl, go _ _ rfl, go _ _ rfl, go _ _ rfl, go _ _ rfl⟩, ⟨go _ _ rfl, by decide +kernel⟩,
    ⟨⟨⟨rfl, rfl⟩, rfl, rfl, rfl⟩, rfl, by decide +kernel, by decide +kernel⟩,
    ⟨go _ _ rfl, go _ _ rfl, go _ _ rfl, by decide +kernel, by decide +kernel⟩, ⟨go _ _ rfl, okOf (by decide +kernel)⟩,
    ⟨⟨⟨rfl, rfl⟩, rfl, rfl, rfl⟩, rfl, by decide +kernel, by decide +kernel, by decide +kernel, go _ _ rfl, by decide +kernel⟩,
    ⟨rfl, rfl⟩, rfl, ⟨rfl, rfl⟩, rfl, rfl, rfl⟩
theorem witness_TrapEntry :
    let s := vectored hart
    let full : Frame := ⟨0, 0, 0, 0, 0, 0, 0, false, 0⟩
    let deep := s.modMe fun sl => { sl with mode := .handler, frames := [full, full], hbud := 5 }
    0 < (s.core 0).slots.length ∧ (s.context (s.slot 0 0).st.ctx).tvec ≠ 0 ∧
      ((s.modCore 0 fun c => c.landAll 0).slot 0 0).frames.length ≠ 2 ∧
      (s.context (s.slot 0 0).st.ctx).frec = 0 ∧
      ¬ (((s.modCore 0 fun c => c.landAll 0).slot 0 0).mode = .handler ∧ ((s.modCore 0 fun c => c.landAll 0).slot 0 0).hbud = 0) ∧
    (hart.context (hart.slot 0 0).st.ctx).tvec = 0 ∧ (hart.context (hart.slot 0 0).st.ctx).frec = 0 ∧
    (deep.context (deep.slot 0 0).st.ctx).tvec ≠ 0 ∧ ((deep.modCore 0 fun c => c.landAll 0).slot 0 0).frames.length = 2 ∧
      (deep.context (deep.slot 0 0).st.ctx).frec = 0 := by decide +kernel

/-- A handler at depth 1 with the frame given, whose `tret` has the mode `m` and the budget 0. -/
def handled (m : Word) (async : Bool) (cause : Nat) : State :=
  doing regs (setX 1 m (setX 2 0 ((vectored hart).modMe fun sl =>
    { sl with mode := .handler, hbud := 9, frames := [⟨0x3000, BitVec.ofNat 64 cause, 0, 0, 0, 0, 0, async, 7⟩] })))

/-- Whether `frset` of 16 records at `a` finds a place that it can write. -/
def setsArea (s : State) (a : Word) : Bool :=
  match locate s s.focusU s.st.ctx a.toNat .store with
  | .ok p => passes (areaClosed s p a.toNat 68) && passes (awaitWrites s p.home) && passes (reachAll s s.st.ctx p 4)
  | .error _ => false

/-- Faults of the hub that wait for an earlier write, or do not; a requeue without room, and across dies. -/
theorem witness_TrapEntry_records :
    let s := hart.setContext 1 { hart.context 1 with frec := 0x3000 }
    let out := s.modSt fun st => { st with writes := [⟨s.nextId - 1, false, 0, 0, 0⟩] }
    let o : Owed := ⟨{ cause := .trArg }, 1⟩
    let later := { out with nextId := 5 }
    let first := { hart.modSt fun st => { st with writes := [⟨0, false, 0, 0, 0⟩] } with nextId := 5 }
    let due := fun t : State => t.modMe fun sl => { sl with owed := [o] }
    let full := (handled 1 false 0x701).modCore 0 fun c => { c with ready := List.replicate readyRoom (⟨Rec.zero, 4, .fork, 0, 1, 1, [], none, false, false, none⟩ : Queued) }
    (s.self.unit = 0 ∧ s.self.slot = 0 ∧ (s.slot 0 0).live = true ∧ s.self.names (s.slot 0 0).st = true ∧ (s.context s.self.ctx).frec ≠ 0 ∧
      (s.slot 0 0).st.writes = [] ∧ (later.slot 0 0).st.writes ≠ [] ∧ ((later.slot 0 0).st.writes.all fun x => x.id < later.nextId) = true) ∧
    (((due s).slot 0 0).owed = [o] ∧ ((due s).slot 0 0).st.writes = [] ∧ ((due first).slot 0 0).owed = [o] ∧
      (((due first).slot 0 0).st.writes.all fun x => x.id < o.before) = true) ∧
    (tretBad full 1 0 = false ∧ (full.modCore full.focusU fun c => c.endGuards full.focusK).mayEnd 0 0 = true ∧
      (full.core full.st.started).hasRoom = false) := by
  and_intros <;> decide +kernel

theorem witness_TrapForms :
    let s := doing regs (setX 1 0x1000 (setX 2 4 (vectored hart)))
    let bad := doing regs (setX 1 0x1002 (setX 2 17 (vectored hart)))
    let area := doing regs (setX 1 (inPage 0x10000) (setX 2 4 (paged hart)))
    let inM : Word := BitVec.ofNat 64 (2 ^ 48 + 0x1000)
    let local_ := doing regs (setX 1 inM (setX 2 4 hart))
    let out := (handled 2 false 0x701).modSt fun st => { st with writes := [⟨9, false, 0, 0, 0⟩] }
    let asks := fun (l : Word) (x : LaunchState) => doing regs (setX 1 l (hart.setLaunch 3
      { (hart.launch 1).getD ⟨.live, 0, 0, 0, 0, none, 0, none, 0⟩ with state := x }))
    let other := doing regs (setX 1 3 (hart.setLaunch 3 ⟨.live, 2, 0, 0, 0, none, 0, none, 0⟩))
    (s.Ready ∧ s.ReadsA 0x1000 s ∧ s.ReadsAB 0x1000 4 s) ∧ (bad.Ready ∧ bad.ReadsA 0x1002 bad ∧ bad.ReadsAB 0x1002 17 bad) ∧
    (area.Ready ∧ area.ReadsAB (inPage 0x10000) 4 area ∧ (inPage 0x10000).toNat % 64 = 0 ∧ regionOf (inPage 0x10000).toNat = .h ∧
      passes (storable area (inPage 0x10000).toNat 1) = true ∧ setsArea area (inPage 0x10000) = true) ∧
    (local_.Ready ∧ local_.ReadsAB inM 4 local_ ∧ regionOf inM.toNat = .m ∧ passes (storable local_ inM.toNat 1) = true ∧
      setsArea local_ inM = true) ∧
    (∀ p ∈ [(0, false, 0x701), (2, false, 0x701), (1, false, 0x701), (0, true, 0x701), (3, true, Cause.orphan.code), (4, true, Cause.orphan.code)],
      let h := handled (BitVec.ofNat 64 p.1) p.2.1 p.2.2
      h.Ready ∧ h.ReadsAB (BitVec.ofNat 64 p.1) 0 h ∧ tretBad h (BitVec.ofNat 64 p.1) 0 = false ∧
      (h.modCore h.focusU fun c => c.endGuards h.focusK).mayEnd 0 0 = true ∧ (h.core h.st.started).hasRoom = true ∧
      (redispatch h 0 false 7).isSome = true) ∧
    (handled 3 false 0x701).Ready ∧ tretBad (handled 3 false 0x701) 3 0 = true ∧
    (out.Ready ∧ tretBad out 2 0 = false ∧ (out.modCore out.focusU fun c => c.endGuards out.focusK).mayEnd 0 0 = false) ∧
    (∀ x ∈ [LaunchState.live, .killing, .killed, .done], (asks 3 x).Ready ∧ (asks 3 x).ReadsA 3 (asks 3 x) ∧
      ((kget (asks 3 x).hub.launches 3).map fun y => (y.ctx, y.state)) = some ((asks 3 x).st.ctx, x) ∧ (asks 3 x).Room) ∧
    ((asks 4 .live).Ready ∧ (asks 4 .live).ReadsA 4 (asks 4 .live) ∧ kget (asks 4 .live).hub.launches 4 = none ∧ (asks 4 .live).Room) ∧
    (other.Ready ∧ other.ReadsA 3 other ∧ ((kget other.hub.launches 3).map (·.ctx)) = some 2) := by
  intro s bad area inM local_ out asks other
  refine ⟨⟨⟨rfl, rfl⟩, rfl, rfl⟩, ⟨⟨rfl, rfl⟩, rfl, rfl⟩, ⟨⟨rfl, rfl⟩, rfl, by decide +kernel⟩, ⟨⟨rfl, rfl⟩, rfl, by decide +kernel⟩,
    ?_, ⟨rfl, rfl⟩, by decide +kernel, ⟨⟨rfl, rfl⟩, by decide +kernel, by decide +kernel⟩, ?_,
    ⟨⟨rfl, rfl⟩, rfl, by decide +kernel, rfl⟩, ⟨rfl, rfl⟩, rfl, by decide +kernel⟩
  · intro p hp
    simp only [List.mem_cons, List.not_mem_nil, or_false] at hp
    obtain rfl | rfl | rfl | rfl | rfl | rfl := hp <;> exact ⟨⟨rfl, rfl⟩, rfl, by decide +kernel⟩
  · intro x hx
    simp only [List.mem_cons, List.not_mem_nil, or_false] at hx
    obtain rfl | rfl | rfl | rfl := hx <;> exact ⟨⟨rfl, rfl⟩, rfl, by decide +kernel, rfl⟩

/-- An object of one member at 0x1000 in the state given, with the rights `r`: the magic, STATE, SERIAL 1, OWGT 2^20, RECORD,
RIGHTS, context 1, launch 1, one member, SIZE, WRITTEN, EOFF, FOFF, DOFF and POFF 448; and the member's VSHAPE and MXCFG
(R372 to R374). -/
def objectIn (state r : Nat) : State :=
  let bytes : List (Nat × Byte) := [(0, 1), (2, 67), (3, 74), (4, 66), (5, 79), (6, 66), (7, 71), (8, BitVec.ofNat 8 state), (16, 1), (26, 16), (32, 1), (34, 1), (35, BitVec.ofNat 8 r), (36, 1),
    (40, 1), (44, 1), (52, 192), (53, 1), (56, 192), (57, 1), (64, 192), (65, 1), (68, 192), (69, 1), (72, 192), (73, 1), (76, 192), (77, 1),
    (408, 8), (410, 16), (416, 16), (417, 16), (418, 127), (419, 127)]
  { hart with mem := hart.mem ++ bytes.map fun b => (localPlace 0 0x1000 + b.1, b.2) }

/-- A form on that object, with further operands `b` and `d`. -/
def onObject (state r : Nat) (b d : Word) : State := doing regs (setX 1 0x1000 (setX 2 b (setX 3 d (objectIn state r))))

/-- A standing form that reads the object's address and the operands `b` and `d`, with nothing of its strand out. -/
def Holds (s : State) (b d : Word) : Prop :=
  s.Standing ∧ s.ReadsAB 0x1000 b s ∧ s.ReadsA 0x1000 s ∧ s.ReadsABD 0x1000 b d s ∧ s.st.writes = [] ∧ s.st.asked = [] ∧ (s.heardAt (homesOf s 0x1000 28 .load)).Room

/-- Whether the header is found at once, under a right, in a state. -/
def headIs (s : State) (right : Option Nat) (n : Nat) : Bool :=
  passes (awaitObject s 0x1000) && match readHead s 0x1000 right with | .ok h => h.state == n | .error _ => false

/-- Reading at homes leaves the instruction in hand. -/
theorem heardAt_ir (us : List Nat) (s : State) : (s.heardAt us).ir = s.ir := by
  induction us generalizing s with
  | nil => rfl
  | cons u us ih =>
    refine (ih _).trans ?_
    show (s.learnFrom s.focusU u _).ir = s.ir
    unfold State.learnFrom State.learn
    split
    · rfl
    · split <;> rfl

/-- The forms on that object meet the premises of a statement about its operands. -/
theorem onObject_holds (n m : Nat) (b d : Word) : Holds (onObject n m b d) b d := by
  refine ⟨⟨⟨rfl, rfl⟩, rfl, rfl, rfl⟩, rfl, rfl, rfl, rfl, rfl, ?_⟩
  show (State.destRoom _ (State.ir _).d) = true
  rw [heardAt_ir]; rfl

/-- `cinsp` and `crights` of it. -/
def ofObject : State := onObject 2 15 3 0

/-- `ccopy` of it to 0x2000. -/
def copiesObject : State := onObject 2 15 0x2000 448

theorem witness_ContinuationObjects :
    (Holds ofObject 3 0 ∧ headIs ofObject (some 3) 2 = true ∧ headIs ofObject none 2 = true) ∧
    (Holds (onObject 2 15 16 0) 16 0 ∧ headIs (onObject 2 15 16 0) none 2 = true) ∧ headIs ofObject (some 2) 2 = true :=
  ⟨⟨onObject_holds 2 15 3 0, by decide +kernel, by decide +kernel⟩, ⟨onObject_holds 2 15 16 0, by decide +kernel⟩, by decide +kernel⟩

/-- `cinsp` reads a field of it, and `crights` and `cdisc` can write theirs. -/
theorem witness_ContinuationObjects_fields :
    (match readHead ofObject 0x1000 none with
      | .ok h => passes (writeField 0x1000 35 1 (h.rights &&& 3) (ofObject.heardAt (homesOf ofObject 0x1000 16 .load))) | .error _ => false) = true ∧
    (match readObject ofObject 0x1000 16 with | .ok bs => (inspected (leNat bs) 3).isSome | .error _ => false) = true ∧
    passes (writeField 0x1000 8 8 4 (ofObject.heardAt (homesOf ofObject 0x1000 16 .load))) = true := by decide +kernel

/-- The object of another state, for `resume` and `cdisc`. -/
theorem witness_ContinuationObjects_states :
    (Holds (onObject 1 15 0 0) 0 0 ∧ headIs (onObject 1 15 0 0) (some 0) 1 = true) ∧
    (Holds (onObject 3 15 0 0) 0 0 ∧ headIs (onObject 3 15 0 0) (some 0) 3 = true) ∧
    (Holds (onObject 4 15 0 0) 0 0 ∧ headIs (onObject 4 15 0 0) (some 2) 4 = true) :=
  ⟨⟨onObject_holds 1 15 0 0, by decide +kernel⟩, ⟨onObject_holds 3 15 0 0, by decide +kernel⟩, onObject_holds 4 15 0 0, by decide +kernel⟩

/-- `ccopy` reads the whole of it. -/
theorem witness_ContinuationObjects_read : Holds copiesObject 0x2000 448 ∧ headIs copiesObject (some 1) 2 = true ∧
    2 ≤ copiesObject.st.wgt.toNat ∧ (readSource copiesObject 0x1000 0 28).2 = none ∧
    passes (homesReady copiesObject (homesOf copiesObject 0x1000 28 .load) false) = true ∧
    passes (homesReady copiesObject (homesOf copiesObject 0x2000 28 .store) true) = true :=
  ⟨onObject_holds 2 15 0x2000 448, by decide +kernel⟩

/-- What holds a resume at a core of another die: its strand bears a write that this die has not applied. -/
theorem witness_ContinuationObjects_crossing :
    let r := (onObject 2 15 (2 ^ 15) 448).modSt fun st => { st with dep := [(2, 5)] }
    isCompute (2 ^ 15) = true ∧ r.hasGroup r.st.launch = false ∧
      (r.heardAt (homesOf r 0x1000 28 .load)).crossing r.focusU r.focusK (2 ^ 15) = true ∧
      (onObject 2 15 (2 ^ 15) 448).crossing 0 0 (2 ^ 15) = false := by decide +kernel

/-- `ccopy` writes the whole of it. -/
theorem witness_ContinuationObjects_copy :
    (writeAll 0x2000 448 (List.replicate 448 0) none (takeSerial copiesObject).2).2.isNone = true ∧
    (writeAll 0x2000 432 (List.replicate 448 0) none (takeSerial copiesObject).2).2.isSome = true := by decide +kernel

/-- `resume` of it on core 0. -/
theorem witness_ContinuationObjects_resume :
    let r := onObject 2 15 0 448
    Holds r 0 448 ∧ headIs r (some 0) 2 = true ∧ isCompute 0 = true ∧ r.owner 0 = some r.st.ctx ∧ r.hasGroup r.st.launch = false ∧
      2 ^ 16 ≤ r.st.wgt.toNat / 2 / 1 ∧
      (match readObject r 0x1000 28, readHead r 0x1000 (some 0) with | .ok b, .ok h => (parseObject h b).isSome | _, _ => false) = true ∧
      passes (awaitWrites r 0) = true ∧ passes (writeField 0x1000 8 8 3 (r.heardAt (homesOf r 0x1000 28 .load))) = true ∧ (r.launch r.st.launch).isSome = true :=
  ⟨onObject_holds 2 15 0 448, by decide +kernel⟩

/-- A strand that suspends its launch's group of one member into 0x1000, the member standing in the next slot or still to start. -/
def suspending (stands : Bool) : State :=
  let s := doing regs (setX 1 0x1000 (setX 2 4096 (setX 3 0 (hart.setLaunch 1
    { (hart.launch 1).getD ⟨.live, 0, 0, 0, 0, none, 0, none, 0⟩ with group := some ⟨0, 1, [0], [0]⟩ }))))
  if stands then s.modSlot 0 1 fun sl => { sl with mode := .issuing, st := { sl.st with launch := 1, ctx := 1, member := some 0, wgt := 9 } } else s

theorem witness_Suspensions :
    let s := suspending true
    let x : Suspension := ⟨1, s.self, false, true, []⟩
    let u := (standing s 1).foldl (fun u m => if m.isMe u then u else quiesceSlot u m) ((s.setSuspension x).modMe fun sl =>
      { sl with asked := true, answer := some .performed })
    let ms : List Standing := [⟨0, 0, 1⟩]
    let o := objectOf (takeSerial u).2 true 4096 (takeSerial u).1 x.list ms
    let none_ := doing regs hart
    let failed := s.setSuspension { x with failed := true }
    (∀ b ∈ [true, false], (suspending b).Standing ∧ (suspending b).ReadsABD 0x1000 4096 0 (suspending b) ∧
      (match suspendTests true 0x1000 4096 0 (suspending b) with | .ok y => y == x | .error _ => false) = true ∧
      ((suspending b).launch 1).bind (·.group) = some ⟨0, 1, [0], [0]⟩) ∧
    (standing s 1 = ms ∧ allStill u ⟨0, 1, [0], [0]⟩ (standing u 1) = true ∧ (∀ m ∈ ms, ∀ c ∈ cmdsOf u m, c.phase ≠ .executing) ∧
      ((writeAll 0x1000 4096 o.1 o.2 (takeSerial u).2).2.isNone = true) ∧ ((writeAll 0x1000 64 o.1 o.2 (takeSerial u).2).2.isSome = true) ∧
      (∀ y ∈ homesOf (takeSerial u).2 0x1000 28 .store, u.crossing u.focusU u.focusK y = false)) ∧
    allStill (suspending false) ⟨0, 1, [0], [0]⟩ (standing (suspending false) 1) = false ∧
    (none_.Standing ∧ none_.ReadsABD 0 0 0 none_ ∧ none_.hasGroup none_.st.launch = false) ∧
    (none_.Standing ∧ ∀ x ∈ none_.hub.suspended, ¬ (x.launch = none_.st.launch ∧ x.failed = true)) ∧
    (failed.Standing ∧ ∃ x ∈ failed.hub.suspended, x.launch = failed.st.launch ∧ x.failed = true) := by
  intro s x u ms o none_ failed
  refine ⟨?_, by decide +kernel, by decide +kernel,
    ⟨⟨⟨rfl, rfl⟩, rfl, rfl, rfl⟩, rfl, by decide +kernel⟩, ⟨⟨⟨rfl, rfl⟩, rfl, rfl, rfl⟩, by decide +kernel⟩, ⟨⟨rfl, rfl⟩, rfl, rfl, rfl⟩, by decide +kernel⟩
  intro b hb
  simp only [List.mem_cons, List.not_mem_nil, or_false] at hb
  obtain rfl | rfl := hb <;> exact ⟨⟨⟨rfl, rfl⟩, rfl, rfl, rfl⟩, rfl, by decide +kernel, by decide +kernel⟩
/-- A member of a collective whose descriptor at 0x400 has the mask 1, SELF 0, TIMEOUT 1 and a length of 1, and its data at 0x500. -/
def gathering : State :=
  doing regs (setX 1 0x400 (setX 2 0x500 (((hart.setNum (localPlace 0 0x42C) 1 1).setNum (localPlace 0 0x434) 1 1).setNum (localPlace 0 0x438) 1 1)))

/-- The descriptor as a number. -/
def descriptor : Nat := 2 ^ 352 + 2 ^ 416 + 2 ^ 448

/-- A contribution of member `n`. -/
def contributed (n : Nat) (smp : Bool) (mask : Word) : Contribution := Contribution.make 0 smp (descriptor - 2 ^ 448 + mask.toNat * 2 ^ 448 + n) (List.replicate 20 0) none

/-- A module whose links are trained and that has passed every later stage of its bring-up (R409). -/
def trained (s : State) : State := { s with hub := { s.hub with stage := 5 } }

theorem witness_Collectives :
    let s := gathering
    let bad := doing regs (setX 1 0x420 hart)
    let empty := doing regs (setX 1 0x400 hart)
    let back := fun (x : Answer) => (doing regs hart).modMe fun sl => { sl with asked := true, answer := some x }
    let c := contributed 0 false 3
    let d := contributed 1 false 3
    let e := contributed 1 true 3
    let held := fun (x : Collective) => { hart with hub := { hart.hub with colls := [(2 ^ 16 + 7, x)] } }
    (s.Standing ∧ s.ReadsAB 0x400 0x500 s ∧ mayReach s s.focusU s.focusU s.st.ctx .l = true ∧ s.early s.focusU false = false ∧
      readRun s s.focusU 0x400 0x400 64 = .ok (leBytes 64 descriptor) ∧ collDescBad true descriptor = false ∧ collDescBad false descriptor = false ∧
      readRun s s.focusU 0x500 0x500 16 = .ok (List.replicate 16 0) ∧ readRun s s.focusU 0x500 0x500 32 = .ok (List.replicate 32 0) ∧
      s.Released .system ∧ s.hub.stage < 4 ∧ 4 ≤ (trained s).hub.stage ∧ (trained s).Standing ∧ (trained s).Released .system) ∧
    (bad.Standing ∧ bad.ReadsAB 0x420 0 bad ∧ (0x420 : Word).toNat % 64 ≠ 0) ∧
    (empty.Standing ∧ empty.ReadsAB 0x400 0 empty ∧ readRun empty empty.focusU 0x400 0x400 64 = .ok (List.replicate 64 0) ∧ collDescBad true 0 = true) ∧
    ((back .performed).Ready ∧ (back .performed).me.acquires = [] ∧ (back (.value 2)).Ready ∧ (back (.value 2)).Room ∧ (back (.fault .collArg 0 0)).Ready) ∧
    (∀ x ∈ [(⟨9, [c], none⟩ : Collective), ⟨9, [c], some ⟨1, 0, 0, []⟩⟩], kget (held x).hub.colls ((1 : BitVec 12).toNat * 2 ^ 16 + (7 : BitVec 16).toNat) = some x) ∧
    ((9 : BitVec 32) ≠ 8 ∧ ((8 : BitVec 32) - 9).toNat ≥ 2 ^ 31 ∧ ((10 : BitVec 32) - 9).toNat < 2 ^ 31 ∧ c.self = c.self) ∧
    ((∃ x ∈ [e], c.agrees x = false) ∧ (∀ x ∈ [d], c.agrees x = true) ∧ (∀ i < 64, c.mask.getLsbD i = true ↔ ∃ x ∈ [c, d], x.self = i)) ∧
    ((⟨9, [c, d], none⟩ : Collective).members.Perm [d, c] ∧ ([c, d].map (·.self)).Nodup) := by
  intro s bad empty back c d e held
  exact ⟨⟨⟨⟨rfl, rfl⟩, rfl, rfl, rfl⟩, rfl, by decide +kernel, by decide +kernel, okOf (by decide +kernel), by decide +kernel, by decide +kernel,
      okOf (by decide +kernel), okOf (by decide +kernel), ⟨by decide +kernel, by decide +kernel⟩, by decide +kernel, by decide +kernel,
      ⟨⟨rfl, rfl⟩, rfl, rfl, rfl⟩, ⟨by decide +kernel, by decide +kernel⟩⟩,
    ⟨⟨⟨rfl, rfl⟩, rfl, rfl, rfl⟩, rfl, by decide⟩, ⟨⟨⟨rfl, rfl⟩, rfl, rfl, rfl⟩, rfl, okOf (by decide +kernel), by decide +kernel⟩,
    ⟨⟨rfl, rfl⟩, rfl, ⟨rfl, rfl⟩, rfl, rfl, rfl⟩, by decide +kernel, by decide +kernel, by decide +kernel, .swap _ _ _, by decide +kernel⟩

/-- Context 1 with a checkpoint set of this device alone: slots at 2^30 and 2^31 of 64 KiB, a key, and the steps saved. -/
def checkpointed (saved : List (Nat × Saved)) : State :=
  let s := { hart with hub := { hart.hub with security := { hart.hub.security with keys := [(1, 0)] } } }
  s.setContext 1 { s.context 1 with ckSlots := [2 ^ 30, 2 ^ 31], ckSize := 65536, ckSaved := saved }

/-- A checkpoint form whose descriptor at 0x400 names step 4 and one range, listed at 0x500. -/
def saving (saved : List (Nat × Saved)) : State :=
  doing regs (setX 1 0x400 (setX 2 0x500 (((paged (checkpointed saved)).setNum (localPlace 0 0x43C) 1 4).setNum (localPlace 0 0x438) 1 1
    |>.setNum (localPlace 0 0x500) 8 (2 ^ 55 + 2 ^ 32) |>.setNum (localPlace 0 0x509) 1 0x10)))

theorem witness_CheckpointsAndCounters :
    let d : CkptDesc := ⟨4, 1, 0⟩
    let rs := [(2 ^ 55 + 2 ^ 32, 4096)]
    let s := saving []
    let again := saving [(4, ⟨0, rs, false⟩)]
    let out := s.modSt fun st => { st with writes := [⟨9, false, 5, 0, 0⟩] }
    let n := fun (a b : Word) => doing regs (setX 1 a (setX 2 b hart))
    let found := fun (s : State) => s.Standing ∧ s.ReadsAB 0x400 0x500 s ∧ s.ReadsA 0x400 s ∧
      (match readCkpt s 0x400 with | .ok e => decide (e.step = d.step ∧ e.nrange = 1) | .error _ => false) = true
    let back := (doing regs hart).modMe fun sl => { sl with asked := true, answer := some (.value 0) }
    (found s ∧ (match readRanges s 0x500 1 (s.context s.st.ctx).ckSize with | .ok l => decide (l = rs) | .error _ => false) = true ∧
      (s.context s.st.ctx).savedStep 4 = none ∧ (s.context s.st.ctx).ckCommitted = none ∧ s.Released .system ∧ s.hub.stage < 4 ∧ 4 ≤ (trained s).hub.stage ∧ found (trained s) ∧ (trained s).Released .system ∧
      (s.context s.st.ctx).ckSet = [] ∧ slotTakes s 1 ((s.context 1).ckSlot 4) 8 = true ∧
      ((rangeBytes (s.putSlot 1 ((s.context 1).ckSlot 4) (leBytes 8 0)) 1 (rangePages rs)).isSome = true) ∧
      slotTakes (s.putSlot 1 ((s.context 1).ckSlot 4) (leBytes 8 0)) 1 ((s.context 1).ckSlot 4 + 8192) 4096 = true) ∧
    (found again ∧ ((again.context again.st.ctx).savedStep 4).isSome = true ∧ slotTakes again again.st.ctx ((again.context 1).ckSlot 4) 8 = true ∧
      (again.context 1).ckCommitted = none) ∧
    (found out ∧ out.settledIn .system true = false) ∧ (back.Ready ∧ back.me.acquires = [] ∧ back.Room) ∧
    ((n 3 2).Ready ∧ (n 3 2).ReadsAB 3 2 (n 3 2) ∧ (n 3 2).ReadsA 3 (n 3 2) ∧ (match counterArg (n 3 2) 3 with | .ok c => c.set == 0 && c.index == 3 | .error _ => false) = true ∧ codeListed 0 2 = true ∧
      mayCount (n 3 2) ⟨0, 3⟩ = true ∧ ((countersOf (n 3 2) 0)[3]?).isSome = true ∧ (n 3 2).Room ∧ codeListed 0 0x10 = false) ∧
    ((n 0xC4 0x13).Ready ∧ (match counterArg (n 0xC4 0x13) 0xC4 with | .ok c => c.set == 3 && c.index == 4 | .error _ => false) = true ∧ mayCount (n 0xC4 0x13) ⟨3, 4⟩ = false) ∧
    passes (counterArg (n 0x84 0) 0x84) = false ∧ hart.focusU ∈ hart.cores.map (·.1) := by
  intro d rs s again out n found back
  have a : found s := ⟨⟨⟨rfl, rfl⟩, rfl, rfl, rfl⟩, rfl, rfl, by decide +kernel⟩
  have b : found again := ⟨⟨⟨rfl, rfl⟩, rfl, rfl, rfl⟩, rfl, rfl, by decide +kernel⟩
  have c : found out := ⟨⟨⟨rfl, rfl⟩, rfl, rfl, rfl⟩, rfl, rfl, by decide +kernel⟩
  have e : found (trained s) := ⟨⟨⟨rfl, rfl⟩, rfl, rfl, rfl⟩, rfl, rfl, by decide +kernel⟩
  exact ⟨⟨a, by decide +kernel, by decide +kernel, by decide +kernel, ⟨by decide +kernel, by decide +kernel⟩, by decide +kernel, by decide +kernel,
      e, ⟨by decide +kernel, by decide +kernel⟩, by decide +kernel⟩,
    ⟨b, by decide +kernel, by decide +kernel, by decide +kernel⟩, ⟨c, by decide +kernel⟩, ⟨⟨rfl, rfl⟩, rfl, rfl⟩,
    ⟨⟨rfl, rfl⟩, rfl, rfl, by decide +kernel, by decide +kernel, by decide +kernel, by decide +kernel, rfl, by decide +kernel⟩,
    ⟨⟨rfl, rfl⟩, by decide +kernel, by decide +kernel⟩, by decide +kernel, by decide +kernel⟩
/-- Saves whose slot takes no write, or whose range cannot be read. -/
theorem witness_CheckpointsAndCounters_parts :
    let s := saving []
    let p := (s.context 1).ckSlot 4
    let shut := { s with poison := [(eccUnit (p / 16), true)] }
    let near := { s with poison := [(eccUnit ((p + 8192) / 16), true)] }
    let pages := rangePages [(2 ^ 55 + 2 ^ 32, 4096)]
    slotTakes shut 1 p 8 = false ∧ homeTakes shut 1 p 8 = false ∧ homeTakes s 1 p 8 = true ∧ slotTakes near 1 p 8 = true ∧
      (∃ a, pages = [a] ∧ (rangeBytes s 1 [a]).isSome = true) ∧ (rangeBytes s 1 [0]).isSome = false ∧
      homeTakes near 1 (p + 8192) 4096 = false := by
  intro s p shut near pages
  exact ⟨by decide +kernel, by decide +kernel, by decide +kernel, by decide +kernel, ⟨_, rfl, by decide +kernel⟩, by decide +kernel, by decide +kernel⟩

/-- A save of a set with another device; and descriptors and ranges that CKPT.ARG stops. -/
theorem witness_CheckpointsAndCounters_stops :
    let s := trained (saving [])
    let more := s.setContext 1 { s.context 1 with ckSet := [3] }
    let flat := fun a b : Word => doing regs (setX 1 a (setX 2 b s))
    let none_ := flat 0x800 0x500
    let odd := s.setNum (localPlace 0 0x500) 1 1
    ((more.context 1).ckSet = [3] ∧ (match readCkpt more 0x400 with | .ok _ => true | .error _ => false) = true ∧ 4 ≤ more.hub.stage) ∧
    ((0x410 : Word).toNat % 64 ≠ 0 ∧ schedBase < (0x5B000 : Word).toNat + 64) ∧
    (mayReach none_ none_.focusU none_.focusU none_.st.ctx .l = true ∧ none_.early none_.focusU false = false ∧
      readRun none_ none_.focusU 0x800 0x800 64 = .ok (List.replicate 64 0) ∧ (CkptDesc.ofNum (leNat (List.replicate 64 0))).isNone = true) ∧
    ((match readCkpt odd 0x400 with | .ok d => d.nrange == 1 | .error _ => false) = true ∧ (0x508 : Word).toNat % 16 ≠ 0 ∧
      (match readObject odd 0x500 1 with | .ok bs => leNat (bs.take 16) % 2 ^ 64 % 4096 == 1 | .error _ => false) = true) := by
  intro s more flat none_ odd
  exact ⟨by decide +kernel, by decide +kernel, ⟨by decide +kernel, by decide +kernel, okOf (by decide +kernel), by decide +kernel⟩, by decide +kernel⟩

/-- A message of the strand of core 0 on its way to `dst`, the one event that comes next. -/
def posted (e : Event) (dst : Nat) (b : Payload) (s : State := hart) : State :=
  { s with fabric := [⟨9, 0, dst, s.self, [], none, b⟩], ev := some e }

/-- A queued task of launch 1. -/
def someTask : Queued := ⟨Rec.zero, 4, .fork, 0, 1, 1, [], none, false, false, none⟩

/-- An `ldd` that finds its element misaligned under the tag at its home, and one that does not. -/
theorem witness_ArrivalsAtHome_decode :
    let s := fun (a : Word) (p : Nat) => posted (.stayRequestAtHome 0) 1 (.request ⟨.decode, a, p, true⟩) (hart.setTag (localPlace 1 0) 0x10)
    let at_ := fun (a : Nat) => match locate (s 0 0) 0 1 a .load with | .ok p => some (p.place, (formatOf p.tag).size) | .error _ => none
    ((s 0x108_0001 (localPlace 1 1)).arriving 0).isSome = true ∧ at_ 0x108_0001 = some (localPlace 1 1, 2) ∧ at_ 0x108_0002 = some (localPlace 1 2, 2) := by
  decide +kernel

theorem witness_ArrivalsAtHome :
    let load := fun (a : Word) (p : Nat) => posted (.stayRequestAtHome 0) 1 (.request ⟨.load 8 false, a, p, true⟩)
    let take := posted (.stayRequestAtHome 0) 1 (.request ⟨.take 8 true, 0x108_0008, localPlace 1 8, true⟩)
    let x : Waiter := ⟨⟨.take 8 true, 0, 0, false⟩, { hart.self with unit := 5, strid := 99 }, 0, [], false⟩
    let full := take.modCore 1 fun c => { c with waiters := List.replicate 16 x }
    let sub := posted (.subbyteStoreAtHome 0) 1 (.subbyte ⟨.sub 4 0 0, 0x108_0008, localPlace 1 8, false⟩)
    let ack := posted (.writeAcknowledgement 0) 0 (.ack 4 0 0 1 (some .pfOwn)) (hart.modSt fun st => { st with writes := [⟨4, true, 1, 0, 0⟩] })
    let reply := fun (n : Nat) => posted (.replyArrival 0) 0 (.reply n (.word 7)) (hart.modSt fun st => { st with asked := [⟨4, 1, false⟩] })
    let orphan := posted (.replyArrival 0) 3 (.reply 4 (.word 7))
    let comes := fun (s : State) => posted (.migrantArrival 0) 1 (.migrant s.st []) s
    let killed := hart.setLaunch 1 { (hart.launch 1).getD ⟨.live, 0, 0, 0, 0, none, 0, none, 0⟩ with state := .killed }
    let dead := posted (.stayRequestAtHome 0) 1 (.request ⟨.load 8 false, 0x108_0008, localPlace 1 8, true⟩) killed
    let push := fun (n : Nat) (a : Word) => posted (.pushGranuleWrite 0) 0 (.push a (List.replicate n 1) none true)
    let buf := { hart.modCore 0 fun c => c.setBuf 0 (Buf.make 0 false true 0 16 0x2000) with fabric := (push 16 0x2010).fabric, ev := some (.pushGranuleWrite 0) }
    (∀ s ∈ [load 0x108_0008 (localPlace 1 8), load 0x108_0008 0, load 0x60000 0, take, full, sub], (s.arriving 0).isSome = true ∧ s.launchKilled 1 = false) ∧
    (match locate take 0 1 0x108_0008 .load with | .ok p => p.place == localPlace 1 8 && mustWait take p (.take 8 true) | .error _ => false) = true ∧
    (match locate take 0 1 0x108_0008 .load with
      | .ok p => !mustWait take p (.load 8 false) && (match performFor (load 0x108_0008 0) 1 [] p (.load 8 false) with | .ok _ => true | .error _ => false) | .error _ => false) = true ∧
    passes (locate take 0 1 0x60000 .load) = false ∧ 16 ≤ (full.core 1).waiters.length ∧ (take.core 1).waiters.length < 16 ∧
    ((ack.arriving 0).isSome = true ∧ ack.self.names (ack.slot ack.self.unit ack.self.slot).st = true) ∧
    (((reply 4).arriving 0).isSome = true ∧ ((reply 4).core 0).slotOf (reply 4).self = some 0 ∧ (((reply 4).core 0).slot 0).st.asked = [⟨4, 1, false⟩] ∧
      ((reply 4).core 0).qlen 7 < 8 ∧ (4 : Nat) ≠ 5) ∧
    ((orphan.arriving 0).isSome = true ∧ (orphan.core 3).slotOf orphan.self = none ∧ (orphan.core 3).forwards = [] ∧ orphan.launchLive orphan.self.launch = true ∧
      (orphan.core 3).overflow.length < 64) ∧
    (((comes hart).arriving 0).isSome = true ∧ (comes hart).launchLive hart.st.launch = true ∧ ((comes hart).core 1).inbound.length < 8) ∧
    (((comes killed).arriving 0).isSome = true ∧ (comes killed).launchLive killed.st.launch = false) ∧
    ((comes hart).core 1).hasRoom = true ∧
    (((comes hart).modCore 1 fun c => { c with ready := List.replicate readyRoom someTask }).core 1).hasRoom = false ∧
    ((dead.arriving 0).isSome = true ∧ dead.launchKilled 1 = true) ∧
    (((orphan.modCore 3 fun c => { c with overflow := List.replicate 64 (.send someTask 7) }).core 3).overflow.length = 64) ∧
    (8 ≤ (((comes hart).modCore 1 fun c => { c with inbound := List.replicate 8 (.member someTask) }).core 1).inbound.length) ∧
    (∀ n ∈ [16, 32], ((push n 0x2000).arriving 0).isSome = true ∧ localOf 0 0x2000 = some (0, 0x2000) ∧
      (match pushGranule (push n 0x2000) 1 [] (ownPlace (push n 0x2000) 0 0x2000) (List.replicate 16 1) none with | .ok _ => true | .error _ => false) = true) ∧
    (match pushGranule buf 1 [] (ownPlace buf 0 0x2010) (List.replicate 16 1) none with | .ok _ => true | .error _ => false) = false := by
  and_intros <;> decide +kernel

theorem witness_TaskArrivals :
    let full := fun (s : State) => s.modCore 1 fun c => { c with ready := List.replicate readyRoom someTask }
    let killed := hart.setLaunch 1 { (hart.launch 1).getD ⟨.live, 0, 0, 0, 0, none, 0, none, 0⟩ with state := .killed }
    let call := fun (s : State) => posted (.callatArrival 0) 1 (.callat someTask) s
    let entry := fun (e : HandlerEntry) => hart.setHandler 1 7 e
    let send := fun (s : State) => posted (.sendArrival 0) 1 (.send someTask 7) s
    let h : Holder := ⟨1, freeStrid 0 0⟩
    let cell := fun (state count : Nat) => posted (.jarvArrival 0) 0 (.arrival 0x400)
      ((hart.setNum (localPlace 0 0x400) 32 (state + count * 2 ^ 64 + 2 ^ 96 + 0x200 * 2 ^ 128 + 2 ^ 200)).setNum (localPlace 0 0x23C) 4 1000)
    let lapse := fun (n : Nat) => { entry { HandlerEntry.empty with lock := some (h, n) } with now := 70, ev := some (.handlerLockLapse 1 7) }
    let weight := fun (w : Word) => posted (.weightReturn 0) mgmtUnit (.weight w) (hart.setLaunch 1
      { (hart.launch 1).getD ⟨.live, 0, 0, 0, 0, none, 0, none, 0⟩ with state := .live, issued := 10, returned := 4, queue := some 3 })
    (((call hart).arriving 0).isSome = true ∧ (call hart).launchLive 1 = true ∧ ((call hart).core 1).hasRoom = true ∧ ((call (full hart)).core 1).hasRoom = false ∧
      ((call killed).arriving 0).isSome = true ∧ (call killed).launchLive 1 = false) ∧
    (((send hart).arriving 0).isSome = true ∧ (send hart).launchLive 1 = true ∧ (((send (entry { HandlerEntry.empty with lock := some (h, 5) })).context 1).handler 7).lock ≠ none ∧
      (((send (entry { HandlerEntry.empty with valid := true })).context 1).handler 7).valid = true ∧
      (((send hart).context 1).handler 7).lock = none ∧ (((send hart).context 1).handler 7).valid = false ∧ ((send hart).core 1).hasRoom = true ∧
      ((send hart).core 1).overflow.length < 64 ∧ ((send (full (entry { HandlerEntry.empty with valid := true }))).core 1).hasRoom = false) ∧
    (∀ p ∈ [(1, 2), (1, 1), (0, 0)], let s := cell p.1 p.2
      (s.arriving 0).isSome = true ∧ s.launchLive s.self.launch = true ∧
      (match locate s 0 1 0x400 .atomic with | .ok q => passes (reachAll s 1 q 2) | .error _ => false) = true ∧ s.num (localPlace 0 0x400) 4 = p.1 ∧
      bits (s.num (localPlace 0 0x400) 32) 95 64 = p.2 ∧ (s.core 0).hasRoom = true ∧
      bits (s.num (localPlace 0 0x400) 32) 191 128 % 2 ^ 56 = 0x200 ∧ passes (releasedRec s 0 1 0x200) = true) ∧
    ((((cell 1 1).modCore 0 fun c => { c with ready := List.replicate readyRoom someTask }).core 0).hasRoom = false) ∧
    ((((lapse 5).context 1).handler 7).lock = some (h, 5) ∧ 5 + 64 ≤ (lapse 5).now ∧ (lapse 60).now < 60 + 64) ∧
    (((weight 6).arriving 0).isSome = true ∧ ((weight 6).launch 1).map (fun x => (x.state, x.issued, x.returned, x.queue)) = some (.live, 10, 4, some 3)) ∧
    ((posted (.serialNoticeArrival 0) 1 (.serial 5)).arriving 0).isSome = true ∧ ((posted (.clockNoticeArrival 0) 16384 (.clock 5)).arriving 0).isSome = true ∧
    (let s := { hart.setDie 3 { hart.die 3 with ser := 5 } with ev := some (.clockNoticeSend 3) }
     (s.die 3).ser ≠ (s.die 3).told ∧ (s.die 4).ser = (s.die 4).told) := by
  refine ⟨?_, ?_, ?_, ?_, ?_, ?_, ?_, ?_, ?_⟩ <;> decide +kernel

theorem witness_CoreSteps :
    let idle := fun (f : Core → Core) => { hart.modCore 1 f with ev := some (.slotSelect 1 0) }
    let slot := fun (e : Event) (f : Slot → Slot) => { hart.modMe f with ev := some e }
    let f : Frame := ⟨0, 0x701, 0, 0, 0, 0, 0, false, 0⟩
    let thief := { hart with owners := kput hart.owners 0 1, ev := some (.stealAttempt 1 2) }
    let asks := fun (q : Queued) => posted (.stealRequestAtVictim 0) 1 (.stealRequest 2) (hart.modCore 1 fun c => { c with deque := [q] })
    let grant := fun (q : Option Queued) (x : Option Steal) => posted (.stealGrantArrival 0) 1 (.stealGrant q) (hart.modCore 1 fun c => { c with steal := x })
    let full := (grant (some someTask) none).modCore 1 fun c => { c with ready := List.replicate readyRoom someTask }
    let fails := fun (x : Option Steal) (b : Option Nat) (n : Nat) => hart.modCore 1 fun c => { c with steal := x, backoff := b, cyc := n }
    (∀ g ∈ [fun c : Core => { c with inbound := [.migrant hart.st []] }, fun c => { c with inbound := [.member someTask] }, fun c => c,
        fun c => { c with inbound := [.resumed hart.st 0 0 [] []] }, fun c => { c with ready := [someTask] }], let t := (idle g).dropDead 1
      0 < (t.core 1).slots.length ∧ ((t.core 1).slot 0).live = false ∧ (t.core 1).steal = none) ∧
    (((idle fun c => { c with ready := [someTask] }).core 1).pick = some (.ready 0) ∧
      ((idle fun c => { c with ready := [someTask] }).core 1).queuedAt (.ready 0) = some someTask ∧
      ((idle fun c => { c with ready := [someTask] }).core 1).freeSerial ≠ none) ∧ (hart.slot 0 0).live = true ∧
    (256 ≤ ((slot (.forcedSwitch 0 0) fun sl => { sl with run := 256 }).slot 0 0).run ∧ (hart.slot 0 0).mode = .issuing) ∧
    (((slot (.budgetExhausted 0 0) fun sl => { sl with st := { sl.st with bud := 0 } }).slot 0 0).st.bud = 0 ∧ (hart.slot 0 0).answer = none ∧ (hart.slot 0 0).st.bud ≠ 0 ∧
      (∀ l ∈ [none, some (⟨0x1000, 1, false, [], none⟩ : LongWait), some ⟨0x1000, 1, true, [], none⟩],
        ((slot (.budgetExhausted 0 0) fun sl => { sl with mode := .waiting, long := l, st := { sl.st with bud := 0 } }).slot 0 0).mode = .waiting ∧
        ((slot (.budgetExhausted 0 0) fun sl => { sl with mode := .waiting, long := l, st := { sl.st with bud := 0 } }).slot 0 0).long = l) ∧
      ((slot (.budgetExhausted 0 0) fun sl => { sl with answer := some .done, st := { sl.st with bud := 0 } }).slot 0 0).answer ≠ none) ∧
    (let s := slot (.handlerBudgetExpiry 0 0) fun sl => { sl with mode := .handler, frames := [f], hbud := 0 }
     (s.slot 0 0).mode = .handler ∧ (s.slot 0 0).hbud = 0 ∧ s.launchLive (s.slot 0 0).st.launch = true ∧ (s.slot 0 0).frames.getLast? = some f) ∧
    ((slot (.deferredFault 0 0) fun sl => { sl with deferred := [⟨.memPoison, 0, 0, none⟩] }).slot 0 0).deferred = [⟨.memPoison, 0, 0, none⟩] ∧
    (∀ e ∈ [Event.fetchFault .none 0, .illegalInstruction .opc], (slot e id).me.live = true) ∧
    (let t := thief.dropDead 1
     isCompute 1 = true ∧ (t.core 1).emptySlot = some 0 ∧ (t.core 1).inbound = [] ∧ (t.core 1).deque = [] ∧ (t.core 1).ready = [] ∧ (t.core 1).steal = none ∧
      (t.core 1).backoff = none ∧ victimOk t 1 2 = true) ∧
    (((asks someTask).arriving 0).isSome = true ∧ offer (asks someTask) 1 0 = some (.deque 0) ∧ ((asks someTask).core 1).queuedAt (.deque 0) = some someTask ∧
      offer (asks { someTask with origin := .callat }) 1 0 = none) ∧
    (((grant none (some ⟨0, 0, 2⟩)).arriving 0).isSome = true ∧ ((grant none (some ⟨0, 0, 2⟩)).core 1).steal = some ⟨0, 0, 2⟩ ∧
      ((grant (some someTask) (some ⟨0, 0, 2⟩)).core 1).hasRoom = true ∧ (grant (some someTask) none).launchLive 1 = true ∧ (full.arriving 0).isSome = true ∧
      (full.core 1).hasRoom = false ∧ ((grant none none).core 1).steal = none) ∧
    (((fails (some ⟨0, 5, 2⟩) none 405).core 1).steal = some ⟨0, 5, 2⟩ ∧ 5 + 400 ≤ ((fails (some ⟨0, 5, 2⟩) none 405).core 1).cyc ∧
      ((fails (some ⟨0, 5, 2⟩) none 404).core 1).cyc < 5 + 400) ∧
    (((fails none (some 5) 4101).core 1).backoff = some 5 ∧ 5 + 4096 ≤ ((fails none (some 5) 4101).core 1).cyc ∧
      ((fails none (some 5) 4100).core 1).cyc < 5 + 4096) := by
  constructor
  · intro g hg
    simp only [List.mem_cons, List.not_mem_nil, or_false] at hg
    obtain rfl | rfl | rfl | rfl | rfl := hg <;> decide +kernel
  · decide +kernel

/-- A strand that waits to issue with a spent budget and a deferred fault, and one that waits for a load, before and after its
time. -/
theorem witness_CoreSteps_waits :
    let landed := fun (f : Slot → Slot) => (hart.modMe f).modCore 0 fun c => c.land 0
    let x : LongAccess := ⟨.mem (.load 8 false) [.x 3], 0x100, inL 0x100 0⟩
    let w : LongWait := ⟨0x1000, 1, false, [], some x⟩
    let s := landed fun sl => { sl with mode := .waiting, deferred := [⟨.memPoison, 0, 0, none⟩], st := { sl.st with bud := 0 } }
    let t := fun n : Nat => landed fun sl => { sl with mode := .waiting, blocked := true, readyAt := n, long := some w }
    let made := fun v : State => match performFor v (v.slot 0 0).st.ctx (v.slot 0 0).st.dep x.place (.load 8 false) with
      | .ok _ => true | .error _ => false
    ((s.slot 0 0).live = true ∧ (s.slot 0 0).due = none ∧ s.launchKilled (s.slot 0 0).st.launch = false ∧
      (s.slot 0 0).mode = .waiting ∧ (s.slot 0 0).st.bud = 0 ∧ (s.slot 0 0).unissued = true ∧ (s.slot 0 0).deferred = [⟨.memPoison, 0, 0, none⟩]) ∧
    (∀ n ∈ [0, 9], ((t n).slot 0 0).live = true ∧ ((t n).slot 0 0).due = none ∧ ((t n).slot 0 0).waits = true ∧
      ((t n).slot 0 0).long = some w ∧ ((t n).slot 0 0).st.bud ≠ 0 ∧ ((t n).slot 0 0).run < 256 ∧ ((t n).slot 0 0).answer = none ∧
      ((t n).slot 0 0).asked = false ∧ (((t n).core 0).cyc < ((t n).slot 0 0).readyAt ↔ n = 9)) ∧
    [RegName.x 3].all ((t 0).core 0).takes = true ∧ mustWait (t 0) x.place (.load 8 false) = false ∧ made (t 0) = true ∧
      made (poisonUnit (t 0) (localPlace 0 0x100)) = false := by decide +kernel

theorem witness_UnitSteps :
    let y := newCmd (selecting 0 0) .crdWait .selection none
    let reg := fun (x : Cmd) (s : State) => { s.modCore 0 fun c => { c with cmds := [x], accepted := 1 } with ev := some (.carderRegistration 0) }
    let page := fun (d : PageDesc) (clen : BitVec 32) (e : Event) => { kvHart.setHandle 0 (({ kvHart.handle 0 with next := [(0, 32)], clen := clen }).setPage 0 d) with ev := some e }
    let full := page { PageDesc.none with fill := 32, pfn := 0x800, cls := 1 } 32 (.fullerCompaction 0 0)
    let scrub := fun (crc : BitVec 32) => page { PageDesc.none with fill := 1, pfn := 0x800, scale := 0x80, crc := crc } 1 (.scrubCheck 0 0)
    let lapse := fun (n : Nat) => { hart.modCore 0 fun c => { c with cyc := n, forwards := [⟨5, 1, false, 3, 7⟩] } with ev := some (.forwardingEntryLapse 0 0) }
    let ends := fun (k : SlotMode) => { (hart.setLaunch 1 { (hart.launch 1).getD ⟨.live, 0, 0, 0, 0, none, 0, none, 0⟩ with state := .killing, queue := some 3 }).modMe
      fun sl => { sl with mode := k } with ev := some (.launchClearComplete 1) }
    let part := fun (dev : Nat) => posted (.collContributionArrival (.here 0)) mgmtUnit (.contribution dev 7 9 (contributed 0 false 3))
    let coll := fun (x : Collective) => { posted (.collAbandonArrival (.here 0)) mgmtUnit (.abandon 0 7 9) with hub := { hart.hub with colls := [(2 ^ 16 + 7, x)] } }
    let full' := { part 0 with hub := { hart.hub with colls := (List.range 4096).map fun i => (2 ^ 17 + i, ⟨9, [], none⟩) } }
    let wait : CollWait := ⟨hart.self, 0, 7, 9, false, 0, 0, 50, false⟩
    let watch := fun (n : Nat) => { hart.modCore 0 fun c => { c with cyc := n } with hub := { hart.hub with collWaits := [wait] }, ev := some (.collWatchdogExpiry 0 0) }
    let bar := fun (n : Nat) (r : Bool) => { hart.modCore 0 fun c => { c with cyc := n } with hub := { hart.hub with ckptWaits := [⟨hart.self, 4, [], 50⟩] }, ev := some (.ckptBarrierTimeout 0 0 r) }
    let dev := fun (s : State) => { s.setContext 1 { s.context 1 with ckSet := [3] } with ev := some (.deviceRecovery 3 4) }
    (passes (registerTests { reg y (selecting 0 0) with focusU := 0, focusK := 0 } y) = true ∧ registerWaits (reg y (selecting 0 0)) y = false ∧ y.awaited = false ∧ y.bound = none ∧
      passes (registerTests { reg y hart with focusU := 0, focusK := 0 } y) = false ∧ registerWaits (reg y hart) y = false) ∧
    ((full.handle 0).state = .live ∧ ((full.handle 0).page 0).fill = 32 ∧ ((full.handle 0).page 0).pois = false ∧ 32 ≤ (full.handle 0).clen.toNat ∧
      damagedRow full (full.handle 0) ((full.handle 0).page 0) (List.range 32) = none ∧
      (let rows := pageRows full (full.handle 0) ((full.handle 0).page 0)
       let c := classFor (pageImage 0 0x10 (zeroRows rows) rows).length
       c < 1 ∧ ((full.pool (handleDie 0)).take c).isSome = true)) ∧
    (((scrub 0).handle 0).state = .live ∧ 0 < (((scrub 0).handle 0).page 0).fill ∧ (((scrub 0).handle 0).page 0).pois = false ∧
      damagedRow (scrub 0) ((scrub 0).handle 0) (((scrub 0).handle 0).page 0) [0] = none ∧ pageCrc 0x80 (pageRows (scrub 0) ((scrub 0).handle 0) (((scrub 0).handle 0).page 0)) = 2750129430 ∧
      damagedRow { scrub 0 with poison := [(eccUnit 0x80000, true)] } ((scrub 0).handle 0) (((scrub 0).handle 0).page 0) [0] = some 0) ∧
    (((lapse 65543).core 0).forwards[0]? = some ⟨5, 1, false, 3, 7⟩ ∧ 7 + 65536 ≤ ((lapse 65543).core 0).cyc ∧ ((lapse 65542).core 0).cyc < 7 + 65536) ∧
    ((posted (.rposNotice 0) 0x100000 (.rpos 0 5 [])).arriving 0).isSome = true ∧
    (((ends .issuing).launch 1).map (fun x => (x.state, x.queue)) = some (.killing, some 3) ∧ clearDone (ends .issuing) 1 = false ∧ clearDone (ends .empty) 1 = true) ∧
    (((part 0).arriving 0).isSome = true ∧ (part 0).hub.device.toNat = 0 ∧ (1 : Nat) ≠ (part 0).hub.device.toNat ∧
      (contribute (part 0) 1 7 9 (contributed 0 false 3) []).isSome = true) ∧
    ((full'.arriving 0).isSome = true ∧ (contribute full' 1 7 9 (contributed 0 false 3) []).isSome = false) ∧
    (((coll ⟨9, [contributed 0 false 3], none⟩).arriving 0).isSome = true ∧ kget (coll ⟨9, [], none⟩).hub.colls ((1 : BitVec 12).toNat * 2 ^ 16 + (7 : BitVec 16).toNat) = some ⟨9, [], none⟩ ∧
      ((coll ⟨8, [], none⟩).arriving 0).isSome = true) ∧
    ((watch 50).hub.collWait ((watch 50).sender 0 0) = some wait ∧ 50 ≤ ((watch 50).core 0).cyc ∧ ((watch 49).core 0).cyc < 50) ∧
    (((bar 50 false).hub.ckptWaits.find? fun x => x.sender.unit == 0 && x.sender.slot == 0) = some ⟨hart.self, 4, [], 50⟩ ∧ 50 ≤ ((bar 50 false).core 0).cyc ∧
      ((bar 49 false).core 0).cyc < 50 ∧ (bar 0 true).ev = some (.ckptBarrierTimeout 0 0 true)) ∧
    (let s := trained { hart with hub := { hart.hub with routes := [(1, 0)], links := [⟨true, 0⟩] } }
     s.linkTo 1 = true ∧ 4 ≤ s.hub.stage ∧ collDescBad false descriptor = false ∧ bits descriptor 335 328 = s.hub.device.toNat ∧
      (contribute s 1 (BitVec.ofNat 16 (bits descriptor 351 336)) (BitVec.ofNat 32 (bits descriptor 415 384)) (Contribution.make 1 false descriptor [] none) []).isSome = true ∧
      hart.linkTo 1 = false) ∧
    (unended (dev hart) 1 ≠ [] ∧ unended (dev (hart.setLaunch 1 { (hart.launch 1).getD ⟨.live, 0, 0, 0, 0, none, 0, none, 0⟩ with state := .done })) 1 = []) := by
  and_intros <;> decide +kernel

/-- Queue 5 of context 1, whose descriptor lies at 0x20000 of HBM with the QSTATE flags, NTAIL, HEAD, CTX 1, LOGSIZE 4, a completion ring at
0x21000 and an entry ring at 0x22000; its first entry holds a launch of no image on yard 0 with a record of budget 1000. -/
def ringed (flags ntail head : Nat) : State :=
  let s := { hart with mem := List.filter (fun c : Host.Cell => c.2 != 0) [(0x10000, 1), (0x10001, 0x40), (0x10002, 1), (0x14000, 9), (0x14001, 10), (0x14004, 1), (0x14008, 7), (0x14009, 10),
    (0x20000, BitVec.ofNat 8 flags), (0x20004, BitVec.ofNat 8 ntail), (0x20025, 0x10), (0x20027, 4), (0x2002C, BitVec.ofNat 8 head), (0x20031, 0x10), (0x20032, 2),
    (0x20034, 1), (0x20036, 0x80), (0x20039, 0x20), (0x2003A, 2), (0x2003C, 1), (0x2003E, 0x80), (0x2207C, 0xE8), (0x2207D, 3)] }
  let host : HostPort := ⟨true, [(0, ⟨1, false⟩)]⟩
  let held : Mapped := ⟨5, 0, true, 0⟩
  { s with hub := { s.hub with stage := 5, hosts := [host], queues := [(5, .active 1 (inPage 0x20000))], mapped := [held], runnable := [6] } }

theorem witness_HostInterface :
    let d : Desc := ⟨(0x20000, none), 1⟩
    let is := fun (s : State) => s.desc 5 = some d
    let s := ringed 1 1 0
    let late := { ringed 1 1 1 with now := 20000 }
    let free := { s with hub := { s.hub with mapped := [], runnable := [5] } }
    let crowd := { s with hub := { s.hub with mapped := ⟨5, 0, true, 0⟩ :: List.replicate 1023 ⟨7, 0, true, 0⟩ } }
    let bad := { s with mem := s.mem.map fun c => if c.1 = 0x20039 then (0x20039, 0x21) else c }
    let unread := { s with poison := [(eccUnit 0x2200, true)] }
    let post := { s with hub := { s.hub with done := [⟨5, 1, 0, 0⟩] } }
    let dead := hart.setLaunch 1 { (hart.launch 1).getD ⟨.live, 0, 0, 0, 0, none, 0, none, 0⟩ with state := .done, queue := some 5 }
    let out := fun (p : HostPage) => let t := { paged hart with hub := { s.hub with egress := [(1, 5)] } }
      (t.setContext 1 { hart.context 1 with page := p }).setReq 5 { ReqSlot.reset with state := .opened, ctx := 1, serial := 3, leaving := [⟨2, 0, 0, 0, false, 0⟩] }
    let given_ := { s with hub := { s.hub with queues := [(5, .assigned 1)] } }
    let fits := given_.setContext 1 { given_.context 1 with exchange := [0, 0x1000, 0x2000].map (· + inPage 0x20000) }
    let cut := { s with hub := { s.hub with hosts := [⟨false, [(0, ⟨1, false⟩)]⟩, ⟨true, [(0, ⟨1, true⟩)]⟩] } }
    let ring : HostPage := { HostPage.reset with egbase := 2 ^ 40, rpbase := 2 ^ 41, rptail := 1, dlbase := inPage 0x30000, dllog := 4 }
    let reply := fun (p : HostPage) (n : Nat) => { out p with hostMem := [(2 ^ 41 + 1, 5), (2 ^ 41 + 4, BitVec.ofNat 8 n)] }
    is s ∧ is late ∧ is free ∧ is crowd ∧ is bad ∧ 3 ≤ s.hub.stage ∧ ({ s with hub := { s.hub with stage := 2 } }.hub.stage < 3) ∧
    (free.hub.runnable.head? = some 5 ∧ free.hub.mapped.length < 1024) ∧
    ((late.hub.mapped.find? fun x => x.queue == 5) = some ⟨5, 0, true, 0⟩ ∧ d.head late = d.ntail late ∧ 0 + 16384 ≤ late.now ∧ d.head s ≠ d.ntail s) ∧
    (crowd.hub.runnable ≠ [] ∧ 1024 ≤ crowd.hub.mapped.length ∧ (crowd.hub.mapped.find? fun x => x.started) = some ⟨5, 0, true, 0⟩) ∧
    (s.hub.isMapped 5 = true ∧ d.en s = true ∧ s.hub.power.stopped = false ∧ d.ring s + 128 * (d.head s % 2 ^ d.log s) = (inPage 0x22000).toNat) ∧
    hubGranules unread 1 (inPage 0x22000).toNat 8 = none ∧
    (match hubGranules s 1 (inPage 0x22000).toNat 8 with
      | some bs => match entryLaunch s 1 bs with | some e => (beginLaunch s 5 1 0 e.1 e.2.1 e.2.2.1 e.2.2.2.1 e.2.2.2.2 []).isSome | none => false
      | none => false) = true ∧
    (match hubGranules bad 1 (inPage 0x22100).toNat 8 with | some bs => (entryLaunch bad 1 bs).isNone | none => false) = true ∧
    (post.desc 5).isSome = true ∧ (postable post post.hub.done []).map (fun p => (p.1, p.2.1, p.2.2)) = some (⟨5, 1, 0, 0⟩, d, (0x21000, none)) ∧
      hubPlace post 1 (post.num 0x20030 8) 16 .store = some (0x21000, none) ∧
    (queueReached s 5 = true ∧ hostReaches s 1 = true ∧ queueReached cut 5 = false ∧ hostReaches cut 1 = false ∧
      hostFunction s 0 0 = some 1 ∧ hostFunction cut 0 0 = none ∧ hostFunction cut 1 0 = none ∧
      hostReaches (out ring) 1 = true ∧ hostReaches (reply ring 2) 1 = true) ∧
    (kget given_.hub.queues 5 = some (.assigned 1) ∧ createCheck given_ 1 (inPage 0x20000).toNat = .error 0x80000002 ∧
      kget fits.hub.queues 5 = some (.assigned 1) ∧ createCheck fits 1 (inPage 0x20000).toNat = .ok 0x20000) ∧
    (ownsQueue s 1 5 = true ∧ ownsQueue s 2 5 = false ∧ d.en (ringed 0 1 0) = false ∧ queueLive s 5 = false ∧ queueLive (dead) 5 = false) ∧
    (((out ring).hub.egress.find? fun p => p.2 == 5) = some (1, 5) ∧ ((out ring).req 5).leaving = [⟨2, 0, 0, 0, false, 0⟩] ∧
      ((out ring).context 1).page.egbase ≠ 0 ∧ (((out ring).context 1).page.egprod - ((out ring).context 1).page.egcons).toNat < 2 ^ 0 ∧
      ((out HostPage.reset).context 1).page.egbase = 0) ∧
    (let p := ((reply ring 2).context 1).page
     p.rpdone ≠ p.rptail ∧ bits (leNat ((reply ring 2).hostBytes (2 ^ 41) 64)) 23 8 = 5 ∧ bits (leNat ((reply ring 2).hostBytes (2 ^ 41) 64)) 63 32 = 2 ∧
      ((reply ring 2).req 5).state ≠ .free ∧ (2 : BitVec 32) ∉ ((reply ring 2).req 5).dead ∧ hubPlace (reply ring 2) 1 (inPage 0x30000).toNat 64 .store = some (0x30000, none) ∧
      hubPlace (reply ring 2) 1 ((inPage 0x30000).toNat + 64) 64 .store = some (0x30040, none) ∧ bits (leNat ((reply ring 4).hostBytes (2 ^ 41) 64)) 63 32 = 4 ∧
      ((reply ring 4).setReq 5 ReqSlot.reset).req 5 = ReqSlot.reset) := by
  and_intros <;> decide +kernel

/-- Page-table entries that map a page of another context, a retired frame or nothing; and a poisoned frame of a context. -/
theorem witness_ModuleSteps_pages :
    let e : BitVec 64 := 2 ^ 32 + 5 * 2 ^ 9 + 7
    let p : MappedPage := ⟨2 ^ 32, 2 ^ 32, some 1, true⟩
    let old := { hart with hub := { hart.hub with pages := [⟨2 ^ 32, 2 ^ 12, some 2, true⟩] } }
    let gone := { hart with hub := { hart.hub with retired := [2 ^ 20] } }
    let bad := { old with poison := [(2 ^ 28, true)] }
    (newPage 1 e = some p ∧ newPage 1 0 = none ∧ p.covers (2 ^ 20) = true ∧ gone.hub.retired = [2 ^ 20] ∧ hart.hub.retired = []) ∧
    (old.lastMapped (2 ^ 20) = some ⟨2 ^ 32, 2 ^ 12, some 2, true⟩ ∧ old.lastMapped (2 ^ 20 + 1) = none ∧ 2 ^ 32 < hbmEnd) ∧
    ((2 ^ 28, true) ∈ bad.poison ∧ 16 * 2 ^ 28 < hbmEnd ∧ 2 ^ 28 / 256 = 2 ^ 20) ∧ (hart.mem.length < 2 ^ 20 ∧ hart.hub.pages = []) := by
  decide +kernel

theorem witness_ModuleSteps :
    let new := { trained hart with ev := some (.contextCreate 2 { troot := 0x30000, queues := [] }) }
    let early := { hart with hub := { hart.hub with stage := 4 } }
    let ended := hart.setLaunch 1 { (hart.launch 1).getD ⟨.live, 0, 0, 0, 0, none, 0, none, 0⟩ with state := .done }
    let keep : CkSetup := ⟨2 ^ 21, [0, 2 ^ 21], [], none, [(3, [2 ^ 22, 2 ^ 23])]⟩
    let moved := hart.setContext 1 { hart.context 1 with changing := true }
    let unmapped : Word := 0x70_0000_0000_0000
    let input := fun (i : Input) => { trained (paged hart) with agenda := [.input i] }
    let at_ := fun (p : Spdm) => { hart with hub := { hart.hub with stage := 5, security := { hart.hub.security with spdm := p } } }
    let linked := fun (up : Bool) (n : Nat) => { hart with hub := { hart.hub with links := [⟨up, n⟩], counters := { hart.hub.counters with owner := some 1 } } }
    (5 ≤ new.hub.stage ∧ (new.context 2).live = false ∧ early.hub.stage < 5 ∧ (hart.context 1).live = true) ∧
    CkSetup.fits keep = true ∧ CkSetup.fits ⟨2 ^ 21 + 4096, [0, 2 ^ 22], [], none, []⟩ = false ∧
    ((hart.context 1).changing = false ∧ (moved.context 1).changing = true ∧ translating moved 1 = false) ∧
    ((paged hart).cachedPage 0 1 (inPage 0).toNat = none ∧ (match pageEntry (paged hart) 1 (inPage 0).toNat with | .ok _ => true | .error _ => false) = true ∧
      (match pageEntry (paged hart) 1 unmapped.toNat with | .ok _ => false | .error _ => true) = true ∧ isUnit 0 = true) ∧
    (∀ i ∈ [Input.nextStage, .powerLimit 10_000_000, .powerLimit 9_999_999, .deviceLink 15, .uncorrectable 0, .cachePage 0 1 (inPage 0), .cachePage 0 1 unmapped],
      (input i).agenda = [.input i] ∧ (input i).hub.power.stopped = false ∧ 4 ≤ (input i).hub.stage) ∧ 0 < hbmEnd ∧
    (unended ended 1 = [] ∧ unended hart 1 ≠ [] ∧ (ended.context 1).live = true) ∧
    ((at_ .session).hub.security.spdm = .session ∧ (at_ .start).hub.security.spdm ≠ .session) ∧
    (translating hart 1 = false ∧ translating (posted .completionPost 1 (.request ⟨.setFull, 0, 0, false⟩)) 1 = true) ∧
    ((∀ u ∈ (List.range 16).map fun i => barnOf 16 + i, (hart.core u).vacant = true) ∧ isWorker 16 = true ∧ (hart.core 0).vacant = false ∧
      isWorker 0x100000 = true ∧ isWorker mgmtUnit = false) ∧
    (∀ p ∈ [(false, 0), (true, 0), (true, 30), (true, 31)], (linked p.1 p.2).hub.links[0]? = some ⟨p.1, p.2⟩) ∧
    (hart.hub.power.plim < hart.hub.power.plim + 1 ∧ 100 * 0 < 95 * hart.hub.power.plim ∧ 95 * hart.hub.power.plim ≤ 100 * hart.hub.power.plim) ∧
    3 ≤ (at_ .start).hub.stage := by
  and_intros <;> decide +kernel

/-- Every constructor's word is a well-formed one of the decode tests; and words of no opcode, of another profile, of another class, with a
hint its row has not, and with a field that names nothing in D, in A and in B, and a malformed immediate of 16 bits and scope. -/
theorem witness_DecodeEncode :
    (⟨.add .w64, three plain (.x 1) (.x 1) (.imm 4)⟩ : Decoded).wf = true ∧ decodeWord none 0x000000000004000005800010 = .ok ⟨.add .w64, three plain (.x 1) (.x 1) (.imm 4)⟩ ∧
    decodeWord (some .compute) 0x000000000004000005800010 = .ok ⟨.add .w64, three plain (.x 1) (.x 1) (.imm 4)⟩ ∧
    opRow 0x3FF = none ∧ (∃ r, opRow 0 = some r ∧ r.prof.has .compute = true) ∧
    ((List.range 1024).any fun c => match opRow c with | some r => !r.prof.has .compute | none => false) = true ∧ Opd.ofField 0x3FFFFFF = none ∧
    [(0x03E, 1, 0, 1), (0x03E, 0, 0x10000, 1), (0x100, 0, 0x800000, 2), (0x107, 0, 0x200000, 2), (0x114, 0, 0xA00000, 2), (0x000, 0x3FFFFF, 0, 0), (0x000, 0, 0x3FFFFF, 0)].map
      (fun f => wrong none (word_ f.1 0 0 f.2.1 f.2.2.1 f.2.2.2)) = ([4, 5, 5, 5, 5, 4, 5].map fun k => some (Illegal.form k)) ∧
    wrong none (word_ 0x114 0 0 0 0x800000 2) = none := by
  exact ⟨by decide +kernel, by decide +kernel, by decide +kernel, by decide +kernel, ⟨_, rfl, by decide +kernel⟩, by decide +kernel⟩

theorem witness_StepRunsDecoded :
    let w := State.reset.withFetchWord 96 0x000000000004000005800010
    let e := { hart with agenda := [.event .completionPost] }
    let r := { hart with agenda := [.run 0] }
    let n := { hart with agenda := [.input .nextStage] }
    let hot := fun (p : Pick) => { hart with agenda := [p], hub := { hart.hub with power := { hart.hub.power with stopped := true } } }
    let kept := w.modCore 0 fun c => c.hold (w.slot 0 0).st.launch (w.slot 0 0).st.pc 7
    (n.agenda = .input .nextStage :: [] ∧ n.hub.power.stopped = false ∧
      (hot (.event .completionPost)).agenda = .event .completionPost :: [] ∧ (hot (.input .nextStage)).hub.power.stopped = true) ∧
    ((w.slot 0 0).hand = none ∧ ((w.fetching 0 0).slot 0 0).hand = some 0x000000000004000005800010) ∧
    ((w.core 0).cached (w.slot 0 0).st.launch (w.slot 0 0).st.pc = none ∧ (kept.core 0).cached (kept.slot 0 0).st.launch (kept.slot 0 0).st.pc = some 7) ∧
    (e.agenda = .event .completionPost :: [] ∧ r.agenda = .run 0 :: [] ∧ hart.agenda = []) ∧
    ((w.slot 0 0).deferred = [] ∧ (w.slot 0 0).st.bud ≠ 0 ∧ (match fetchBytes w 0 (w.slot 0 0).st.ctx (w.slot 0 0).st.pc.toNat with
      | .ok bs => decide (decode (some (profileOf 0)) bs = .ok ⟨.add .w64, three plain (.x 1) (.x 1) (.imm 4)⟩) | .error _ => false) = true) ∧
    (w.hub.power.stopped = false ∧ isUnit 0 = true ∧
      (match eachSlot (beginSlot exec 0) (List.range (w.core 0).slots.length) w with
        | .next t => let u := t.modCore 0 Core.fixHolder
          (u.core 0).candidates.head? == some 0 && (u.slot 0 0).runs && (match attempt exec 0 0 u with | .next v => (v.core 0).turns != (u.core 0).turns | _ => false)
        | _ => false) = true) := by
  refine ⟨?_, ?_, ?_, ?_, ?_, ?_⟩ <;> decide +kernel

theorem witness_StepAlwaysAnswers : hart.me.live = true ∧ Instr.moduleReset.opc = none := by decide +kernel

theorem witness_StepKeepsCanonical : State.reset.Canonical ∧ ∃ t, step State.reset = .next t :=
  ⟨by unfold State.Canonical; decide +kernel, ⟨_, rfl⟩⟩

/-- A store on a loft core to its own memory through region M leaves as a message. -/
theorem witness_CompletionFrame_sent :
    let s := at_ 0 (BitVec.ofNat 64 (2 ^ 48 + 0x100000 * 2 ^ 19 + 0x100)) 0x103 loftHart
    (match locate s s.focusU s.st.ctx (2 ^ 48 + 0x100000 * 2 ^ 19 + 0x100) .store with
      | .ok p => !p.near && p.off.isSome && passes (reach s s.st.ctx p 8) | .error _ => false) = true ∧
    (match exec (.st .w64) s with | .next u => u.fabric.length == 1 | _ => false) = true ∧ s.seal 0 = none := by decide +kernel

theorem witness_CompletionFrame :
    let s := at_ 0 0x100 0x103 hart
    hart.me.live = true ∧ s.FindsD .store 8 0x100 (inL 0x100 0) 0x103 s ∧ s.Direct (inL 0x100 0) true ∧
      reach s s.st.ctx (inL 0x100 0) 8 = .ok (localPlace 0 0x100) ∧ s.Canonical ∧ (∃ u, exec (.st .w64) s = .next u) ∧
      s.Finds .load 8 0x100 (inL 0x100 0) s ∧ s.Direct (inL 0x100 0) false ∧ s.hear.Room ∧ ∃ u, exec (.ld .w64) s = .next u :=
  ⟨rfl, ⟨⟨⟨rfl, rfl⟩, rfl, rfl, rfl⟩, ⟨0x100, _, rfl, by decide +kernel, rfl⟩, by decide, by decide +kernel⟩, ⟨.inl (by decide +kernel), by decide +kernel⟩,
    by decide +kernel, by unfold State.Canonical; decide +kernel, ⟨_, rfl⟩,
    ⟨⟨⟨rfl, rfl⟩, rfl, rfl, rfl⟩, ⟨0x100, rfl, by decide +kernel⟩, by decide, by decide +kernel⟩, ⟨.inl (by decide +kernel), by decide +kernel⟩, rfl, ⟨_, rfl⟩⟩

theorem witness_Budgets :
    let spent := fun (m : SlotMode) => { (vectored hart).modMe fun sl => { sl with mode := m, st := { sl.st with bud := 0 } } with ev := some (.budgetExhausted 0 0) }
    (∀ m ∈ [SlotMode.issuing, .waiting], ((spent m).slot 0 0).mode = m ∧ ((spent m).slot 0 0).st.bud = 0 ∧ ((spent m).slot 0 0).answer = none ∧
      ((spent m).slot 0 0).deferred = [] ∧ 0 < ((spent m).core 0).slots.length ∧ ((spent m).slot 0 0).frames = [] ∧
      ((spent m).context ((spent m).slot 0 0).st.ctx).tvec ≠ 0 ∧ ((spent m).context ((spent m).slot 0 0).st.ctx).frec = 0) ∧
    (∀ w ∈ [(⟨0x1000, 1, false, [], none⟩ : LongWait), ⟨0x1000, 1, true, [], none⟩],
      ((((spent .waiting).modMe fun sl => { sl with long := some w }).slot 0 0).long) = some w) ∧
    ((spent .waiting).slot 0 0).long = none ∧ ((endCycle ((spent .issuing).core 0) 0 hart).slot 0 0).st.bud + 1 = (hart.slot 0 0).st.bud ∧
    0 < 2 ^ 21 := by decide +kernel

end Sys2Proof.Tests
end

section
/-! The state that reset leaves (R26, R409). -/

namespace Sys2Proof.Machine

/-- Every slot of a core after reset is EMPTY, and so is a number past its last slot (R26). -/
theorem Core.reset_slot (u k : Nat) : (Core.reset u).slot k = Slot.reset := by
  unfold Core.slot Core.reset
  by_cases h : k < (List.replicate (if isLoft u then 16 else 4) Slot.reset).length
  · simp only [List.getD_eq_getElem _ _ h, List.getElem_replicate]
  · simp only [List.getD_eq_default _ _ (Nat.le_of_not_lt h)]

theorem reset_core (u : Nat) : State.reset.core u = Core.reset u := rfl

/-- Settles O58: what reset leaves, field by field. -/
theorem resetState : Obligations.ResetState := by
  unfold Obligations.ResetState
  refine ⟨⟨reset_mem_wf, rfl, rfl, rfl, rfl, rfl⟩, fun u k => ?_, fun _ => rfl, fun _ => rfl, fun _ => rfl, rfl,
    fun l hl => ?_, fun l hl => ?_⟩
  · rw [State.slot, reset_core, Core.reset_slot]; rfl
  · rw [List.eq_of_mem_replicate (show l ∈ List.replicate 16 _ from hl)]
  · rw [List.eq_of_mem_replicate (show l ∈ List.replicate 2 _ from hl)]

end Sys2Proof.Machine
end

section
/-! What `mov.64` makes of its source, and what a landing leaves in each register file (R20, R21, R30, R42, R88, R96). -/

namespace Sys2Proof.Machine

/-! Reading the source of a move -/

theorem movSrc_src {s : State} (h : ∀ n, s.ir.a ≠ .sr n) : movSrc s = src s.ir.a s := by
  unfold movSrc
  split
  · rename_i n e; exact absurd e (h n)
  · rfl

theorem movSrc_sr {s : State} {n : Fin 24} (h : s.ir.a = .sr n) : movSrc s = .ok (readSr n.val s, s) := by
  simp [movSrc, h]

theorem mov64Reg_next {s t : State} {a : Word} (h : s.Ready) (hs : movSrc s = .ok (a, t)) (hr : t.Room) :
    exec .mov64Reg s = .next (t.put 1 a).passed := by
  rw [exec_mov64Reg, execMov64Reg]
  exact performSeq_ok h (by simp [hs, bind, Except.bind, dst_room hr])

theorem mov64Reg_trap {s : State} {t : Trap} (h : s.Ready) (hs : movSrc s = .error (.trap t)) :
    exec .mov64Reg s = .next (s.trapHere t) := by
  rw [exec_mov64Reg, execMov64Reg]
  exact performSeq_trap h (by simp [hs, bind, Except.bind])

/-- A move from a register with a valid bit: its value when the bit is set, and else the invalid-register trap (R20). -/
theorem mov64Reg_vreg {s : State} {r : VReg} (h : s.Ready) (hr : s.Room)
    (hs : movSrc s = match r.read with | .ok v => .ok (v, s) | .error e => .error e) :
    exec .mov64Reg s =
      .next (if r.valid then (s.put 1 r.val).passed else s.trapHere { cause := .regInvalid }) := by
  cases hv : r.valid with
  | true =>
    simp only [VReg.read, hv, if_true] at hs ⊢
    exact mov64Reg_next h hs hr
  | false =>
    simp only [VReg.read, hv, Bool.false_eq_true, if_false] at hs ⊢
    exact mov64Reg_trap h hs

/-! Landings -/

theorem GState.decode_code (x : GState) : GState.decode (BitVec.ofNat 64 x.code).toNat = x := by cases x <;> rfl

/-- A guard other than g0 is in the state written last (R21). -/
theorem Strand.guard_setGuard {st : Strand} {i : Fin 8} (h : i ≠ 0) (x : GState) : (st.setGuard i x).guard i = x := by
  simp [Strand.guard, Strand.setGuard, h]

theorem landOne_guard (sl : Slot) (n : Nat) (x : GState) {i : Fin 8} (h : i ≠ 0) :
    (sl.landOne ⟨n, .g i, BitVec.ofNat 64 x.code⟩).st.guard i = x := by
  simp only [Slot.landOne, GState.decode_code]
  exact Strand.guard_setGuard h x

/-- A pending value leaves every command bound as it was (R96). -/
theorem landOne_cmds_pending (c : Core) (k n : Nat) (i : Fin 8) :
    (c.landOne k ⟨n, .g i, BitVec.ofNat 64 GState.p.code⟩).cmds = c.cmds := by
  simp [Core.landOne, GState.code]

/-- A definite value resolves the commands bound to its guard (R96, R250). -/
theorem landOne_cmds_definite (c : Core) (k n : Nat) {x : GState} {i : Fin 8} (h : i ≠ 0) (hx : x ≠ .p) :
    (c.landOne k ⟨n, .g i, BitVec.ofNat 64 x.code⟩).cmds = (c.resolve k i (decide (x = .t))).cmds := by
  cases x with
  | p => exact absurd rfl hx
  | t => simp [Core.landOne, h, GState.code, Core.resolve]
  | f => simp [Core.landOne, h, GState.code, Core.resolve]

/-- The commands that a guard's resolution leaves: one bound to the guard of its slot goes on without the bond when the
guard's value is not the sense that discards it, and is gone when it is. -/
theorem resolve_cmds (c : Core) (k : Nat) (i : Fin 8) (p : Prop) [Decidable p] :
    (c.resolve k i (decide p)).cmds = c.cmds.filterMap fun y =>
      match y.bound with
      | some (j, sense) =>
        if y.slot = k ∧ j = i then (if p = (sense = false) then some { y with bound := none } else none) else some y
      | none => some y := by
  refine List.filterMap_congr fun y _ => ?_
  rcases y.bound with _ | ⟨j, sense⟩
  · rfl
  · by_cases hp : p <;> cases sense <;> simp [hp]

/-- Settles O6: a move's source is read file by file, and a landing writes its own register. -/
theorem registerFiles : Obligations.RegisterFiles := by
  unfold Obligations.RegisterFiles
  refine ⟨fun s h hr => ⟨fun i e => ?_, fun c e => ?_, fun i e => ?_, fun i e => ?_, fun i e => ?_⟩, ?_, ?_, ?_⟩
  · exact mov64Reg_next h (by simp [movSrc_src, e, src]) hr
  · exact mov64Reg_next h (by simp [movSrc_src, e, src]) hr
  · exact mov64Reg_vreg h hr (by rw [movSrc_src (by simp [e]), e]; rfl)
  · exact mov64Reg_vreg h hr (by rw [movSrc_src (by simp [e]), e]; rfl)
  · exact mov64Reg_vreg h hr (by rw [movSrc_src (by simp [e]), e]; rfl)
  · intro sl n v i j
    refine ⟨?_, ?_, ?_, ?_, ?_, rfl⟩ <;> simp [Slot.landOne, Strand.setGuard]
  · exact fun sl n x i hi => landOne_guard sl n x hi
  · intro c k n x i hi
    cases x with
    | p => exact landOne_cmds_pending c k n i
    | t => exact (landOne_cmds_definite c k n hi (by decide)).trans (resolve_cmds c k i _)
    | f => exact (landOne_cmds_definite c k n hi (by decide)).trans (resolve_cmds c k i _)

end Sys2Proof.Machine
end

section
/-! The order in which results land, and when a slot is tried again (R30, R33, R134). -/

namespace Sys2Proof.Machine

/-- A result joins those in flight after the last that lands no later than it. -/
theorem addLanding_split (l : Landing) : ∀ ls : List Landing, ls.Pairwise (fun a b => a.at_ ≤ b.at_) →
    ∃ xs ys, ls = xs ++ ys ∧ addLanding ls l = xs ++ l :: ys ∧ (∀ m ∈ xs, m.at_ ≤ l.at_) ∧ (∀ m ∈ ys, l.at_ < m.at_)
  | [], _ => ⟨[], [], by simp [addLanding]⟩
  | k :: ks, h => by
    rw [List.pairwise_cons] at h
    by_cases hk : l.at_ < k.at_
    · have hks : ∀ m ∈ k :: ks, l.at_ < m.at_ := by
        intro m hm
        rcases List.mem_cons.1 hm with rfl | hm
        · exact hk
        · exact lt_of_lt_of_le hk (h.1 m hm)
      exact ⟨[], k :: ks, rfl, by simp [addLanding, hk], by simp, hks⟩
    · obtain ⟨xs, ys, e, ea, hx, hy⟩ := addLanding_split l ks h.2
      refine ⟨k :: xs, ys, by simp [e], by simp [addLanding, hk, ea], ?_, hy⟩
      intro m hm
      rcases List.mem_cons.1 hm with rfl | hm
      · exact Nat.le_of_not_lt hk
      · exact hx m hm

/-- The results of a slot in order of their cycles: those whose cycle has come land, and the others stay in flight. -/
theorem land_sorted {c : Core} {k : Nat} (hk : k < c.slots.length)
    (h : (c.slot k).inflight.Pairwise (fun a b => a.at_ ≤ b.at_)) :
    (c.land k).slot k = ((c.slot k).inflight.filter fun l => decide (l.at_ ≤ c.cyc)).foldl Slot.landOne
      { c.slot k with inflight := (c.slot k).inflight.filter fun l => decide (c.cyc < l.at_) } := by
  rw [land_slot hk, takeWhile_sorted _ _ h, dropWhile_sorted _ _ h]

/-- Of two writes to a register that is no z the later to land remains, but for the marks of changed registers. -/
theorem landOne_landOne (sl : Slot) {l m : Landing} (h : l.reg = m.reg) (hz : l.reg ≠ .z) :
    { (sl.landOne l).landOne m with changed := 0 } = { sl.landOne m with changed := 0 } := by
  obtain ⟨i, r, v⟩ := l
  obtain ⟨j, r', w⟩ := m
  obtain rfl : r = r' := h
  cases r with
  | x i => simp [Slot.landOne]
  | o i => simp [Slot.landOne]
  | z => exact absurd rfl hz
  | b i => simp [Slot.landOne]
  | g i => by_cases hi : i = 0 <;> simp [Slot.landOne, Strand.setGuard, hi]
  | q i => rfl

theorem mem_insertWait (c : Core) (k j : Nat) : ∀ l, j ∈ insertWait c k l → j = k ∨ j ∈ l
  | [], h => by simpa [insertWait] using h
  | i :: is, h => by
    unfold insertWait at h
    split at h
    · simpa using h
    · rcases List.mem_cons.1 h with h | h
      · exact .inr (by simp [h])
      · rcases mem_insertWait c k j is h with h | h
        · exact .inl h
        · exact .inr (by simp [h])

theorem mem_foldl_insertWait (c : Core) (j : Nat) : ∀ ks l : List Nat, j ∈ ks.foldl (fun l k => insertWait c k l) l → j ∈ ks ∨ j ∈ l
  | [], _, h => .inr h
  | k :: ks, l, h => by
    rcases mem_foldl_insertWait c j ks _ h with h | h
    · exact .inl (by simp [h])
    · rcases mem_insertWait c k j l h with h | h
      · exact .inl (by simp [h])
      · exact .inr h

/-- A slot is tried only when its next issue is due. -/
theorem candidates_ready {c : Core} {k : Nat} (h : k ∈ c.candidates) : (c.slot k).readyAt ≤ c.cyc := by
  unfold Core.candidates at h
  rcases List.mem_append.1 h with h | h
  · split at h
    · rename_i hr
      rw [List.mem_singleton.1 h]
      simpa using (Bool.and_eq_true_iff.1 hr).2
    · cases h
  · rcases mem_foldl_insertWait c k _ _ h with h | h
    · simpa using (Bool.and_eq_true_iff.1 (List.mem_filter.1 h).2).2
    · cases h

/-- Settles O8, from the order in which results are kept in flight. -/
theorem landingOrder : Obligations.LandingOrder := by
  unfold Obligations.LandingOrder
  refine ⟨fun ls l h => addLanding_split l ls h, fun c k hk h => land_sorted hk h, fun sl l m h hz => landOne_landOne sl h hz,
    ?_, ?_, ?_, fun c k hk => candidates_ready hk⟩
  · intro sl i j v w
    simp [Slot.landOne]
  · intro c k i hk h
    rw [land_sorted hk h, foldl_x, List.filter_filter]
    simp only [Bool.and_comm]
  · intro sl l hl
    exact le_trans (settled_mem sl.inflight 0 l hl) (le_max_right _ _)

end Sys2Proof.Machine
end

section
/-! What a branch costs, when a register counts as changed, and what `pbr` writes (R34, R35, R103, R106, R107). -/

namespace Sys2Proof.Machine

/-! The cost of a branch -/

/-- Outside prepare mode a branch to a b-register costs what any other does (R34, R35). -/
theorem branchDelay_hint {s : State} {o : Opd} (h : ∀ i : Fin 4, o = .b i → s.st.brmode.getLsbD 0 = false)
    (taken : Bool) : s.branchDelay o taken = s.hintDelay o taken := by
  cases o with
  | b i => simp only [State.branchDelay, h i rfl, Bool.false_eq_true, if_false]
  | _ => rfl

theorem hintDelay_against {s : State} {taken : Bool} (h : s.ir.hd.tkn ≠ taken) (o : Opd) : s.hintDelay o taken = 4 := by
  simp [State.hintDelay, h]

theorem hintDelay_along {s : State} {o : Opd} {taken : Bool} (h : s.ir.hd.tkn = taken)
    (hm : taken = false ∨ s.me.moved o = false) : s.hintDelay o taken = 0 := by
  rcases hm with hm | hm <;> simp [State.hintDelay, h, hm]

/-- A branch along its hint costs nothing or 4 cycles, whatever has become of its register. -/
theorem hintDelay_free (s : State) (o : Opd) (taken : Bool) : s.hintDelay o taken = 0 ∨ s.hintDelay o taken = 4 := by
  unfold State.hintDelay
  split
  · exact .inr rfl
  · exact .inl rfl

/-- In prepare mode a branch to a b-register waits out the 6 cycles since its `pbr` (R35). -/
theorem branchDelay_prepared {s : State} (h : s.st.brmode.getLsbD 0 = true) (i : Fin 4) (taken : Bool) :
    s.branchDelay (.b i) taken = if taken then 6 - min 6 (s.cyc - s.me.pbrAt[i]) else 0 := by
  simp only [State.branchDelay, h, if_true]

/-! Registers that have changed -/

theorem marked_same {c : BitVec 30} {old new : VReg} (h : old.sameTarget new = true) (i : Nat) : marked c i old new = c := by
  simp [marked, h]

theorem marked_moved {c : BitVec 30} {old new : VReg} (h : old.sameTarget new = false) {i : Nat} (hi : i < 30) :
    (marked c i old new).getLsbD i = true := by
  rw [marked, h, if_neg Bool.false_ne_true, BitVec.getLsbD_or, BitVec.getLsbD_ofNat, Nat.testBit_two_pow_self]
  simp [hi]

/-- A redirected fetch leaves no register marked as changed. -/
theorem redirect_changed {s : State} (h : s.me.live = true) {n : Nat} {anew : Bool} (hn : n ≠ 0 ∨ anew = true) :
    (s.redirect n anew).me.changed = 0 := by
  have hc : ¬ (n = 0 && !anew) = true := by rcases hn with hn | hn <;> simp [hn]
  have hl : (s.delay n).me.live = true := (Quiet.delay h n).live h
  have hm : (s.refetch n).me.changed = 0 := by rw [State.refetch, me_modMe hl]
  rw [State.redirect, if_neg hc]
  exact hm

theorem redirects_iff (s : State) (o : Opd) :
    s.redirects o = true ↔ s.st.brmode.getLsbD 0 = true ∧ ∃ i, o = .b i := by
  cases o <;> simp [State.redirects]

/-! `pbr` -/

theorem markPbr_b (s : State) (i : Fin 4) :
    s.markPbr (.b i) = s.modMe fun sl => { sl with pbrAt := sl.pbrAt.set i s.cyc } := rfl

/-- An address of 56 bits in a word (R60, R103). -/
theorem word_mod_address (a : Word) : word (a.toNat % 2 ^ 56) = (a.setWidth 56).setWidth 64 := by
  apply BitVec.eq_of_toNat_eq
  simp [word]

/-- A result for a b-register is put in flight: no queue holds it. -/
theorem dst_b {s : State} {i : Fin 4} (h : s.ir.d = .b i) (lat : Nat) (v : Word) : dst (.b i) lat v s = .ok (s.put lat v) := by
  rw [← h]
  exact dst_room (by simp [State.Room, h, State.destRoom]) lat v

theorem pbrOffset_next {s : State} {i : Fin 4} (h : s.Ready) (hd : s.ir.d = .b i) :
    exec .pbrOffset s = .next (((s.markPbr (.b i)).put 1 (word (offsetTarget s)))).passed := by
  rw [exec_pbrOffset, execPbrOffset]
  refine performSeq_ok h ?_
  rw [hd]
  exact dst_b (s := s.markPbr (.b i)) hd 1 _

theorem pbrRegister_next {s t : State} {a : Word} {i : Fin 4} (h : s.Ready) (ha : s.ReadsA a t) (hd : s.ir.d = .b i) :
    exec .pbrRegister s = .next ((t.markPbr (.b i)).put 1 a).passed := by
  rw [exec_pbrRegister, execPbrRegister]
  refine performSeq_ok h ?_
  have ht : t.ir.d = .b i := by rw [src_ir ha, hd]
  simp only [State.ReadsA] at ha
  simp only [ha, bind, Except.bind, ht]
  exact dst_b (s := t.markPbr (.b i)) ht 1 a

/-- Settles O12: the cost of a branch by its hint, its mode and the marks on its register. -/
theorem branchTiming : Obligations.BranchTiming := by
  unfold Obligations.BranchTiming
  refine ⟨fun s o taken h => ?_, fun s i h => ?_, ⟨?_, ?_, fun s o => redirects_iff s o, fun s n anew h hn => redirect_changed h hn,
    fun s => rfl⟩, fun s i h hd => ?_, fun s t a i h ha hd => pbrRegister_next h ha hd⟩
  · rw [branchDelay_hint h]
    exact ⟨fun ht => hintDelay_against ht o, fun ht hm => hintDelay_along ht hm, fun _ _ _ => hintDelay_free s o taken⟩
  · simp only [branchDelay_prepared h, if_true, Bool.false_eq_true, if_false, true_and]
    constructor
    · intro hw; omega
    · intro k hk hw; omega
  · intro sl n i v hv
    exact marked_same (by simpa [VReg.sameTarget] using hv) _
  · intro sl n i v hv
    exact marked_moved (by simpa [VReg.sameTarget] using hv) (by omega)
  · rw [pbrOffset_next h hd, offsetTarget, word_mod_address, markPbr_b]

end Sys2Proof.Machine
end

section
/-! Long moves, and what state registers read and take (R22 to R24, R36, R89, R90, R176, R247, R270, R353, R354). -/

namespace Sys2Proof.Machine

/-! Long moves -/

theorem mov64LongImm_next {s : State} (h : s.Ready) (hr : s.Room) :
    exec .mov64LongImm s = .next (s.put 1 (s.ir.imm.signExtend 64)).passed := by
  rw [exec_mov64LongImm, execMov64LongImm]
  exact performSeq_ok h (dst_room hr 1 _)

theorem mov64PcRel_next {s : State} (h : s.Ready) (hr : s.Room) :
    exec .mov64PcRel s = .next (s.put 1 (((s.st.pc + s.ir.imm.signExtend 64).setWidth 56).setWidth 64)).passed := by
  rw [exec_mov64PcRel, execMov64PcRel, ← word_mod_address]
  exact performSeq_ok h (dst_room hr 1 _)

/-- The top 16 bits from one value over the low 48 of another (R90). -/
theorem word_top16 (i : BitVec 48) (d : Word) :
    word (i.toNat % 2 ^ 16 * 2 ^ 48 + d.toNat % 2 ^ 48) = i.extractLsb' 0 16 ++ d.extractLsb' 0 48 := by
  apply BitVec.eq_of_toNat_eq
  have hd : d.toNat % 2 ^ 48 < 2 ^ 48 := Nat.mod_lt _ (by decide)
  rw [BitVec.toNat_append, ← Nat.shiftLeft_add_eq_or_of_lt (by simpa using hd)]
  simp only [word, BitVec.toNat_ofNat, BitVec.extractLsb'_toNat, Nat.shiftRight_zero, Nat.shiftLeft_eq]
  omega

theorem movh64_next {s t : State} {d : Word} (h : s.Ready) (hd : src s.ir.d s = .ok (d, t)) (hr : t.Room) :
    exec .movh64 s = .next (t.put 1 (s.ir.imm.extractLsb' 0 16 ++ d.extractLsb' 0 48)).passed := by
  rw [exec_movh64, execMovh64, ← word_top16, ← src_ir hd]
  exact performSeq_ok h (by simp only [hd, bind, Except.bind, dst_room hr])

/-! State registers read -/

/-- The fields of the innermost trap frame read as they stand in HANDLER (R353). -/
theorem frame_handler {sl : Slot} (h : sl.mode = .handler) {x : Frame} {xs : List Frame} (hf : sl.frames = x :: xs)
    (f : Frame → Word) : sl.frame f = f x := by simp [Slot.frame, h, hf]

theorem frame_elsewhere {sl : Slot} (h : sl.mode ≠ .handler) (f : Frame → Word) : sl.frame f = 0 := by
  unfold Slot.frame
  split
  · rename_i e _; exact absurd e h
  · rfl

/-- TW0 to TW3 read the watermarks of the accumulator tiles (R272). -/
theorem readSr_watermark (s : State) (t : Fin 4) : readSr (11 + t.val) s = s.here.watermark t := by
  match t with
  | 0 => rfl
  | 1 => rfl
  | 2 => rfl
  | 3 => rfl

/-- Outside HANDLER the registers of the trap frame and TDEPTH read as zero (R353). -/
theorem readSr_elsewhere {s : State} (h : s.me.mode ≠ .handler) {n : Fin 24} (hn : 16 ≤ n.val) (h22 : n ≠ 22) :
    readSr n.val s = 0 := by
  have hc : n = 23 ∨ n = 16 ∨ n = 17 ∨ n = 18 ∨ n = 19 ∨ n = 20 ∨ n = 21 := by omega
  rcases hc with rfl | rfl | rfl | rfl | rfl | rfl | rfl
  · show (if s.me.mode == .handler then word s.me.depth else 0) = 0
    simp [h]
  all_goals exact frame_elsewhere h _

/-- In HANDLER they read the innermost trap frame and the depth of frames (R353). -/
theorem readSr_handler {s : State} (h : s.me.mode = .handler) {f : Frame} {fs : List Frame} (hf : s.me.frames = f :: fs) :
    readSr 16 s = f.epc ∧ readSr 17 s = f.ecause ∧ readSr 18 s = f.eaddr ∧ readSr 19 s = f.erec ∧
      readSr 20 s = f.escr0 ∧ readSr 21 s = f.escr1 ∧ readSr 23 s = BitVec.ofNat 64 (fs.length + 1) := by
  refine ⟨frame_handler h hf _, frame_handler h hf _, frame_handler h hf _, frame_handler h hf _, frame_handler h hf _,
    frame_handler h hf _, ?_⟩
  show (if s.me.mode == .handler then word s.me.depth else 0) = _
  simp [h, Slot.depth, hf, word]

/-! State registers written -/

theorem movSrc_ir {s t : State} {a : Word} (h : movSrc s = .ok (a, t)) : t.ir = s.ir := by
  unfold movSrc at h
  split at h
  · cases h; rfl
  · exact src_ir h

theorem writeSr_next {s t u : State} {a : Word} {f : Word → State → Run} (h : s.Ready) (hs : movSrc s = .ok (a, t))
    (hf : f a t = .ok u) : writeSr s f = .next u.passed :=
  performSeq_ok h (by simp only [hs, bind, Except.bind, hf])

theorem writeSr_fail {s t : State} {a : Word} {f : Word → State → Run} {c : Cause} (h : s.Ready)
    (hs : movSrc s = .ok (a, t)) (hf : f a t = fail c) : writeSr s f = .next (s.trapHere { cause := c }) :=
  performSeq_trap h (by simp only [hs, bind, Except.bind, hf, fail])

/-- A write that a test refuses traps, and else changes the state. -/
theorem writeSr_test {s t u : State} {a : Word} {f : Word → State → Run} {c : Cause} {bad : Bool} (h : s.Ready)
    (hs : movSrc s = .ok (a, t)) (hf : f a t = if bad then fail c else .ok u) :
    writeSr s f = .next (if bad then s.trapHere { cause := c } else u.passed) := by
  cases bad with
  | true => exact writeSr_fail h hs hf
  | false => exact writeSr_next h hs hf

theorem min_toNat (v w : BitVec 32) : BitVec.ofNat 32 (min v.toNat w.toNat) = if v < w then v else w := by
  split
  · rename_i h; rw [Nat.min_eq_left (BitVec.lt_def.1 h).le, BitVec.ofNat_toNat, BitVec.setWidth_eq]
  · rename_i h
    rw [Nat.min_eq_right (Nat.le_of_not_lt fun c => h (BitVec.lt_def.2 c)), BitVec.ofNat_toNat, BitVec.setWidth_eq]

/-- Outside HANDLER a budget can only be shortened; a handler sets it (R176, R354). -/
theorem budWrite_next {s t : State} {a : Word} (h : s.Ready) (hs : movSrc s = .ok (a, t)) :
    exec .budWrite s = .next (t.modSt fun st => { st with
        bud := if t.me.mode = .handler then a.setWidth 32
          else BitVec.ofNat 32 (min (a.setWidth 32).toNat st.bud.toNat) }).passed := by
  rw [exec_budWrite, execBudWrite]
  refine writeSr_next h hs ?_
  simp only [min_toNat, beq_iff_eq]

theorem brmodeWrite_next {s t : State} {a : Word} (h : s.Ready) (hs : movSrc s = .ok (a, t)) :
    exec .brmodeWrite s = .next ((t.modSt fun st => { st with brmode := a &&& 1 }).passed.refetch 4) := by
  rw [exec_brmodeWrite, execBrmodeWrite, perform_ready h]
  simp only [hs, bind, Except.bind, pure, Except.pure, settleRun, State.passed]

/-- Whether a value is an address of an instruction of 56 bits (R23, R353). -/
theorem epcBad_iff (a : Word) :
    (bits a.toNat 63 56 != 0 || bits a.toNat 1 0 != 0) = true ↔ ¬ (a.toNat < 2 ^ 56 ∧ a.toNat % 4 = 0) := by
  have := a.isLt
  simp only [bits, Bool.or_eq_true, bne_iff_ne]
  omega

/-- EPC takes an instruction's address alone (R353). -/
theorem epcWrite {s t : State} {a : Word} (h : s.Ready) (hs : movSrc s = .ok (a, t)) (hd : s.ir.d = .sr 16)
    (hm : t.me.mode = .handler) :
    exec .registerWrite s = .next (if bits a.toNat 63 56 != 0 || bits a.toNat 1 0 != 0 then s.trapHere { cause := .sregWrite }
      else (t.modFrame fun f => { f with epc := a }).passed) := by
  rw [exec_registerWrite, execRegisterWrite]
  refine writeSr_test h hs ?_
  simp [hm, movSrc_ir hs, hd]

/-- ESCR0 and ESCR1 take any value in a handler (R353). -/
theorem escrWrite {s t : State} {a : Word} (h : s.Ready) (hs : movSrc s = .ok (a, t)) (hm : t.me.mode = .handler) :
    (s.ir.d = .sr 20 → exec .registerWrite s = .next (t.modFrame fun f => { f with escr0 := a }).passed) ∧
    (s.ir.d = .sr 21 → exec .registerWrite s = .next (t.modFrame fun f => { f with escr1 := a }).passed) := by
  rw [exec_registerWrite, execRegisterWrite]
  constructor <;> intro hd
  · exact writeSr_next h hs (by simp [hm, movSrc_ir hs, hd])
  · exact writeSr_next h hs (by simp [hm, movSrc_ir hs, hd])

/-- Every other register is read-only (R23). -/
theorem registerWrite_refused {s t : State} {a : Word} {n : Fin 24} (h : s.Ready) (hs : movSrc s = .ok (a, t))
    (hd : s.ir.d = .sr n) (hn : ¬ (t.me.mode = .handler ∧ (n = 16 ∨ n = 20 ∨ n = 21))) :
    exec .registerWrite s = .next (s.trapHere { cause := .sregWrite }) := by
  rw [exec_registerWrite, execRegisterWrite]
  refine writeSr_fail h hs ?_
  by_cases hm : t.me.mode = .handler
  · have hk : n.val ≠ 16 ∧ n.val ≠ 20 ∧ n.val ≠ 21 := by
      have := not_and.1 hn hm
      omega
    simp [hm, movSrc_ir hs, hd, hk]
  · simp [hm]

/-- Settles O13: long moves, then each state register read and each written. -/
theorem movesAndStateRegisters : Obligations.MovesAndStateRegisters := by
  unfold Obligations.MovesAndStateRegisters
  refine ⟨⟨fun s h hr => ⟨mov64LongImm_next h hr, mov64PcRel_next h hr⟩, fun s t d h hd hr => movh64_next h hd hr⟩, ?_, ?_⟩
  · intro s n h hr ha
    refine ⟨readSr n.val s, mov64Reg_next h (movSrc_sr ha) hr, ?_⟩
    iterate 11 refine ⟨by rintro rfl; rfl, ?_⟩
    refine ⟨fun t ht => ?_, by rintro rfl; rfl, fun hm f fs hf => ?_, fun hm hn h22 => readSr_elsewhere hm hn h22, by rintro rfl; rfl⟩
    · rw [ht, readSr_watermark]; rfl
    · obtain ⟨h16, h17, h18, h19, h20, h21, h23⟩ := readSr_handler hm hf
      refine ⟨?_, ?_, ?_, ?_, ?_, ?_, ?_⟩ <;> rintro rfl <;> assumption
  · intro s t a h hs
    refine ⟨?_, budWrite_next h hs, brmodeWrite_next h hs, ?_, ?_, fun n hd => ⟨?_, ?_, ?_, ?_, ?_⟩⟩
    · rw [exec_keyWrite, execKeyWrite]; exact writeSr_next h hs rfl
    · rw [exec_vshapeWrite, execVshapeWrite]; exact writeSr_test h hs rfl
    · rw [exec_mxcfgWrite, execMxcfgWrite]; exact writeSr_test h hs rfl
    · rintro hm rfl h1 h2
      rw [epcWrite h hs hd hm, if_neg (by rw [epcBad_iff]; exact fun c => c ⟨h1, h2⟩)]
    · rintro hm rfl hb
      rw [epcWrite h hs hd hm, if_pos ((epcBad_iff a).2 hb)]
    · rintro hm rfl; exact (escrWrite h hs hm).1 hd
    · rintro hm rfl; exact (escrWrite h hs hm).2 hd
    · exact registerWrite_refused h hs hd

end Sys2Proof.Machine
end

section
/-! The frame of the rows that read registers and write D and nothing else (R29, R45, R79, R80). -/

namespace Sys2Proof.Machine

/-- A meaning whose effect, for a strand whose condition holds, is to read sources and write D. -/
def OnlyWritesD (f : State → Host.Outcome State Fault Refusal) : Prop :=
  ∃ body : State → Run, f = (fun s => performSeq s body) ∧ ∀ s, WritesD s (body s)

/-- Such a meaning stops short of its effect or leaves the frame of an issue that writes D. -/
theorem OnlyWritesD.frame {f : State → Host.Outcome State Fault Refusal} (hf : OnlyWritesD f) {s t : State} (h : s.Ready)
    (he : f s = .next t) : s.Stopped t ∨ (s.SameElsewhere t ∧ s.SameCore t ∧ s.SameSlot t) := by
  obtain ⟨body, rfl, hb⟩ := hf
  exact performSeq_frame h (hb s) he

/-! The forms by their sources -/

theorem dst_onlyWrites (lat : Nat) (v : State → Word) : OnlyWritesD fun s => performSeq s fun s => dst s.ir.d lat (v s) s :=
  ⟨_, rfl, fun s => dst_writes (Quiet.refl s) rfl lat _⟩

theorem unary_onlyWrites (lat : Nat) (f : Nat → Nat) : OnlyWritesD fun s => unary s lat f :=
  ⟨_, rfl, fun s => bind_writes (Quiet.refl s) rfl _ fun _ _ hu hm => dst_writes hu hm lat _⟩

theorem binary_onlyWrites (lat : Nat) (f : Nat → Nat → Nat) : OnlyWritesD fun s => binary s lat f :=
  ⟨_, rfl, fun _ => srcAB_writes fun _ _ _ hu hm => dst_writes hu hm lat _⟩

theorem ternary_onlyWrites (lat : Nat) (f : Nat → Nat → Nat → Nat) : OnlyWritesD fun s => ternary s lat f :=
  ⟨_, rfl, fun _ => srcABD_writes fun _ _ _ _ hu hm => dst_writes hu hm lat _⟩

theorem addInto_onlyWrites (lat : Nat) (f : Nat → Nat → Nat → Nat) : OnlyWritesD fun s => addInto s lat f :=
  ⟨_, rfl, fun _ => srcDAB_writes fun _ _ _ _ hu hm => dst_writes hu hm lat _⟩

theorem compare_onlyWrites (f : Word → Word → Bool) : OnlyWritesD fun s => compare s f :=
  ⟨_, rfl, fun _ => srcAB_writes fun _ _ _ hu hm => dst_writes hu hm 1 _⟩

theorem unary32_onlyWrites (lat : Nat) (f : Nat → Nat) : OnlyWritesD fun s => unary32 s lat f :=
  unary_onlyWrites lat fun a => f (a % 2 ^ 32)

theorem binary32_onlyWrites (lat : Nat) (f : Nat → Nat → Nat) : OnlyWritesD fun s => binary32 s lat f :=
  binary_onlyWrites lat fun a b => f (a % 2 ^ 32) (b % 2 ^ 32)

theorem compare32_onlyWrites (f : Nat → Nat → Bool) : OnlyWritesD fun s => compare32 s f :=
  compare_onlyWrites fun a b => f (a.toNat % 2 ^ 32) (b.toNat % 2 ^ 32)

/-- A test that fails traps and leaves nothing behind; one that holds changes nothing. -/
theorem failIf_writes {s : State} (b : Bool) (c : Cause) {r : Run} (hr : WritesD s r) :
    WritesD s (failIf b c >>= fun _ => r) := by
  cases b with
  | true => exact (rfl : none = none)
  | false => exact hr

theorem convert8_onlyWrites (sat : Bool) (f : Nat → Nat → Nat) : OnlyWritesD fun s => convert8 s sat f :=
  ⟨_, rfl, fun s => whole_writes _ (bind_writes (Quiet.refl s) rfl _ fun _ _ hu hm =>
    failIf_writes _ _ (bind_writes hu hm _ fun _ _ hv hw => dst_writes hv hw 3 _))⟩

theorem mov64Reg_onlyWrites : OnlyWritesD execMov64Reg := by
  refine ⟨_, rfl, fun s => ?_⟩
  unfold movSrc
  split
  · exact dst_writes (Quiet.refl s) rfl 1 _
  · exact bind_writes (Quiet.refl s) rfl _ fun _ _ hu hm => dst_writes hu hm 1 _

theorem movh64_onlyWrites : OnlyWritesD execMovh64 := 
  ⟨_, rfl, fun s => bind_writes (Quiet.refl s) rfl _ fun _ _ hu hm => dst_writes hu hm 1 _⟩

theorem gset_onlyWrites : OnlyWritesD execGset := 
  ⟨_, rfl, fun s => bind_writes (Quiet.refl s) rfl _ fun _ _ hu hm => dst_writes hu hm 1 _⟩

theorem gres_onlyWrites : OnlyWritesD execGres :=
  ⟨_, rfl, fun s => whole_writes _ (failIf_writes _ _ (bind_writes (Quiet.refl s) rfl _ fun _ _ hu hm =>
    dst_writes hu hm 1 _))⟩

theorem nop_onlyWrites : OnlyWritesD execNop := ⟨_, rfl, fun s => ⟨s, Quiet.refl s, rfl, .inl rfl⟩⟩

/-- Every row of groups 0 to 3 that reads registers and writes D is one of these forms. -/
theorem registerForm_onlyWrites {i : Instr} (h : registerForm i = true) : OnlyWritesD (exec i) := by
  cases i with
  | add _ => exact (show OnlyWritesD (execAdd _) from binary_onlyWrites _ _)
  | sub _ => exact (show OnlyWritesD (execSub _) from binary_onlyWrites _ _)
  | mul _ => exact (show OnlyWritesD (execMul _) from binary_onlyWrites _ _)
  | mulh _ => exact (show OnlyWritesD (execMulh _) from binary_onlyWrites _ _)
  | div _ => exact (show OnlyWritesD (execDiv _) from binary_onlyWrites _ _)
  | rem _ => exact (show OnlyWritesD (execRem _) from binary_onlyWrites _ _)
  | min _ => exact (show OnlyWritesD (execMin _) from binary_onlyWrites _ _)
  | max _ => exact (show OnlyWritesD (execMax _) from binary_onlyWrites _ _)
  | adds _ => exact (show OnlyWritesD (execAdds _) from binary_onlyWrites _ _)
  | subs _ => exact (show OnlyWritesD (execSubs _) from binary_onlyWrites _ _)
  | neg _ => exact (show OnlyWritesD (execNeg _) from unary_onlyWrites _ _)
  | sext _ => exact (show OnlyWritesD (execSext _) from unary_onlyWrites _ _)
  | ceq _ => exact (show OnlyWritesD (execCeq _) from compare_onlyWrites _)
  | cne _ => exact (show OnlyWritesD (execCne _) from compare_onlyWrites _)
  | clt _ => exact (show OnlyWritesD (execClt _) from compare_onlyWrites _)
  | cle _ => exact (show OnlyWritesD (execCle _) from compare_onlyWrites _)
  | mov64Reg => exact mov64Reg_onlyWrites
  | mov64LongImm => exact (show OnlyWritesD execMov64LongImm from dst_onlyWrites 1 _)
  | mov64PcRel => exact (show OnlyWritesD execMov64PcRel from dst_onlyWrites 1 _)
  | movh64 => exact movh64_onlyWrites
  | and64 => exact (show OnlyWritesD execAnd64 from binary_onlyWrites _ _)
  | or64 => exact (show OnlyWritesD execOr64 from binary_onlyWrites _ _)
  | xor64 => exact (show OnlyWritesD execXor64 from binary_onlyWrites _ _)
  | andn64 => exact (show OnlyWritesD execAndn64 from binary_onlyWrites _ _)
  | not64 => exact (show OnlyWritesD execNot64 from unary_onlyWrites _ _)
  | zext _ => exact (show OnlyWritesD (execZext _) from unary_onlyWrites _ _)
  | shl _ => exact (show OnlyWritesD (execShl _) from binary_onlyWrites _ _)
  | shr _ => exact (show OnlyWritesD (execShr _) from binary_onlyWrites _ _)
  | sar _ => exact (show OnlyWritesD (execSar _) from binary_onlyWrites _ _)
  | rol _ => exact (show OnlyWritesD (execRol _) from binary_onlyWrites _ _)
  | ror _ => exact (show OnlyWritesD (execRor _) from binary_onlyWrites _ _)
  | popc _ => exact (show OnlyWritesD (execPopc _) from unary_onlyWrites _ _)
  | clz _ => exact (show OnlyWritesD (execClz _) from unary_onlyWrites _ _)
  | ctz _ => exact (show OnlyWritesD (execCtz _) from unary_onlyWrites _ _)
  | bext64 => exact (show OnlyWritesD execBext64 from binary_onlyWrites _ _)
  | bins64 => exact (show OnlyWritesD execBins64 from ternary_onlyWrites _ _)
  | bswap64 => exact (show OnlyWritesD execBswap64 from unary_onlyWrites _ _)
  | brev64 => exact (show OnlyWritesD execBrev64 from unary_onlyWrites _ _)
  | padd _ => exact (show OnlyWritesD (execPadd _) from binary_onlyWrites _ _)
  | psub _ => exact (show OnlyWritesD (execPsub _) from binary_onlyWrites _ _)
  | pshl _ => exact (show OnlyWritesD (execPshl _) from binary_onlyWrites _ _)
  | pshr _ => exact (show OnlyWritesD (execPshr _) from binary_onlyWrites _ _)
  | psar _ => exact (show OnlyWritesD (execPsar _) from binary_onlyWrites _ _)
  | pmul _ => exact (show OnlyWritesD (execPmul _) from binary_onlyWrites _ _)
  | gset => exact gset_onlyWrites
  | gres => exact gres_onlyWrites
  | gand => exact (show OnlyWritesD execGand from dst_onlyWrites 1 _)
  | gor => exact (show OnlyWritesD execGor from dst_onlyWrites 1 _)
  | gxor => exact (show OnlyWritesD execGxor from dst_onlyWrites 1 _)
  | gnot => exact (show OnlyWritesD execGnot from dst_onlyWrites 1 _)
  | gpend => exact (show OnlyWritesD execGpend from dst_onlyWrites 1 _)
  | gget => exact (show OnlyWritesD execGget from dst_onlyWrites 1 _)
  | nop => exact nop_onlyWrites
  | addF32 => exact (show OnlyWritesD execAddF32 from binary32_onlyWrites _ _)
  | subF32 => exact (show OnlyWritesD execSubF32 from binary32_onlyWrites _ _)
  | mulF32 => exact (show OnlyWritesD execMulF32 from binary32_onlyWrites _ _)
  | divF32 => exact (show OnlyWritesD execDivF32 from binary32_onlyWrites _ _)
  | fmaF32 => exact (show OnlyWritesD execFmaF32 from addInto_onlyWrites _ _)
  | fmsF32 => exact (show OnlyWritesD execFmsF32 from addInto_onlyWrites _ _)
  | sqrtF32 => exact (show OnlyWritesD execSqrtF32 from unary32_onlyWrites _ _)
  | rcpF32 => exact (show OnlyWritesD execRcpF32 from unary32_onlyWrites _ _)
  | rsqF32 => exact (show OnlyWritesD execRsqF32 from unary32_onlyWrites _ _)
  | exp2F32 => exact (show OnlyWritesD execExp2F32 from unary32_onlyWrites _ _)
  | log2F32 => exact (show OnlyWritesD execLog2F32 from unary32_onlyWrites _ _)
  | minF32 => exact (show OnlyWritesD execMinF32 from binary32_onlyWrites _ _)
  | maxF32 => exact (show OnlyWritesD execMaxF32 from binary32_onlyWrites _ _)
  | absF32 => exact (show OnlyWritesD execAbsF32 from unary32_onlyWrites _ _)
  | negF32 => exact (show OnlyWritesD execNegF32 from unary32_onlyWrites _ _)
  | ceqF32 => exact (show OnlyWritesD execCeqF32 from compare32_onlyWrites _)
  | cltF32 => exact (show OnlyWritesD execCltF32 from compare32_onlyWrites _)
  | cleF32 => exact (show OnlyWritesD execCleF32 from compare32_onlyWrites _)
  | cunF32 => exact (show OnlyWritesD execCunF32 from compare32_onlyWrites _)
  | classF32 => exact (show OnlyWritesD execClassF32 from unary32_onlyWrites _ _)
  | cvtF32FromInt _ => exact (show OnlyWritesD (execCvtF32FromInt _) from unary_onlyWrites _ _)
  | cvtIntFromF32 _ => exact (show OnlyWritesD (execCvtIntFromF32 _) from unary32_onlyWrites _ _)
  | cvtF32F16 => exact (show OnlyWritesD execCvtF32F16 from unary_onlyWrites _ _)
  | cvtF16F32 => exact (show OnlyWritesD execCvtF16F32 from unary32_onlyWrites _ _)
  | cvtF32Bf16 => exact (show OnlyWritesD execCvtF32Bf16 from unary_onlyWrites _ _)
  | cvtBf16F32 => exact (show OnlyWritesD execCvtBf16F32 from unary32_onlyWrites _ _)
  | cvtF32B8 => exact (show OnlyWritesD execCvtF32B8 from convert8_onlyWrites _ _)
  | cvtB8F32 => exact (show OnlyWritesD execCvtB8F32 from convert8_onlyWrites _ _)
  | _ => exact Bool.noConfusion h

/-- Settles O9: each of these rows only writes D. -/
theorem registerFormsFrame : Obligations.RegisterFormsFrame := by
  unfold Obligations.RegisterFormsFrame
  exact fun i s t hi h he => (registerForm_onlyWrites hi).frame h he

end Sys2Proof.Machine
end

section
/-! Every step answers a next state (R28, R47, R351): a row that is an event branches on its case and leaves a next state in
each, and a core's cycle performs only rows that answer. -/

namespace Sys2Proof.Machine

theorem answers_next (t : State) : Answers (.next t) := ⟨t, rfl⟩

/-! Events -/

theorem spdm_answers (s : State) (l : List Spdm) (n : Option Spdm) : Answers (spdm s l n) := by
  dsimp only [spdm]; split
  all_goals exact answers_next _

theorem execMigrantArrival_answers (s : State) : Answers (execMigrantArrival s) := by
  dsimp only [execMigrantArrival]; repeat' split
  all_goals exact answers_next _
theorem execStayRequestAtHome_answers (s : State) : Answers (execStayRequestAtHome s) := by
  dsimp only [execStayRequestAtHome]; repeat' split
  all_goals exact answers_next _
theorem execReplyArrival_answers (s : State) : Answers (execReplyArrival s) := by
  dsimp only [execReplyArrival]; repeat' split
  all_goals exact answers_next _
theorem execForwardingEntryLapse_answers (s : State) : Answers (execForwardingEntryLapse s) := by
  dsimp only [execForwardingEntryLapse]; repeat' split
  all_goals exact answers_next _
theorem execSubbyteStoreAtHome_answers (s : State) : Answers (execSubbyteStoreAtHome s) := by
  dsimp only [execSubbyteStoreAtHome]; repeat' split
  all_goals exact answers_next _
theorem execPushGranuleWrite_answers (s : State) : Answers (execPushGranuleWrite s) := by
  dsimp only [execPushGranuleWrite]; repeat' split
  all_goals exact answers_next _
theorem execCallatArrival_answers (s : State) : Answers (execCallatArrival s) := by
  dsimp only [execCallatArrival]; repeat' split
  all_goals exact answers_next _
theorem execSendArrival_answers (s : State) : Answers (execSendArrival s) := by
  dsimp only [execSendArrival]; repeat' split
  all_goals exact answers_next _
theorem execJarvArrival_answers (s : State) : Answers (execJarvArrival s) := by
  dsimp only [execJarvArrival]; repeat' split
  all_goals exact answers_next _
theorem execHandlerLockLapse_answers (s : State) : Answers (execHandlerLockLapse s) := by
  dsimp only [execHandlerLockLapse]; repeat' split
  all_goals exact answers_next _
theorem execSlotSelect_answers (s : State) : Answers (execSlotSelect s) := by
  dsimp only [execSlotSelect]; repeat' split
  all_goals exact answers_next _
theorem execForcedSwitch_answers (s : State) : Answers (execForcedSwitch s) := by
  dsimp only [execForcedSwitch]; repeat' split
  all_goals exact answers_next _
theorem execStealAttempt_answers (s : State) : Answers (execStealAttempt s) := by
  dsimp only [execStealAttempt]; repeat' split
  all_goals exact answers_next _
theorem execStealGrantArrival_answers (s : State) : Answers (execStealGrantArrival s) := by
  dsimp only [execStealGrantArrival]; repeat' split
  all_goals exact answers_next _
theorem execStealTimeout_answers (s : State) : Answers (execStealTimeout s) := by
  dsimp only [execStealTimeout]; repeat' split
  all_goals exact answers_next _
theorem execStealBackoffExpiry_answers (s : State) : Answers (execStealBackoffExpiry s) := by
  dsimp only [execStealBackoffExpiry]; repeat' split
  all_goals exact answers_next _
theorem execBudgetExhausted_answers (s : State) : Answers (execBudgetExhausted s) := by
  dsimp only [execBudgetExhausted]; repeat' split
  all_goals exact answers_next _
theorem execWeightReturn_answers (s : State) : Answers (execWeightReturn s) := by
  dsimp only [execWeightReturn]; repeat' split
  all_goals exact answers_next _
theorem execSerialNoticeArrival_answers (s : State) : Answers (execSerialNoticeArrival s) := by
  dsimp only [execSerialNoticeArrival]; repeat' split
  all_goals exact answers_next _
theorem execNotify_answers (s : State) : Answers (execNotify s) := by
  dsimp only [execNotify]; repeat' split
  all_goals exact answers_next _
theorem execQueueMap_answers (s : State) : Answers (execQueueMap s) := by
  dsimp only [execQueueMap]; repeat' split
  all_goals exact answers_next _
theorem execLaunchStart_answers (s : State) : Answers (execLaunchStart s) := by
  dsimp only [execLaunchStart]; repeat' split
  all_goals exact answers_next _
theorem execQueueIdleUnmap_answers (s : State) : Answers (execQueueIdleUnmap s) := by
  dsimp only [execQueueIdleUnmap]; repeat' split
  all_goals exact answers_next _
theorem execQueueEvict_answers (s : State) : Answers (execQueueEvict s) := by
  dsimp only [execQueueEvict]; repeat' split
  all_goals exact answers_next _
theorem execQctlCreate_answers (s : State) : Answers (execQctlCreate s) := by
  dsimp only [execQctlCreate]; repeat' split
  all_goals exact answers_next _
theorem execQctlDisable_answers (s : State) : Answers (execQctlDisable s) := by
  dsimp only [execQctlDisable]; repeat' split
  all_goals exact answers_next _
theorem execQctlDestroy_answers (s : State) : Answers (execQctlDestroy s) := by
  dsimp only [execQctlDestroy]; repeat' split
  all_goals exact answers_next _
theorem execCompletionPost_answers (s : State) : Answers (execCompletionPost s) := by
  dsimp only [execCompletionPost]; repeat' split
  all_goals exact answers_next _
theorem execClockNoticeSend_answers (s : State) : Answers (execClockNoticeSend s) := by
  dsimp only [execClockNoticeSend]; repeat' split
  all_goals exact answers_next _
theorem execClockNoticeArrival_answers (s : State) : Answers (execClockNoticeArrival s) := by
  dsimp only [execClockNoticeArrival]; repeat' split
  all_goals exact answers_next _
theorem execTranslationShootdown_answers (s : State) : Answers (execTranslationShootdown s) := by
  dsimp only [execTranslationShootdown]; repeat' split
  all_goals exact answers_next _
theorem execOwnershipChange_answers (s : State) : Answers (execOwnershipChange s) := by
  dsimp only [execOwnershipChange]; repeat' split
  all_goals exact answers_next _
theorem execEngineCommandStart_answers (s : State) : Answers (execEngineCommandStart s) := by
  dsimp only [execEngineCommandStart]; repeat' split
  all_goals exact answers_next _
theorem execEngineCommandComplete_answers (s : State) : Answers (execEngineCommandComplete s) := by
  dsimp only [execEngineCommandComplete]; repeat' split
  all_goals exact answers_next _
theorem execDeferredFault_answers (s : State) : Answers (execDeferredFault s) := by
  dsimp only [execDeferredFault]; repeat' split
  all_goals exact answers_next _
theorem execCarderRegistration_answers (s : State) : Answers (execCarderRegistration s) := by
  dsimp only [execCarderRegistration]; repeat' split
  all_goals exact answers_next _
theorem execFullerCompaction_answers (s : State) : Answers (execFullerCompaction s) := by
  dsimp only [execFullerCompaction]; repeat' split
  all_goals exact answers_next _
theorem execScrubCheck_answers (s : State) : Answers (execScrubCheck s) := by
  dsimp only [execScrubCheck]; repeat' split
  all_goals exact answers_next _
theorem execRposNotice_answers (s : State) : Answers (execRposNotice s) := by
  dsimp only [execRposNotice]; repeat' split
  all_goals exact answers_next _
theorem execEgressWrite_answers (s : State) : Answers (execEgressWrite s) := by
  dsimp only [execEgressWrite]; repeat' split
  all_goals exact answers_next _
theorem execReplyDoorbell_answers (s : State) : Answers (execReplyDoorbell s) := by
  dsimp only [execReplyDoorbell]; repeat' split
  all_goals exact answers_next _
theorem execReplyDeliver_answers (s : State) : Answers (execReplyDeliver s) := by
  dsimp only [execReplyDeliver]; repeat' split
  all_goals exact answers_next _
theorem execHandlerBudgetExpiry_answers (s : State) : Answers (execHandlerBudgetExpiry s) := by
  dsimp only [execHandlerBudgetExpiry]; repeat' split
  all_goals exact answers_next _
theorem execLaunchClearComplete_answers (s : State) : Answers (execLaunchClearComplete s) := by
  dsimp only [execLaunchClearComplete]; repeat' split
  all_goals exact answers_next _
theorem execCollContributionArrival_answers (s : State) : Answers (execCollContributionArrival s) := by
  dsimp only [execCollContributionArrival]; repeat' split
  all_goals exact answers_next _
theorem execCollWatchdogExpiry_answers (s : State) : Answers (execCollWatchdogExpiry s) := by
  dsimp only [execCollWatchdogExpiry]; repeat' split
  all_goals exact answers_next _
theorem execCollAbandonArrival_answers (s : State) : Answers (execCollAbandonArrival s) := by
  dsimp only [execCollAbandonArrival]; repeat' split
  all_goals exact answers_next _
theorem execCkptBarrierTimeout_answers (s : State) : Answers (execCkptBarrierTimeout s) := by
  dsimp only [execCkptBarrierTimeout]; repeat' split
  all_goals exact answers_next _
theorem execDeviceRecovery_answers (s : State) : Answers (execDeviceRecovery s) := by
  dsimp only [execDeviceRecovery]; repeat' split
  all_goals exact answers_next _
theorem execFlitReplay_answers (s : State) : Answers (execFlitReplay s) := by
  dsimp only [execFlitReplay]; repeat' split
  all_goals exact answers_next _
theorem execPowerEstimate_answers (s : State) : Answers (execPowerEstimate s) := by
  dsimp only [execPowerEstimate]; repeat' split
  all_goals exact answers_next _
theorem execThermalThrottle_answers (s : State) : Answers (execThermalThrottle s) := by
  dsimp only [execThermalThrottle]; repeat' split
  all_goals exact answers_next _
theorem execThermalStop_answers (s : State) : Answers (execThermalStop s) := by
  dsimp only [execThermalStop]; repeat' split
  all_goals exact answers_next _
theorem execModuleReset_answers (s : State) : Answers (execModuleReset s) := by
  dsimp only [execModuleReset]; repeat' split
  all_goals exact answers_next _
theorem execFinish_answers (s : State) : Answers (execFinish s) := by
  unfold execFinish
  split
  · exact spdm_answers s _ _
  · exact answers_next _
theorem execIllegalInstruction_answers (s : State) : Answers (execIllegalInstruction s) := by
  dsimp only [execIllegalInstruction]; repeat' split
  all_goals exact answers_next _
theorem execFetchFault_answers (s : State) : Answers (execFetchFault s) := by
  dsimp only [execFetchFault]; repeat' split
  all_goals exact answers_next _
theorem execStealRequestAtVictim_answers (s : State) : Answers (execStealRequestAtVictim s) := by
  dsimp only [execStealRequestAtVictim]; repeat' split
  all_goals exact answers_next _
theorem execWriteAcknowledgement_answers (s : State) : Answers (execWriteAcknowledgement s) := by
  dsimp only [execWriteAcknowledgement]; repeat' split
  all_goals exact answers_next _
theorem execHostWindowAccess_answers (s : State) : Answers (execHostWindowAccess s) := by
  dsimp only [execHostWindowAccess]; repeat' split
  all_goals exact answers_next _
theorem execContextCreate_answers (s : State) : Answers (execContextCreate s) := by
  dsimp only [execContextCreate]; repeat' split
  all_goals exact answers_next _
theorem execContextEnd_answers (s : State) : Answers (execContextEnd s) := by
  dsimp only [execContextEnd]; repeat' split
  all_goals exact answers_next _
theorem execKeyPairDelivery_answers (s : State) : Answers (execKeyPairDelivery s) := by
  dsimp only [execKeyPairDelivery]; repeat' split
  all_goals exact answers_next _

/-- A row that is an event answers in every state. -/
theorem event_answers {i : Instr} (h : i.opc = none) (s : State) : Answers (exec i s) := by
  cases i with
  | migrantArrival => exact execMigrantArrival_answers s
  | stayRequestAtHome => exact execStayRequestAtHome_answers s
  | replyArrival => exact execReplyArrival_answers s
  | forwardingEntryLapse => exact execForwardingEntryLapse_answers s
  | subbyteStoreAtHome => exact execSubbyteStoreAtHome_answers s
  | pushGranuleWrite => exact execPushGranuleWrite_answers s
  | callatArrival => exact execCallatArrival_answers s
  | sendArrival => exact execSendArrival_answers s
  | jarvArrival => exact execJarvArrival_answers s
  | handlerLockLapse => exact execHandlerLockLapse_answers s
  | slotSelect => exact execSlotSelect_answers s
  | forcedSwitch => exact execForcedSwitch_answers s
  | stealAttempt => exact execStealAttempt_answers s
  | stealGrantArrival => exact execStealGrantArrival_answers s
  | stealTimeout => exact execStealTimeout_answers s
  | stealBackoffExpiry => exact execStealBackoffExpiry_answers s
  | budgetExhausted => exact execBudgetExhausted_answers s
  | weightReturn => exact execWeightReturn_answers s
  | serialNoticeArrival => exact execSerialNoticeArrival_answers s
  | notify => exact execNotify_answers s
  | queueMap => exact execQueueMap_answers s
  | launchStart => exact execLaunchStart_answers s
  | queueIdleUnmap => exact execQueueIdleUnmap_answers s
  | queueEvict => exact execQueueEvict_answers s
  | qctlCreate => exact execQctlCreate_answers s
  | qctlDisable => exact execQctlDisable_answers s
  | qctlDestroy => exact execQctlDestroy_answers s
  | completionPost => exact execCompletionPost_answers s
  | clockNoticeSend => exact execClockNoticeSend_answers s
  | clockNoticeArrival => exact execClockNoticeArrival_answers s
  | translationShootdown => exact execTranslationShootdown_answers s
  | ownershipChange => exact execOwnershipChange_answers s
  | engineCommandStart => exact execEngineCommandStart_answers s
  | engineCommandComplete => exact execEngineCommandComplete_answers s
  | deferredFault => exact execDeferredFault_answers s
  | carderRegistration => exact execCarderRegistration_answers s
  | fullerCompaction => exact execFullerCompaction_answers s
  | scrubCheck => exact execScrubCheck_answers s
  | rposNotice => exact execRposNotice_answers s
  | egressWrite => exact execEgressWrite_answers s
  | replyDoorbell => exact execReplyDoorbell_answers s
  | replyDeliver => exact execReplyDeliver_answers s
  | handlerBudgetExpiry => exact execHandlerBudgetExpiry_answers s
  | launchClearComplete => exact execLaunchClearComplete_answers s
  | collContributionArrival => exact execCollContributionArrival_answers s
  | collWatchdogExpiry => exact execCollWatchdogExpiry_answers s
  | collAbandonArrival => exact execCollAbandonArrival_answers s
  | ckptBarrierTimeout => exact execCkptBarrierTimeout_answers s
  | deviceRecovery => exact execDeviceRecovery_answers s
  | flitReplay => exact execFlitReplay_answers s
  | powerEstimate => exact execPowerEstimate_answers s
  | thermalThrottle => exact execThermalThrottle_answers s
  | thermalStop => exact execThermalStop_answers s
  | moduleReset => exact execModuleReset_answers s
  | getVersion => exact spdm_answers s _ _
  | getCapabilities => exact spdm_answers s _ _
  | negotiateAlgorithms => exact spdm_answers s _ _
  | getDigests => exact spdm_answers s _ _
  | getCertificate => exact spdm_answers s _ _
  | challenge => exact spdm_answers s _ _
  | getMeasurements => exact spdm_answers s _ _
  | keyExchange => exact spdm_answers s _ _
  | finish => exact execFinish_answers s
  | endSession => exact spdm_answers s _ _
  | heartbeat => exact spdm_answers s _ _
  | illegalInstruction => exact execIllegalInstruction_answers s
  | fetchFault => exact execFetchFault_answers s
  | stealRequestAtVictim => exact execStealRequestAtVictim_answers s
  | writeAcknowledgement => exact execWriteAcknowledgement_answers s
  | hostWindowAccess => exact execHostWindowAccess_answers s
  | contextCreate => exact execContextCreate_answers s
  | contextEnd => exact execContextEnd_answers s
  | keyPairDelivery => exact execKeyPairDelivery_answers s
  | _ => exact absurd h (Option.some_ne_none _)

/-- An instruction answers for every strand at issue. -/
theorem instruction_answers {s : State} (h : s.me.live = true) (i : Instr) : Answers (exec i s) := by
  by_cases hi : i.opc = none
  · exact event_answers hi s
  · exact (exec_performs (Option.isSome_iff_ne_none.2 hi)).answers h

/-! A core's cycle -/

/-- A change of a slot that holds a strand is what the slot reads as. -/
theorem slot_modSlot_self {s : State} {u k : Nat} (h : (s.slot u k).live = true) (f : Slot → Slot) :
    (s.modSlot u k f).slot u k = f (s.slot u k) := by
  have hk := Core.live_lt h
  simp [State.slot, State.modSlot, State.setSlot, Core.slot_setSlot, hk]

theorem Core.hold_slots (c : Core) (l : BitVec 32) (a : Word) (w : BitVec 96) : (c.hold l a w).slots = c.slots := by
  unfold Core.hold
  split <;> rfl

/-- A strand that has fetched still stands in its slot. -/
theorem fetching_live {s : State} {u k : Nat} (h : (s.slot u k).live = true) : ((s.fetching u k).slot u k).live = true := by
  unfold State.fetching
  split
  · exact h
  · have hc := slot_modCore (s := s) (v := u) (fun c => c.hold_slots (s.slot u k).st.launch (s.slot u k).st.pc ‹_›) u k
    rw [slot_modSlot_self (by rw [hc]; exact h), hc]
    exact h

theorem fetching_focus (s : State) (u k : Nat) : (s.fetching u k).focusU = s.focusU ∧ (s.fetching u k).focusK = s.focusK := by
  unfold State.fetching
  split <;> exact ⟨rfl, rfl⟩

/-- What a strand comes to at issue is a row that answers, whatever its word is. -/
theorem attempt_answers {s : State} {u k : Nat} (h : (s.slot u k).live = true) : Answers (attempt exec u k s) := by
  unfold attempt
  dsimp only
  split
  · exact event_answers rfl _
  · split
    · exact event_answers rfl _
    · refine instruction_answers ?_ _
      have hf := fetching_live (s := { s with focusU := u, focusK := k }) h
      obtain ⟨hu, hk⟩ := fetching_focus { s with focusU := u, focusK := k } u k
      simp only [State.me, hu, hk]
      exact hf

theorem Slot.live_of_runs {sl : Slot} (h : sl.runs = true) : sl.live = true := by
  cases hm : sl.mode <;> simp_all [Slot.runs, Slot.live]

theorem Slot.live_of_waits {sl : Slot} (h : sl.waits = true) : sl.live = true := by
  cases hm : sl.mode <;> simp_all [Slot.waits, Slot.live]

theorem recheck_answers {s : State} {u k : Nat} (h : (s.slot u k).live = true) : Answers (recheck exec u k s) := by
  obtain ⟨t, ht⟩ := attempt_answers h
  unfold recheck
  rw [ht]
  dsimp only
  split <;> exact answers_next _

theorem beginSlot_answers (u k : Nat) (s : State) : Answers (beginSlot exec u k s) := by
  dsimp only [beginSlot]
  split
  · exact event_answers rfl _
  split
  · exact answers_next _
  split
  · exact answers_next _
  split
  · split <;> exact event_answers rfl _
  split
  · exact event_answers rfl _
  split
  · exact event_answers rfl _
  split
  · exact answers_next _
  split
  · rename_i hw
    exact recheck_answers (Slot.live_of_waits (Bool.and_eq_true_iff.1 hw).1)
  · exact answers_next _

theorem eachSlot_answers {f : Nat → State → Host.Outcome State Fault Refusal} (hf : ∀ k s, Answers (f k s)) :
    ∀ ks s, Answers (eachSlot f ks s)
  | [], s => answers_next s
  | k :: ks, s => by
    obtain ⟨t, ht⟩ := hf k s
    simp only [eachSlot, ht]
    exact eachSlot_answers hf ks t

theorem tryAll_answers (u : Nat) : ∀ ks s, Answers (tryAll exec u ks s)
  | [], s => answers_next s
  | k :: ks, s => by
    unfold tryAll
    split
    · rename_i hr
      obtain ⟨t, ht⟩ := attempt_answers (Slot.live_of_runs hr)
      simp only [ht]
      split
      · exact tryAll_answers u ks t
      · exact answers_next t
    · exact tryAll_answers u ks s

theorem cycle_answers (u : Nat) (s : State) : Answers (cycle exec u s) := by
  unfold cycle
  split
  · exact answers_next s
  · obtain ⟨t, ht⟩ := eachSlot_answers (beginSlot_answers u) (List.range (s.core u).slots.length) s
    obtain ⟨v, hv⟩ := tryAll_answers u ((t.modCore u Core.fixHolder).core u).candidates (t.modCore u Core.fixHolder)
    simp only [ht, hv]
    exact answers_next _

theorem step_answers (s : State) : Answers (step s) := by
  unfold step stepWith
  split
  · exact cycle_answers _ _
  · exact cycle_answers _ _
  · split
    · exact event_answers (by cases ‹Event› <;> rfl) _
    · exact answers_next _
  · exact answers_next _

/-- Settles O56: instructions, events and steps in turn. -/
theorem stepAlwaysAnswers : Obligations.StepAlwaysAnswers := by
  unfold Obligations.StepAlwaysAnswers
  exact ⟨fun i _ h => instruction_answers h i, fun _ s h => event_answers h s, step_answers⟩

end Sys2Proof.Machine
end

section
/-! What the completion of an instruction leaves alone: the frame of each form of completing, and the bytes that a load or a
store may change (R29, R44, R160, R187, R199, R223). -/

namespace Sys2Proof.Machine

/-! Results of long loads and blocking forms -/

theorem Quiet.flyAll {s : State} (h : s.me.live = true) (f : State → Nat) (regs : List (RegName × Word)) :
    Quiet s (regs.foldl (fun s r => s.fly (f s) r.1 r.2) s) := by
  induction regs generalizing s with
  | nil => exact Quiet.refl s
  | cons r rs ih =>
    have hf := Quiet.fly h (f s) r.1 r.2
    exact hf.trans (ih (hf.live h))

/-- The strand as it was, and the results in flight those from before and those put there. -/
theorem flyAll_me {s : State} (h : s.me.live = true) (f : State → Nat) (regs : List (RegName × Word)) :
    (regs.foldl (fun s r => s.fly (f s) r.1 r.2) s).st = s.st ∧
      ∀ l ∈ (regs.foldl (fun s r => s.fly (f s) r.1 r.2) s).me.inflight, l ∈ s.me.inflight ∨ ∃ r ∈ regs, l.reg = r.1 := by
  induction regs generalizing s with
  | nil => exact ⟨rfl, fun l hl => .inl hl⟩
  | cons r rs ih =>
    have e : (s.fly (f s) r.1 r.2).me = _ := me_modMe h _
    obtain ⟨hst, hin⟩ := ih ((Quiet.fly h (f s) r.1 r.2).live h)
    refine ⟨hst.trans (by simp only [State.st, e]), fun l hl => ?_⟩
    rcases hin l hl with hl | ⟨x, hx, hl⟩
    · rw [e] at hl
      rcases mem_addLanding _ hl with hl | rfl
      · exact .inl hl
      · exact .inr ⟨r, by simp, rfl⟩
    · exact .inr ⟨x, by simp [hx], hl⟩

/-- A long result touches nothing but the marks of the issue and the results in flight: those of its registers join. -/
theorem landLong_quiet {s : State} (h : s.me.live = true) (regs : List (RegName × Word)) :
    Quiet s (landLong regs s) ∧ (landLong regs s).st = s.st ∧
      ∀ l ∈ (landLong regs s).me.inflight, l ∈ s.me.inflight ∨ ∃ r ∈ regs, l.reg = r.1 := by
  have hd := Quiet.draw s
  have hl : s.draw.2.me.live = true := hd.live h
  unfold landLong
  dsimp only
  generalize hw : s.draw.2.modMe _ = w
  have hm : Quiet s.draw.2 w ∧ w.st = s.draw.2.st ∧ w.me.inflight = s.draw.2.me.inflight := by
    subst hw
    exact ⟨Quiet.modMe hl rfl hl, by rw [State.st, me_modMe hl]; rfl, by rw [me_modMe hl]⟩
  obtain ⟨hq, hst, hin⟩ := hm
  have hwl := hq.live hl
  obtain ⟨fst, fin⟩ := flyAll_me hwl
    (fun x => Config.longLatency s.draw.1 + max (s.draw.2.cyc + 1) s.draw.2.me.settled - x.cyc) regs
  exact ⟨(hd.trans hq).trans (Quiet.flyAll hwl _ regs), fst.trans hst, fun l hl => by rw [hin] at fin; exact fin l hl⟩

/-- The frame of an instruction that passes on from a state in which only results for D have been put in flight. -/
theorem frame_passed {s t : State} (h : s.me.live = true) (ht : Quiet s t) (hst : t.st = s.st)
    (hi : ∀ l ∈ t.me.inflight, l ∈ s.me.inflight ∨ destReg s.ir.d = some l.reg) :
    s.SameElsewhere t.passed ∧ s.SameCore t.passed ∧ s.SameSlot t.passed := by
  have q := ht.trans (Quiet.passed (ht.live h))
  obtain ⟨hp, hin⟩ := passed_pc (ht.live h)
  exact ⟨q.elsewhere, q.sameCore, q.sameSlot (by rw [hp, hst]) (by rw [hin]; exact hi)⟩

/-- The frame of each form of completing an instruction. -/
theorem completion_frame {s t : State} {n : Nat} {v : Word} (h : s.me.live = true)
    (ht : t ∈ [s.passed, s.rest.passed, (s.put n v).passed, (s.putLong v).passed]) :
    s.SameElsewhere t ∧ s.SameCore t ∧ s.SameSlot t := by
  simp only [List.mem_cons, List.not_mem_nil, or_false] at ht
  rcases ht with rfl | rfl | rfl | rfl
  · exact frame_passed h (Quiet.refl s) rfl fun l hl => .inl hl
  · obtain ⟨hq, hst, hi⟩ := landLong_quiet h []
    exact frame_passed h hq hst fun l hl => (hi l hl).imp_right fun ⟨_, hr, _⟩ => absurd hr List.not_mem_nil
  · exact frame_put h (Quiet.refl s) rfl n v
  · obtain ⟨hq, hst, hi⟩ := landLong_quiet h ((destReg s.ir.d).toList.map fun r => (r, v))
    refine frame_passed h hq hst fun l hl => (hi l hl).imp_right fun ⟨x, hx, hl⟩ => ?_
    obtain ⟨r, hr, rfl⟩ := List.mem_map.1 hx
    rw [hl]
    exact Option.mem_toList.1 hr

/-! States with the same maps -/

theorem Quiet.sameMaps {s t : State} (h : Quiet s t) : SameMaps s t :=
  ⟨h.keeps State.mem, h.keeps State.hostMem, h.keeps State.full, h.keeps State.tags, h.keeps State.poison, h.keeps State.seals⟩

theorem SameMaps.sameMemory {s t : State} (h : SameMaps s t) : s.SameMemory t := by
  obtain ⟨hm, hh, hf, ht, hp, hs⟩ := h
  simp only [State.SameMemory, State.byte, State.isFull, State.tag, hm, hh, hf, ht, hp, hs, implies_true, and_self]

theorem SameMaps.byte {s t : State} (h : SameMaps s t) (r : Nat) : t.byte r = s.byte r := h.sameMemory.1 r

theorem sameMaps_src {o : Opd} {s t : State} {a : Word} (h : src o s = .ok (a, t)) : SameMaps s t :=
  (src_quiet h).1.sameMaps

theorem sameMaps_finish (s : State) : SameMaps s s.finish := by
  have ht : ∀ t : State, SameMaps t (t.turn t.focusU) := fun t => sameMaps_count (t.modCore _ _) _ _ _ _
  have h1 : SameMaps s ((s.modMe fun sl => sl.issued s.cyc s.ir.hd.gap.val).turn s.focusU) := ht (s.modMe _)
  unfold State.finish
  dsimp only
  split
  · exact h1.trans (sameMaps_count (State.modMe _ _) _ _ _ _)
  · exact h1

theorem sameMaps_passed (s : State) : SameMaps s s.passed := sameMaps_finish s.advance

/-- Bytes written to states with the same maps leave the same maps. -/
theorem SameMaps.setBytes {s t : State} (h : SameMaps s t) (p : Nat) (bs : List Byte) :
    SameMaps (s.setBytes p bs) (t.setBytes p bs) := by
  induction bs generalizing s t p with
  | nil => exact h
  | cons b bs ih =>
    obtain ⟨hm, hr⟩ := h
    exact ih (s := s.setByte p b) (t := t.setByte p b) ⟨by simp only [State.setByte, hm], hr⟩ (p + 1)

theorem SameMaps.bytes {s t : State} (h : SameMaps s t) (p n : Nat) : t.bytes p n = s.bytes p n := by
  induction n generalizing p with
  | zero => rfl
  | succ n ih => simp only [State.bytes, h.byte, ih]

theorem SameMaps.setSeals {s t : State} (h : SameMaps s t) (m : List (Nat × Option (Option (BitVec 256)))) :
    SameMaps { s with seals := m } { t with seals := m } := by
  obtain ⟨hm, hh, hf, ht, hp, -⟩ := h
  exact ⟨hm, hh, hf, ht, hp, rfl⟩

/-- An access finds the same in states with the same maps (R199). -/
theorem SameMaps.underUnit {s t : State} (h : SameMaps s t) (key : Option (BitVec 256)) (i : Nat) :
    SameMaps (s.underUnit key i) (t.underUnit key i) := by
  obtain ⟨-, -, -, -, -, hs⟩ := id h
  unfold State.underUnit State.seal State.num
  rw [hs, h.bytes]
  split
  · exact h.setSeals _
  · split
    · exact h
    · generalize leBytes _ _ = bs
      exact (h.setBytes _ bs).setSeals _

theorem SameMaps.under {s t : State} (h : SameMaps s t) (key : Option (BitVec 256)) (p n : Nat) :
    SameMaps (s.under key p n) (t.under key p n) := by
  have hu : ∀ n i {s t : State}, SameMaps s t → SameMaps (underUnits key i n s) (underUnits key i n t) := by
    intro n
    induction n with
    | zero => exact fun _ _ _ h => h
    | succ n ih => exact fun i _ _ h => ih (i + 1) (h.underUnit key i)
  unfold State.under
  split
  · exact hu _ _ h
  · exact h

/-! What writes leave of the bits beside memory -/

/-- Two states hold the same full/empty bits, frame tags and poison. -/
def SameMarks (s t : State) : Prop := t.full = s.full ∧ t.tags = s.tags ∧ t.poison = s.poison

theorem SameMarks.trans {s t u : State} (h : SameMarks s t) (k : SameMarks t u) : SameMarks s u :=
  ⟨k.1.trans h.1, k.2.1.trans h.2.1, k.2.2.trans h.2.2⟩

theorem SameMaps.marks {s t : State} (h : SameMaps s t) : SameMarks s t := by
  obtain ⟨-, -, hf, ht, hp, -⟩ := h
  exact ⟨hf, ht, hp⟩

theorem SameMarks.read {s t : State} (h : SameMarks s t) :
    (∀ r, t.isFull r = s.isFull r) ∧ (∀ r, t.tag r = s.tag r) ∧ t.poison = s.poison := by
  obtain ⟨hf, ht, hp⟩ := h
  exact ⟨fun r => by rw [State.isFull, hf]; rfl, fun r => by rw [State.tag, ht]; rfl, hp⟩

theorem sameMarks_setBytes (s : State) (p : Nat) (bs : List Byte) : SameMarks s (s.setBytes p bs) := by
  induction bs generalizing s p with
  | nil => exact ⟨rfl, rfl, rfl⟩
  | cons b bs ih => exact SameMarks.trans ⟨rfl, rfl, rfl⟩ (ih (s.setByte p b) (p + 1))

theorem sameMarks_underUnit (s : State) (key : Option (BitVec 256)) (i : Nat) : SameMarks s (s.underUnit key i) := by
  unfold State.underUnit
  split
  · exact ⟨rfl, rfl, rfl⟩
  · split
    · exact ⟨rfl, rfl, rfl⟩
    · generalize leBytes _ _ = bs
      exact (sameMarks_setBytes s _ bs).trans ⟨rfl, rfl, rfl⟩

theorem sameMarks_under (s : State) (key : Option (BitVec 256)) (p n : Nat) : SameMarks s (s.under key p n) := by
  have hu : ∀ n i (s : State), SameMarks s (underUnits key i n s) := by
    intro n
    induction n with
    | zero => exact fun _ _ => ⟨rfl, rfl, rfl⟩
    | succ n ih => exact fun i s => (sameMarks_underUnit s key i).trans (ih (i + 1) _)
  unfold State.under
  split
  · exact hu _ _ s
  · exact ⟨rfl, rfl, rfl⟩

/-- A number stored is its bytes written: filters see the write and touch no map. -/
theorem storeNum_maps (s : State) (takes : Bool) (p n v : Nat) :
    SameMaps (s.setBytes p (leBytes n v)) (s.storeNum takes p n v) := by
  unfold State.storeNum State.store
  dsimp only
  split
  · exact sameMaps_filtersWrite _ _ _ _
  · exact .refl _

theorem leBytes_length (n v : Nat) : (leBytes n v).length = n := by
  induction n generalizing v with
  | zero => rfl
  | succ n ih => simp [leBytes, ih]

/-- A number stored changes no byte outside its own, and none of the marks. -/
theorem storeNum_frame {s : State} (h : s.Canonical) (takes : Bool) (q n v : Nat) :
    (∀ r, Outside q n r → (s.storeNum takes q n v).byte r = s.byte r) ∧ SameMarks s (s.storeNum takes q n v) := by
  have hm := storeNum_maps s takes q n v
  refine ⟨fun r hr => ?_, (sameMarks_setBytes s q _).trans hm.marks⟩
  rw [hm.byte, byte_setBytes_of_outside h.1 _ (by rw [leBytes_length]; exact hr)]

/-! Units of HBM under another key (R199) -/

/-- A unit found under a key leaves the bytes and the key of every other unit, and its own bytes where no other key was
before. -/
theorem underUnit_byte {s : State} (h : s.Canonical) (key : Option (BitVec 256)) {i r : Nat}
    (hr : r / 64 ≠ i ∨ s.seal (r / 64) = none ∨ s.seal (r / 64) = some key) : (s.underUnit key i).byte r = s.byte r := by
  unfold State.underUnit
  split
  · rfl
  · rename_i k hk
    split
    · rfl
    · rename_i hne
      have hi : r / 64 ≠ i := by
        rcases hr with hr | hr | hr
        · exact hr
        · rintro rfl; rw [hk] at hr; cases hr
        · rintro rfl; rw [hk] at hr; exact absurd (Option.some.inj hr) hne
      generalize hbs : leBytes 64 _ = bs
      have hl : bs.length = 64 := by rw [← hbs, leBytes_length]
      exact byte_setBytes_of_outside h.1 bs (by rw [hl]; omega)

theorem underUnit_seal {s : State} (h : s.Canonical) (key : Option (BitVec 256)) {i j : Nat} (hj : j ≠ i) :
    (s.underUnit key i).seal j = s.seal j := by
  obtain ⟨-, -, -, -, -, hw⟩ := h
  unfold State.underUnit
  split
  · exact sget_sset_of_ne hw _ hj
  · split
    · rfl
    · exact sget_sset_of_ne hw _ hj

theorem underUnits_byte {key : Option (BitVec 256)} {r : Nat} (n : Nat) : ∀ (i : Nat) {s : State}, s.Canonical →
    r / 64 < i ∨ i + n ≤ r / 64 ∨ s.seal (r / 64) = none ∨ s.seal (r / 64) = some key →
    (underUnits key i n s).byte r = s.byte r := by
  induction n with
  | zero => exact fun _ _ _ _ => rfl
  | succ n ih =>
    intro i s h hr
    have hb : (s.underUnit key i).byte r = s.byte r := by
      refine underUnit_byte h key ?_
      rcases hr with hr | hr | hr
      · exact .inl (by omega)
      · exact .inl (by omega)
      · exact .inr hr
    refine (ih (i + 1) (canonical_underUnit h key i) ?_).trans hb
    by_cases hi : r / 64 = i
    · exact .inl (by omega)
    · rw [underUnit_seal h key hi]
      exact hr.imp (by omega) (.imp_left (by omega))

theorem under_byte {s : State} (h : s.Canonical) (key : Option (BitVec 256)) {q n r : Nat}
    (hr : hbmEnd ≤ q ∨ r / 64 < q / 64 ∨ (q + n + 63) / 64 ≤ r / 64 ∨ s.seal (r / 64) = none ∨ s.seal (r / 64) = some key) :
    (s.under key q n).byte r = s.byte r := by
  unfold State.under
  split
  · rename_i hq
    refine underUnits_byte _ _ h ?_
    rcases hr with hr | hr | hr | hr
    · omega
    · exact .inl hr
    · exact .inr (.inl (by omega))
    · exact .inr (.inr hr)
  · rfl

/-! A store that its home makes -/

/-- An operation that stores `n` bytes whole, or a part of one byte (R223, R224). -/
def MemOp.Stores (op : MemOp) (n : Nat) : Prop := (∃ v, op = .store n v) ∨ (n = 1 ∧ ∃ b i v, op = .sub b i v)

/-- What memory is after a store of the `n` bytes from `q`: every byte outside them as the store's key finds it (R199). -/
def StoreFrame (s t : State) (key : Option (BitVec 256)) (q n : Nat) : Prop :=
  (∀ r, Outside q n r → t.byte r = (s.under key q n).byte r) ∧ SameMarks s t

theorem storeNum_learn_frame {s : State} (h : s.Canonical) (key : Option (BitVec 256)) (q n v d : Nat) (dep : Clock) :
    StoreFrame s (((s.under key q n).storeNum true q n v).learn d dep) key q n := by
  obtain ⟨hb, hm⟩ := storeNum_frame (canonical_under h key q n) true q n v
  have hl := sameMaps_learn ((s.under key q n).storeNum true q n v) d dep
  exact ⟨fun r hr => (hl.byte r).trans (hb r hr), ((sameMarks_under s key q n).trans hm).trans hl.marks⟩

/-- A home that reaches a store's bytes makes it, and changes no other byte. -/
theorem performFor_stores {s : State} {ctx : BitVec 12} {p : Place} {op : MemOp} {n q : Nat} (dep : Clock) (h : s.Canonical)
    (ho : op.Stores n) (hq : reach s ctx p n = .ok q) :
    ∃ x t, performFor s ctx dep p op = .ok (x, t) ∧ StoreFrame s t (p.key s ctx) q n := by
  rcases ho with ⟨v, rfl⟩ | ⟨rfl, b, i, v, rfl⟩
  · exact ⟨_, _, performFor_store hq, storeNum_learn_frame h _ _ _ _ _ _⟩
  · refine ⟨0, _, ?_, storeNum_learn_frame h (p.key s ctx) q 1
      (replaceField b i ((s.under (p.key s ctx) q 1).num q 1) v.toNat) (dieOf p.home) dep⟩
    simp only [performFor, performAt, hq, bind, Except.bind, pure, Except.pure, MemOp.writes, MemOp.fills, if_true,
      Bool.false_eq_true, if_false]

/-! A store at issue -/

/-- A memory form that only stores `n` bytes, with none of the orders and tests of other forms. -/
structure PlainStore (n : Nat) (f : MemForm) : Prop where
  kind : f.kind = .store
  size : f.size = n
  inSc : f.inSc = false
  rel : f.rel = false
  fe : f.fe = false
  stores : f.op.Stores n

namespace PlainStore

variable {n : Nat} {f : MemForm}

theorem op (h : PlainStore n f) : f.op.writes = true ∧ f.op.replies = false ∧ f.op.takes = false ∧ f.op.plain = false ∧
    (f.op == .decode) = false := by
  rcases h.stores with ⟨v, e⟩ | ⟨-, b, i, v, e⟩ <;> rw [e] <;> exact ⟨rfl, rfl, rfl, rfl, rfl⟩

theorem locateForm {t : State} {a : Nat} {p : Place} (h : PlainStore n f) (ha : a % n = 0)
    (hl : locate t t.focusU t.st.ctx a .store = .ok p) : Machine.locateForm t a f = .ok p := by
  obtain ⟨-, -, -, -, hd⟩ := h.op
  exact locateForm_ok (by rw [h.size]; exact ha) h.fe (by rw [h.kind]; exact hl) hd (by rw [h.inSc]; exact nofun)

end PlainStore

/-- What performing an access comes to when it is made later: it is held at issue, or on its way with memory as it was. -/
def Sent (s : State) (r : Run) : Prop := r = .error .hold ∨ ∃ t, r = .ok t ∧ SameMaps s t

theorem sameMaps_postWrite (s : State) (u k d : Nat) (b : Payload) : SameMaps s (s.postWrite u k d b) := by
  unfold State.postWrite
  dsimp only
  split <;> exact .refl s

theorem accessSend_sent {f : MemForm} {p : Place} {s : State} {q : Nat} (a : Nat) (hk : noKey s s.st.ctx p = false)
    (hs : settle s p = .ok q) : Sent s (accessSend f p a s) := by
  unfold accessSend
  simp only [hk, hs, Bool.false_eq_true, if_false, ite_self, bind, Except.bind]
  split
  · exact .inl rfl
  · exact .inr ⟨_, rfl, sameMaps_postWrite s _ _ _ _⟩

theorem accessLong_sent (f : MemForm) (p : Place) (a : Nat) (s0 s : State) : Sent s (accessLong f p a s0 s) := by
  unfold accessLong
  split
  · exact .inl rfl
  · exact .inr ⟨_, rfl, .refl s⟩

/-- A home reaches a place only when its buffer is open and its key is there (R183). -/
theorem reach_tests {s : State} {ctx : BitVec 12} {p : Place} {n q : Nat} (h : reach s ctx p n = .ok q) :
    settle s p = .ok q ∧ noKey s ctx p = false := by
  unfold reach at h
  split at h
  · cases h
  · rename_i a ha
    split at h
    · cases h
    · rename_i hk
      split at h
      · cases h
      · cases h; exact ⟨ha, by simpa using hk⟩

/-- A store to a home in reach changes nothing in memory when it is issued (R187, R189, R223). -/
theorem memory_store_sent {s t u w : State} {a n q : Nat} {f : MemForm} {p : Place} {b : Word} {more : List Opd}
    {build : State → Except Stop (MemForm × State)} {put : Bool → Nat → State → Run}
    (hs : s.Standing) (hf : PlainStore n f) (ha : s.ReadsA b w) (hm : whole (s.ir.a :: more) s = .ok ())
    (hb : build w = .ok (f, t)) (he : a = s.address b) (hl : locateForm t a f = .ok p) (hr : routeOf t p = .home)
    (hn : p.near = false) (hq : reach t t.st.ctx p n = .ok q) (hst : SameMaps s t)
    (hu : memory s more build put = .next u) : SameMaps s u := by
  obtain ⟨hset, hk⟩ := reach_tests hq
  have hsend : ∀ r, Sent t r → settleRun s (r >>= fun x => .ok x.advance.finish) = .next u → SameMaps s u := by
    intro r hx hu
    rcases hx with rfl | ⟨x, rfl, hx⟩
    · cases hu; exact .refl s
    · cases hu; exact (hst.trans hx).trans (sameMaps_passed x)
  obtain ⟨hready, hacq, -, -⟩ := hs
  obtain ⟨-, -, -, hp, -⟩ := hf.op
  unfold memory at hu
  rw [perform_ready hready] at hu
  simp only [hacq, List.isEmpty_nil, if_true, hm, ea_of ha, ← he, hb, hl, hf.rel, hr, hn, hp, bind, Except.bind, pure,
    Except.pure, Bool.false_eq_true, if_false] at hu
  split at hu
  · exact hsend _ (accessSend_sent a hk hset) hu
  · split at hu
    · exact hsend _ (accessSend_sent a hk hset) hu
    · exact hsend _ (accessLong_sent f p a s t) hu

/-- An access that is made directly goes through L exactly when its place lies there (R187). -/
theorem routeOf_direct {t : State} {p : Place} (h : routeOf t p = .near ∨ routeOf t p = .home) :
    routeOf t p = if p.near then .near else .home := by
  cases hn : p.near with
  | false => exact h.resolve_left fun hr => Bool.false_ne_true (hn.symm.trans (routeOf_near hr))
  | true =>
    refine h.resolve_right fun hr => ?_
    simp only [routeOf, hn, if_true] at hr
    split at hr <;> cases hr

/-- A store through L is made at issue (R187, R223). -/
theorem memory_store_near {s t u w : State} {a n q : Nat} {f : MemForm} {p : Place} {b : Word} {more : List Opd}
    {build : State → Except Stop (MemForm × State)} (hs : s.Standing) (hf : PlainStore n f) (ha : s.ReadsA b w)
    (hm : whole (s.ir.a :: more) s = .ok ()) (hb : build w = .ok (f, t)) (he : a = s.address b)
    (hl : locateForm t a f = .ok p) (hr : routeOf t p = .near) (hearly : t.early p.home true = false)
    (hq : reach t t.st.ctx p n = .ok q) (hst : SameMaps s t) (hc : s.Canonical)
    (hu : memory s more build noResult = .next u) : StoreFrame s u (p.key t t.st.ctx) q n := by
  obtain ⟨hwr, hrep, htk, -, -⟩ := hf.op
  obtain ⟨x, y, hp, hb', hmarks⟩ := performFor_stores t.st.dep (hst.canonical hc) hf.stores hq
  have hnow : accessNow f p a noResult t = .ok y := by
    rw [accessNow_ok (by rw [hwr]; exact hearly) hp, hrep]; rfl
  rw [memory_now hs ha hm hb he hl (by rw [hf.rel]; exact nofun) (.inl ⟨hr, htk⟩) hnow, routeOf_near hr, if_pos rfl] at hu
  cases hu
  have hy := sameMaps_passed y
  exact ⟨fun r hr => by rw [hy.byte, hb' r hr, (hst.under _ q n).byte], (hst.marks.trans hmarks).trans hy.marks⟩

/-- A store made at issue, through L, is made at its home; any other comes later. -/
theorem memory_store_frame {s t u : State} {a n q : Nat} {p : Place} {v : Word} {F : Word → MemForm}
    (hF : ∀ v, PlainStore n (F v)) (h : s.FindsD .store n a p v t) (hd : t.Direct p true)
    (hq : reach t t.st.ctx p n = .ok q) (hc : s.Canonical) (hu : memory s [s.ir.d] (formD F) noResult = .next u) :
    (p.near = true → StoreFrame s u (p.key t t.st.ctx) q n) ∧ (p.near = false → SameMaps s u) := by
  obtain ⟨hs, ⟨b, w, ha, he, hv⟩, hal, hloc⟩ := h
  obtain ⟨hroute, hearly⟩ := hd
  have hw : whole [s.ir.a, s.ir.d] s = .ok () := whole_two ha (by rw [← src_ir ha]; exact hv)
  have hst : SameMaps s t := (sameMaps_src ha).trans (sameMaps_src hv)
  have hb : formD F w = .ok (F v, t) := by simp only [formD, hv, bind, Except.bind, pure, Except.pure]
  have hl := (hF v).locateForm hal hloc
  have hr := routeOf_direct hroute
  refine ⟨fun hn => ?_, fun hn => ?_⟩ <;> rw [hn] at hr
  · exact memory_store_near hs (hF v) ha hw hb he hl hr hearly hq hst hc hu
  · exact memory_store_sent hs (hF v) ha hw hb he hl hr hn hq hst hu

/-- The plain stores are `st`, `st4` and `st2` (R223, R224). -/
theorem exec_store {i : Instr} {n : Nat} (hi : (∃ w, i = .st w ∧ n = widthBytes w) ∨ ((i = .st4 ∨ i = .st2) ∧ n = 1)) :
    ∃ F : Word → MemForm, (∀ v, PlainStore n (F v)) ∧ ∀ s, exec i s = memory s [s.ir.d] (formD F) noResult := by
  rcases hi with ⟨w, rfl, rfl⟩ | ⟨rfl | rfl, rfl⟩
  · exact ⟨_, fun v => ⟨rfl, rfl, rfl, rfl, rfl, .inl ⟨v, rfl⟩⟩, fun s => rfl⟩
  · exact ⟨_, fun v => ⟨rfl, rfl, rfl, rfl, rfl, .inr ⟨rfl, _, _, _, rfl⟩⟩, fun s => rfl⟩
  · exact ⟨_, fun v => ⟨rfl, rfl, rfl, rfl, rfl, .inr ⟨rfl, _, _, _, rfl⟩⟩, fun s => rfl⟩

/-! Loads -/

theorem sameMaps_landLong (regs : List (RegName × Word)) (s : State) : SameMaps s (landLong regs s) := by
  unfold landLong
  dsimp only
  generalize hw : s.draw.2.modMe _ = w
  have hm : SameMaps s w := by subst hw; exact .refl s
  refine hm.trans (sameMaps_foldl ?_ regs w)
  exact fun s r => .refl s

theorem sameMaps_give (s : State) (p : Place) (lat : Nat) (v : Word) : SameMaps s (s.give p lat v) := by
  unfold State.give
  split
  · unfold State.put
    split <;> exact .refl s
  · exact sameMaps_landLong _ s

/-- The access of a plain load (R221). -/
def loadForm (w : Width) : MemForm := { kind := .load, size := widthBytes w, op := .load (widthBytes w) false }

theorem exec_load (w : Width) (s : State) : exec (.ld w) s = memory s [] (form (loadForm w)) (loadDst 3) := rfl

/-- A load changes nothing in memory (R221). -/
theorem load_sameMemory {s t u : State} {a q : Nat} {p : Place} {w : Width} (h : s.Finds .load (widthBytes w) a p t)
    (hd : t.Direct p false) (hq : reach t t.st.ctx p (widthBytes w) = .ok q) (hr : t.hear.Room)
    (hu : exec (.ld w) s = .next u) : s.SameMemory u := by
  obtain ⟨hs, ⟨b, ha, he⟩, hal, hloc⟩ := h
  obtain ⟨hroute, hearly⟩ := hd
  have hnow := accessNow_ok (put := loadDst 3) (a := a) (f := loadForm w) hearly (performFor_load hq)
  have hrep : (loadForm w).op.replies = true := rfl
  rw [hrep, if_pos rfl, loadDst_give hr] at hnow
  have hl : locateForm t a (loadForm w) = .ok p := locateForm_ok hal rfl hloc rfl nofun
  have hw : (routeOf t p = .near ∧ (loadForm w).op.takes = false) ∨ (routeOf t p = .home ∧ p.near = false ∧
      (loadForm w).op.plain = true ∧ sends (loadForm w) p = false ∧ (loadForm w).op.isSub = false) := by
    have hr := routeOf_direct hroute
    cases hn : p.near <;> rw [hn] at hr
    · exact .inr ⟨hr, rfl, rfl, rfl, rfl⟩
    · exact .inl ⟨hr, rfl⟩
  rw [exec_load, memory_now hs ha (whole_one ha) rfl he hl nofun hw hnow] at hu
  cases hu
  generalize hy : t.hear.give p 3 _ = y
  have hm : SameMaps s y := (sameMaps_src ha).trans (hy ▸ sameMaps_give t.hear p 3 _)
  refine SameMaps.sameMemory (SameMaps.trans ?_ (sameMaps_passed _))
  split <;> exact hm

/-- Settles O59: the frame of each form of completing, and the bytes that stores and loads leave alone. -/
theorem completionFrame : Obligations.CompletionFrame := by
  unfold Obligations.CompletionFrame
  refine ⟨fun s t n v h ht => completion_frame h ht, ?_, fun s key q n r h hr => under_byte h key hr, ?_,
    fun s t u a q p w h hd hq hr hu => load_sameMemory h hd hq hr hu⟩
  · intro s t u i a n q p v hi h hd hq hc hu
    obtain ⟨F, hF, he⟩ := exec_store hi
    obtain ⟨hnear, hfar⟩ := memory_store_frame hF h hd hq hc (by rw [← he]; exact hu)
    have hm : SameMarks s u := by
      cases hn : p.near with
      | true => exact (hnear hn).2
      | false => exact (hfar hn).marks
    exact ⟨fun hn => (hnear hn).1, fun hn => (hfar hn).byte, hm.read⟩
  · intro s t ctx dep p n q x v hc hq hp
    obtain ⟨y, w, hp', hf⟩ := performFor_stores dep hc (.inl ⟨v, rfl⟩) hq
    obtain ⟨-, rfl⟩ := Prod.mk.inj (Except.ok.inj (hp.symm.trans hp'))
    exact ⟨hf.1, hf.2.read⟩

end Sys2Proof.Machine
end

section
/-! What a core does beside performing instructions: selection, forced switches, spent budgets, deferred faults, waits that
end, words that cannot issue, and stealing (R33, R40, R47, R48, R138, R141 to R145, R254, R351, R354). -/

namespace Sys2Proof.Machine

/-! Selection (R138) -/

/-- Whether slot `k` takes work: it lies in the core, holds no strand, and no steal has reserved it. -/
theorem selects_iff (c : Core) (k : Nat) :
    (decide (k < c.slots.length) && !(c.slot k).live && !(c.steal.any fun x => x.slot == k)) = true ↔
      k < c.slots.length ∧ (c.slot k).live = false ∧ ∀ x, c.steal = some x → x.slot ≠ k := by
  rcases c.steal with _ | x <;> simp [and_assoc]

/-- The task at a spot of a core is queued there. -/
theorem queuedAt_nonempty {c : Core} {p : Spot} {q : Queued} (h : c.queuedAt p = some q) :
    (c.deque.isEmpty && c.ready.isEmpty) = false := by
  cases p with
  | deque i =>
    have : c.deque ≠ [] := by rintro e; simp [Core.queuedAt, e] at h
    simp [this]
  | ready i =>
    have : c.ready ≠ [] := by rintro e; simp [Core.queuedAt, e] at h
    simp [this]

/-- The task of smallest rank starts when the serial it needs is free (R129, R138). -/
theorem selectTask_start {s : State} {u k : Nat} {c : Core} {p : Spot} {q : Queued} (hp : c.pick = some p)
    (hq : c.queuedAt p = some q) (hs : q.needsSerial = false ∨ c.freeSerial ≠ none) :
    selectTask (s.setCore u c) u k = (s.setCore u (c.takeOut p)).startTask u k q := by
  have hn : (q.needsSerial && c.freeSerial.isNone) = false := by
    rcases hs with h | h
    · simp [h]
    · have hc : c.freeSerial.isNone = false := by simpa [Option.isSome_iff_ne_none] using h
      simp [hc]
  simp only [selectTask, core_setCore_self, hp, hq, hn, Bool.false_eq_true, if_false, setCore_setCore]

/-- A slot that takes no work leaves the core as it stands. -/
theorem slotSelect_closed {s : State} {u k : Nat} (h : s.ev = some (.slotSelect u k))
    (hk : ¬ (k < ((s.dropDead u).core u).slots.length ∧ (((s.dropDead u).core u).slot k).live = false ∧
      ∀ x, ((s.dropDead u).core u).steal = some x → x.slot ≠ k)) :
    exec .slotSelect s = .next (s.dropDead u) := by
  rw [← selects_iff, Bool.not_eq_true] at hk
  simp only [exec_slotSelect, execSlotSelect, h, hk, Bool.false_eq_true, if_false]

/-- A slot that takes work takes the oldest arrival, else a task (R138). -/
theorem slotSelect_open {s : State} {u k : Nat} (h : s.ev = some (.slotSelect u k))
    (hk : k < ((s.dropDead u).core u).slots.length) (hl : (((s.dropDead u).core u).slot k).live = false)
    (hs : ∀ x, ((s.dropDead u).core u).steal = some x → x.slot ≠ k) :
    let t := s.dropDead u
    let c := t.core u
    let c' := c.gotWork
    (∀ st q7 xs, c.inbound = .migrant st q7 :: xs → exec .slotSelect s = .next
      (((t.setCore u { c' with inbound := xs }).seatMigrant u k st q7).holdArrival u k)) ∧
    (∀ q xs, c.inbound = .member q :: xs → exec .slotSelect s = .next
      (((t.setCore u { c' with inbound := xs }).startTask u k q).holdArrival u k)) ∧
    (∀ st v m qs cs xs, c.inbound = .resumed st v m qs cs :: xs → exec .slotSelect s = .next
      ((seatResumed (t.setCore u { c' with inbound := xs }) u k st v m qs cs).holdArrival u k)) ∧
    (c.inbound = [] → (c.deque.isEmpty && c.ready.isEmpty) = true → exec .slotSelect s = .next t) ∧
    (c.inbound = [] → (c.deque.isEmpty && c.ready.isEmpty) = false →
      exec .slotSelect s = .next (selectTask (t.setCore u c') u k)) := by
  have hg := (selects_iff _ _).2 ⟨hk, hl, hs⟩
  refine ⟨?_, ?_, ?_, ?_, ?_⟩
  · intro st q7 xs hi
    simp only [exec_slotSelect, execSlotSelect, h, hg, if_true, hi]
  · intro q xs hi
    simp only [exec_slotSelect, execSlotSelect, h, hg, if_true, hi]
  · intro st v m qs cs xs hi
    simp only [exec_slotSelect, execSlotSelect, h, hg, if_true, hi]
  · intro hi he
    simp only [exec_slotSelect, execSlotSelect, h, hg, if_true, hi, he]
  · intro hi he
    simp only [exec_slotSelect, execSlotSelect, h, hg, if_true, hi, he, Bool.false_eq_true, if_false]

/-! Switches, budgets and deferred faults (R33, R145, R254, R351, R354) -/

theorem forcedSwitch_next {s : State} {u k : Nat} (h : s.ev = some (.forcedSwitch u k)) (hr : 256 ≤ (s.slot u k).run)
    (hm : (s.slot u k).mode = .issuing ∨ (s.slot u k).mode = .handler) :
    exec .forcedSwitch s = .next (((s.modSlot u k Slot.switchAway).count u (s.slot u k).st.ctx 0x03 1).modCore u
      fun c => c.passTurn k) := by
  have hc : (decide (256 ≤ (s.slot u k).run) && ((s.slot u k).mode == .issuing || (s.slot u k).mode == .handler)) = true := by
    simp [hr, hm]
  simp only [exec_forcedSwitch, execForcedSwitch, h, hc, if_true]

/-- A budget that is not spent, and one whose strand's trap record waits, strikes no strand (R145, R358). -/
theorem budgetExhausted_idle {s : State} {u k : Nat} (h : s.ev = some (.budgetExhausted u k))
    (hb : (s.slot u k).st.bud ≠ 0 ∨ (s.slot u k).due ≠ none) : exec .budgetExhausted s = .next s := by
  have hc : ((s.slot u k).st.bud != 0 || (s.slot u k).due.isSome) = true := by
    simpa [Option.isSome_iff_ne_none] using hb
  simp only [exec_budgetExhausted, execBudgetExhausted, h, hc, if_true]

section SpentBudget

variable {s : State} {u k : Nat} (h : s.ev = some (.budgetExhausted u k)) (hb : (s.slot u k).st.bud = 0)
  (hd : (s.slot u k).due = none)
include h hb hd

/-- A strand that could issue takes the BUDGET trap on its next instruction (R145). -/
theorem budgetExhausted_issuing (hm : (s.slot u k).mode = .issuing) (ha : (s.slot u k).answer = none)
    (hf : (s.slot u k).deferred = []) : exec .budgetExhausted s = .next
      (({ s.withdraw u k with focusU := u, focusK := k }.count u (s.slot u k).st.ctx 0x04 1).trapHere { cause := .budget }) := by
  simp [execBudgetExhausted, h, hb, hd, hm, ha, hf]

/-- One that waits takes it on the instruction it waits in, whose long load is taken back, unless that has been performed or
a deferred fault of it goes first (R145, R351). -/
theorem budgetExhausted_waiting (hm : (s.slot u k).mode = .waiting) (ha : (s.slot u k).answer = none)
    (hf : (s.slot u k).deferred = [] ∨ (s.slot u k).unissued = false) :
    ((s.slot u k).long = none → exec .budgetExhausted s = .next
      (takeTrap ((s.withdraw u k).count u (s.slot u k).st.ctx 0x04 1) u k { cause := .budget })) ∧
    (∀ w, (s.slot u k).long = some w → w.performed = false → exec .budgetExhausted s = .next
      (takeTrap (((s.withdraw u k).unload u k w).count u (s.slot u k).st.ctx 0x04 1) u k { cause := .budget })) ∧
    (∀ w, (s.slot u k).long = some w → w.performed = true → exec .budgetExhausted s = .next s) := by
  have hf' : ((s.slot u k).deferred.isEmpty || !(s.slot u k).unissued) = true := by
    rcases hf with hf | hf <;> simp [hf]
  refine ⟨fun hl => ?_, fun w hl hp => ?_, fun w hl hp => ?_⟩
  · simp [execBudgetExhausted, h, hb, hd, hm, ha, hf', hl, Slot.unserved]
  · simp [execBudgetExhausted, h, hb, hd, hm, ha, hf', hl, hp, Slot.unserved]
  · simp [execBudgetExhausted, h, hb, hd, hm, ha, hl, hp, Slot.unserved]

/-- A deferred fault of an instruction that has not issued goes first (R351). -/
theorem budgetExhausted_deferred (hf : (s.slot u k).deferred ≠ [])
    (hm : (s.slot u k).mode = .issuing ∨ (s.slot u k).unissued = true) : exec .budgetExhausted s = .next s := by
  rcases hm with hm | hm
  · simp [execBudgetExhausted, h, hb, hd, hm, hf]
  · simp [execBudgetExhausted, h, hb, hd, hm, hf]

/-- An instruction that its home has answered is no longer struck (R160). -/
theorem budgetExhausted_answered (ha : (s.slot u k).answer ≠ none) : exec .budgetExhausted s = .next s := by
  have hu : (s.slot u k).unserved = false := by simp [Slot.unserved, Option.isNone_iff_eq_none, ha]
  simp [execBudgetExhausted, h, hb, hd, hu, Option.isNone_iff_eq_none, ha]

end SpentBudget

/-- A spent HBUD ends the launch: the record's DETAIL is the cause of the outermost frame (R354). -/
theorem handlerBudgetExpiry_next {s : State} {u k : Nat} {f : Frame} (h : s.ev = some (.handlerBudgetExpiry u k))
    (hm : (s.slot u k).mode = .handler) (hd : (s.slot u k).due = none) (hb : (s.slot u k).hbud = 0)
    (hl : s.launchLive (s.slot u k).st.launch = true) (hf : (s.slot u k).frames.getLast? = some f) :
    exec .handlerBudgetExpiry s =
      .next (fatal s u k { cause := .hndBudget, detail := BitVec.ofNat 32 (f.ecause.toNat % 2 ^ 16) }) := by
  simp [execHandlerBudgetExpiry, h, hm, hd, hb, hl, hf]

section DeferredFault

variable {s : State} {u k : Nat} {d : Deferred} {ds : List Deferred} (h : s.ev = some (.deferredFault u k))
  (hf : (s.slot u k).deferred = d :: ds)
include h hf

/-- The oldest deferred fault is taken on the next instruction that issues (R254, R351). -/
theorem deferredFault_issuing
    (hm : (s.slot u k).mode = .issuing ∨ ((s.slot u k).mode = .handler ∧ (s.slot u k).blocked = false))
    (hd : (s.slot u k).due = none) (ha : (s.slot u k).answer = none) : exec .deferredFault s = .next
      ({ (s.withdraw u k).modSlot u k fun sl => { sl with deferred := ds } with focusU := u, focusK := k }.trapHere
        { cause := d.cause, flags := { deferred := true }, addr := d.addr, dseq := d.dseq, unit := d.unit }) := by
  have hr : (s.slot u k).runs = true := by
    rcases hm with hm | ⟨hm, hb⟩
    · simp [Slot.runs, hm, hd]
    · simp [Slot.runs, hm, hb, hd]
  simp [execDeferredFault, h, hf, hr, ha]

/-- A strand that waits to issue, and whose budget is spent, takes it there, ahead of the budget trap (R351). -/
theorem deferredFault_waiting (hm : (s.slot u k).mode = .waiting) (hd : (s.slot u k).due = none)
    (hb : (s.slot u k).st.bud = 0) (hu : (s.slot u k).unissued = true) : exec .deferredFault s = .next
      (takeTrap { (s.withdraw u k).modSlot u k fun sl => { sl with deferred := ds } with focusU := u, focusK := k } u k
        { cause := d.cause, flags := { deferred := true }, addr := d.addr, dseq := d.dseq, unit := d.unit }) := by
  have hr : (s.slot u k).runs = false := by simp [Slot.runs, hm]
  simp [execDeferredFault, h, hf, hr, hm, hd, hb, hu]

/-- It strikes no strand that its home has answered, whose trap's record waits, or that waits in a handler. -/
theorem deferredFault_idle (hi : (s.slot u k).answer ≠ none ∨ (s.slot u k).due ≠ none ∨
    ((s.slot u k).mode = .handler ∧ (s.slot u k).blocked = true)) : exec .deferredFault s = .next s := by
  rcases hi with ha | hd | ⟨hm, hb⟩
  · have hn : (s.slot u k).answer.isNone = false := by simpa [Option.isSome_iff_ne_none] using ha
    simp [execDeferredFault, h, hf, hn, Slot.unissued]
  · have hn : (s.slot u k).due.isNone = false := by simpa [Option.isSome_iff_ne_none] using hd
    simp [execDeferredFault, h, hf, hn, Slot.runs]
  · simp [execDeferredFault, h, hf, hm, hb, Slot.runs]

end DeferredFault

/-! The start of a slot's cycle, and waits that end (R145, R187, R193) -/

/-- A core once the results of a slot have landed and the record that waited there is appended: what the slot's cycle begins
from (R29, R358). -/
def State.opened (s : State) (u k : Nat) : State := settleOwed (s.modCore u fun c => c.land k) u k

section BeginSlot

variable {s : State} {u k : Nat} (hl : ((s.opened u k).slot u k).live = true) (hd : ((s.opened u k).slot u k).due = none)
  (hk : (s.opened u k).launchKilled ((s.opened u k).slot u k).st.launch = false)
include hl hd hk

/-- A waiting strand with a deferred fault and a spent budget takes the fault (R351). -/
theorem beginSlot_deferred {d : Deferred} {ds : List Deferred} (hf : ((s.opened u k).slot u k).deferred = d :: ds)
    (hm : ((s.opened u k).slot u k).mode = .waiting) (hb : ((s.opened u k).slot u k).st.bud = 0)
    (hu : ((s.opened u k).slot u k).unissued = true) :
    beginSlot exec u k s = exec .deferredFault { s.opened u k with ev := some (.deferredFault u k) } := by
  have hs : ((s.opened u k).slot u k).unserved = true := by
    simp only [Slot.unissued, Bool.and_eq_true] at hu
    obtain ⟨⟨hlong, -⟩, hanswer⟩ := hu
    simp [Slot.unserved, hanswer, Option.isNone_iff_eq_none.1 hlong]
  simp only [State.opened] at *
  simp [beginSlot, hl, hd, hk, hf, hm, hb, hu, hs]

/-- A strand that waits for a long access, with budget left and no switch due, looks for its end (R133, R187). -/
theorem beginSlot_long {w : LongWait} {x : LongAccess} (hw : ((s.opened u k).slot u k).waits = true)
    (hg : ((s.opened u k).slot u k).long = some w) (hx : w.access = some x)
    (hb : ((s.opened u k).slot u k).mode = .waiting → ((s.opened u k).slot u k).st.bud ≠ 0)
    (hh : ((s.opened u k).slot u k).mode = .handler → ((s.opened u k).slot u k).hbud ≠ 0)
    (hr : ((s.opened u k).slot u k).run < 256) : beginSlot exec u k s = .next (longCome u k w x (s.opened u k)) := by
  have h1 : (((s.opened u k).slot u k).mode == .waiting && ((s.opened u k).slot u k).st.bud == 0) = false := by simpa using hb
  have h2 : (((s.opened u k).slot u k).mode == .handler && ((s.opened u k).slot u k).hbud == 0) = false := by simpa using hh
  simp only [State.opened] at *
  simp only [beginSlot, hl, hd, hk, hw, hg, hx, h1, h2, Nat.not_le.2 hr, Bool.not_true, Bool.false_and, Option.isSome_none,
    Option.isSome_some, Bool.and_self, Bool.false_eq_true, if_false, if_true, Option.bind_some, Option.map_some]

end BeginSlot

/-- Until its time has come a strand goes on waiting for its access (R187). -/
theorem longCome_early {s : State} {u k : Nat} {w : LongWait} {x : LongAccess} {op : MemOp} {regs : List RegName}
    (ho : x.op = .mem op regs) (ha : (s.slot u k).answer = none) (hr : (s.core u).cyc < (s.slot u k).readyAt) :
    longCome u k w x s = s := by
  simp [longCome, ho, ha, hr]

section LongCome

variable {s : State} {u k : Nat} {w : LongWait} {x : LongAccess} {op : MemOp} {regs : List RegName}
  (ho : x.op = .mem op regs) (ha : (s.slot u k).answer = none) (hq : (s.slot u k).asked = false)
include ho ha hq

/-- Then its home performs the access in the step that ends the wait, or refuses it (R145, R187, R201). -/
theorem longCome_due (hr : (s.slot u k).readyAt ≤ (s.core u).cyc) (ht : regs.all (s.core u).takes = true)
    (hm : mustWait s x.place op = false) :
    (∀ v t, performFor s (s.slot u k).st.ctx (s.slot u k).st.dep x.place op = .ok (v, t) →
      longCome u k w x s = (if op.replies then t.longHear u k else t).longDone u k regs v) ∧
    (∀ c, performFor s (s.slot u k).st.ctx (s.slot u k).st.dep x.place op = .error c → op.replies = true ∨ c ≠ .memPoison →
      longCome u k w x s = s.longFault u k w x.place.home c x.addr) := by
  have hg : ((s.slot u k).asked || decide ((s.core u).cyc < (s.slot u k).readyAt) || !regs.all (s.core u).takes) = false := by
    rw [hq, ht, decide_eq_false (Nat.not_lt.2 hr)]; rfl
  constructor
  · intro v t hp
    simp only [longCome, ho, ha, hg, hm, hp, Bool.false_eq_true, if_false]
  · intro c hp hc
    have hn : (!op.replies && c == .memPoison) = false := by rcases hc with hc | hc <;> simp [hc]
    simp only [longCome, ho, ha, hg, hm, hp, hn, Bool.false_eq_true, if_false]

end LongCome

/-! Words that cannot issue (R40, R47, R48) -/

theorem fetchFault_next {s : State} {c : FetchCause} {b : Word} (h : s.me.live = true) (he : s.ev = some (.fetchFault c b)) :
    exec .fetchFault s = .next (s.trapHere { cause := fetchFaultCause c, flags := { fetch := true }, addr := b }) := by
  simp only [exec_fetchFault, execFetchFault, he, h, if_true]

/-- The trap of a word that is no instruction names the cause of its refusal. -/
theorem illegalInstruction_next {s : State} {w : Illegal} (h : s.me.live = true) (he : s.ev = some (.illegalInstruction w)) :
    exec .illegalInstruction s = .next (s.trapHere (match w with
      | .opc => { cause := .illOpc }
      | .prof => { cause := .illProf }
      | .form d => { cause := .illForm, addr := BitVec.ofNat 64 d })) := by
  cases w <;> simp only [exec_illegalInstruction, execIllegalInstruction, he, h, if_true]

/-! Stealing (R141 to R144) -/

/-- An idle core reserves its first EMPTY slot and asks a victim (R141). -/
theorem stealAttempt_next {s : State} {u v k : Nat} (h : s.ev = some (.stealAttempt u v)) (hu : isCompute u = true)
    (hk : ((s.dropDead u).core u).emptySlot = some k) (hi : ((s.dropDead u).core u).inbound = [])
    (hd : ((s.dropDead u).core u).deque = []) (hr : ((s.dropDead u).core u).ready = [])
    (hs : ((s.dropDead u).core u).steal = none) (hb : ((s.dropDead u).core u).backoff = none)
    (hv : victimOk (s.dropDead u) u v = true) :
    exec .stealAttempt s = .next (((s.dropDead u).setCore u { (s.dropDead u).core u with
      steal := some ⟨v, ((s.dropDead u).core u).cyc, k⟩ }).post u v ((s.dropDead u).sender u k) [] none (.stealRequest k)) := by
  simp only [exec_stealAttempt, execStealAttempt, h, hk, hu, hi, hd, hr, hs, hb, hv, List.isEmpty_nil, Option.isNone_none,
    Bool.and_self, if_true]

/-- Whether an attempt at the sender of a message still runs. -/
theorem steal_any_iff (c : Core) (v : Nat) :
    (c.steal.any fun x => x.victim == v) = true ↔ ∃ x, c.steal = some x ∧ x.victim = v := by
  rcases c.steal with _ | x <;> simp

section Arrival

variable {s : State} {i : Nat} {m : Msg} (hm : s.arriving i = some m)
include hm

/-- A victim with nothing to give refuses (R144). -/
theorem stealRequest_refused {k : Nat} (h : s.ev = some (.stealRequestAtVictim i)) (hb : m.body = .stealRequest k)
    (ho : offer s m.dst m.src = none) : exec .stealRequestAtVictim s =
      .next ((s.unpost i).post m.dst m.src m.sender [] none (.stealGrant none)) := by
  simp only [exec_stealRequestAtVictim, execStealRequestAtVictim, h, hm, hb, ho]

/-- A victim hands over the entry it offers (R141, R144). -/
theorem stealRequest_granted {k : Nat} {p : Spot} {q : Queued} (h : s.ev = some (.stealRequestAtVictim i))
    (hb : m.body = .stealRequest k) (ho : offer s m.dst m.src = some p) (hq : (s.core m.dst).queuedAt p = some q) :
    exec .stealRequestAtVictim s = .next (((s.unpost i).modCore m.dst fun c => c.takeOut p).post m.dst m.src m.sender q.dep
      none (.stealGrant (some q))) := by
  simp only [exec_stealRequestAtVictim, execStealRequestAtVictim, h, hm, hb, ho, hq]

/-- A refusal ends the attempt it answers, and no other (R144). -/
theorem stealGrant_refused (h : s.ev = some (.stealGrantArrival i)) (hb : m.body = .stealGrant none) :
    exec .stealGrantArrival s = .next (if (s.core m.dst).steal.any fun x => x.victim == m.src then
      stealFailed (s.unpost i) m.dst else s.unpost i) := by
  simp only [exec_stealGrantArrival, execStealGrantArrival, h, hm, hb]
  split <;> rfl

/-- A grant enters the thief's ready set and ends its attempt (R144). -/
theorem stealGrant_taken {q : Queued} (h : s.ev = some (.stealGrantArrival i)) (hb : m.body = .stealGrant (some q))
    (hl : s.launchLive q.launch = true) (hr : (s.core m.dst).hasRoom = true)
    (hn : ((s.core m.dst).steal.any fun x => x.victim == m.src) = true) : exec .stealGrantArrival s = .next
      (((s.unpost i).learnFrom m.src m.dst m.dep).modCore m.dst (fun c => { c.gotWork.pushReady q with steal := none })
        |>.count m.dst q.ctx 0x05 1) := by
  simp only [exec_stealGrantArrival, execStealGrantArrival, h, hm, hb, hl, hr, hn, Bool.not_true, Bool.false_eq_true, if_false,
    if_true]

/-- With no room in the ready set the grant waits (R137). -/
theorem stealGrant_full {q : Queued} (h : s.ev = some (.stealGrantArrival i)) (hb : m.body = .stealGrant (some q))
    (hl : s.launchLive q.launch = true) (hr : (s.core m.dst).hasRoom = false) : exec .stealGrantArrival s = .next s := by
  simp only [exec_stealGrantArrival, execStealGrantArrival, h, hm, hb, hl, hr, Bool.not_true, Bool.false_eq_true, if_false]

end Arrival

theorem stealable_iff (s : State) (victim thief : Nat) (q : Queued) : stealable s victim thief q = true ↔
    (q.origin = .fork ∨ q.origin = .join) ∧ q.requeued = false ∧ s.launchLive q.launch = true ∧
      inDomain (s.domain q.launch) victim thief = true ∧ s.owner thief = some q.ctx := by
  simp [stealable, and_assoc]

/-- An attempt ends 400 cycles after its request (R144). -/
theorem stealTimeout_next {s : State} {u : Nat} {x : Steal} (h : s.ev = some (.stealTimeout u)) (hx : (s.core u).steal = some x) :
    exec .stealTimeout s = .next (if x.sentAt + 400 ≤ (s.core u).cyc then stealFailed s u else s) := by
  simp only [exec_stealTimeout, execStealTimeout, h, hx]
  split <;> rfl

/-- A thief tries again 4,096 cycles after its 64th failure (R142). -/
theorem stealBackoffExpiry_next {s : State} {u n : Nat} (h : s.ev = some (.stealBackoffExpiry u))
    (hn : (s.core u).backoff = some n) :
    exec .stealBackoffExpiry s = .next (if n + 4096 ≤ (s.core u).cyc then s.modCore u Core.gotWork else s) := by
  simp only [exec_stealBackoffExpiry, execStealBackoffExpiry, h, hn]
  split <;> rfl

/-- Settles O49: selection, switches, budgets, deferred faults, waits, words that cannot issue, and stealing in turn. -/
theorem coreSteps : Obligations.CoreSteps := by
  unfold Obligations.CoreSteps
  refine ⟨⟨?_, ?_, ?_, ?_, ?_⟩, ?_, ?_, stealable_iff, ?_, ?_⟩
  · intro s u k h
    refine ⟨fun hk hl hs => ?_, fun hc => slotSelect_closed h ?_⟩
    · obtain ⟨hmig, hmem, hres, hidle, htask⟩ := slotSelect_open h hk hl hs
      refine ⟨hmig, hmem, hres, fun hi hd hr => hidle hi (by rw [hd, hr]; rfl), fun p q hi hp hq hn => ?_⟩
      rw [htask hi (queuedAt_nonempty (c := ((s.dropDead u).core u).gotWork) hq)]
      exact congrArg _ (selectTask_start hp hq hn)
    · rintro ⟨hk, hl, hs⟩
      rcases hc with hc | hc | ⟨x, hx, hc⟩
      · exact absurd hk (Nat.not_lt.2 hc)
      · exact Bool.false_ne_true (hl.symm.trans hc)
      · exact hs x hx hc
  · intro s u k
    refine ⟨fun h hr hm => forcedSwitch_next h hr hm, fun h hb hd => ⟨?_, ?_, ?_, ?_⟩, fun h hb => budgetExhausted_idle h hb,
      fun f h hm hd hb hl hf => handlerBudgetExpiry_next h hm hd hb hl hf, fun d ds h hf => ⟨?_, ?_, ?_⟩⟩
    · exact fun hm ha hf => budgetExhausted_issuing h hb hd hm ha hf
    · exact fun hf hm => budgetExhausted_deferred h hb hd hf hm
    · exact fun hm ha hf => budgetExhausted_waiting h hb hd hm ha hf
    · exact fun ha => budgetExhausted_answered h hb hd ha
    · exact fun hm hd ha => deferredFault_issuing h hf hm hd ha
    · exact fun hm hd hb hu => deferredFault_waiting h hf hm hd hb hu
    · exact fun hi => deferredFault_idle h hf hi
  · intro s u k t sl hl hd hk
    exact ⟨fun d ds hf hm hb hu => beginSlot_deferred hl hd hk hf hm hb hu,
      fun w x hw hg hx hb hh hr => beginSlot_long hl hd hk hw hg hx hb hh hr⟩
  · intro s u k w x op regs sl ho ha hq
    exact ⟨fun hr => longCome_early ho ha hr, fun hr ht hm => longCome_due ho ha hq hr ht hm⟩
  · intro s h
    refine ⟨fun c b he => fetchFault_next h he, fun w he => ?_⟩
    cases w <;> exact illegalInstruction_next h he
  · intro s u v k h t c hu hk hi hd hr hs hb hv
    exact stealAttempt_next h hu hk hi hd hr hs hb hv
  · intro s i m hm
    refine ⟨fun k h hb => ⟨fun ho => stealRequest_refused hm h hb ho, fun p q ho hq => stealRequest_granted hm h hb ho hq⟩,
      fun h hb => ⟨fun hn => ?_, fun hn => ?_⟩, fun q h hb hl => ⟨fun hr hn => ?_, fun hr => stealGrant_full hm h hb hl hr⟩⟩
    · rw [stealGrant_refused hm h hb, if_pos ((steal_any_iff _ _).2 hn)]; rfl
    · rw [stealGrant_refused hm h hb, if_neg (fun c => hn ((steal_any_iff _ _).1 c))]
    · exact stealGrant_taken hm h hb hl hr ((steal_any_iff _ _).2 hn)
  · intro s u x h hx
    refine ⟨fun hc => ?_, fun hc => ?_⟩
    · rw [stealTimeout_next h hx, if_neg (Nat.not_le.2 hc)]
    · rw [stealTimeout_next h hx, if_pos hc]; rfl
  · intro s u n h hn
    refine ⟨fun hc => ?_, fun hc => ?_⟩
    · rw [stealBackoffExpiry_next h hn, if_neg (Nat.not_le.2 hc)]
    · rw [stealBackoffExpiry_next h hn, if_pos hc]; rfl

end Sys2Proof.Machine
end

section
/-! Words and instructions (R39 to R50): the opcode map, the fields of a word, and the decoder and the encoder as each other's
inverse; and words that the manual works out bit by bit. -/

namespace Sys2Proof

/-! The opcode map (R49, R50) -/

/-- The instruction that a row makes has the row's code, whatever its operands are. -/
def Row.Names (r : Row) : Prop := ∀ o, (r.make o).opc = some r.code

/-- The parts of a word that a row uses are those of its class (R41, R90): class 01 has no A and no B, class 10 no B; only
class 10 has a scope, and only class 01 an immediate of 16 bits. -/
def Row.fitsClass (r : Row) : Bool :=
  (r.cls != .long || (r.a == .no && r.b == .no)) && (r.cls != .memory || r.b == .no) &&
    (r.flag != .scope || r.cls == .memory) && (r.flag != .imm16 || r.cls == .long)

theorem movReg_opc (o : Operands) : (movReg o).opc = some 0x03C := by
  unfold movReg
  split
  · repeat' split
    all_goals rfl
  · rfl

theorem groupRows_names (g : Nat) : (groupRows g).Forall Row.Names := by
  unfold groupRows
  split
  all_goals simp only [group0, group0Rows0, group0Rows1, group0Rows2, group0Rows3, group1, group1Rows0, group1Rows1,
    group1Rows2, group2, group2Rows0, group3, group3Rows0, group3Rows1, group4, group4Rows0, group5, group5Rows0,
    group5Rows1, group5Rows2, group6, group6Rows0, group7, group7Rows0, group8, group8Rows0, group8Rows1, group9,
    group9Rows0, group10, group10Rows0, group11, group11Rows0, group12, group12Rows0, group13, group13Rows0, group14,
    group14Rows0, group15, group15Rows0, List.cons_append, List.nil_append, List.Forall]
  all_goals repeat' apply And.intro
  any_goals exact fun _ => rfl
  exact movReg_opc

theorem groupRows_fit : ∀ g < 16, (groupRows g).all Row.fitsClass = true := by decide

theorem groupRows_beyond {g : Nat} (h : 16 ≤ g) : groupRows g = [] := by
  obtain ⟨n, rfl⟩ := Nat.exists_eq_add_of_le' h
  rfl

theorem findRow_some {c : Nat} {r : Row} : ∀ {rs : List Row}, findRow c rs = some r → r ∈ rs ∧ r.code = c
  | q :: rs, h => by
    unfold findRow at h
    split at h
    · cases h
      exact ⟨List.mem_cons_self, ‹_›⟩
    · exact (findRow_some h).imp_left (List.mem_cons_of_mem q)

section OpRow
variable {c : Nat} {r : Row} (h : opRow c = some r)
include h

theorem opRow_lt : c < 2 ^ 10 := by
  by_contra hc
  have hm := (findRow_some h).1
  rw [groupRows_beyond (by omega)] at hm
  cases hm

/-- The row of a code makes instructions of that code. -/
theorem opRow_make_opc (o : Operands) : (r.make o).opc = some c := by
  obtain ⟨hm, hc⟩ := findRow_some h
  rw [← hc]
  exact List.forall_iff_forall_mem.1 (groupRows_names _) r hm o

theorem opRow_fits : r.fitsClass = true :=
  List.all_eq_true.1 (groupRows_fit _ (by have := opRow_lt h; omega)) r (findRow_some h).1

end OpRow

section FitsClass
variable {r : Row} (h : r.fitsClass = true)
include h

theorem Row.fitsClass.long (hc : r.cls = .long) : r.a = .no ∧ r.b = .no ∧ r.flag ≠ .scope := by
  simp [fitsClass, hc] at h
  obtain ⟨⟨ha, hb⟩, hs⟩ := h
  exact ⟨ha, hb, hs⟩

theorem Row.fitsClass.memory (hc : r.cls = .memory) : r.b = .no ∧ r.flag ≠ .imm16 := by
  simp [fitsClass, hc] at h
  exact h

theorem Row.fitsClass.register (hl : r.cls ≠ .long) (hm : r.cls ≠ .memory) : r.flag ≠ .scope ∧ r.flag ≠ .imm16 := by
  simp [fitsClass, hl, hm] at h
  exact h

end FitsClass

/-! The bits of a word (R39) -/

/-- Two neighbouring fields of a number put together. -/
theorem digit_add_rest (w : Nat) {m n k : Nat} (h : m * n = k) : w / m % n * m + w % m = w % k := by
  rw [← h, Nat.mod_mul, Nat.mul_comm, Nat.add_comm]

theorem bit_toNat (n : Nat) : (n % 2 == 1).toNat = n % 2 := by
  rcases Nat.mod_two_eq_zero_or_one n with h | h <;> simp [h]

theorem toNat_bit {b : Bool} {n : Nat} (h : n = b.toNat) : (n == 1) = b := by
  subst h
  cases b <;> rfl

/-- Every field fits its bits. -/
structure Fields.InRange (f : Fields) : Prop where
  opc  : f.opc < 2 ^ 10
  gidx : f.gidx < 8
  gap  : f.gap < 8
  res  : f.res < 4
  d    : f.d < 2 ^ 24
  a    : f.a < 2 ^ 24
  b    : f.b < 2 ^ 24
  cls  : f.cls < 4

theorem Fields.ofWord_inRange (w : Nat) : (Fields.ofWord w).InRange := by
  constructor <;> exact Nat.mod_lt _ (by norm_num)

theorem Fields.word_ofWord {w : Nat} (h : w < 2 ^ 96) : (Fields.ofWord w).word = w := by
  simp only [Fields.word, Fields.ofWord, bit_toNat, Nat.add_assoc]
  rw [show w % 4 = w % 2 ^ 2 from rfl, digit_add_rest w (k := 2 ^ 26) (by norm_num),
    digit_add_rest w (k := 2 ^ 50) (by norm_num), digit_add_rest w (k := 2 ^ 74) (by norm_num),
    digit_add_rest w (k := 2 ^ 76) (by norm_num), digit_add_rest w (k := 2 ^ 77) (by norm_num),
    digit_add_rest w (k := 2 ^ 78) (by norm_num), digit_add_rest w (k := 2 ^ 79) (by norm_num),
    digit_add_rest w (k := 2 ^ 82) (by norm_num), digit_add_rest w (k := 2 ^ 85) (by norm_num),
    digit_add_rest w (k := 2 ^ 86) (by norm_num), digit_add_rest w (k := 2 ^ 96) (by norm_num), Nat.mod_eq_of_lt h]

theorem Fields.word_lt {f : Fields} (h : f.InRange) : f.word < 2 ^ 96 := by
  obtain ⟨hopc, hgidx, hgap, hres, hd, ha, hb, hcls⟩ := h
  have := Bool.toNat_le f.gsns
  have := Bool.toNat_le f.sw
  have := Bool.toNat_le f.tkn
  have := Bool.toNat_le f.stay
  simp only [Fields.word]
  omega

theorem Fields.ofWord_word {f : Fields} (h : f.InRange) : Fields.ofWord f.word = f := by
  obtain ⟨opc, gsns, gidx, gap, sw, tkn, stay, res, d, a, b, cls⟩ := f
  obtain ⟨hopc, hgidx, hgap, hres, hd, ha, hb, hcls⟩ := h
  have := Bool.toNat_le gsns
  have := Bool.toNat_le sw
  have := Bool.toNat_le tkn
  have := Bool.toNat_le stay
  simp only [Fields.word, Fields.ofWord, Fields.mk.injEq] at *
  refine ⟨?_, toNat_bit ?_, ?_, ?_, toNat_bit ?_, toNat_bit ?_, toNat_bit ?_, ?_, ?_, ?_, ?_, ?_⟩ <;> omega

theorem leNat_leBytes : ∀ n w : Nat, w < 256 ^ n → leNat (leBytes n w) = w
  | 0, w, h => by simp [leBytes, leNat] at *; omega
  | n + 1, w, h => by
    rw [leBytes, leNat, leNat_leBytes n (w / 256) (by rw [Nat.pow_succ] at h; omega), BitVec.toNat_ofNat]
    omega

/-! Operand fields (R42) -/

theorem Opd.field_lt (o : Opd) : o.field < 2 ^ 24 := by
  cases o <;> simp only [Opd.field] <;> omega

theorem below_lt {n p : Nat} {f : Fin n → Opd} (i : Fin n) (h : p = i.val) : below n p f = some (f i) := by
  subst h
  simp [below]

theorem below_some {n p : Nat} {f : Fin n → Opd} {o : Opd} (h : below n p f = some o) : ∃ i : Fin n, i.val = p ∧ o = f i := by
  unfold below at h
  split at h
  · exact ⟨⟨p, ‹_›⟩, rfl, (Option.some.inj h).symm⟩
  · cases h

/-- The decoder reads a field by its kind and payload. -/
theorem Opd.ofField_kind {f : Nat} (k p : Nat) (hf : f = k * 2 ^ 21 + p) (hp : p < 2 ^ 21) : Opd.ofField f = Opd.ofKind p k := by
  rw [Opd.ofField, show f % 2 ^ 21 = p by omega, show f / 2 ^ 21 = k by omega]

theorem Opd.ofField_field (o : Opd) : Opd.ofField o.field = some o := by
  cases o with
  | x i => rw [field, ofField_kind 0 i (by omega) (by omega)]; exact below_lt i rfl
  | o i => rw [field, ofField_kind 1 i (by omega) (by omega)]; exact below_lt i rfl
  | z i => rw [field, ofField_kind 2 i rfl (by omega)]; exact below_lt i rfl
  | imm c => rw [field, ofField_kind 3 c.toNat rfl c.isLt, ofKind, BitVec.ofNat_toNat, BitVec.setWidth_eq]
  | q i => rw [field, ofField_kind 4 i rfl (by omega)]; exact below_lt i rfl
  | v i => rw [field, ofField_kind 5 i rfl (by omega), ofKind, if_pos (by omega)]; exact below_lt i rfl
  | m i =>
    rw [field, ofField_kind 5 (2 ^ 19 + i) (Nat.add_assoc ..) (by omega), ofKind, if_neg (by omega), if_pos (by omega)]
    exact below_lt i (by omega)
  | t i =>
    rw [field, ofField_kind 5 (2 * 2 ^ 19 + i) (Nat.add_assoc ..) (by omega), ofKind, if_neg (by omega), if_neg (by omega),
      if_pos (by omega)]
    exact below_lt i (by omega)
  | sr n => rw [field, ofField_kind 6 n rfl (by omega)]; exact below_lt n rfl
  | b i => rw [field, ofField_kind 7 i rfl (by omega), ofKind, if_pos (by omega)]; exact below_lt i rfl
  | g i =>
    rw [field, ofField_kind 7 (8 + i) (Nat.add_assoc ..) (by omega), ofKind, if_neg (by omega)]
    exact below_lt i (by omega)

/-- A payload that names an operand of a kind is that operand's, in that kind's field. -/
theorem Opd.field_ofKind {p k : Nat} {o : Opd} (hp : p < 2 ^ 21) (h : Opd.ofKind p k = some o) : o.field = k * 2 ^ 21 + p := by
  unfold ofKind at h
  split at h
  case h_4 =>
    cases h
    simp only [field, BitVec.toNat_ofNat]
    omega
  case h_6 =>
    split_ifs at h
    all_goals obtain ⟨i, hi, rfl⟩ := below_some h
    all_goals simp only [field]; omega
  case h_8 =>
    split_ifs at h
    all_goals obtain ⟨i, hi, rfl⟩ := below_some h
    all_goals simp only [field]; omega
  case h_9 => cases h
  all_goals
    obtain ⟨i, hi, rfl⟩ := below_some h
    simp only [field]
    omega

theorem Opd.field_of_ofField {f : Nat} {o : Opd} (h : Opd.ofField f = some o) : o.field = f := by
  rw [field_ofKind (Nat.mod_lt _ (by norm_num)) h]
  omega

theorem readField_some {stay : Bool} {d o : Opd} {k : KSet} {f : Nat} (h : readField stay d k f = some o) :
    o.field = f ∧ k.ok stay d o = true := by
  unfold readField at h
  split at h
  · split at h
    · cases h
      exact ⟨Opd.field_of_ofField ‹_›, ‹_›⟩
    · cases h
  · cases h

theorem readField_field {stay : Bool} {d o : Opd} {k : KSet} (h : k.ok stay d o = true) :
    readField stay d k o.field = some o := by
  simp [readField, Opd.ofField_field, h]

/-- A field without a name, or whose operand its kind set does not allow, is malformed (R47). -/
theorem readField_none {stay : Bool} {d : Opd} {k : KSet} {f : Nat}
    (h : ∀ o, Opd.ofField f = some o → k.ok stay d o = false) : readField stay d k f = none := by
  unfold readField
  split
  · simp [h _ ‹_›]
  · rfl

theorem readField_ok {stay : Bool} {d o : Opd} {k : KSet} {f : Nat} (ho : Opd.ofField f = some o)
    (h : k.ok stay d o = true) : readField stay d k f = some o := by
  simp [readField, ho, h]

theorem KSet.no_ok {stay : Bool} {d o : Opd} : KSet.no.ok stay d o = true ↔ o = .x 0 := by
  simp [KSet.ok]

theorem Scope.ofCode_code (c : Scope) : Scope.ofCode c.code = some c := by cases c <;> rfl

theorem Scope.code_lt (c : Scope) : c.code < 5 := by cases c <;> decide

theorem Scope.code_of_ofCode {n : Nat} {c : Scope} (h : Scope.ofCode n = some c) : c.code = n := by
  unfold ofCode at h
  split at h <;> cases h <;> rfl

theorem Scope.ofCode_none {n : Nat} (h : 5 ≤ n) : Scope.ofCode n = none := by
  obtain ⟨m, rfl⟩ := Nat.exists_eq_add_of_le' h
  rfl

/-! A row's reading of a word's fields, and the fields that an instruction's word has (R41, R47) -/

section ReadAB
variable {r : Row} {f : Fields} {d a : Opd} {o : Operands}

theorem Row.readAB_long (hc : r.cls = .long) : r.readAB f d = .ok o ↔
    (r.flag = .imm16 → f.a = 0 ∧ f.b < 2 ^ 16) ∧ o = { hd := f.hdr, d := d, imm := BitVec.ofNat 48 (f.a * 2 ^ 24 + f.b) } := by
  have hb : f.b / 2 ^ 16 = 0 ↔ f.b < 2 ^ 16 := by omega
  simp only [readAB, hc, Bool.and_eq_true, beq_iff_eq, bne_iff_ne, ne_eq, hb]
  split_ifs with h4 h5
  · simp only [false_iff]
    rintro ⟨h, -⟩
    exact h4.2 (h h4.1).1
  · simp only [false_iff]
    rintro ⟨h, -⟩
    exact h5.2 (h h5.1).2
  · refine ⟨fun h => ⟨fun hf => ⟨?_, ?_⟩, (Except.ok.inj h).symm⟩, fun h => congrArg _ h.2.symm⟩
    · by_contra ha
      exact h4 ⟨hf, ha⟩
    · by_contra hb
      exact h5 ⟨hf, hb⟩

theorem Row.readAB_memory (hc : r.cls = .memory) : r.readAB f d = .ok o ↔
    ∃ a sc, readField f.stay d r.a f.a = some a ∧ Scope.ofCode (f.b / 2 ^ 21) = some sc ∧ (r.flag = .scope ∨ sc = .core) ∧
      o = { hd := f.hdr, d := d, a := a, sc := sc, off := BitVec.ofNat 21 (f.b % 2 ^ 21) } := by
  simp only [readAB, hc]
  cases readField f.stay d r.a f.a with
  | none => simp
  | some a =>
    cases Scope.ofCode (f.b / 2 ^ 21) with
    | none => simp
    | some sc =>
      refine ⟨fun h => ?_, ?_⟩
      · dsimp only at h
        split_ifs at h with hk
        exact ⟨a, sc, rfl, rfl, by simpa using hk, (Except.ok.inj h).symm⟩
      · rintro ⟨_, _, ⟨⟩, ⟨⟩, hk, rfl⟩
        exact if_pos (by simpa using hk)

theorem Row.readAB_register (hl : r.cls ≠ .long) (hm : r.cls ≠ .memory) : r.readAB f d = .ok o ↔
    ∃ a b, readField f.stay d r.a f.a = some a ∧ readField f.stay d r.b f.b = some b ∧
      o = { hd := f.hdr, d := d, a := a, b := b } := by
  unfold readAB
  cases hr : r.cls
  case long => exact absurd hr hl
  case memory => exact absurd hr hm
  all_goals
    cases readField f.stay d r.a f.a with
    | none => simp
    | some a => cases readField f.stay d r.b f.b <;> simp [eq_comm]

/-- In class 01 a field A that must be zero is malformed when it is not, and then IMM48 of 2^16 or more (R90). -/
theorem Row.readAB_imm16 (hc : r.cls = .long) (hf : r.flag = .imm16) :
    (f.a ≠ 0 → r.readAB f d = .error 4) ∧ (f.a = 0 → 2 ^ 16 ≤ f.b → r.readAB f d = .error 5) := by
  simp only [readAB, hc, hf]
  refine ⟨fun h => by simp [h], fun ha hb => ?_⟩
  simp [ha]
  omega

/-- Every class but 01 reads A first. -/
theorem Row.readAB_badA (hc : r.cls ≠ .long) (h : readField f.stay d r.a f.a = none) : r.readAB f d = .error 4 := by
  unfold readAB
  rw [h]
  cases hr : r.cls
  case long => exact absurd hr hc
  all_goals rfl

/-- A scope code of no scope, or a scope where the row has none, is malformed (R41). -/
theorem Row.readAB_badScope (hc : r.cls = .memory) (ha : readField f.stay d r.a f.a = some a)
    (h : 5 ≤ f.b / 2 ^ 21 ∨ (r.flag ≠ .scope ∧ f.b / 2 ^ 21 ≠ 0)) : r.readAB f d = .error 5 := by
  simp only [readAB, hc, ha]
  cases hs : Scope.ofCode (f.b / 2 ^ 21) with
  | none => rfl
  | some sc =>
    have hn := Scope.code_of_ofCode hs
    have hlt := Scope.code_lt sc
    obtain ⟨hf, h0⟩ := h.resolve_left (by omega)
    have : sc ≠ .core := by rintro rfl; exact h0 hn.symm
    simp [hf, this]

theorem Row.readAB_badB (hl : r.cls ≠ .long) (hm : r.cls ≠ .memory) (ha : readField f.stay d r.a f.a = some a)
    (h : readField f.stay d r.b f.b = none) : r.readAB f d = .error 5 := by
  unfold readAB
  rw [ha, h]
  cases hr : r.cls
  case long => exact absurd hr hl
  case memory => exact absurd hr hm
  all_goals rfl

end ReadAB

section Read
variable {r : Row} {f : Fields} {d : Opd} {o : Operands}

theorem Row.read_badCls (h : f.cls ≠ r.cls.code) : r.read f = .error 1 := by simp [read, h]

theorem Row.read_badHints (hc : f.cls = r.cls.code) (h : f.res ≠ 0 ∨ r.hintsOk f.hdr = false) : r.read f = .error 2 := by
  simp [read, hc, h]

/-- A word of its row's class with hints that the row allows comes to its fields. -/
theorem Row.read_fields (hc : f.cls = r.cls.code) (hr : f.res = 0) (hh : r.hintsOk f.hdr = true) :
    (Opd.ofField f.d = none → r.read f = .error 3) ∧
    (∀ d, Opd.ofField f.d = some d → (r.d.ok f.stay d d = false → r.read f = .error 3) ∧
      (r.d.ok f.stay d d = true → r.read f = r.readAB f d)) := by
  simp only [read, hc, hr, hh, ne_eq, not_true_eq_false, if_false, decide_false, Bool.not_true, Bool.or_false,
    Bool.false_eq_true]
  refine ⟨fun h => by rw [h], fun d hd => ⟨fun hk => ?_, fun hk => ?_⟩⟩ <;> rw [hd] <;> simp [hk]

theorem Row.read_ok : r.read f = .ok o ↔ f.cls = r.cls.code ∧ f.res = 0 ∧ r.hintsOk f.hdr = true ∧
    ∃ d, Opd.ofField f.d = some d ∧ r.d.ok f.stay d d = true ∧ r.readAB f d = .ok o := by
  by_cases hc : f.cls = r.cls.code
  · by_cases hh : f.res = 0 ∧ r.hintsOk f.hdr = true
    · obtain ⟨hnone, hsome⟩ := read_fields hc hh.1 hh.2
      cases hd : Opd.ofField f.d with
      | none => simp [hnone hd]
      | some d =>
        obtain ⟨hbad, hgood⟩ := hsome d hd
        by_cases hk : r.d.ok f.stay d d = true
        · simp [hgood hk, hc, hh, hk]
        · simp [hbad (by simpa using hk), hk]
    · rw [read_badHints hc (by rcases not_and_or.1 hh with h | h <;> simp [h])]
      simp only [reduceCtorEq, false_iff]
      rintro ⟨-, hr, hx, -⟩
      exact hh ⟨hr, hx⟩
  · simp [read_badCls hc, hc]

end Read

theorem Cls.code_lt (c : Cls) : c.code < 4 := by cases c <;> decide

/-- The fields of the word of an instruction with opcode `c` under its row (R39). -/
def Row.wordFields (r : Row) (c : Nat) (o : Operands) : Fields :=
  { opc := c, gsns := o.hd.gsns, gidx := o.hd.gidx.val, gap := o.hd.gap.val, sw := o.hd.sw, tkn := o.hd.tkn,
    stay := o.hd.stay, res := 0, d := o.d.field, a := (o.fieldsAB r.cls).1, b := (o.fieldsAB r.cls).2, cls := r.cls.code }

theorem Decoded.fields_eq {i : Decoded} {c : Nat} {r : Row} (hc : i.row.opc = some c) (hr : opRow c = some r) :
    i.fields = some (r.wordFields c i.ops) := by
  simp [fields, hc, hr, Row.wordFields]

theorem Decoded.wf_iff {i : Decoded} : i.wf = true ↔ ∃ c r, i.row.opc = some c ∧ opRow c = some r ∧
    r.hintsOk i.ops.hd = true ∧ r.fieldsOk i.ops = true ∧ r.partsOk i.ops = true ∧ r.make i.ops = i.row := by
  unfold wf
  cases hc : i.row.opc with
  | none => simp
  | some c =>
    cases hr : opRow c with
    | none => simp [hr]
    | some r => simp [hr, and_assoc]

theorem fieldsAB_register {c : Cls} (hl : c ≠ .long) (hm : c ≠ .memory) (o : Operands) :
    o.fieldsAB c = (o.a.field, o.b.field) := by
  cases c
  case long => exact absurd rfl hl
  case memory => exact absurd rfl hm
  all_goals rfl

theorem Row.wordFields_hdr (r : Row) (c : Nat) (o : Operands) : (r.wordFields c o).hdr = o.hd := by
  obtain ⟨hd, -⟩ := o
  obtain ⟨gsns, gidx, gap, sw, tkn, stay⟩ := hd
  simp [Row.wordFields, Fields.hdr]

theorem Row.wordFields_inRange {r : Row} {c : Nat} (hc : c < 2 ^ 10) (o : Operands) : (r.wordFields c o).InRange := by
  have hab : (o.fieldsAB r.cls).1 < 2 ^ 24 ∧ (o.fieldsAB r.cls).2 < 2 ^ 24 := by
    have := o.a.field_lt
    have := o.b.field_lt
    have := o.sc.code_lt
    cases r.cls <;> simp only [Operands.fieldsAB] <;> omega
  exact ⟨hc, o.hd.gidx.isLt, o.hd.gap.isLt, Nat.zero_lt_succ 3, o.d.field_lt, hab.1, hab.2, r.cls.code_lt⟩

/-- What the parts of a word allow, as equations (R41, R90). -/
theorem Row.partsOk_iff {r : Row} {o : Operands} : r.partsOk o = true ↔ (r.cls ≠ .long → o.imm = 0) ∧
    (r.cls ≠ .memory → o.off = 0) ∧ (r.flag ≠ .scope → o.sc = .core) ∧ (r.flag = .imm16 → o.imm.toNat < 2 ^ 16) := by
  simp only [partsOk, Bool.and_eq_true, Bool.or_eq_true, beq_iff_eq, bne_iff_ne, decide_eq_true_eq, ne_eq, and_assoc,
    Decidable.or_iff_not_imp_left, Decidable.not_not]

theorem Row.fieldsOk_iff {r : Row} {o : Operands} : r.fieldsOk o = true ↔ r.d.ok o.hd.stay o.d o.d = true ∧
    r.a.ok o.hd.stay o.d o.a = true ∧ r.b.ok o.hd.stay o.d o.b = true := by
  simp [fieldsOk, and_assoc]

/-- The fields of a well-formed instruction's word read back as its operands. -/
theorem Row.read_wordFields {r : Row} {o : Operands} (hr : r.fitsClass = true) (hh : r.hintsOk o.hd = true)
    (hf : r.fieldsOk o = true) (hp : r.partsOk o = true) (c : Nat) : r.read (r.wordFields c o) = .ok o := by
  obtain ⟨hd, ha, hb⟩ := fieldsOk_iff.1 hf
  obtain ⟨himm, hoff, hsc, h16⟩ := partsOk_iff.1 hp
  have hhdr := Row.wordFields_hdr r c o
  refine read_ok.2 ⟨rfl, rfl, hhdr.symm ▸ hh, o.d, Opd.ofField_field o.d, hd, ?_⟩
  obtain ⟨h, d, a, b, imm, sc, off⟩ := o
  by_cases hl : r.cls = .long
  · obtain ⟨hra, hrb, hrs⟩ := Row.fitsClass.long hr hl
    simp only [hra, hrb, KSet.no_ok] at ha hb
    obtain rfl := ha
    obtain rfl := hb
    obtain rfl := hoff (by simp [hl])
    obtain rfl := hsc hrs
    have hi : imm.toNat < 2 ^ 48 := imm.isLt
    refine (readAB_long hl).2 ⟨fun hf => ?_, ?_⟩
    · have := h16 hf
      simp only [wordFields, Operands.fieldsAB, hl] at *
      omega
    · rw [hhdr]
      simp only [wordFields, Operands.fieldsAB, hl]
      rw [Nat.div_add_mod', BitVec.ofNat_toNat, BitVec.setWidth_eq]
  · by_cases hm : r.cls = .memory
    · obtain ⟨hrb, -⟩ := Row.fitsClass.memory hr hm
      simp only [hrb, KSet.no_ok] at hb
      obtain rfl := hb
      obtain rfl := himm (by simp [hm])
      have hof : off.toNat < 2 ^ 21 := off.isLt
      refine (readAB_memory hm).2 ⟨a, sc, ?_, ?_, ?_, ?_⟩
      · simp only [wordFields, Operands.fieldsAB, hm]
        exact readField_field ha
      · simp only [wordFields, Operands.fieldsAB, hm]
        rw [show (sc.code * 2 ^ 21 + off.toNat) / 2 ^ 21 = sc.code by omega, Scope.ofCode_code]
      · by_cases hs : r.flag = .scope
        · exact .inl hs
        · exact .inr (hsc hs)
      · rw [hhdr]
        simp only [wordFields, Operands.fieldsAB, hm]
        rw [show (sc.code * 2 ^ 21 + off.toNat) % 2 ^ 21 = off.toNat by omega, BitVec.ofNat_toNat, BitVec.setWidth_eq]
    · obtain ⟨hrs, -⟩ := Row.fitsClass.register hr hl hm
      obtain rfl := himm hl
      obtain rfl := hoff hm
      obtain rfl := hsc hrs
      refine (readAB_register hl hm).2 ⟨a, b, ?_, ?_, ?_⟩
      · simp only [wordFields, fieldsAB_register hl hm]
        exact readField_field ha
      · simp only [wordFields, fieldsAB_register hl hm]
        exact readField_field hb
      · rw [hhdr]

/-- Operands that have the fields of a word are written as that word. -/
theorem Row.wordFields_eq {r : Row} {f : Fields} {o : Operands} (hf : f.InRange) (hcls : f.cls = r.cls.code)
    (hres : f.res = 0) (hhd : o.hd = f.hdr) (hd : o.d.field = f.d) (hab : o.fieldsAB r.cls = (f.a, f.b)) :
    r.wordFields f.opc o = f := by
  simp only [wordFields, hhd, hd, hab, ← hcls, ← hres, Fields.hdr, Fin.val_ofNat, Nat.mod_eq_of_lt hf.gidx,
    Nat.mod_eq_of_lt hf.gap]

/-- What a row reads from the fields of a word is allowed by the row, and has those fields. -/
theorem Row.wordFields_read {r : Row} {f : Fields} {o : Operands} (hr : r.fitsClass = true) (hf : f.InRange)
    (h : r.read f = .ok o) : r.hintsOk o.hd = true ∧ r.fieldsOk o = true ∧ r.partsOk o = true ∧ r.wordFields f.opc o = f := by
  obtain ⟨hcls, hres, hh, d, hd, hdk, hab⟩ := read_ok.1 h
  have hword := fun (o : Operands) (hhd : o.hd = f.hdr) (hdo : o.d = d) =>
    wordFields_eq hf hcls hres hhd ((congrArg Opd.field hdo).trans (Opd.field_of_ofField hd))
  have := hf.a
  have := hf.b
  by_cases hl : r.cls = .long
  · obtain ⟨hra, hrb, hrs⟩ := Row.fitsClass.long hr hl
    obtain ⟨h16, rfl⟩ := (readAB_long hl).1 hab
    have hi : (BitVec.ofNat 48 (f.a * 2 ^ 24 + f.b)).toNat = f.a * 2 ^ 24 + f.b := by
      rw [BitVec.toNat_ofNat]
      exact Nat.mod_eq_of_lt (by omega)
    refine ⟨hh, fieldsOk_iff.2 ⟨hdk, hra ▸ KSet.no_ok.2 rfl, hrb ▸ KSet.no_ok.2 rfl⟩,
      partsOk_iff.2 ⟨absurd hl, fun _ => rfl, fun _ => rfl, fun h => ?_⟩, hword _ rfl rfl ?_⟩
    · have := h16 h
      rw [hi]
      omega
    · rw [hl, Operands.fieldsAB, hi, Prod.mk.injEq]
      omega
  · by_cases hm : r.cls = .memory
    · obtain ⟨hrb, h16⟩ := Row.fitsClass.memory hr hm
      obtain ⟨a, sc, ha, hs, hsc, rfl⟩ := (readAB_memory hm).1 hab
      obtain ⟨haf, hak⟩ := readField_some ha
      have hcode := Scope.code_of_ofCode hs
      refine ⟨hh, fieldsOk_iff.2 ⟨hdk, hak, hrb ▸ KSet.no_ok.2 rfl⟩,
        partsOk_iff.2 ⟨fun _ => rfl, absurd hm, hsc.resolve_left, fun h => absurd h h16⟩, hword _ rfl rfl ?_⟩
      rw [hm, Operands.fieldsAB, haf, hcode, BitVec.toNat_ofNat, Nat.mod_mod, Nat.div_add_mod']
    · obtain ⟨hrs, h16⟩ := Row.fitsClass.register hr hl hm
      obtain ⟨a, b, ha, hb, rfl⟩ := (readAB_register hl hm).1 hab
      obtain ⟨haf, hak⟩ := readField_some ha
      obtain ⟨hbf, hbk⟩ := readField_some hb
      refine ⟨hh, fieldsOk_iff.2 ⟨hdk, hak, hbk⟩,
        partsOk_iff.2 ⟨fun _ => rfl, fun _ => rfl, fun _ => rfl, fun h => absurd h h16⟩, hword _ rfl rfl ?_⟩
      rw [fieldsAB_register hl hm, haf, hbf]

/-! Decoding (R40, R47) -/

theorem decodeFields_opc {p : Option Profile} {f : Fields} (h : opRow f.opc = none) : decodeFields p f = .error .opc := by
  simp [decodeFields, h]

section DecodeFields
variable {p : Profile} {f : Fields} {r : Row} (hr : opRow f.opc = some r)
include hr

theorem decodeFields_prof (hp : r.prof.has p = false) : decodeFields (some p) f = .error .prof := by
  simp [decodeFields, hr, hp]

/-- On a core that runs the row, what the row finds malformed is the detail code of ILL.FORM (R47). -/
theorem decodeFields_form {k : Nat} (hp : r.prof.has p = true) (h : r.read f = .error k) :
    decodeFields (some p) f = .error (.form k) := by
  simp [decodeFields, hr, hp, h]

theorem decodeFields_none_ok {i : Decoded} : decodeFields none f = .ok i ↔ ∃ o, r.read f = .ok o ∧ i = ⟨r.make o, o⟩ := by
  cases h : r.read f <;> simp [decodeFields, hr, h, eq_comm]

end DecodeFields

/-- A core's profile only refuses (R50). -/
theorem decodeFields_profile {p : Profile} {f : Fields} {i : Decoded} (h : decodeFields (some p) f = .ok i) :
    decodeFields none f = .ok i := by
  cases hr : opRow f.opc with
  | none => simp [decodeFields_opc hr] at h
  | some r =>
    cases hp : r.prof.has p with
    | false => simp [decodeFields_prof hr hp] at h
    | true =>
      simp only [decodeFields, hr, hp, if_true] at h ⊢
      exact h

/-- The word of a well-formed instruction decodes to it. -/
theorem decode_encode {i : Decoded} (h : i.wf = true) : encodeWord i < 2 ^ 96 ∧ decode none (encode i) = .ok i := by
  obtain ⟨c, r, hc, hr, hh, hf, hp, hm⟩ := Decoded.wf_iff.1 h
  have hin := Row.wordFields_inRange (r := r) (opRow_lt hr) i.ops
  have hw : encodeWord i = (r.wordFields c i.ops).word := by rw [encodeWord, Decoded.fields_eq hc hr]
  have hlt : encodeWord i < 2 ^ 96 := hw ▸ Fields.word_lt hin
  refine ⟨hlt, ?_⟩
  rw [decode, encode, List.take_of_length_le (by rw [Machine.leBytes_length]), leNat_leBytes 12 _ (by omega), decodeWord,
    hw, Fields.ofWord_word hin]
  refine (decodeFields_none_ok (r := r) hr).2 ⟨i.ops, Row.read_wordFields (opRow_fits hr) hh hf hp c, ?_⟩
  rw [hm]

/-- A word that decodes is the word of the well-formed instruction it decodes to. -/
theorem encode_decode {w : Nat} {i : Decoded} (hw : w < 2 ^ 96) (h : decodeWord none w = .ok i) :
    i.wf = true ∧ encodeWord i = w := by
  rw [decodeWord] at h
  cases hr : opRow (Fields.ofWord w).opc with
  | none => simp [decodeFields_opc hr] at h
  | some r =>
    obtain ⟨o, ho, rfl⟩ := (decodeFields_none_ok hr).1 h
    obtain ⟨hh, hf, hp, hword⟩ := Row.wordFields_read (opRow_fits hr) (Fields.ofWord_inRange w) ho
    have hc := opRow_make_opc hr o
    refine ⟨Decoded.wf_iff.2 ⟨_, r, hc, hr, hh, hf, hp, rfl⟩, ?_⟩
    rw [encodeWord, Decoded.fields_eq hc hr, hword]
    exact Fields.word_ofWord hw

/-- Settles O53: the encoder and the decoder field by field, then the refusals in the order of R47. -/
theorem decodeEncode : Obligations.DecodeEncode := by
  unfold Obligations.DecodeEncode
  refine ⟨fun i => decode_encode, fun w i => encode_decode, fun p w i => decodeFields_profile,
    fun p f => ⟨decodeFields_opc, fun r hr => ⟨decodeFields_prof hr, fun hp => ?_⟩⟩⟩
  have hform := fun k => decodeFields_form (k := k) hr hp
  refine ⟨fun h => hform 1 (Row.read_badCls h), fun hc => ⟨fun h => hform 2 (Row.read_badHints hc h), fun hres hh => ?_⟩⟩
  obtain ⟨hnone, hsome⟩ := Row.read_fields hc hres hh
  refine ⟨fun h => hform 3 (hnone h), fun d hd => ?_⟩
  obtain ⟨hbad, hgood⟩ := hsome d hd
  refine ⟨fun h => hform 3 (hbad h), fun hk => ?_⟩
  rw [hgood hk] at hform
  refine ⟨fun hl h16 => ?_, fun hl => ⟨fun h => hform 4 (Row.readAB_badA hl (readField_none (by simp [h]))), fun a ha => ?_⟩⟩
  · obtain ⟨h4, h5⟩ := Row.readAB_imm16 (d := d) hl h16
    exact ⟨fun h => hform 4 (h4 h), fun h0 h => hform 5 (h5 h0 h)⟩
  · refine ⟨fun h => hform 4 (Row.readAB_badA hl (readField_none (by simp [ha, h]))), fun h => ?_⟩
    have hra := readField_ok ha h
    exact ⟨fun hm hs => hform 5 (Row.readAB_badScope hm hra hs), fun hm =>
      ⟨fun hb => hform 5 (Row.readAB_badB hl hm hra (readField_none (by simp [hb]))),
       fun b hb hk => hform 5 (Row.readAB_badB hl hm hra (readField_none (by simp [hb, hk])))⟩⟩

/-- Settles O54: each word runs through the decoder. -/
theorem sampleWords : Obligations.SampleWords := by
  unfold Obligations.SampleWords
  decide

end Sys2Proof
end

section
/-! What a guard decides at issue (R45, R97, R107). -/

namespace Sys2Proof.Machine

/-- g0 always holds, so `(!g0)` never does (R21, R45). -/
theorem cond_g0 {s : State} (h : s.ir.hd.gidx = 0) : s.cond = some (!s.ir.hd.gsns) := by
  simp [State.cond, Strand.guard, h]

/-- A row that branches goes to the register that its target field names. -/
theorem exec_branch {i : Instr} (h : branchForm i = true) (s : State) :
    ∃ f, exec i s = performBranch s (targetField i s) f := by
  cases i with
  | brOffset => rw [exec_brOffset, execBrOffset]; exact ⟨_, rfl⟩
  | brRegister => rw [exec_brRegister, execBrRegister]; exact ⟨_, rfl⟩
  | callOffset => rw [exec_callOffset, execCallOffset]; exact ⟨_, rfl⟩
  | callRegister => rw [exec_callRegister, execCallRegister]; exact ⟨_, rfl⟩
  | ret => rw [exec_ret, execRet]; exact ⟨_, rfl⟩
  | _ => cases h

section Guarded
variable {i : Instr} {s : State} (hi : i.opc.isSome = true) (h : s.me.live = true)
include hi h

/-- A condition that fails leaves only the issue, and of a branch its cost too. -/
theorem exec_cond_false (hc : s.cond = some false) : exec i s = .next
    (if branchForm i then s.passed.redirect (s.branchDelay (targetField i s) false) false else s.passed) := by
  cases hb : branchForm i with
  | true =>
    obtain ⟨f, e⟩ := exec_branch hb s
    rw [e, performBranch_false h hc, if_pos rfl]
  | false =>
    rcases exec_performs hi s with ⟨-, b, e⟩ | ⟨hb', -⟩ | ⟨-, -, b, e⟩
    · rw [e, perform_false h hc]; rfl
    · rw [hb] at hb'; cases hb'
    · rw [e, performCmd_false h hc]; rfl

/-- A pending guard makes every row but those of class 11 wait. -/
theorem exec_cond_pending (hc : s.cond = none) (he : engineForm i = false) :
    exec i s = .next (s.blockSlot s.focusU s.focusK) := by
  rcases exec_performs hi s with ⟨-, b, e⟩ | ⟨-, o, f, e⟩ | ⟨-, he', -⟩
  · rw [e, perform_pending h hc]
  · rw [e, performBranch_pending h hc]
  · rw [he] at he'; cases he'

end Guarded

/-- Settles O5: every row of the map is performed behind its guard. -/
theorem guardDecidesIssue : Obligations.GuardDecidesIssue := by
  unfold Obligations.GuardDecidesIssue
  exact ⟨fun _ => cond_g0, fun _ _ hi h => ⟨exec_cond_false hi h, exec_cond_pending hi h⟩⟩

end Sys2Proof.Machine
end

section
/-! Queue registers as sources: entries taken, waits, full destinations and failure entries (R44, R190, R255, R357). -/

namespace Sys2Proof.Machine

/-- The core in focus with other queue entries. -/
def State.withQs (s : State) (l : List QEntry) : State := s.modCore s.focusU fun c => { c with qs := l }

theorem here_withQs (s : State) (l : List QEntry) : (s.withQs l).here.qs = l := by
  simp [State.withQs, State.here, core_modCore]

theorem withQs_withQs (s : State) (l m : List QEntry) : (s.withQs l).withQs m = s.withQs m := modCore_modCore s _ _ _

section Queue
variable {s : State} {q : Fin 8} {l m : List QEntry}

/-- A queue source takes the oldest entry tagged for the strand's slot (R44, R255). -/
theorem src_q_word {v : Word} (h : s.here.qs = l ++ ⟨q, s.focusK, .word v⟩ :: m)
    (hl : ∀ e ∈ l, ¬ (e.q = q ∧ e.slot = s.focusK)) : src (.q q) s = .ok (v, s.withQs (l ++ m)) := by
  simp only [src, h, takeEntry_append hl, State.withQs]

theorem src_q_none (h : ∀ e ∈ s.here.qs, ¬ (e.q = q ∧ e.slot = s.focusK)) : src (.q q) s = .error (.block none) := by
  simp only [src, takeEntry_none h]

/-- A failure entry raises REMOTE.FAULT with what the entry says, and stays (R190, R357). -/
theorem src_q_failure {c : Cause} {a pc : Word} {u : Nat} (h : s.here.qs = l ++ ⟨q, s.focusK, .failure c a pc u⟩ :: m)
    (hl : ∀ e ∈ l, ¬ (e.q = q ∧ e.slot = s.focusK)) : src (.q q) s = .error (.trap
      { cause := c, flags := { remote := true }, addr := a, pc := some pc, msgId := some s.st.pc, unit := s.foundAt u }) := by
  simp only [src, h, takeEntry_append hl]

/-- The entries for the strand in a queue, counted by where they stand. -/
theorem entries_append {v : QVal} (h : s.here.qs = l ++ ⟨q, s.focusK, v⟩ :: m)
    (hl : ∀ e ∈ l ++ m, ¬ (e.q = q ∧ e.slot = s.focusK)) : s.entries q = 1 := by
  have hno : (l ++ m).filter (fun e => e.q == q && e.slot == s.focusK) = [] := by
    rw [List.filter_eq_nil_iff]
    exact fun e he => by simpa using hl e he
  rw [List.filter_append, List.append_eq_nil_iff] at hno
  simp [State.entries, h, List.filter_append, hno]

/-- A queue that sources name more often than it has entries leaves the instruction short (R44). -/
theorem whole_short {os : List Opd} (hq : .q q ∈ os) (h : s.entries q < os.count (.q q)) :
    whole os s = .error (.block none) := by
  have : s.short os = true := List.any_eq_true.2 ⟨_, hq, decide_eq_true h⟩
  simp [whole, this]

theorem whole_empty {os : List Opd} (hq : .q q ∈ os) (h : ∀ e ∈ s.here.qs, ¬ (e.q = q ∧ e.slot = s.focusK)) :
    whole os s = .error (.block none) := by
  have h0 : s.entries q = 0 := by
    rw [State.entries, List.length_eq_zero_iff, List.filter_eq_nil_iff]
    exact fun e he => by simpa using h e he
  exact whole_short hq (h0 ▸ List.count_pos_iff.2 hq)

end Queue

theorem srcAB_short {s : State} (h : whole [s.ir.a, s.ir.b] s = .error (.block none)) : srcAB s = .error (.block none) := by
  simp [srcAB, h, bind, Except.bind]

theorem srcAB_next {s t u : State} {a b : Word} (ha : src s.ir.a s = .ok (a, t)) (hb : src t.ir.b t = .ok (b, u)) :
    s.ReadsAB a b u := by
  rw [src_ir ha] at hb
  simp [State.ReadsAB, srcAB, whole_two ha hb, ha, hb, bind, Except.bind, pure, Except.pure, src_ir ha]

/-- A form of two sources waits while its queues lack entries. -/
theorem binary_block {s : State} (h : s.Ready) (hs : whole [s.ir.a, s.ir.b] s = .error (.block none)) (lat : Nat)
    (f : Nat → Nat → Nat) : binary s lat f = .next (s.blockSlot s.focusU s.focusK) :=
  performSeq_block h (by simp [srcAB_short hs, bind, Except.bind])

theorem word_wrap_sub (v w : Word) : word (wrap 64 ((v.toNat : Int) - w.toNat)) = v - w := by
  apply BitVec.eq_of_toNat_eq
  have := v.isLt
  have := w.isLt
  simp only [word, wrap, BitVec.toNat_ofNat, BitVec.toNat_sub]
  omega

/-- A move held at issue by a full queue in D changes nothing. -/
theorem mov64Reg_full {s t : State} {a : Word} (h : s.Ready) (hs : movSrc s = .ok (a, t)) (hr : ¬ t.Room) :
    exec .mov64Reg s = .next s := by
  rw [exec_mov64Reg, execMov64Reg, performSeq_error h (e := .hold)]
  · rfl
  · simp [hs, bind, Except.bind, dst_full (Bool.eq_false_iff.2 hr)]

theorem mov64Reg_block {s : State} (h : s.Ready) (hs : movSrc s = .error (.block none)) :
    exec .mov64Reg s = .next (s.blockSlot s.focusU s.focusK) := by
  rw [exec_mov64Reg, execMov64Reg]
  exact performSeq_block h (by simp [hs, bind, Except.bind])

/-- Settles O7: what a queue source gives, to a move and to a difference of two. -/
theorem queueOperands : Obligations.QueueOperands := by
  unfold Obligations.QueueOperands
  intro s q h ha mine left
  have hmov : movSrc s = src (.q q) s := by rw [movSrc_src (by simp [ha]), ha]
  refine ⟨fun l m v hq hl hr => ?_, fun hq => ?_, fun l m c a pc u hq hl => ?_, fun l m n v w hb hq hl hr => ?_,
    fun l m v hb hq hl => ?_, fun i r hb hq _ => ?_, fun l m v hq hl hr => ?_⟩
  · exact mov64Reg_next h (hmov.trans (src_q_word hq hl)) hr
  · exact mov64Reg_block h (hmov.trans (src_q_none hq))
  · exact mov64Reg_trap h (hmov.trans (src_q_failure hq hl))
  · have h1 : src s.ir.a s = .ok (v, s.withQs (l ++ (m ++ ⟨q, s.focusK, .word w⟩ :: n))) :=
      ha ▸ src_q_word hq fun e he => hl e (List.mem_append_left m he)
    have h2 := src_q_word (s := s.withQs (l ++ (m ++ ⟨q, s.focusK, .word w⟩ :: n))) (l := l ++ m) (m := n)
      ((here_withQs s _).trans (List.append_assoc ..).symm) hl
    rw [withQs_withQs, List.append_assoc] at h2
    rw [exec_sub, execSub, binary_next h (srcAB_next h1 (hb ▸ h2)) hr, widthBits, word_wrap_sub]
  · rw [exec_sub, execSub]
    refine binary_block h (whole_short (q := q) (by simp [ha]) ?_) _ _
    simp [ha, hb, entries_append hq hl]
  · rw [exec_sub, execSub]
    exact binary_block (s := { s with ir := { s.ir with a := .o i } }) h (whole_empty (q := r) (by simp [hb]) hq) _ _
  · exact mov64Reg_full h (hmov.trans (src_q_word hq hl)) hr

end Sys2Proof.Machine
end

section
/-! Commands of the vector engine that touch no memory, as they are accepted (R45, R149, R248 to R251, R256 to R268). -/

namespace Sys2Proof.Machine

/-- A Carder's command that has not been sent yet is accepted as those of the other engines are. -/
theorem carderCmd_unsent {s : State} (h : s.me.asked = false) (make : Option (Fin 8 × Bool) → State → Except Stop Cmd) :
    ∃ f, carderCmd s make = performCmd s f := by
  rw [carderCmd, if_neg (by simp [h])]
  exact ⟨_, rfl⟩

/-- Every engine row is performed as a command. -/
theorem exec_engine {i : Instr} (h : engineForm i = true) {s : State} (hs : s.me.asked = false) :
    ∃ f, exec i s = performCmd s f := by
  cases i
  case vadd | vsub | vmul | vdiv | vfma | vmin | vmax | vabs | vneg | vrcp | vrsq | vexp2 | vand | vor | vxor | vnot | vshl |
    vshr | vsar | vceq | vcne | vclt | vcle | vsel | vmov | vbcast | vcvt | vld | vst | vldd | vpush | vpop | vrsum | vrmax |
    vtrn | vshf | mand | mor | mxor | mnot | mset | mclr | mld | mst | mmaB8 | mmaF16 | mmaBf16 | mzero | acld | acst |
    acmv | rstat | cpy | cpyFill | cpy2d | cpyGth => exact ⟨_, rfl⟩
  case crdOpen | crdDig | crdWdig | crdPlane | crdElim | crdRes | crdWait | crdClose => exact carderCmd_unsent hs _
  case add w | sub w | mul w | neg w | sext w | ceq w | cne w | zext w | shl w | shr w | sar w | rol w | ror w | popc w |
    clz w | ctz w | padd w | psub w | pshl w | pshr w | psar w | pmul w | ld w | lds w | st w | ldAcq w | stRel w | ldfC w |
    ldfK w | stf w | mulh w | div w | rem w | min w | max w | adds w | subs w | clt w | cle w | cvtF32FromInt w |
    cvtIntFromF32 w | aand w | aor w | axor w | aswap w => cases w <;> cases h
  case amadd w o | amin w o | amax w o | acas w o => cases w <;> cases o <;> cases h
  all_goals cases h

/-! What performing a command comes to -/

section PerformCmd
variable {s : State} (h : s.me.live = true) (hc : s.cond ≠ some false)
include h hc

/-- ENG.OWN comes before everything else that a command tests (R149, R249). -/
theorem performCmd_engOwn (ho : engOwn s = true) (f : Option (Fin 8 × Bool) → State → Run) :
    performCmd s f = .next (s.trapHere { cause := .engOwn }) := by
  rcases hb : s.cond with _ | _ | _
  · simp [performCmd, h, hb, ho, failIf, fail, bind, Except.bind, settleRun]
  · exact absurd hb hc
  · simp [performCmd, h, hb, ho, failIf, fail, bind, Except.bind, settleRun]

/-- A command that is stopped short of its acceptance. -/
theorem performCmd_error (ho : engOwn s = false) {f : Option (Fin 8 × Bool) → State → Run} {e : Stop}
    (hf : f s.boundTo s = .error e) : performCmd s f = settleRun s (.error e) := by
  rcases hb : s.cond with _ | _ | _
  · simp only [State.boundTo, hb] at hf
    simp [performCmd, h, hb, ho, hf, failIf, bind, Except.bind]
  · exact absurd hb hc
  · simp only [State.boundTo, hb] at hf
    simp [performCmd, h, hb, ho, hf, failIf, bind, Except.bind]

end PerformCmd

/-! Vector commands under their tests -/

section VectorCmd
variable {s : State} {a b : Word} {i : Instr} {test : State → Word → Except Stop Unit} (ha : scalar s.ir.a s = .ok a)
  (hb : scalar s.ir.b s = .ok b)
include ha hb

/-- A vector command is accepted with its operands captured once its test has passed (R251). -/
theorem vectorCmd_took (h : s.Accepting 0) (ht : test s b = .ok ()) : performCmd s (vectorCmd i test) =
    .next (s.took { newCmd s i .vector s.boundTo with sa := a, sb := b }).passed := by
  refine performCmd_took h ?_
  rw [← accept_took h (x := { newCmd s i .vector s.boundTo with sa := a, sb := b }) rfl]
  simp [vectorCmd, ha, hb, ht, bind, Except.bind]

theorem vectorCmd_trap (h : s.Accepting 0) {c : Cause} (ht : test s b = fail c) :
    performCmd s (vectorCmd i test) = .next (s.trapHere { cause := c }) := by
  obtain ⟨hl, hc, ho, -⟩ := h
  rw [performCmd_error hl hc ho (e := .trap { cause := c }) (by simp [vectorCmd, ha, hb, ht, fail, bind, Except.bind])]
  rfl

/-- A command with one test is stopped where the test fails. -/
theorem vector_stopped_if (h : s.Accepting 0) (he : exec i s = performCmd s (vectorCmd i test)) {P : Prop} [Decidable P]
    {c : Cause} (hbad : P → test s b = fail c) (hok : ¬ P → test s b = .ok ()) :
    if P then exec i s = .next (s.trapHere { cause := c })
    else exec i s = .next (s.took { newCmd s i .vector s.boundTo with sa := a, sb := b }).passed := by
  split_ifs with hp
  · exact he.trans (vectorCmd_trap ha hb h (hbad hp))
  · exact he.trans (vectorCmd_took ha hb h (hok hp))

/-- A command with one test is accepted where the test passes. -/
theorem vector_taken_if (h : s.Accepting 0) (he : exec i s = performCmd s (vectorCmd i test)) {P : Prop} [Decidable P]
    {c : Cause} (hok : P → test s b = .ok ()) (hbad : ¬ P → test s b = fail c) :
    if P then exec i s = .next (s.took { newCmd s i .vector s.boundTo with sa := a, sb := b }).passed
    else exec i s = .next (s.trapHere { cause := c }) := by
  split_ifs with hp
  · exact he.trans (vectorCmd_took ha hb h (hok hp))
  · exact he.trans (vectorCmd_trap ha hb h (hbad hp))

/-- The engine's queue full, a command that passes its test is held at issue (R248). -/
theorem vectorCmd_full (hl : s.me.live = true) (hc : s.cond ≠ some false) (ho : engOwn s = false)
    (hq : 2 ≤ (s.here.queued 0).length) (ht : test s b = .ok ()) : performCmd s (vectorCmd i test) = .next s := by
  have hx : accept { newCmd s i .vector s.boundTo with sa := a, sb := b } s = .error .hold := by
    simp [accept, newCmd, queueOf, hq]
  rw [performCmd_error hl hc ho (e := .hold) (by simp [vectorCmd, ha, hb, ht, hx, bind, Except.bind])]
  rfl

end VectorCmd

/-- A row of the vector engine whose command passes its test whatever the tile's shape and its operands are. -/
def AlwaysPasses (i : Instr) : Prop :=
  ∃ test, (∀ s b, test s b = .ok ()) ∧ ∀ s, exec i s = performCmd s (vectorCmd i test)

theorem AlwaysPasses.untested {i : Instr} (h : ∀ s, exec i s = performCmd s (vectorCmd i noTest)) : AlwaysPasses i :=
  ⟨noTest, fun _ _ => rfl, h⟩

theorem AlwaysPasses.everyType {i : Instr} {op : VOp} (h : ∀ s, exec i s = performCmd s (vectorCmd i (typeTest op)))
    (hop : ∀ k, op.bad k = false) : AlwaysPasses i :=
  ⟨typeTest op, fun s _ => by rw [typeTest, hop]; rfl, h⟩

theorem arithmetic_alwaysPass : ∀ i ∈ [Instr.vadd, .vsub, .vmul, .vdiv, .vfma, .vmin, .vmax, .vabs, .vneg], AlwaysPasses i := by
  simp only [List.forall_mem_cons]
  refine ⟨?_, ?_, ?_, ?_, ?_, ?_, ?_, ?_, ?_, List.forall_mem_nil _⟩
  all_goals exact .everyType (fun _ => rfl) fun _ => Bool.and_false _

theorem bitwise_alwaysPass : ∀ i ∈ [Instr.vand, .vor, .vxor, .vnot, .vceq, .vcne, .vclt, .vcle, .vsel, .vmov, .vbcast, .vrsum,
    .vrmax, .mand, .mor, .mxor, .mnot, .mset, .mclr], AlwaysPasses i := by
  simp only [List.forall_mem_cons]
  refine ⟨?_, ?_, ?_, ?_, ?_, ?_, ?_, ?_, ?_, ?_, ?_, ?_, ?_, ?_, ?_, ?_, ?_, ?_, ?_, List.forall_mem_nil _⟩
  all_goals exact .untested fun _ => rfl

/-- The rows of the vector engine without memory operands that every shape and operand suits. -/
theorem vector_alwaysPass : ∀ i ∈ [Instr.vadd, .vsub, .vmul, .vdiv, .vfma, .vmin, .vmax, .vabs, .vneg, .vand, .vor, .vxor,
    .vnot, .vceq, .vcne, .vclt, .vcle, .vsel, .vmov, .vbcast, .vrsum, .vrmax, .mand, .mor, .mxor, .mnot, .mset, .mclr],
    AlwaysPasses i :=
  List.forall_mem_append.2 ⟨arithmetic_alwaysPass, bitwise_alwaysPass⟩

theorem failIf_true {b : Bool} {c : Cause} (h : b = true) : failIf b c = fail c := by rw [h]; rfl

theorem failIf_false {b : Bool} {c : Cause} (h : b = false) : failIf b c = .ok () := by rw [h]; rfl

theorem typeTest_float (op : VOp) (s : State) (b : Word) (h : (vkind s.me.vshape).isFloat = true) :
    typeTest op s b = .ok () := failIf_false (by rw [VOp.bad, h]; rfl)

/-- Reciprocals and 2^x have no meaning for integers (R257). -/
theorem typeTest_int {op : VOp} (hop : (op == .rcp || op == .rsq || op == .exp2) = true) (s : State) (b : Word)
    (h : ¬ (vkind s.me.vshape).isFloat = true) : typeTest op s b = fail .vtypeBad :=
  failIf_true (by rw [VOp.bad, hop, Bool.eq_false_iff.2 h]; rfl)

/-- Only the types above 10 name no size (R246). -/
theorem typeSize_none {n : Nat} : typeSize n = none ↔ 10 < n := by
  refine ⟨fun h => ?_, fun h => ?_⟩
  · by_contra hn
    interval_cases n <;> cases h
  · obtain ⟨m, rfl⟩ := Nat.exists_eq_add_of_lt h
    rw [show 10 + m + 1 = m + 11 by omega]
    rfl

/-- Settles O33: each command under its test, with ENG.OWN before every test and the full queue after them all. -/
theorem vectorCommands : Obligations.VectorCommands := by
  unfold Obligations.VectorCommands
  refine ⟨fun s a b h ha hb => ?_, fun s i hi hl hs hc ho => ?_, fun s a b hl hc ho hq ha hb i hi => ?_⟩
  · refine ⟨fun i hi => ?_, ?_, ?_, ?_, ?_, ?_, ?_⟩
    · obtain ⟨test, ht, e⟩ := vector_alwaysPass i hi
      exact (e s).trans (vectorCmd_took ha hb h (ht s b))
    · simp only [List.forall_mem_cons]
      refine ⟨?_, ?_, ?_, List.forall_mem_nil _⟩
      · exact vector_taken_if ha hb h rfl (typeTest_float .rcp s b) (typeTest_int rfl s b)
      · exact vector_taken_if ha hb h rfl (typeTest_float .rsq s b) (typeTest_int rfl s b)
      · exact vector_taken_if ha hb h rfl (typeTest_float .exp2 s b) (typeTest_int rfl s b)
    · simp only [List.forall_mem_cons]
      refine ⟨?_, ?_, ?_, List.forall_mem_nil _⟩
      all_goals exact vector_stopped_if (test := intTest) ha hb h rfl failIf_true fun hf => failIf_false (by simpa using hf)
    · refine vector_stopped_if ha hb h rfl (fun hp => ?_) fun hp => ?_
      · rcases hp with hp | ⟨n, hn, hp⟩
        · rw [typeSize_none.2 hp]
        · rw [hn]
          exact failIf_true (decide_eq_true hp)
      · cases hn : typeSize b.toNat with
        | none => exact absurd (.inl (typeSize_none.1 hn)) hp
        | some n => exact failIf_false (decide_eq_false fun c => hp (.inr ⟨n, hn, c⟩))
    · simp only [List.forall_mem_cons]
      refine ⟨?_, ?_, List.forall_mem_nil _⟩
      all_goals
        refine vector_taken_if ha hb h rfl (fun hp => ?_) fun hp => ?_
        · exact failIf_false (decide_eq_false (Nat.not_le.2 hp))
        · exact failIf_true (decide_eq_true (Nat.not_lt.1 hp))
    · refine vector_taken_if ha hb h rfl (fun hp => ?_) fun hp => ?_
      · exact failIf_false (decide_eq_false (Nat.not_lt.2 hp))
      · exact failIf_true (decide_eq_true (Nat.not_le.1 hp))
    · refine vector_taken_if ha hb h rfl (fun hp => ?_) fun hp => ?_
      · exact failIf_false (decide_eq_false (Nat.not_lt.2 hp))
      · exact failIf_true (decide_eq_true (Nat.not_le.1 hp))
  · obtain ⟨f, e⟩ := exec_engine hi hs
    rw [e, performCmd_engOwn hl hc ho]
  · obtain ⟨test, ht, e⟩ := vector_alwaysPass i ((by decide : List.Sublist _ _).subset hi)
    exact (e s).trans (vectorCmd_full ha hb hl hc ho hq (ht s b))

end Sys2Proof.Machine
end

section
/-! What a step performs: an event, an input or a core's cycle, and in a cycle the instruction that the fetched word decodes to
(R9, R22, R40, R134, R218, R407). -/

namespace Sys2Proof.Machine

/-! What the agenda names -/

section Agenda
variable {s : State} {r : List Pick}

theorem step_event {e : Event} (h : s.agenda = .event e :: r) :
    step s = if mayAct s e then exec (eventRow e) { s with agenda := r, ev := some e } else .next { s with agenda := r } := by
  simp only [step, stepWith, h]

theorem step_input {i : Input} (h : s.agenda = .input i :: r) : step s =
    .next (if s.hub.power.stopped then { s with agenda := r } else doInput { s with agenda := r } i) := by
  simp only [step, stepWith, h]

theorem step_idle (h : s.agenda = []) : step s = cycle exec s.focusU s := by simp only [step, stepWith, h]

theorem step_run {u : Nat} (h : s.agenda = .run u :: r) : step s = cycle exec u { s with agenda := r } := by
  simp only [step, stepWith, h]

/-- Once the module has stopped for its temperature only a reset acts (R407). -/
theorem mayAct_iff (s : State) (e : Event) : mayAct s e = true ↔ s.hub.power.stopped = false ∨ e = .moduleReset := by
  simp [mayAct]

end Agenda

/-! Fetching (R40, R218) -/

theorem fetched_none {c : Core} {l : BitVec 32} {a : Word} (h : c.cached l a = none) (u : Nat) (w : BitVec 96) :
    c.fetched u l a w = w := by simp [Core.fetched, h]

theorem fetched_same {c : Core} {l : BitVec 32} {a : Word} {w : BitVec 96} (h : c.cached l a = some w) (u : Nat) :
    c.fetched u l a w = w := by simp [Core.fetched, h]

/-- A fetch gives the word in memory or the one that the cache holds. -/
theorem fetched_cases (c : Core) (u : Nat) (l : BitVec 32) (a : Word) (w : BitVec 96) :
    c.fetched u l a w = w ∨ c.cached l a = some (c.fetched u l a w) := by
  cases h : c.cached l a with
  | none => exact .inl (fetched_none h u w)
  | some v =>
    simp only [Core.fetched, h]
    split
    · exact .inr rfl
    · exact .inl rfl

theorem fetchWord_hand {s : State} {u k : Nat} {w : BitVec 96} (h : (s.slot u k).hand = some w) : fetchWord s u k = .ok w := by
  simp only [fetchWord, h]

theorem fetchWord_memory {s : State} {u k : Nat} {sl : Slot} {bs : List Byte} (hs : s.slot u k = sl) (h : sl.hand = none)
    (hb : fetchBytes s u sl.st.ctx sl.st.pc.toNat = .ok bs) : fetchWord s u k =
      .ok ((s.core u).fetched u sl.st.launch sl.st.pc (BitVec.ofNat 96 (leNat bs))) := by
  subst hs
  simp only [fetchWord, h, hb]

/-- With no deferred fault and a budget left, what a word decodes to is performed with its operands at the state that holds the
word (R351). -/
theorem attempt_decoded {s : State} {u k : Nat} {w : BitVec 96} {i : Decoded}
    (hd : (s.slot u k).deferred = [] ∨ (s.slot u k).answer.isSome = true)
    (hb : (s.slot u k).st.bud ≠ 0 ∨ (s.slot u k).mode ≠ .issuing ∨ (s.slot u k).answer.isSome = true)
    (hw : fetchWord { s with focusU := u, focusK := k } u k = .ok w)
    (hi : decode (some (profileOf u)) (leBytes 12 w.toNat) = .ok i) : attempt exec u k s =
      exec i.row { State.fetching { s with focusU := u, focusK := k } u k with ir := i.ops, ev := none } := by
  have hme : State.me { s with focusU := u, focusK := k } = s.slot u k := rfl
  simp only [attempt, hme]
  rw [if_neg, if_neg]
  · simp only [hw, rowOf, hi]
  · rcases hb with h | h | h
    · rw [beq_eq_false_iff_ne.2 h]
      exact Bool.false_ne_true
    · simp [h]
    · simp [Option.isNone_eq_false_iff.2 h]
  · rcases hd with h | h
    · simp [h]
    · simp [Option.isNone_eq_false_iff.2 h]

theorem fetching_ok {s : State} {u k : Nat} {w : BitVec 96} (hw : fetchWord s u k = .ok w) : s.fetching u k =
    (s.modCore u fun c => c.hold (s.slot u k).st.launch (s.slot u k).st.pc w).modSlot u k fun sl => { sl with hand := some w } := by
  simp only [State.fetching, hw]

/-! The end of a cycle (R22, R134) -/

/-- The first candidate that uses the issue turn ends the search. -/
theorem tryAll_used {s t : State} {u k : Nat} {ks : List Nat} (hr : (s.slot u k).runs = true)
    (ha : attempt exec u k s = .next t) (ht : (t.core u).turns ≠ (s.core u).turns) : tryAll exec u (k :: ks) s = .next t := by
  simp [tryAll, hr, ha, ht]

/-- Counting a cycle changes nothing of the cores but the counters of one. -/
theorem countCycle_cores (s : State) (u n : Nat) : (countCycle s u n).cores =
    (s.modCore u fun c => { c with counters := c.counters.map (bumpOne 0x01 1) }).cores := by
  unfold countCycle
  dsimp only
  split_ifs
  · rfl
  · rfl
  · split <;> rfl

theorem countCycle_cyc (s : State) (u n : Nat) : ((countCycle s u n).core u).cyc = (s.core u).cyc := by
  rw [State.core, countCycle_cores]
  change ((s.modCore u _).core u).cyc = _
  rw [core_modCore, if_pos rfl]

/-- A cycle advances CYC by one (R22). -/
theorem endCycle_cyc (before : Core) (u : Nat) (s : State) : ((endCycle before u s).core u).cyc = (s.core u).cyc + 1 := by
  simp only [endCycle, countCycle_cyc]
  exact congrArg Core.cyc (core_setCore_self s u _)

theorem cycle_used {s t v : State} {u k : Nat} {ks : List Nat} (hs : s.hub.power.stopped = false) (hu : isUnit u = true)
    (ht : eachSlot (beginSlot exec u) (List.range (s.core u).slots.length) s = .next t)
    (hc : ((t.modCore u Core.fixHolder).core u).candidates = k :: ks)
    (hr : ((t.modCore u Core.fixHolder).slot u k).runs = true) (ha : attempt exec u k (t.modCore u Core.fixHolder) = .next v)
    (hv : (v.core u).turns ≠ ((t.modCore u Core.fixHolder).core u).turns) :
    cycle exec u s = .next (endCycle (s.core u) u v) := by
  simp only [cycle, hs, hu, ht, hc, tryAll_used hr ha hv]
  rfl

/-- Settles O55: what the agenda names, what a candidate performs, and how its cycle ends. -/
theorem stepRunsDecoded : Obligations.StepRunsDecoded := by
  unfold Obligations.StepRunsDecoded
  refine ⟨fun s e r h => ⟨fun he => ?_, fun hs he => ?_⟩, fun s i r h => ⟨fun hs => ?_, fun hs => ?_⟩, fun s => step_idle,
    fun s u r => step_run, ?_, fetched_cases, fun s t v u k ks hs hu ht hc hr ha hv =>
      ⟨cycle_used hs hu ht hc hr ha hv, endCycle_cyc _ u v⟩⟩
  · rw [step_event h, if_pos ((mayAct_iff s e).2 he)]
  · rw [step_event h, if_neg (by simp [mayAct_iff, hs, he])]
  · rw [step_input h, hs, if_neg Bool.false_ne_true]
  · rw [step_input h, hs, if_pos rfl]
  · intro s u k w i sl hd hb hi t come runs
    have hsl : t.slot u k = sl := rfl
    have hcome : fetchWord t u k = .ok w → t.fetching u k = come := fetching_ok
    have hrun : fetchWord t u k = .ok w → runs := fun hw => (attempt_decoded hd hb hw hi).trans
      (congrArg (fun x : State => exec i.row { x with ir := i.ops, ev := none }) (hcome hw))
    refine ⟨fun hh => hrun (fetchWord_hand hh), fun bs hh hbs hw hcache => hrun ?_, fun bs v hh hbs _ _ hf => hrun ?_⟩
    · rw [fetchWord_memory hsl hh hbs, ← hw]
      rcases hcache with h | h
      · exact congrArg _ (fetched_none h u w)
      · exact congrArg _ (fetched_same h u)
    · exact (fetchWord_memory hsl hh hbs).trans (congrArg _ hf)

end Sys2Proof.Machine
end

section
/-! Integer results at a width: exact integers narrowed to a word, and the two's complement reading of its low bits (R59,
R80, R81, R86, R87, R91). -/

namespace Sys2Proof.Machine

/-- A bit vector's number as a word is its zero extension. -/
theorem word_toNat {w : Nat} (x : BitVec w) : word x.toNat = x.setWidth 64 := BitVec.ofNat_toNat ..

theorem ofNat_toNat_self {w : Nat} (x : BitVec w) : BitVec.ofNat w x.toNat = x := by
  rw [BitVec.ofNat_toNat, BitVec.setWidth_eq]

theorem widthBits_le (w : Width) : widthBits w ≤ 64 := by cases w <;> decide
theorem widthBits_pos (w : Width) : 0 < widthBits w := by cases w <;> decide
theorem formBits_pos (f : IForm) : 0 < formBits f := by cases f <;> decide
theorem laneBits_pos (l : Lane) : 0 < laneBits l := by cases l <;> decide

/-- The low bits of an exact natural number do not depend on its first being narrowed to a word. -/
theorem low_ofNat {n : Nat} (h : n ≤ 64) (m : Nat) : low n (BitVec.ofNat 64 m) = word (m % 2 ^ n) := by
  rw [low, word, BitVec.toNat_ofNat, Nat.mod_mod_of_dvd _ (pow_dvd_pow 2 h)]

/-- The low bits of an exact integer do not depend on its first being narrowed to a word. -/
theorem low_ofInt {n : Nat} (h : n ≤ 64) (v : Int) : low n (BitVec.ofInt 64 v) = word (wrap n v) := by
  have hd : (2 : Int) ^ n ∣ (2 ^ 64 : Nat) := pow_dvd_pow (2 : Int) h
  have hv : 0 ≤ v % (2 ^ 64 : Nat) := Int.emod_nonneg _ (by decide)
  rw [low, word, wrap, BitVec.toNat_ofInt, ← Int.emod_emod_of_dvd v hd, Int.toNat_emod hv (by positivity),
    Int.toNat_pow_of_nonneg (by decide)]
  rfl

/-- An exact integer narrowed at a width is the bit vector of that integer. -/
theorem wrap_eq (w : Nat) (v : Int) : wrap w v = (BitVec.ofInt w v).toNat := by
  rw [BitVec.toNat_ofInt, wrap, Nat.cast_pow, Nat.cast_ofNat]

theorem word_wrap (w : Nat) (v : Int) : word (wrap w v) = (BitVec.ofInt w v).setWidth 64 := by
  rw [wrap_eq, word_toNat]

theorem word_wrap64 (v : Int) : word (wrap 64 v) = BitVec.ofInt 64 v := by rw [word_wrap, BitVec.setWidth_eq]

/-- The two's complement reading of the low bits is that of the bit vector they make (R80). -/
theorem sgn_eq_toInt {w : Nat} (h : 0 < w) (a : Nat) : sgn w a = (BitVec.ofNat w a).toInt := by
  have hw : 2 ^ w = 2 * 2 ^ (w - 1) := by rw [← pow_succ', Nat.sub_add_cancel h]
  have hc : a % 2 ^ w < 2 ^ (w - 1) ↔ 2 * (a % 2 ^ w) < 2 ^ w := by omega
  simp only [sgn, BitVec.toInt, BitVec.toNat_ofNat, hc, Nat.cast_pow, Nat.cast_ofNat]

/-- V(x) of R80 as the statements read it. -/
theorem val_toNat (f : IForm) (x : Word) : val (formSigned f) (formBits f) x.toNat = readForm f x := by
  simp only [val, readForm, sgn_eq_toInt (formBits_pos f), BitVec.ofNat_toNat, BitVec.toNat_setWidth]

/-! Sums, products, differences and negations of bit vectors are those of the numbers they stand for. -/

theorem add_eq_ofNat {w : Nat} (a b : BitVec w) : a + b = BitVec.ofNat w (a.toNat + b.toNat) := by
  rw [BitVec.ofNat_add, ofNat_toNat_self, ofNat_toNat_self]

theorem mul_eq_ofNat {w : Nat} (a b : BitVec w) : a * b = BitVec.ofNat w (a.toNat * b.toNat) := by
  rw [BitVec.ofNat_mul, ofNat_toNat_self, ofNat_toNat_self]

theorem sub_eq_ofInt {w : Nat} (a b : BitVec w) : a - b = BitVec.ofInt w ((a.toNat : Int) - b.toNat) := by
  rw [Int.sub_eq_add_neg, BitVec.ofInt_add, BitVec.ofInt_neg, BitVec.ofInt_natCast, BitVec.ofInt_natCast, ofNat_toNat_self,
    ofNat_toNat_self, BitVec.sub_eq_add_neg]

theorem neg_eq_ofInt {w : Nat} (a : BitVec w) : -a = BitVec.ofInt w (-(a.toNat : Int)) := by
  rw [BitVec.ofInt_neg, BitVec.ofInt_natCast, ofNat_toNat_self]

theorem word_complement (a : Word) : word (2 ^ 64 - 1 - a.toNat) = ~~~a := by
  rw [← BitVec.toNat_not, word_toNat, BitVec.setWidth_eq]

/-- Two sources taken modulo 2^W agree when their low bits do (R87). -/
theorem setWidth_beq (w : Nat) (a b : Word) :
    (a.toNat % 2 ^ w == b.toNat % 2 ^ w) = (a.setWidth w == b.setWidth w) := by
  rw [← BitVec.toNat_setWidth, ← BitVec.toNat_setWidth, Bool.eq_iff_iff, beq_iff_eq, beq_iff_eq, BitVec.toNat_inj]

section TwoSources
variable {s t : State} {a b : Word}

theorem sums_next (h : s.Ready) (hs : s.ReadsAB a b t) (hr : t.Room) (w : Width) :
    exec (.add w) s = .next (t.put 1 (low (widthBits w) (a + b))).passed ∧
    exec (.sub w) s = .next (t.put 1 (low (widthBits w) (a - b))).passed ∧
    exec (.mul w) s = .next (t.put 3 (low (widthBits w) (a * b))).passed := by
  rw [exec_add, execAdd, binary_next h hs hr, exec_sub, execSub, binary_next h hs hr, exec_mul, execMul, binary_next h hs hr,
    add_eq_ofNat, sub_eq_ofInt, mul_eq_ofNat, low_ofNat (widthBits_le w), low_ofInt (widthBits_le w), low_ofNat (widthBits_le w)]
  exact ⟨rfl, rfl, rfl⟩

theorem bitwise_next (h : s.Ready) (hs : s.ReadsAB a b t) (hr : t.Room) :
    exec .and64 s = .next (t.put 1 (a &&& b)).passed ∧ exec .or64 s = .next (t.put 1 (a ||| b)).passed ∧
    exec .xor64 s = .next (t.put 1 (a ^^^ b)).passed ∧ exec .andn64 s = .next (t.put 1 (a &&& ~~~b)).passed := by
  rw [exec_and64, execAnd64, binary_next h hs hr, exec_or64, execOr64, binary_next h hs hr, exec_xor64, execXor64,
    binary_next h hs hr, exec_andn64, execAndn64, binary_next h hs hr, ← BitVec.toNat_and, ← BitVec.toNat_or,
    ← BitVec.toNat_xor, ← BitVec.toNat_not, ← BitVec.toNat_and]
  simp only [word_toNat, BitVec.setWidth_eq, and_self]

theorem comparisons_next (h : s.Ready) (hs : s.ReadsAB a b t) (hr : t.Room) (w : Wide) (f : IForm) :
    exec (.ceq w) s = .next (t.put 1 (ofBool (a.setWidth (wideBits w) == b.setWidth (wideBits w)))).passed ∧
    exec (.cne w) s = .next (t.put 1 (ofBool (a.setWidth (wideBits w) != b.setWidth (wideBits w)))).passed ∧
    exec (.clt f) s = .next (t.put 1 (ofBool (decide (readForm f a < readForm f b)))).passed ∧
    exec (.cle f) s = .next (t.put 1 (ofBool (decide (readForm f a ≤ readForm f b)))).passed := by
  rw [exec_ceq, execCeq, compare_next h hs hr, exec_cne, execCne, compare_next h hs hr, exec_clt, execClt,
    compare_next h hs hr, exec_cle, execCle, compare_next h hs hr]
  simp only [bne, setWidth_beq, val_toNat, and_self]

end TwoSources

theorem oneSource_next {s t : State} {a : Word} (h : s.Ready) (hs : s.ReadsA a t) (hr : t.Room) (w : Width) (n : Narrow) :
    exec (.neg w) s = .next (t.put 1 (low (widthBits w) (-a))).passed ∧
    exec .not64 s = .next (t.put 1 (~~~a)).passed ∧
    exec (.zext n) s = .next (t.put 1 ((a.setWidth (narrowBits n)).setWidth 64)).passed ∧
    exec (.sext n) s = .next (t.put 1 ((a.setWidth (narrowBits n)).signExtend 64)).passed := by
  have hn : 0 < narrowBits n := by cases n <;> decide
  rw [exec_neg, execNeg, unary_next h hs hr, exec_not64, execNot64, unary_next h hs hr, exec_zext, execZext,
    unary_next h hs hr, exec_sext, execSext, unary_next h hs hr, neg_eq_ofInt, low_ofInt (widthBits_le w), word_complement,
    ← BitVec.toNat_setWidth, word_toNat, word_wrap64, sgn_eq_toInt hn, BitVec.ofNat_toNat]
  exact ⟨rfl, rfl, rfl, rfl⟩

/-- Settles O1: the forms of two sources, those of one, and the comparisons. -/
theorem integerAndBitwise : Obligations.IntegerAndBitwise := by
  unfold Obligations.IntegerAndBitwise
  refine ⟨⟨fun s t a b w h hs hr => ?_, fun s t a w n h hs hr => oneSource_next h hs hr w n⟩,
    fun s t a b w f h hs hr => comparisons_next h hs hr w f⟩
  obtain ⟨hadd, hsub, hmul⟩ := sums_next h hs hr w
  exact ⟨hadd, hsub, hmul, bitwise_next h hs hr⟩

end Sys2Proof.Machine
end

section
/-! High products, quotients, remainders, minima, maxima and clamped results under an integer suffix (R80, R82 to R85). -/

namespace Sys2Proof.Machine

/-- An exact integer narrowed under an integer suffix. -/
theorem word_wrap_form (f : IForm) (v : Int) : word (wrap (formBits f) v) = fitForm f v := word_wrap _ v

/-- The value of a source under a suffix narrows to the source's low bits. -/
theorem fitForm_readForm (f : IForm) (x : Word) : fitForm f (readForm f x) = word (x.toNat % 2 ^ formBits f) := by
  rw [fitForm, readForm, ← BitVec.toNat_setWidth, word_toNat]
  split
  · rw [BitVec.ofInt_toInt]
  · rw [BitVec.ofInt_natCast, ofNat_toNat_self]

/-- A source reads as zero exactly when its low bits are zero. -/
theorem readForm_eq_zero (f : IForm) (x : Word) : readForm f x = 0 ↔ x.toNat % 2 ^ formBits f = 0 := by
  rw [readForm, ← BitVec.toNat_setWidth]
  split
  · rw [← BitVec.toInt_zero, BitVec.toInt_inj, ← BitVec.toNat_inj, BitVec.toNat_zero]
  · exact Int.natCast_eq_zero

/-- The quotient of R83: all ones, which is -1, for a divisor of zero. -/
theorem word_quotient (f : IForm) (a b : Word) : word (quotient (formSigned f) (formBits f) a.toNat b.toNat) =
    fitForm f (if readForm f b = 0 then -1 else (readForm f a).tdiv (readForm f b)) := by
  rw [quotient, val_toNat, val_toNat]
  by_cases hb : readForm f b = 0
  · rw [if_pos hb, if_pos ((readForm_eq_zero f b).1 hb)]
    cases f <;> rfl
  · rw [if_neg hb, if_neg (mt (readForm_eq_zero f b).2 hb), word_wrap_form]

/-- The remainder of R83: the dividend for a divisor of zero. -/
theorem word_remainder (f : IForm) (a b : Word) : word (remainder (formSigned f) (formBits f) a.toNat b.toNat) =
    fitForm f (if readForm f b = 0 then readForm f a else (readForm f a).tmod (readForm f b)) := by
  rw [remainder, val_toNat, val_toNat]
  by_cases hb : readForm f b = 0
  · rw [if_pos hb, if_pos ((readForm_eq_zero f b).1 hb), fitForm_readForm]
  · rw [if_neg hb, if_neg (mt (readForm_eq_zero f b).2 hb), word_wrap_form, Int.tmod_def, Int.mul_comm]

theorem word_lesser (f : IForm) (a b : Word) : word (lesser (formSigned f) (formBits f) a.toNat b.toNat) =
    fitForm f (min (readForm f a) (readForm f b)) := by
  rw [lesser, val_toNat, val_toNat]
  split_ifs with h
  · rw [min_eq_right h.le, fitForm_readForm]
  · rw [min_eq_left (not_lt.1 h), fitForm_readForm]

theorem word_greater (f : IForm) (a b : Word) : word (greater (formSigned f) (formBits f) a.toNat b.toNat) =
    fitForm f (max (readForm f a) (readForm f b)) := by
  rw [greater, val_toNat, val_toNat]
  split_ifs with h
  · rw [max_eq_right h.le, fitForm_readForm]
  · rw [max_eq_left (not_lt.1 h), fitForm_readForm]

theorem clamp_eq {lo hi : Int} (h : lo ≤ hi) (v : Int) : clamp v lo hi = max lo (min hi v) := by
  rw [clamp]
  omega

theorem lowest_le_highest (f : IForm) : lowest (formSigned f) (formBits f) ≤ highest (formSigned f) (formBits f) := by
  cases f <;> decide

/-- A result clamped to the range of its type (R85). -/
theorem word_saturate (f : IForm) (v : Int) : word (saturate (formSigned f) (formBits f) v) =
    fitForm f (max (lowest (formSigned f) (formBits f)) (min (highest (formSigned f) (formBits f)) v)) := by
  rw [saturate, word_wrap_form, clamp_eq (lowest_le_highest f)]

/-- Settles O2: each form of two sources by what its number is as a word. -/
theorem productsDivisionAndClamping : Obligations.ProductsDivisionAndClamping := by
  unfold Obligations.ProductsDivisionAndClamping
  refine ⟨fun s t a b f h hs hr => ⟨?_, ?_, ?_⟩, fun s t a b f h hs hr => ⟨?_, ?_, ?_, ?_⟩⟩
  · rw [exec_mulh, execMulh, binary_next h hs hr, mulHigh, val_toNat, val_toNat, word_wrap_form]
  · rw [exec_div, execDiv, binary_next h hs hr, word_quotient]
  · rw [exec_rem, execRem, binary_next h hs hr, word_remainder]
  · rw [exec_min, execMin, binary_next h hs hr, word_lesser]
  · rw [exec_max, execMax, binary_next h hs hr, word_greater]
  · rw [exec_adds, execAdds, binary_next h hs hr, val_toNat, val_toNat, word_saturate]
    rfl
  · rw [exec_subs, execSubs, binary_next h hs hr, val_toNat, val_toNat, word_saturate]
    rfl

end Sys2Proof.Machine
end

section
/-! Shifts by the whole amount and rotations modulo the width (R92). -/

namespace Sys2Proof.Machine

/-- A left shift by the whole amount is that of the bit vector of the low bits. -/
theorem shiftLeft_eq (w a n : Nat) : shiftLeft w a n = (BitVec.ofNat w a <<< n).toNat := by
  rw [BitVec.toNat_shiftLeft, BitVec.toNat_ofNat, Nat.shiftLeft_eq, shiftLeft]
  split_ifs with h
  · exact (Nat.mod_eq_zero_of_dvd ((pow_dvd_pow 2 h).mul_left _)).symm
  · rfl

/-- A right shift by the whole amount is that of the bit vector of the low bits. -/
theorem shiftRight_eq (w a n : Nat) : shiftRight w a n = (BitVec.ofNat w a >>> n).toNat := by
  rw [BitVec.toNat_ushiftRight, BitVec.toNat_ofNat, Nat.shiftRight_eq_div_pow, shiftRight]
  split_ifs with h
  · exact (Nat.div_eq_of_lt ((Nat.mod_lt _ (Nat.two_pow_pos w)).trans_le (Nat.pow_le_pow_right (by decide) h))).symm
  · rfl

/-- Numbers of `w` bits shifted right by `w - 1` give the sign fill, and shifted further the same. -/
theorem toInt_div_min {w : Nat} (x : BitVec w) (n : Nat) : x.toInt / 2 ^ min n (w - 1) = x.toInt / 2 ^ n := by
  rcases le_total n (w - 1) with h | h
  · rw [min_eq_left h]
  · have hp : (2 : Int) ^ (w - 1) ≤ 2 ^ n := pow_le_pow_right₀ (by decide) h
    have hlo := BitVec.le_toInt x
    have hhi := @BitVec.toInt_lt w x
    rw [min_eq_right h]
    rcases lt_or_ge x.toInt 0 with hx | hx
    · rw [Int.ediv_eq_neg_one_of_neg_of_le hx (by omega), Int.ediv_eq_neg_one_of_neg_of_le hx (by omega)]
    · rw [Int.ediv_eq_zero_of_lt hx hhi, Int.ediv_eq_zero_of_lt hx (hhi.trans_le hp)]

/-- An arithmetic shift by the whole amount is that of the bit vector of the low bits. -/
theorem shiftArith_eq {w : Nat} (hw : 0 < w) (a n : Nat) : shiftArith w a n = ((BitVec.ofNat w a).sshiftRight n).toNat := by
  rw [shiftArith, sgn_eq_toInt hw, toInt_div_min, wrap_eq, ← BitVec.ofInt_toInt (x := BitVec.sshiftRight _ n),
    BitVec.toInt_sshiftRight, Int.shiftRight_eq_div_pow, Nat.cast_pow, Nat.cast_ofNat]

/-- The two parts of a rotated number do not overlap: those of its bits that stay below `w` when it is shifted up by `m`
stand above the `m` bits that come in at the bottom. -/
theorem rotate_eq_or {w m x : Nat} (hm : m ≤ w) (hx : x < 2 ^ w) :
    (x * 2 ^ m + x / 2 ^ (w - m)) % 2 ^ w = (x <<< m) % 2 ^ w ||| x >>> (w - m) := by
  have hw : 2 ^ w = 2 ^ (w - m) * 2 ^ m := by rw [← pow_add, Nat.sub_add_cancel hm]
  have hup : x * 2 ^ m % 2 ^ w = x % 2 ^ (w - m) * 2 ^ m := by rw [hw, Nat.mul_mod_mul_right]
  have hin : x / 2 ^ (w - m) < 2 ^ m := Nat.div_lt_of_lt_mul (hw ▸ hx)
  have hsum : x % 2 ^ (w - m) * 2 ^ m + x / 2 ^ (w - m) < 2 ^ w := calc
    _ < (x % 2 ^ (w - m) + 1) * 2 ^ m := by rw [Nat.add_mul, Nat.one_mul]; exact Nat.add_lt_add_left hin _
    _ ≤ 2 ^ w := hw ▸ Nat.mul_le_mul_right _ (Nat.mod_lt _ (Nat.two_pow_pos _))
  rw [← Nat.mod_add_mod, hup, Nat.mod_eq_of_lt hsum, Nat.shiftLeft_eq, hup, ← Nat.shiftLeft_eq, Nat.shiftRight_eq_div_pow,
    Nat.shiftLeft_add_eq_or_of_lt hin]

/-- A left rotation by the amount modulo the width is that of the bit vector of the low bits. -/
theorem rotLeft_eq {w : Nat} (hw : 0 < w) (a n : Nat) : rotLeft w a n = ((BitVec.ofNat w a).rotateLeft n).toNat := by
  rw [BitVec.toNat_rotateLeft, BitVec.toNat_ofNat, rotLeft,
    rotate_eq_or (Nat.mod_lt n hw).le (Nat.mod_lt a (Nat.two_pow_pos w))]

/-- A right rotation by `m` is a left one by the rest of the width. -/
theorem rotRight_eq {w : Nat} (hw : 0 < w) (a n : Nat) : rotRight w a n = ((BitVec.ofNat w a).rotateRight n).toNat := by
  have hrest : w - (w - n % w) = n % w := Nat.sub_sub_self (Nat.mod_lt n hw).le
  have := rotate_eq_or (Nat.sub_le w (n % w)) (Nat.mod_lt a (Nat.two_pow_pos w))
  rw [hrest, Nat.add_comm, Nat.or_comm] at this
  rw [BitVec.toNat_rotateRight, BitVec.toNat_ofNat, rotRight, this]

/-- Settles O3: each shift is that of the bit vector of the low bits. -/
theorem shiftsAndRotates : Obligations.ShiftsAndRotates := by
  unfold Obligations.ShiftsAndRotates
  intro s t a b w h hs hr
  rw [exec_shl, execShl, binary_next h hs hr, exec_shr, execShr, binary_next h hs hr, exec_sar, execSar,
    binary_next h hs hr, exec_rol, execRol, binary_next h hs hr, exec_ror, execRor, binary_next h hs hr]
  simp only [shiftLeft_eq, shiftRight_eq, shiftArith_eq (widthBits_pos w), rotLeft_eq (widthBits_pos w),
    rotRight_eq (widthBits_pos w), word_toNat, BitVec.ofNat_toNat, and_self]

end Sys2Proof.Machine
end

section
/-! Counts of bits, bit fields, and reversals of bits and bytes (R93, R94). -/

namespace Sys2Proof.Machine

theorem bit_eq_testBit (v i : Nat) : bit v i = v.testBit i := by
  rw [bit, Nat.testBit_eq_decide_div_mod_eq, beq_eq_decide]

/-! Counts -/

/-- Set bits are counted from the lowest (R93). -/
theorem popCount_eq (w a : Nat) : popCount w a = (List.range w).countP fun i => a.testBit i := by
  induction w generalizing a with
  | zero => rfl
  | succ w ih =>
    rw [popCount, ih, List.range_succ_eq_map, List.countP_cons, List.countP_map, Nat.add_comm]
    congr 1
    · simp only [Function.comp_def, Nat.succ_eq_add_one, Nat.testBit_succ]
    · rcases Nat.mod_two_eq_zero_or_one a with h | h <;> simp [Nat.testBit_zero, h]

/-- Leading zeros are those of the bits below the width alone. -/
theorem leadZeros_congr {w a b : Nat} (h : ∀ i < w, bit a i = bit b i) : leadZeros w a = leadZeros w b := by
  induction w with
  | zero => rfl
  | succ w ih => rw [leadZeros, leadZeros, h w (by omega), ih fun i hi => h i (by omega)]

/-- The library's count starts from the highest bit, as the model's does. -/
theorem clzAuxRec_toNat {w : Nat} (a : Nat) {n : Nat} (h : n < w) :
    ((BitVec.ofNat w a).clzAuxRec n).toNat = w - 1 - n + leadZeros (n + 1) a := by
  have hw : w < 2 ^ w := Nat.lt_two_pow_self
  induction n with
  | zero =>
    rw [BitVec.clzAuxRec_zero, BitVec.getLsbD_ofNat, leadZeros, leadZeros, bit_eq_testBit, decide_eq_true h, Bool.true_and]
    split_ifs
    · rw [BitVec.toNat_ofNat, Nat.mod_eq_of_lt (by omega)]; rfl
    · rw [BitVec.toNat_ofNat, Nat.mod_eq_of_lt hw]; omega
  | succ n ih =>
    rw [BitVec.clzAuxRec_succ, BitVec.getLsbD_ofNat, leadZeros, bit_eq_testBit, decide_eq_true h, Bool.true_and]
    split_ifs
    · rw [BitVec.toNat_ofNat, Nat.mod_eq_of_lt (by omega)]; rfl
    · rw [ih (by omega)]; omega

/-- Leading zeros of the low bits (R93). -/
theorem leadZeros_eq {w : Nat} (hw : 0 < w) (a : Nat) : leadZeros w a = (BitVec.ofNat w a).clz.toNat := by
  rw [BitVec.clz, clzAuxRec_toNat a (by omega : w - 1 < w), Nat.sub_self, Nat.zero_add, Nat.sub_add_cancel hw]

/-! Reversals -/

/-- The low `n` digits to base `b` in reverse order. -/
def reverseDigits (b : Nat) : Nat → Nat → Nat
  | 0, _ => 0
  | n + 1, a => a % b * b ^ n + reverseDigits b n (a / b)

theorem reverseBits_eq (n a : Nat) : reverseBits n a = reverseDigits 2 n a := by
  induction n generalizing a with
  | zero => rfl
  | succ n ih => rw [reverseBits, reverseDigits, ih]

theorem reverseBytes_eq (n a : Nat) : reverseBytes n a = reverseDigits 256 n a := by
  induction n generalizing a with
  | zero => rfl
  | succ n ih => rw [reverseBytes, reverseDigits, ih]

theorem reverseDigits_lt {b : Nat} (hb : 0 < b) (n a : Nat) : reverseDigits b n a < b ^ n := by
  induction n generalizing a with
  | zero => exact Nat.one_pos
  | succ n ih => calc
      a % b * b ^ n + reverseDigits b n (a / b) < a % b * b ^ n + b ^ n := Nat.add_lt_add_left (ih _) _
      _ = (a % b + 1) * b ^ n := by rw [Nat.add_mul, Nat.one_mul]
      _ ≤ b * b ^ n := Nat.mul_le_mul_right _ (Nat.mod_lt a hb)
      _ = b ^ (n + 1) := (pow_succ' b n).symm

/-- Each digit of a reversal is the digit at the mirrored place. -/
theorem reverseDigits_digit {b : Nat} (hb : 0 < b) {n i : Nat} (h : i < n) (a : Nat) :
    reverseDigits b n a / b ^ i % b = a / b ^ (n - 1 - i) % b := by
  induction n generalizing a with
  | zero => omega
  | succ n ih =>
    rw [reverseDigits]
    rcases Nat.lt_succ_iff_lt_or_eq.1 h with hi | rfl
    · have hn : b ^ n = b ^ i * (b * b ^ (n - 1 - i)) := by rw [← pow_succ', ← pow_add]; congr 1; omega
      have hm : n + 1 - 1 - i = n - 1 - i + 1 := by omega
      rw [hn, Nat.mul_left_comm, Nat.mul_add_div (Nat.pow_pos hb), Nat.mul_left_comm, Nat.mul_add_mod, ih hi, hm, pow_succ',
        Nat.div_div_eq_div_mul]
    · rw [Nat.add_sub_cancel, Nat.sub_self, pow_zero, Nat.div_one, Nat.mul_comm, Nat.mul_add_div (Nat.pow_pos hb),
        Nat.div_eq_of_lt (reverseDigits_lt hb i _), Nat.add_zero, Nat.mod_mod]

theorem testBit_reverseBits {w i : Nat} (h : i < w) (a : Nat) : (reverseBits w a).testBit i = a.testBit (w - 1 - i) := by
  rw [reverseBits_eq, Nat.testBit_eq_decide_div_mod_eq, reverseDigits_digit (by decide) h, Nat.testBit_eq_decide_div_mod_eq]

/-- The low bits in reverse order (R94). -/
theorem ofNat_reverseBits (w a : Nat) : BitVec.ofNat w (reverseBits w a) = (BitVec.ofNat w a).reverse := by
  refine BitVec.eq_of_getLsbD_eq fun i hi => ?_
  rw [BitVec.getLsbD_reverse, BitVec.getMsbD, BitVec.getLsbD_ofNat, BitVec.getLsbD_ofNat, testBit_reverseBits hi]
  simp [hi, show w - 1 - i < w by omega]

/-- Trailing zeros are the leading zeros of the reversal (R93). -/
theorem trailZeros_eq (w a : Nat) : trailZeros w a = leadZeros w (reverseBits w a) := by
  induction w generalizing a with
  | zero => rfl
  | succ w ih =>
    have hlow : ∀ i < w, bit (reverseBits (w + 1) a) i = bit (reverseBits w (a / 2)) i := fun i hi => by
      rw [bit_eq_testBit, bit_eq_testBit, testBit_reverseBits (by omega), testBit_reverseBits hi, ← Nat.testBit_succ]
      congr 1
      omega
    have htop : bit (reverseBits (w + 1) a) w = decide (a % 2 = 1) := by
      rw [bit_eq_testBit, testBit_reverseBits (by omega), Nat.add_sub_cancel, Nat.sub_self, Nat.testBit_zero]
    rw [trailZeros, leadZeros, htop, leadZeros_congr hlow, ih]
    simp only [decide_eq_true_eq]

theorem trailZeros_eq_ctz {w : Nat} (hw : 0 < w) (a : Nat) : trailZeros w a = (BitVec.ofNat w a).ctz.toNat := by
  rw [trailZeros_eq, leadZeros_eq hw, ofNat_reverseBits]
  rfl

/-- A field of a word made from a number. -/
theorem extractLsb'_word {i n : Nat} (h : i + n ≤ 64) (m : Nat) : (word m).extractLsb' i n = BitVec.ofNat n (m / 2 ^ i) := by
  refine BitVec.eq_of_getLsbD_eq fun j hj => ?_
  rw [BitVec.getLsbD_extractLsb', word, BitVec.getLsbD_ofNat, BitVec.getLsbD_ofNat, Nat.testBit_div_two_pow, Nat.add_comm j,
    decide_eq_true (by omega : i + j < 64), Bool.true_and]

/-- Bytes in reverse order (R94). -/
theorem extract_reverseBytes (a : Word) {i : Nat} (h : i < 8) :
    (word (reverseBytes 8 a.toNat)).extractLsb' (8 * i) 8 = a.extractLsb' (56 - 8 * i) 8 := by
  have hi : 2 ^ (8 * i) = 256 ^ i := pow_mul 2 8 i
  have hm : 2 ^ (56 - 8 * i) = 256 ^ (8 - 1 - i) := by rw [show 56 - 8 * i = 8 * (8 - 1 - i) by omega]; exact pow_mul 2 8 _
  apply BitVec.eq_of_toNat_eq
  rw [extractLsb'_word (by omega), BitVec.extractLsb'_toNat, BitVec.toNat_ofNat, Nat.shiftRight_eq_div_pow, reverseBytes_eq,
    hi, hm]
  exact reverseDigits_digit (by decide) h a.toNat

/-! Bit fields -/

theorem fieldPos_eq (b : Word) : fieldPos b.toNat = (b.extractLsb' 8 6).toNat := by
  rw [BitVec.extractLsb'_toNat, Nat.shiftRight_eq_div_pow]
  rfl

theorem fieldLen_eq (b : Word) : fieldLen b.toNat = min (b.extractLsb' 0 7).toNat 64 := by
  rw [BitVec.extractLsb'_toNat, Nat.shiftRight_eq_div_pow]
  rfl

/-- `bext` takes the bits of the field, and none above bit 63 (R94). -/
theorem getLsbD_extract (a b : Word) {i : Nat} (h : i < 64) : (word (extract a.toNat b.toNat)).getLsbD i =
    (decide (i < (b.extractLsb' 0 7).toNat) && a.getLsbD ((b.extractLsb' 8 6).toNat + i)) := by
  rw [word, BitVec.getLsbD_ofNat, extract, Nat.testBit_mod_two_pow, Nat.testBit_div_two_pow, fieldLen_eq, fieldPos_eq,
    BitVec.getLsbD, Nat.add_comm i]
  simp [h]

/-- The mask of a field has the field's bits (R94). -/
theorem testBit_fieldMask {len pos i : Nat} (h : i < 64) :
    ((2 ^ len - 1) * 2 ^ pos % 2 ^ 64).testBit i = decide (pos ≤ i ∧ i < pos + len) := by
  rw [Nat.testBit_mod_two_pow, Nat.testBit_mul_two_pow, Nat.testBit_two_pow_sub_one, decide_eq_true h, Bool.true_and,
    ← Bool.decide_and]
  exact decide_eq_decide.2 (by omega)

/-- The low bits of a number moved to a field (R94). -/
theorem testBit_field {len pos i : Nat} (h : i < 64) (a : Nat) : (a % 2 ^ len * 2 ^ pos % 2 ^ 64).testBit i =
    (decide (pos ≤ i ∧ i < pos + len) && a.testBit (i - pos)) := by
  rw [Nat.testBit_mod_two_pow, Nat.testBit_mul_two_pow, Nat.testBit_mod_two_pow, decide_eq_true h, Bool.true_and,
    ← Bool.and_assoc, ← Bool.decide_and]
  congr 1
  exact decide_eq_decide.2 (by omega)

/-- `bins` takes the bits of the field from A, and the others from D (R94). -/
theorem getLsbD_insertField (d a b : Word) {i : Nat} (h : i < 64) : (word (insertField d.toNat a.toNat b.toNat)).getLsbD i =
    if (b.extractLsb' 8 6).toNat ≤ i ∧ i < (b.extractLsb' 8 6).toNat + (b.extractLsb' 0 7).toNat then
      a.getLsbD (i - (b.extractLsb' 8 6).toNat)
    else d.getLsbD i := by
  have hlen : fieldPos b.toNat ≤ i ∧ i < fieldPos b.toNat + fieldLen b.toNat ↔
      fieldPos b.toNat ≤ i ∧ i < fieldPos b.toNat + (b.extractLsb' 0 7).toNat := by rw [fieldLen_eq]; omega
  rw [← fieldPos_eq, word, BitVec.getLsbD_ofNat, decide_eq_true h, Bool.true_and, insertField, Nat.testBit_or, Nat.testBit_and,
    Nat.sub_sub, Nat.add_comm 1, Nat.testBit_two_pow_sub_succ (Nat.mod_lt _ (Nat.two_pow_pos 64)), testBit_fieldMask h,
    testBit_field h, decide_eq_true h, Bool.true_and]
  by_cases hf : fieldPos b.toNat ≤ i ∧ i < fieldPos b.toNat + fieldLen b.toNat
  · rw [if_pos (hlen.1 hf), decide_eq_true hf, Bool.not_true, Bool.and_false, Bool.false_or, Bool.true_and]
    rfl
  · rw [if_neg (mt hlen.2 hf), decide_eq_false hf, Bool.not_false, Bool.and_true, Bool.false_and, Bool.or_false]
    rfl

end Sys2Proof.Machine
end

section
/-! Packed lanes (R95). -/

namespace Sys2Proof.Machine

/-- A lane of a packed result comes from the same lanes of the sources alone (R95). -/
theorem lanes_digit (l : Nat) (f : Nat → Nat → Nat) {n i : Nat} (h : i < n) (a b : Nat) :
    lanes l f n a b / 2 ^ (l * i) % 2 ^ l = f (a / 2 ^ (l * i) % 2 ^ l) (b / 2 ^ (l * i) % 2 ^ l) % 2 ^ l := by
  induction i generalizing n a b with
  | zero =>
    obtain ⟨n, rfl⟩ : ∃ m, n = m + 1 := ⟨n - 1, by omega⟩
    rw [lanes, Nat.mul_zero, pow_zero, Nat.div_one, Nat.div_one, Nat.div_one, Nat.add_mul_mod_self_left, Nat.mod_mod]
  | succ i ih =>
    obtain ⟨n, rfl⟩ : ∃ m, n = m + 1 := ⟨n - 1, by omega⟩
    have hp : 2 ^ (l * (i + 1)) = 2 ^ l * 2 ^ (l * i) := by rw [← pow_add, Nat.mul_succ, Nat.add_comm]
    rw [hp, ← Nat.div_div_eq_div_mul, ← Nat.div_div_eq_div_mul, ← Nat.div_div_eq_div_mul, ← ih (by omega : i < n), lanes,
      Nat.add_mul_div_left _ _ (Nat.two_pow_pos l), Nat.div_eq_of_lt (Nat.mod_lt _ (Nat.two_pow_pos l)), Nat.zero_add]

theorem toNat_laneOf (l : Lane) (x : Word) (i : Nat) :
    (laneOf l x i).toNat = x.toNat / 2 ^ (laneBits l * i) % 2 ^ laneBits l := by
  rw [laneOf, BitVec.extractLsb'_toNat, Nat.shiftRight_eq_div_pow]

/-- Each lane of a packed result, as the bit vector of what the lane function makes of the sources' lanes. -/
theorem laneOf_lanes (l : Lane) (f : Nat → Nat → Nat) (a b : Word) {i : Nat} (h : i < 64 / laneBits l) :
    laneOf l (word (lanes (laneBits l) f (64 / laneBits l) a.toNat b.toNat)) i =
      BitVec.ofNat (laneBits l) (f (laneOf l a i).toNat (laneOf l b i).toNat) := by
  have hi : laneBits l * i + laneBits l ≤ 64 := by cases l <;> simp only [laneBits] at h ⊢ <;> omega
  rw [laneOf, extractLsb'_word hi, toNat_laneOf, toNat_laneOf]
  apply BitVec.eq_of_toNat_eq
  rw [BitVec.toNat_ofNat, BitVec.toNat_ofNat, lanes_digit _ _ h]

/-- Settles O4: counts and reversals, the two bit fields, and the packed forms lane by lane. -/
theorem bitsAndPackedLanes : Obligations.BitsAndPackedLanes := by
  unfold Obligations.BitsAndPackedLanes
  refine ⟨⟨fun s t a w h hs hr => ⟨?_, ?_, ?_, ?_, ?_⟩, fun s t a b h hs hr => ?_, fun s t a b d h hs hr => ?_⟩,
    fun s t a b l h hs hr => ?_⟩
  · rw [exec_popc, execPopc, unary_next h hs hr, popCount_eq]
    rfl
  · rw [exec_clz, execClz, unary_next h hs hr, leadZeros_eq (widthBits_pos w), word_toNat, BitVec.ofNat_toNat]
  · rw [exec_ctz, execCtz, unary_next h hs hr, trailZeros_eq_ctz (widthBits_pos w), word_toNat, BitVec.ofNat_toNat]
  · rw [exec_brev64, execBrev64, unary_next h hs hr, word, ofNat_reverseBits, BitVec.ofNat_toNat, BitVec.setWidth_eq]
  · rw [exec_bswap64, execBswap64, unary_next h hs hr]
    exact ⟨_, rfl, fun i hi => extract_reverseBytes a hi⟩
  · rw [exec_bext64, execBext64, binary_next h hs hr]
    exact ⟨_, rfl, fun i hi => getLsbD_extract a b hi⟩
  · rw [exec_bins64, execBins64, ternary_next h hs hr]
    exact ⟨_, rfl, fun i hi => getLsbD_insertField d a b hi⟩
  · rw [exec_padd, execPadd, binary_next h hs hr, exec_psub, execPsub, binary_next h hs hr, exec_pshl, execPshl,
      binary_next h hs hr, exec_pshr, execPshr, binary_next h hs hr, exec_psar, execPsar, binary_next h hs hr, exec_pmul,
      execPmul, binary_next h hs hr]
    refine ⟨_, _, _, _, _, _, rfl, rfl, rfl, rfl, rfl, rfl, fun i hi => ?_⟩
    simp only [laneOf_lanes l _ a b hi]
    refine ⟨?_, ?_, ?_, ?_, ?_, ?_⟩
    · rw [add_eq_ofNat]
    · rw [sub_eq_ofInt, wrap_eq, ofNat_toNat_self]
    · rw [shiftLeft_eq, ofNat_toNat_self, ofNat_toNat_self]
    · rw [shiftRight_eq, ofNat_toNat_self, ofNat_toNat_self]
    · rw [shiftArith_eq (laneBits_pos l), ofNat_toNat_self, ofNat_toNat_self]
    · rw [mul_eq_ofNat]

end Sys2Proof.Machine
end

section
/-! Guards set, resolved and combined (R96, R98 to R102, R108). -/

namespace Sys2Proof.Machine

/-- Reading a source leaves the strand in focus as it was. -/
theorem src_st {o : Opd} {s t : State} {a : Word} (h : src o s = .ok (a, t)) : t.st = s.st := by
  have hu : t.focusU = s.focusU ∧ t.focusK = s.focusK := by
    rcases src_frame h with rfl | ⟨q, rfl⟩ <;> exact ⟨rfl, rfl⟩
  obtain ⟨hu, hk⟩ := hu
  show (t.slot t.focusU t.focusK).st = _
  rw [hu, hk, src_slot h]
  rfl

/-- The code of a definite guard state is what a comparison writes. -/
theorem ofNat_code_ofBool (b : Bool) : BitVec.ofNat 64 (GState.ofBool b).code = ofBool b := by cases b <;> rfl

theorem bne_zero (a : Word) : (a != 0) = decide (a ≠ 0) := by
  rw [bne, beq_eq_decide, decide_not]

theorem dstGuard_room {t : State} (h : t.Room) (x : GState) :
    dstGuard t.ir.d x t = .ok (t.put 1 (BitVec.ofNat 64 x.code)) := dst_room h 1 _

/-- A word written to the guard of D: true when it is not zero (R99). -/
theorem src_dstGuard {s t : State} {a : Word} (hs : s.ReadsA a t) (hr : t.Room) :
    (src s.ir.a s >>= fun p => dstGuard p.2.ir.d (GState.ofBool (p.1 != 0)) p.2) =
      .ok (t.put 1 (ofBool (decide (a ≠ 0)))) := by
  simp only [State.ReadsA] at hs
  simp only [hs, bind, Except.bind, dstGuard_room hr, ofNat_code_ofBool, bne_zero]

theorem gset_next {s t : State} {a : Word} (h : s.Ready) (hs : s.ReadsA a t) (hr : t.Room) :
    exec .gset s = .next (t.put 1 (ofBool (decide (a ≠ 0)))).passed := by
  rw [exec_gset, execGset]
  exact performSeq_ok h (src_dstGuard hs hr)

/-- `gres` of a pending guard writes it as `gset` does (R99). -/
theorem gres_next {s t : State} {a : Word} (h : s.Ready) (hs : s.ReadsA a t) (hr : t.Room)
    (hp : s.st.guard (guardIdx s.ir.d) = .p) : exec .gres s = .next (t.put 1 (ofBool (decide (a ≠ 0)))).passed := by
  rw [exec_gres, execGres]
  refine performSeq_ok h ?_
  rw [whole_one hs, hp]
  exact src_dstGuard hs hr

/-- `gres` of a guard that is not pending raises GUARD.STATE before its source is read (R99). -/
theorem gres_trap {s : State} (h : s.Ready) (hw : s.Whole [s.ir.a]) (hp : s.st.guard (guardIdx s.ir.d) ≠ .p) :
    exec .gres s = .next (s.trapHere { cause := .guardState }) := by
  rw [exec_gres, execGres]
  refine performSeq_trap h ?_
  simp only [State.Whole] at hw
  simp [whole, hw, hp, failIf, fail, bind, Except.bind]

/-- g0 is never pending (R21). -/
theorem guard_zero (st : Strand) : st.guard 0 = .t := rfl

theorem guardOp_next {s : State} (h : s.Ready) (hr : s.Room) (f : GState → GState → GState) :
    guardOp s f = .next (s.put 1 (BitVec.ofNat 64
      (f (s.st.guard (guardIdx s.ir.a)) (s.st.guard (guardIdx s.ir.b))).code)).passed :=
  performSeq_ok h (dstGuard_room hr _)

/-! The tables of R100 -/

theorem GState.and_eq (a b : GState) :
    a.and b = if a = .f ∨ b = .f then .f else if a = .p ∨ b = .p then .p else .t := by cases a <;> cases b <;> rfl

theorem GState.or_eq (a b : GState) :
    a.or b = if a = .t ∨ b = .t then .t else if a = .p ∨ b = .p then .p else .f := by cases a <;> cases b <;> rfl

theorem GState.xor_eq (a b : GState) :
    a.xor b = if a = .p ∨ b = .p then .p else if a = b then .f else .t := by cases a <;> cases b <;> rfl

theorem gget_next {s : State} (h : s.Ready) (hr : s.Room) :
    exec .gget s = .next (s.put 1 (word (s.st.guard (guardIdx s.ir.a)).code)).passed := by
  rw [exec_gget, execGget]
  exact performSeq_ok h (dst_room hr 1 _)

/-- Settles O10: `gset` and `gres`, then the tables, and the forms that read one guard or none. -/
theorem guardInstructions : Obligations.GuardInstructions := by
  unfold Obligations.GuardInstructions
  refine ⟨fun s t a h hs hr => ⟨gset_next h hs hr, fun hp => ?_⟩, fun s h hw => ⟨gres_trap h hw, fun hd => ?_⟩,
    fun s i j h hr ha hb => ?_, fun s i h hr ha => ⟨?_, ?_⟩, fun s h hr => ⟨?_, ?_⟩⟩
  · exact gres_next h hs hr (by rwa [src_st hs] at hp)
  · exact gres_trap h hw (by rw [hd, guardIdx, guard_zero]; decide)
  · rw [exec_gand, execGand, exec_gor, execGor, exec_gxor, execGxor, guardOp_next h hr, guardOp_next h hr,
      guardOp_next h hr, ha, hb, GState.and_eq, GState.or_eq, GState.xor_eq]
    exact ⟨rfl, rfl, rfl⟩
  · rw [exec_gnot, execGnot, guardOp_next h hr, ha, guardIdx]
    cases s.st.guard i <;> rfl
  · rw [gget_next h hr, ha, guardIdx]
    cases s.st.guard i <;> rfl
  · rw [exec_gpend, execGpend]
    exact performSeq_ok h (dstGuard_room hr .p)
  · rw [exec_nop, execNop]
    exact performSeq_ok h rfl

end Sys2Proof.Machine
end

section
/-! Where branches, calls and returns go, and the link they leave (R40, R103 to R105, R107). -/

namespace Sys2Proof.Machine

/-- A branch taken to a multiple of 4: what its target function writes, then PC there and the branch's cost (R34, R103). -/
theorem performBranch_taken {s t : State} (h : s.Ready) {o : Opd} {f : State → Except Stop (Nat × State)} {n : Nat}
    (hf : f s = .ok (n, t)) (hn : n % 4 = 0) :
    performBranch s o f = .next (t.branched (s.branchDelay o true) n (s.redirects o)) := by
  obtain ⟨hlive, hcond⟩ := h
  simp [performBranch, hlive, hcond, hf, hn, bind, Except.bind, pure, Except.pure, settleRun, State.branched]

/-- A branch taken to an address that is no multiple of 4 raises FETCH.ALN, and nothing is written (R40, R107). -/
theorem performBranch_misaligned {s t : State} (h : s.Ready) {o : Opd} {f : State → Except Stop (Nat × State)} {n : Nat}
    (hf : f s = .ok (n, t)) (hn : n % 4 ≠ 0) :
    performBranch s o f = .next (s.trapHere { cause := .fetchAln, addr := BitVec.ofNat 64 n }) := by
  obtain ⟨hlive, hcond⟩ := h
  simp [performBranch, hlive, hcond, hf, hn, bind, Except.bind, failAt, settleRun]

/-- An offset counts words of 12 bytes, so that it keeps PC's alignment (R103). -/
theorem offsetTarget_aligned {s : State} (h : s.st.pc.toNat % 4 = 0) : offsetTarget s % 4 = 0 := by
  simp only [offsetTarget, BitVec.toNat_add, BitVec.toNat_mul, BitVec.reduceToNat]
  omega

/-- The link of a call is the next word's address (R104). -/
theorem link_eq (s : State) : link s = s.fly 1 (.x 15) (s.st.pc + 12) := by
  rw [link, Nat.mod_eq_of_lt (BitVec.isLt _), word_toNat, BitVec.setWidth_eq]

/-- A register's target is its low 56 bits, read before anything else is written (R103, R104). -/
theorem register_target {s t : State} {a : Word} (h : s.ReadsA a t) (f : State → State) :
    (src s.ir.a s >>= fun p => pure (p.1.toNat % 2 ^ 56, f p.2)) = (.ok ((a.setWidth 56).toNat, f t) : Except Stop _) := by
  simp only [State.ReadsA] at h
  rw [h, BitVec.toNat_setWidth]
  rfl

/-- Settles O11: offsets, registers with an aligned target and a misaligned one, and the return. -/
theorem branches : Obligations.Branches := by
  unfold Obligations.Branches
  refine ⟨fun s h hpc => ⟨?_, ?_⟩, fun s t a h hs => ⟨fun ht => ⟨?_, ?_⟩, fun ht => ⟨?_, ?_⟩⟩, fun s h => ?_⟩
  · rw [exec_brOffset, execBrOffset, performBranch_taken h rfl (offsetTarget_aligned hpc)]
    rfl
  · rw [exec_callOffset, execCallOffset, performBranch_taken h rfl (offsetTarget_aligned hpc), link_eq]
    rfl
  · rw [exec_brRegister, execBrRegister]
    exact performBranch_taken h (register_target hs id) ht
  · rw [exec_callRegister, execCallRegister]
    exact performBranch_taken h (by rw [← link_eq]; exact register_target hs link) ht
  · rw [exec_brRegister, execBrRegister]
    exact performBranch_misaligned h (register_target hs id) ht
  · rw [exec_callRegister, execCallRegister]
    exact performBranch_misaligned h (register_target hs link) ht
  · intro target cost
    have htarget : (s.st.x[15]).toNat % 2 ^ 56 = target := (BitVec.toNat_setWidth ..).symm
    rw [exec_ret, execRet]
    split_ifs with ht
    · exact performBranch_taken h (by rw [htarget]) ht
    · exact performBranch_misaligned (t := s) h (by rw [htarget]) ht

end Sys2Proof.Machine
end

section
/-! FP32 arithmetic: what the forms write, and the results that zeros, infinities, negative numbers and NaN give (R110 to
R116). -/

namespace Sys2Proof.Machine

/-! The forms of bits 31:0 of their sources (R110) -/

theorem unary32_next {s t : State} {a : Word} (h : s.Ready) (hs : s.ReadsA a t) (hr : t.Room) (lat : Nat) (f : Nat → Nat) :
    unary32 s lat f = .next (t.put lat (word (f (a.toNat % 2 ^ 32)))).passed := unary_next h hs hr lat _

theorem binary32_next {s t : State} {a b : Word} (h : s.Ready) (hs : s.ReadsAB a b t) (hr : t.Room) (lat : Nat)
    (f : Nat → Nat → Nat) : binary32 s lat f =
      .next (t.put lat (word (f (a.toNat % 2 ^ 32) (b.toNat % 2 ^ 32)))).passed := binary_next h hs hr lat _

theorem compare32_next {s t : State} {a b : Word} (h : s.Ready) (hs : s.ReadsAB a b t) (hr : t.Room)
    (f : Nat → Nat → Bool) : compare32 s f =
      .next (t.put 1 (ofBool (f (a.toNat % 2 ^ 32) (b.toNat % 2 ^ 32)))).passed := compare_next h hs hr _

/-- SignBit of an FP32 source is bit 31 of its operand (R110, R111). -/
theorem sign32_toNat (a : Word) : sign32 (a.toNat % 2 ^ 32) = a.getLsbD 31 := by
  rw [sign32, bit_eq_testBit, Nat.testBit_mod_two_pow, BitVec.getLsbD]
  rfl

/-! What a code's value is (R62, R111) -/

/-- The sign of a code of 32 bits is whether it reaches 2^31. -/
theorem sign32_eq {x : Nat} (h : x < 2 ^ 32) : sign32 x = decide (2 ^ 31 ≤ x) := by
  rw [sign32, bit, beq_eq_decide]
  exact decide_eq_decide.2 (by omega)

theorem value32_nan {a : Nat} (h : isNan32 a = true) : value32 a = .nan := by
  rw [value32, if_pos (of_decide_eq_true h)]

theorem value32_fin {a : Nat} (h : a % 2 ^ 31 < 0x7F80_0000) :
    value32 a = .fin (if sign32 a then (fp32.value (a % 2 ^ 31)).neg else fp32.value (a % 2 ^ 31)) := by
  rw [value32, if_neg (by omega), if_neg (by omega)]

/-- A nonzero magnitude code has a nonzero magnitude (R62, R64). -/
theorem Grid.value_pos (g : Grid) {c : Nat} (h : 0 < c) : 0 < (g.value c).m := by
  have hp := Nat.two_pow_pos g.t
  rw [Grid.value]
  split_ifs <;> simp only <;> omega

theorem value32_pos {a : Nat} (h0 : 0 < a) (h1 : a < 0x7F80_0000) :
    ∃ v : Dyadic, value32 a = .fin v ∧ 0 < v.m ∧ sign32 a = false := by
  have hs : sign32 a = false := by rw [sign32_eq (by omega), decide_eq_false (by omega)]
  have hm : a % 2 ^ 31 = a := Nat.mod_eq_of_lt (by omega)
  refine ⟨fp32.value a, ?_, fp32.value_pos h0, hs⟩
  rw [value32_fin (by omega), hs, hm]
  rfl

/-- A code below -0, down to -inf, is -inf or a finite value below 0. -/
theorem value32_neg {a : Nat} (h0 : 0x8000_0000 < a) (h1 : a ≤ 0xFF80_0000) :
    value32 a = .inf true ∨ ∃ v : Dyadic, value32 a = .fin v ∧ v.m < 0 := by
  have hs : sign32 a = true := by rw [sign32_eq (by omega), decide_eq_true (by omega)]
  rcases h1.eq_or_lt with rfl | h1
  · exact .inl rfl
  · have hp : 0 < (fp32.value (a % 2 ^ 31)).m := fp32.value_pos (by omega)
    refine .inr ⟨(fp32.value (a % 2 ^ 31)).neg, ?_, ?_⟩
    · rw [value32_fin (by omega), hs]
      rfl
    · simpa only [Dyadic.neg, Left.neg_neg_iff] using hp

/-! NaN operands, whichever they are -/

theorem Real.add_nan (x : Real) : x.add .nan = .nan := by cases x <;> rfl
theorem Real.mul_nan (x : Real) : x.mul .nan = .nan := by cases x <;> rfl
theorem Real.nan_add (x : Real) : Real.nan.add x = .nan := rfl
theorem Real.nan_mul (x : Real) : Real.nan.mul x = .nan := rfl

theorem arith32_nan {a b : Nat} (h : isNan32 a = true ∨ isNan32 b = true) :
    add32 a b = nan32 ∧ sub32 a b = nan32 ∧ mul32 a b = nan32 ∧ div32 a b = nan32 := by
  rcases h with h | h
  · simp only [add32, sub32, mul32, div32, value32_nan h, Real.nan_add, Real.nan_mul, round32, and_self]
  · simp only [add32, sub32, mul32, div32, value32_nan h, Real.neg, Real.add_nan, Real.mul_nan, round32, true_and]
    cases value32 a <;> rfl

theorem fused32_nan {a b c : Nat} (h : isNan32 a = true ∨ isNan32 b = true ∨ isNan32 c = true) :
    fma32 c a b = nan32 ∧ fms32 c a b = nan32 := by
  rcases h with h | h | h
  all_goals simp only [fma32, fms32, value32_nan h, Real.nan_add, Real.add_nan, Real.nan_mul, Real.mul_nan, Real.neg, round32,
    and_self]

theorem functions32_nan {a : Nat} (h : isNan32 a = true) :
    sqrt32 a = nan32 ∧ rcp32 a = nan32 ∧ rsq32 a = nan32 ∧ exp232 a = nan32 ∧ log232 a = nan32 := by
  refine ⟨?_, (arith32_nan (.inr h)).2.2.2, ?_, ?_, ?_⟩
  · rw [sqrt32, value32_nan h]
  · rw [rsq32, value32_nan h]
  · rw [exp232, value32_nan h]
  · rw [log232, value32_nan h]

/-! Numbers below zero, and zeros and infinities beside a finite number (R113, R115, R116) -/

theorem functions32_neg {a : Nat} (h0 : 0x8000_0000 < a) (h1 : a ≤ 0xFF80_0000) :
    sqrt32 a = nan32 ∧ rsq32 a = nan32 ∧ log232 a = nan32 := by
  rcases value32_neg h0 h1 with h | ⟨v, h, hv⟩
  · simp only [sqrt32, rsq32, log232, h, if_true, and_self]
  · simp only [sqrt32, rsq32, log232, h, hv.ne, hv, if_true, if_false, and_self]

theorem value32_zero : value32 0 = .fin ⟨0, -149⟩ := by decide
theorem value32_negZero : value32 0x8000_0000 = .fin ⟨0, -149⟩ := by decide
theorem value32_inf : value32 0x7F80_0000 = .inf false := by decide
theorem value32_negInf : value32 0xFF80_0000 = .inf true := by decide

theorem quotients32_pos {a : Nat} (h0 : 0 < a) (h1 : a < 0x7F80_0000) :
    div32 a 0 = inf32 false ∧ div32 a 0x8000_0000 = inf32 true ∧ div32 a 0x7F80_0000 = signed 31 false 0 ∧
    div32 a 0xFF80_0000 = signed 31 true 0 ∧ div32 0x7F80_0000 a = inf32 false ∧ div32 0xFF80_0000 a = inf32 true := by
  obtain ⟨v, h, hv, hs⟩ := value32_pos h0 h1
  simp only [div32, h, value32_zero, value32_negZero, value32_inf, value32_negInf, hs, hv.ne', if_true, if_false]
  decide

/-- A product of a positive number and an infinity has the infinity's sign (R113). -/
theorem mul32_negInf {a : Nat} (h0 : 0 < a) (h1 : a < 0x7F80_0000) : mul32 a 0xFF80_0000 = inf32 true := by
  obtain ⟨v, h, hv, -⟩ := value32_pos h0 h1
  rw [mul32, h, value32_negInf, Real.mul, if_neg hv.ne', decide_eq_false hv.not_gt]
  rfl

/-- Settles O14: the forms that issue, by the number of their sources; then NaN operands, numbers below zero, positive
numbers beside zeros and infinities, and the single codes of R113, R115 and R116. -/
theorem floatArithmetic : Obligations.FloatArithmetic := by
  unfold Obligations.FloatArithmetic
  refine ⟨⟨fun s t a b h hs hr => ⟨?_, ?_, ?_, ?_⟩, fun s t a b d h hs hr => ⟨?_, ?_⟩,
    fun s t a h hs hr => ⟨?_, ?_, ?_, ?_, ?_⟩⟩, fun a b h => arith32_nan h, fun a b c h => fused32_nan h,
    fun a h => functions32_nan h, fun a h0 h1 => functions32_neg h0 h1, fun a h0 h1 => ?_, by decide⟩
  · rw [exec_addF32, execAddF32, binary32_next h hs hr, add32, sign32_toNat, sign32_toNat]
  · rw [exec_subF32, execSubF32, binary32_next h hs hr, sub32, sign32_toNat, sign32_toNat]
  · rw [exec_mulF32, execMulF32, binary32_next h hs hr, mul32, sign32_toNat, sign32_toNat, Bool.bne_eq_xor]
  · rw [exec_divF32, execDivF32, binary32_next h hs hr]
  · rw [exec_fmaF32, execFmaF32, addInto_next h hs hr, fma32, sign32_toNat, sign32_toNat, sign32_toNat, Bool.bne_eq_xor]
  · rw [exec_fmsF32, execFmsF32, addInto_next h hs hr, fms32, sign32_toNat, sign32_toNat, sign32_toNat, Bool.bne_eq_xor]
  · rw [exec_sqrtF32, execSqrtF32, unary32_next h hs hr]
  · rw [exec_rcpF32, execRcpF32, unary32_next h hs hr]
  · rw [exec_rsqF32, execRsqF32, unary32_next h hs hr]
  · rw [exec_exp2F32, execExp2F32, unary32_next h hs hr]
  · rw [exec_log2F32, execLog2F32, unary32_next h hs hr]
  · obtain ⟨hzero, hnegZero, hinf, hnegInf, hof, hofNeg⟩ := quotients32_pos h0 h1
    exact ⟨hzero, hnegZero, hinf, hnegInf, mul32_negInf h0 h1, hof, hofNeg⟩

end Sys2Proof.Machine
end

section
/-! Minima and maxima, comparisons, signs and classes of FP32 codes (R117 to R120). -/

namespace Sys2Proof.Machine

theorem toNat_mod_lt (a : Word) : a.toNat % 2 ^ 32 < 2 ^ 32 := Nat.mod_lt _ (Nat.two_pow_pos 32)

section Codes
variable {x y : Nat} (hx : x < 2 ^ 32) (hy : y < 2 ^ 32)
include hx hy

/-- The order of `min.f32` and `max.f32` extends the order of values (R117, R119). -/
theorem order32_lt_of_key32_lt (h : key32 x < key32 y) : order32 x < order32 y := by
  simp only [key32, order32, sign32_eq hx, sign32_eq hy, decide_eq_true_eq] at h ⊢
  split_ifs at h ⊢ <;> omega

/-- Codes of one value are equal, or both are zeros (R119). -/
theorem eq_or_zeros_of_key32_eq (h : key32 x = key32 y) : x = y ∨ (x % 2 ^ 31 = 0 ∧ y % 2 ^ 31 = 0) := by
  simp only [key32, sign32_eq hx, sign32_eq hy, decide_eq_true_eq] at h
  split_ifs at h <;> omega

/-- The choice of R117 among codes of 32 bits. -/
theorem pick32_eq (greater : Bool) : pick32 greater x y =
    if isNan32 x then (if isNan32 y then nan32 else y)
    else if isNan32 y then x
    else if greater then (if order32 x < order32 y then y else x)
    else if order32 y < order32 x then y else x := by
  rw [pick32, Nat.mod_eq_of_lt hx, Nat.mod_eq_of_lt hy]

/-- The results that a NaN operand decides (R117). -/
theorem pick32_nan :
    (isNan32 x = true → isNan32 y = true → pick32 false x y = nan32 ∧ pick32 true x y = nan32) ∧
    (isNan32 x = true → isNan32 y = false → pick32 false x y = y ∧ pick32 true x y = y) ∧
    (isNan32 x = false → isNan32 y = true → pick32 false x y = x ∧ pick32 true x y = x) := by
  refine ⟨fun hnx hny => ?_, fun hnx hny => ?_, fun hnx hny => ?_⟩ <;> simp [pick32_eq hx hy, hnx, hny]

theorem pick32_of_key32_lt (hnx : isNan32 x = false) (hny : isNan32 y = false) (h : key32 x < key32 y) :
    pick32 false x y = x ∧ pick32 true x y = y := by
  have ho := order32_lt_of_key32_lt hx hy h
  simp [pick32_eq hx hy, hnx, hny, ho, ho.le]

theorem pick32_of_key32_gt (hnx : isNan32 x = false) (hny : isNan32 y = false) (h : key32 y < key32 x) :
    pick32 false x y = y ∧ pick32 true x y = x := by
  have ho := order32_lt_of_key32_lt hy hx h
  simp [pick32_eq hx hy, hnx, hny, ho, ho.le]

omit hy in
theorem pick32_self (hnx : isNan32 x = false) (g : Bool) : pick32 g x x = x := by
  simp [pick32_eq hx hx, hnx]

end Codes

/-! Bits and classes (R118, R120) -/

theorem word_abs32 (a : Word) : word (a.toNat % 2 ^ 32 % 2 ^ 31) = (a.setWidth 31).setWidth 64 := by
  rw [Nat.mod_mod_of_dvd _ (by decide), ← BitVec.toNat_setWidth, word_toNat]

/-- Adding 2^31 modulo 2^32 inverts bit 31 and no other. -/
theorem toNat_xor_top (x : BitVec 32) : (x ^^^ 0x8000_0000).toNat = (x.toNat + 2 ^ 31) % 2 ^ 32 := by
  have htop : (0x8000_0000 : BitVec 32).toNat = 2 ^ 31 := rfl
  refine Nat.eq_of_testBit_eq fun i => ?_
  rw [BitVec.toNat_xor, Nat.testBit_xor, htop, Nat.testBit_two_pow, Nat.testBit_mod_two_pow, Nat.add_comm]
  rcases lt_trichotomy i 31 with hi | rfl | hi
  · simp [Nat.testBit_two_pow_add_gt hi, show i < 32 by omega, hi.ne']
  · rw [Nat.testBit_two_pow_add_eq]
    simp
  · simp [show ¬ i < 32 by omega, hi.ne, BitVec.testBit_toNat, BitVec.getLsbD_of_ge x i (by omega)]

theorem word_neg32 (a : Word) :
    word ((a.toNat % 2 ^ 32 + 2 ^ 31) % 2 ^ 32) = (a.setWidth 32 ^^^ 0x8000_0000).setWidth 64 := by
  rw [← BitVec.toNat_setWidth, ← toNat_xor_top, word_toNat]

/-- The bit of `class.f32` for a magnitude code, its sign, and bit 22 (R120). -/
def classIndex (c : Nat) (neg quiet : Bool) : Nat :=
  if 0x7F80_0000 < c then (if quiet then 9 else 8)
  else if c = 0x7F80_0000 then (if neg then 0 else 7)
  else if c = 0 then (if neg then 3 else 4)
  else if c < 2 ^ 23 then (if neg then 2 else 5)
  else if neg then 1 else 6

theorem class32_eq (a : Nat) : class32 a = 2 ^ classIndex (a % 2 ^ 31) (sign32 a) (bit a 22) := rfl

theorem classIndex_lt (c : Nat) (neg quiet : Bool) : classIndex c neg quiet < 10 := by
  unfold classIndex
  split_ifs <;> decide

/-- Each bit of `class.f32` and the codes of its class: infinities, normal and subnormal numbers, zeros, NaNs (R120). -/
theorem classIndex_iff (c : Nat) (neg quiet : Bool) :
    let i := classIndex c neg quiet
    (i = 0 ↔ c = 0x7F80_0000 ∧ neg = true) ∧ (i = 7 ↔ c = 0x7F80_0000 ∧ neg = false) ∧
    (i = 1 ↔ 2 ^ 23 ≤ c ∧ c < 0x7F80_0000 ∧ neg = true) ∧ (i = 6 ↔ 2 ^ 23 ≤ c ∧ c < 0x7F80_0000 ∧ neg = false) ∧
    (i = 2 ↔ 0 < c ∧ c < 2 ^ 23 ∧ neg = true) ∧ (i = 5 ↔ 0 < c ∧ c < 2 ^ 23 ∧ neg = false) ∧
    (i = 3 ↔ c = 0 ∧ neg = true) ∧ (i = 4 ↔ c = 0 ∧ neg = false) ∧
    (i = 8 ↔ 0x7F80_0000 < c ∧ quiet = false) ∧ (i = 9 ↔ 0x7F80_0000 < c ∧ quiet = true) := by
  intro i
  simp only [i, classIndex]
  split_ifs <;> simp [*] <;> omega

theorem word_class32 (a : Word) : word (class32 (a.toNat % 2 ^ 32)) =
    BitVec.twoPow 64 (classIndex (a.toNat % 2 ^ 31) (a.getLsbD 31) (a.getLsbD 22)) := by
  have hquiet : bit (a.toNat % 2 ^ 32) 22 = a.getLsbD 22 := by
    rw [bit_eq_testBit, Nat.testBit_mod_two_pow, BitVec.getLsbD]
    rfl
  rw [class32_eq, sign32_toNat, hquiet, Nat.mod_mod_of_dvd _ (by decide)]
  apply BitVec.eq_of_toNat_eq
  rw [BitVec.toNat_twoPow, word, BitVec.toNat_ofNat]

end Sys2Proof.Machine
end

section
/-! Conversions between integers, FP32, the 16-bit formats and binary8 (R72, R121 to R124). -/

namespace Sys2Proof.Machine

/-- RoundNE to a format of the same exponent bias and `d` more bits of significand is exact: the code moves up by `d` bits
(R62, R70, R72). -/
theorem Grid.round_value {g k : Grid} {d c : Nat} (hb : k.bias = g.bias) (ht : k.t = g.t + d) (hc : c ≠ 0) :
    k.round (g.value c).m.natAbs (g.value c).e = c * 2 ^ d := by
  have hlow : g.low - k.low = d := by simp only [Grid.low, hb, ht]; push_cast; ring
  have hdiv := Nat.div_add_mod c (2 ^ g.t)
  have hmod := Nat.mod_lt c (Nat.two_pow_pos g.t)
  rw [Grid.value]
  split_ifs with h0
  · have hlt : c < 2 ^ g.t := (Nat.div_eq_zero_iff_lt (Nat.two_pow_pos _)).1 h0
    have hlog : Nat.log2 c < g.t := (Nat.log2_lt hc).2 hlt
    have hu : max ((Nat.log2 c : Int) + g.low - k.t) k.low = k.low := max_eq_right (by omega)
    simp only [Grid.round, Int.natAbs_natCast, hu]
    rw [if_pos (by omega), hlow]
    simp
  · have hpos : 0 < c / 2 ^ g.t := Nat.pos_of_ne_zero h0
    have hlog : Nat.log2 (2 ^ g.t + c % 2 ^ g.t) = g.t :=
      (Nat.log2_eq_iff (by omega)).2 ⟨by omega, by rw [pow_succ]; omega⟩
    obtain ⟨n, hn⟩ : ∃ n, c / 2 ^ g.t = n + 1 := ⟨c / 2 ^ g.t - 1, by omega⟩
    have hu : max ((g.t : Int) + (g.low + (c / 2 ^ g.t : Nat) - 1) - k.t) k.low = k.low + n := by
      rw [hn]; omega
    simp only [Grid.round, Int.natAbs_natCast, hlog, hu]
    have hbinades : (k.low + ↑n - k.low).toNat = n := by omega
    have hshift : (g.low + ((c / 2 ^ g.t : Nat) : Int) - 1 - (k.low + n)).toNat = d := by omega
    rw [if_pos (by omega), hbinades, hshift, ht, pow_add]
    rw [hn] at hdiv
    nth_rw 2 [← hdiv]
    ring

/-- A BF16 code is the top half of the FP32 code of its value (R72). -/
theorem widen16_bf16 {a : Nat} (h : a < 2 ^ 16) : widen16 bf16 a = a * 2 ^ 16 := by
  have hs : (bit a 15).toNat = a / 2 ^ 15 := by
    rw [bit_eq_testBit, Nat.toNat_testBit]
    omega
  have ht : fp32.t = bf16.t + 16 := rfl
  simp only [widen16]
  split_ifs with hi hz
  · simp only [signed, hs, bf16] at *; omega
  · simp only [signed, hs]; omega
  · simp only [signed, hs, Grid.round_value (g := bf16) (k := fp32) rfl ht hz]; omega

theorem word_widen16_bf16 (a : Word) : word (widen16 bf16 (a.toNat % 2 ^ 16)) = (a.setWidth 16).setWidth 64 <<< 16 := by
  have hlt : a.toNat % 2 ^ 16 < 2 ^ 16 := Nat.mod_lt _ (Nat.two_pow_pos 16)
  apply BitVec.eq_of_toNat_eq
  rw [widen16_bf16 hlt, word, BitVec.toNat_ofNat, BitVec.toNat_shiftLeft, BitVec.toNat_setWidth, BitVec.toNat_setWidth,
    Nat.shiftLeft_eq]
  omega

/-- A conversion clamped to the range of its integer type (R85, R122). -/
theorem word_toInt32 (f : IForm) (x : Nat) {v : Dyadic} (h : value32 x = .fin v) :
    word (toInt32 (formSigned f) (formBits f) x) =
      fitForm f (max (lowest (formSigned f) (formBits f)) (min (highest (formSigned f) (formBits f)) v.trunc)) := by
  rw [toInt32, word_wrap_form, h]
  simp only [clamp_eq (lowest_le_highest f)]

/-! Binary8 (R124) -/

/-- A format operand names a binary8 format, and no saturation where none is taken (R124). -/
theorem formatBad_iff (b : Word) (sat : Bool) : formatBad b.toNat sat = true ↔
    ¬ ((b.toNat < 64 ∧ 4 ≤ b.toNat % 32) ∧ (sat = true ∨ b.getLsbD 5 = false)) := by
  have hknown : (b.toNat < 64 ∧ 4 ≤ b.toNat % 32) ↔ ¬ (b.toNat / 2 ^ 6 ≠ 0 ∨ b.toNat % 2 ^ 5 < 4) := by omega
  simp only [formatBad, bit_eq_testBit, BitVec.getLsbD, hknown, Bool.or_eq_true, Bool.and_eq_true, Bool.not_eq_true',
    bne_iff_ne, decide_eq_true_eq, not_and_or, not_or, not_not, Bool.not_eq_true, Bool.not_eq_false]

theorem formatBad_false {b : Word} {sat : Bool} (hb : b.toNat < 64 ∧ 4 ≤ b.toNat % 32)
    (hs : sat = true ∨ b.getLsbD 5 = false) : formatBad b.toNat sat = false :=
  Bool.eq_false_iff.2 fun hbad => (formatBad_iff b sat).1 hbad ⟨hb, hs⟩

section Convert8
variable {s r t : State} {a b : Word} {sat : Bool} (h : s.Ready) (hw : s.Whole [s.ir.a, s.ir.b]) (hb : s.ReadsB b r)
include h hw hb

/-- A bad format operand raises FMT.BAD, whatever A would read (R6, R124). -/
theorem convert8_trap (hf : formatBad b.toNat sat = true) (f : Nat → Nat → Nat) :
    convert8 s sat f = .next (s.trapHere { cause := .fmtBad }) := by
  simp only [State.Whole, State.ReadsB] at hw hb
  refine performSeq_trap h ?_
  simp [whole, hw, hb, hf, failIf, fail, bind, Except.bind]

theorem convert8_next (hf : formatBad b.toNat sat = false) (ha : src r.ir.a r = .ok (a, t)) (hr : t.Room)
    (f : Nat → Nat → Nat) : convert8 s sat f = .next (t.put 3 (word (f a.toNat b.toNat))).passed := by
  simp only [State.Whole, State.ReadsB] at hw hb
  refine performSeq_ok h ?_
  simp [whole, hw, hb, hf, failIf, ha, bind, Except.bind, dst_room hr]

end Convert8

/-- Settles O15: the forms of two sources and the choice of R117; those of one source; then the conversions. -/
theorem floatComparisonsAndConversions : Obligations.FloatComparisonsAndConversions := by
  unfold Obligations.FloatComparisonsAndConversions
  refine ⟨⟨fun s t a b h hs hr => ?_, fun s t a h hs hr => ⟨?_, ?_, ?_⟩⟩, fun s t a f h hs hr => ⟨?_, ?_, ?_, ?_, ?_, ?_⟩,
    fun s r t a b h hw hb => ⟨?_, ?_, fun ha hr => ⟨?_, ?_⟩⟩⟩
  · have hx := toNat_mod_lt a
    have hy := toNat_mod_lt b
    obtain ⟨hboth, hfirst, hsecond⟩ := pick32_nan hx hy
    refine ⟨?_, ?_, ?_, ?_, ?_, ?_, hboth, hfirst, hsecond, pick32_of_key32_lt hx hy, pick32_of_key32_gt hx hy, ?_,
      fun _ _ => eq_or_zeros_of_key32_eq hx hy, by decide, by decide⟩
    · rw [exec_minF32, execMinF32, binary32_next h hs hr]
    · rw [exec_maxF32, execMaxF32, binary32_next h hs hr]
    · rw [exec_cunF32, execCunF32, compare32_next h hs hr]; rfl
    · rw [exec_ceqF32, execCeqF32, compare32_next h hs hr]; rfl
    · rw [exec_cltF32, execCltF32, compare32_next h hs hr]; rfl
    · rw [exec_cleF32, execCleF32, compare32_next h hs hr]; rfl
    · intro hn he
      rw [← he]
      exact ⟨pick32_self hx hn false, pick32_self hx hn true⟩
  · rw [exec_absF32, execAbsF32, unary32_next h hs hr, word_abs32]
  · rw [exec_negF32, execNegF32, unary32_next h hs hr, word_neg32]
  · refine ⟨classIndex (a.toNat % 2 ^ 31) (a.getLsbD 31) (a.getLsbD 22), classIndex_lt _ _ _, ?_, classIndex_iff _ _ _⟩
    rw [exec_classF32, execClassF32, unary32_next h hs hr, word_class32]
  · rw [exec_cvtF32FromInt, execCvtF32FromInt, unary_next h hs hr, ofInt32, val_toNat]
  · rw [exec_cvtIntFromF32, execCvtIntFromF32, unary32_next h hs hr]
    cases hv : value32 (a.toNat % 2 ^ 32) with
    | nan => rw [toInt32, word_wrap_form, hv]
    | inf neg => rw [toInt32, word_wrap_form, hv]; rfl
    | fin v => rw [word_toInt32 f _ hv]; rfl
  · rw [exec_cvtF32F16, execCvtF32F16, unary_next h hs hr]
  · rw [exec_cvtF32Bf16, execCvtF32Bf16, unary_next h hs hr, word_widen16_bf16]
  · rw [exec_cvtF16F32, execCvtF16F32, unary32_next h hs hr]
  · rw [exec_cvtBf16F32, execCvtBf16F32, unary32_next h hs hr]
  · intro hbad
    rw [exec_cvtF32B8, execCvtF32B8]
    exact convert8_trap h hw hb ((formatBad_iff b false).2 (by simpa using hbad)) _
  · intro hbad
    rw [exec_cvtB8F32, execCvtB8F32]
    exact convert8_trap h hw hb ((formatBad_iff b true).2 (by simpa using hbad)) _
  · intro hgood
    rw [exec_cvtF32B8, execCvtF32B8]
    exact convert8_next h hw hb (formatBad_false hgood.1 (.inr hgood.2)) ha hr _
  · intro hgood
    rw [exec_cvtB8F32, execCvtB8F32, convert8_next h hw hb (formatBad_false hgood (.inl rfl)) ha hr, bit_eq_testBit]
    rfl

end Sys2Proof.Machine
end

section
/-! `fork`, `callat` and `send`: the tests on their operands and the send buffer they fill (R126, R132, R162 to R164). -/

namespace Sys2Proof.Machine

/-! The parts of an effect in turn -/

theorem ok_bind {α β : Type} (a : α) (f : α → Except Stop β) : (Except.ok a >>= f) = f a := rfl

theorem error_bind {α β : Type} (e : Stop) (f : α → Except Stop β) : (Except.error e >>= f) = .error e := rfl

theorem fail_bind {α β : Type} (c : Cause) (f : α → Except Stop β) : ((fail c : Except Stop α) >>= f) = fail c := rfl

section Effect

/-! A row whose effect is followed by the next word: what it comes to is read off its effect. -/

variable {s : State} {i : Instr} {body : State → Run} (h : s.Ready) (hi : exec i s = performSeq s body)
include h hi

theorem row_next {t : State} (hb : body s = .ok t) : exec i s = .next t.passed := hi.trans (performSeq_ok h hb)

theorem row_trap {t : Trap} (hb : body s = .error (.trap t)) : exec i s = .next (s.trapHere t) :=
  hi.trans (performSeq_trap h hb)

theorem row_fail {c : Cause} (hb : body s = fail c) : exec i s = .next (s.trapHere { cause := c }) := row_trap h hi hb

theorem row_block (hb : body s = .error (.block none)) : exec i s = .next (s.blockSlot s.focusU s.focusK) :=
  hi.trans (performSeq_block h hb)

end Effect

/-! Operands -/

/-- The operands of a form that make its record malformed, the budget as a 64-bit number (R126, R162). -/
def BadRecord (code budget : Word) : Prop :=
  budget = 0 ∨ 2 ^ 32 ≤ budget.toNat ∨ code.toNat % 4 ≠ 0 ∨ 2 ^ 56 ≤ code.toNat

theorem recBad_iff (t : State) (code budget : Word) :
    recBad (forkRec t code budget) budget = true ↔ BadRecord code budget := by
  have hc : code.toNat < 2 ^ 64 := code.isLt
  have hz : budget.setWidth 32 = 0 ↔ budget.toNat % 2 ^ 32 = 0 := by
    rw [← BitVec.toNat_inj, BitVec.toNat_setWidth]; rfl
  have hw : budget = 0 ↔ budget.toNat = 0 := by rw [← BitVec.toNat_inj]; rfl
  simp only [recBad, forkRec, Rec.bad, bits, BadRecord, Bool.or_eq_true, beq_iff_eq, bne_iff_ne, hz, hw]
  omega

/-- A target operand names no unit for the strand in focus (R163, R164). -/
theorem unitBad_iff (s : State) (d : Word) : unitBad s d = true ↔
    2 ^ 21 ≤ d.toNat ∨ isWorker d.toNat = false ∨ s.owner d.toNat ≠ some s.st.ctx := by
  have h : d.toNat / 2 ^ 21 ≠ 0 ↔ 2 ^ 21 ≤ d.toNat := by omega
  simp only [unitBad, Bool.or_eq_true, bne_iff_ne, Bool.not_eq_true', h, or_assoc]

/-! The send buffer -/

/-- The strand in focus with an entry in its send buffer that has half its weight (R132, R146). -/
def State.buffered (t : State) (r : Rec) (o : Origin) (target : Nat) (idx : BitVec 8) : State :=
  t.modSt fun st =>
    { st with
      sends := st.sends ++ [⟨⟨r, BitVec.ofNat 64 (t.st.wgt.toNat / 2), o, 0, st.launch, st.ctx, st.dep, none, false, false,
        none⟩, target, idx⟩],
      wgt := st.wgt - BitVec.ofNat 64 (t.st.wgt.toNat / 2) }

/-- Filling the send buffer: SEND.FULL, then WGT.EXH, else the entry with its weight (R132, R146). -/
theorem bufferSend_cases (r : Rec) (o : Origin) (target : Nat) (idx : BitVec 8) (t : State) :
    (sendsRoom ≤ t.st.sends.length → bufferSend r o target idx t = fail .sendFull) ∧
    (¬ sendsRoom ≤ t.st.sends.length → t.st.wgt.toNat < 2 → bufferSend r o target idx t = fail .wgtExh) ∧
    (¬ sendsRoom ≤ t.st.sends.length → 2 ≤ t.st.wgt.toNat →
      bufferSend r o target idx t = .ok (t.buffered r o target idx)) := by
  simp only [bufferSend]
  refine ⟨fun hf => ?_, fun hf hw => ?_, fun hf hw => ?_⟩
  · rw [failIf_true (decide_eq_true hf), fail_bind]
  · rw [failIf_false (decide_eq_false hf), ok_bind, failIf_true (decide_eq_true hw), fail_bind]
  · rw [failIf_false (decide_eq_false hf), ok_bind, failIf_false (decide_eq_false (Nat.not_lt.2 hw)), ok_bind]; rfl

section Sending

variable {s t : State} {i : Instr} {body : State → Run} (h : s.Ready) (hi : exec i s = performSeq s body)
include h hi

/-- A form whose effect ends in filling the send buffer (R132, R146, R162). -/
theorem row_bufferSend {r : Rec} {o : Origin} {target : Nat} {idx : BitVec 8}
    (hb : body s = bufferSend r o target idx t) :
    (16 ≤ t.st.sends.length → exec i s = .next (s.trapHere { cause := .sendFull })) ∧
    (¬ 16 ≤ t.st.sends.length → t.st.wgt.toNat < 2 → exec i s = .next (s.trapHere { cause := .wgtExh })) ∧
    (¬ 16 ≤ t.st.sends.length → 2 ≤ t.st.wgt.toNat → exec i s = .next (t.buffered r o target idx).passed) := by
  obtain ⟨hfull, hspent, hroom⟩ := bufferSend_cases r o target idx t
  exact ⟨fun hf => row_fail h hi (hb.trans (hfull hf)), fun hf hw => row_fail h hi (hb.trans (hspent hf hw)),
    fun hf hw => row_next h hi (hb.trans (hroom hf hw))⟩

/-- A form that makes its record of code and budget: REC.BAD, and then what filling the send buffer comes to (R126, R162). -/
theorem row_forkRec {a b : Word} {o : Origin} {target : Nat}
    (hb : body s = (failIf (recBad (forkRec t a b) b) .recBad >>= fun _ => bufferSend (forkRec t a b) o target 0 t)) :
    (BadRecord a b → exec i s = .next (s.trapHere { cause := .recBad })) ∧
    (¬ BadRecord a b → 16 ≤ t.st.sends.length → exec i s = .next (s.trapHere { cause := .sendFull })) ∧
    (¬ BadRecord a b → ¬ 16 ≤ t.st.sends.length → t.st.wgt.toNat < 2 →
      exec i s = .next (s.trapHere { cause := .wgtExh })) ∧
    (¬ BadRecord a b → ¬ 16 ≤ t.st.sends.length → 2 ≤ t.st.wgt.toNat →
      exec i s = .next (t.buffered (forkRec t a b) o target 0).passed) := by
  by_cases hr : BadRecord a b
  · rw [failIf_true ((recBad_iff t a b).2 hr), fail_bind] at hb
    exact ⟨fun _ => row_fail h hi hb, fun c => absurd hr c, fun c => absurd hr c, fun c => absurd hr c⟩
  · rw [failIf_false (by rwa [← Bool.not_eq_true, recBad_iff]), ok_bind] at hb
    obtain ⟨hfull, hspent, hroom⟩ := row_bufferSend h hi hb
    exact ⟨fun c => absurd c hr, fun _ => hfull, fun _ => hspent, fun _ => hroom⟩

end Sending

/-- Settles O27: the record of `fork`, then those of `callat` and `send` behind the test of their target. -/
theorem taskSends : Obligations.TaskSends := by
  unfold Obligations.TaskSends
  intro s t h traps args bad half put full record far
  have hnear : ∀ {d}, ¬ far d → unitBad t d = false := fun hf => Bool.eq_false_iff.2 (mt (unitBad_iff t _).1 hf)
  refine ⟨fun a b hs => ?_, fun a b d hs => ?_, fun u a d ha hd => ?_⟩
  · simp only [State.ReadsAB] at hs
    exact row_forkRec h (exec_fork _) (by simp only [hs, ok_bind])
  · simp only [State.ReadsABD] at hs
    refine ⟨fun hf => row_fail h (exec_callat _) ?_, fun hf => row_forkRec h (exec_callat _) ?_⟩
    · simp only [hs, ok_bind, failIf_true ((unitBad_iff t d).2 hf), fail_bind]
    · simp only [hs, ok_bind, failIf_false (hnear hf)]
  · have hw := whole_two ha (src_ir ha ▸ hd)
    simp only [State.ReadsA] at ha
    refine ⟨fun hf => row_fail h (exec_send _) ?_, fun hf => ⟨fun hi => row_fail h (exec_send _) ?_,
      fun hi => row_bufferSend h (exec_send _) ?_⟩⟩
    · simp only [ha, hd, hw, ok_bind, failIf_true ((unitBad_iff t d).2 hf), fail_bind]
    · simp only [ha, hd, hw, ok_bind, failIf_false (hnear hf), failIf_true (decide_eq_true (show 255 < a.toNat from hi)),
        fail_bind]
    · simp only [ha, hd, hw, ok_bind, failIf_false (hnear hf),
        failIf_false (decide_eq_false (Nat.not_lt.2 (Nat.le_of_lt_succ hi)))]
      rfl

end Sys2Proof.Machine
end

section
/-! `done` that waits for room for its forks keeps the unread queue entries that it has discarded, to give them back (R145,
R165, R253; log 86). -/

namespace Sys2Proof.Machine

/-- A task that waits at a core. -/
def idleTask : Queued := ⟨Rec.zero, 0, .fork, 0, 0, 0, [], none, false, false, none⟩

/-- A strand with one unread queue entry and one buffered fork, on a core whose deque and ready set are full. -/
def crowded : State :=
  ((bootstrap State.reset 0).modCore 0 fun c =>
    { c with qs := [⟨0, 0, .word 7⟩], deque := List.replicate 16 idleTask, ready := List.replicate readyRoom idleTask }).modSt
      fun st => { st with sends := [⟨idleTask, 0, 0⟩] }

/-- How many queue entries the waiting instruction of the strand in focus holds in the next state. -/
def entriesHeld (r : Host.Outcome State Fault Refusal) : Nat :=
  match r with
  | .next t => t.me.taken.length
  | _ => 0

/-- Refutes O28: while `done` waits for room its slot keeps the entries that it has discarded (log 86), of which the
statement's next state says nothing: here one entry, where the statement leaves none. -/
theorem not_taskEnd : ¬ Obligations.TaskEnd := by
  unfold Obligations.TaskEnd
  rintro ⟨hdone, -⟩
  obtain ⟨-, hend⟩ := hdone crowded ⟨by decide +kernel, by decide +kernel⟩
  obtain ⟨-, hout⟩ := hend (by decide +kernel)
  obtain ⟨-, hnone⟩ := hout (by decide +kernel)
  obtain ⟨-, hfull⟩ := hnone (by decide +kernel)
  have hheld := congrArg entriesHeld (hfull (by decide +kernel))
  exact absurd hheld (by decide +kernel)

end Sys2Proof.Machine
end

section
/-! Join cells armed and arrived at, and weight minted (R147, R148, R161, R166 to R168). -/

namespace Sys2Proof.Machine

/-! Reading sources leaves the strand in focus -/

/-- What three sources read when D is read first (R6, R44). -/
theorem srcDAB_cases {s t : State} {a b d : Word} (h : s.ReadsDAB a b d t) :
    ∃ s1 s2, src s.ir.d s = .ok (d, s1) ∧ src s1.ir.a s1 = .ok (a, s2) ∧ src s2.ir.b s2 = .ok (b, t) := by
  simp only [State.ReadsDAB, srcDAB] at h
  rcases hw : whole [s.ir.a, s.ir.b, s.ir.d] s with e | x
  · simp [hw, bind, Except.bind] at h
  · rcases hD : src s.ir.d s with e | ⟨d', s1⟩
    · simp [hw, hD, bind, Except.bind] at h
    · rcases hA : src s1.ir.a s1 with e | ⟨a', s2⟩
      · simp [hw, hD, hA, bind, Except.bind] at h
      · rcases hB : src s2.ir.b s2 with e | ⟨b', s3⟩
        · simp [hw, hD, hA, hB, bind, Except.bind] at h
        · simp only [hw, hD, hA, hB, bind, Except.bind, pure, Except.pure, Except.ok.injEq, Prod.mk.injEq] at h
          obtain ⟨rfl, rfl, rfl, rfl⟩ := h
          exact ⟨s1, s2, rfl, hA, hB⟩

theorem srcDAB_me {s t : State} {a b d : Word} (h : s.ReadsDAB a b d t) : t.me = s.me := by
  obtain ⟨s1, s2, hD, hA, hB⟩ := srcDAB_cases h
  rw [(src_quiet hB).2, (src_quiet hA).2, (src_quiet hD).2]

/-! Addresses and the order of a home's steps -/

theorem objectPlace_ok {s : State} {a : Nat} {k : Access} {p : Place} (h : locate s s.focusU s.st.ctx a k = .ok p) :
    objectPlace s a k = .ok p := by rw [objectPlace, h]

theorem objectPlace_error {s : State} {a : Nat} {k : Access} {c : Cause} (h : locate s s.focusU s.st.ctx a k = .error c) :
    objectPlace s a k = failAt c a := by rw [objectPlace, h]

theorem failAt_bind {α β : Type} (c : Cause) (a : Nat) (f : α → Except Stop β) :
    ((failAt c a : Except Stop α) >>= f) = failAt c a := rfl

theorem failThere_bind {α β : Type} (s : State) (u : Nat) (c : Cause) (a : Nat) (f : α → Except Stop β) :
    ((failThere s u c a : Except Stop α) >>= f) = failThere s u c a := rfl

/-- Bytes written to memory leave the focus where it is. -/
theorem setBytes_focus (s : State) (p : Nat) (bs : List Byte) :
    (s.setBytes p bs).focusU = s.focusU ∧ (s.setBytes p bs).focusK = s.focusK := by
  induction bs generalizing s p with
  | nil => exact ⟨rfl, rfl⟩
  | cons b bs ih => exact ih (s.setByte p b) (p + 1)

theorem scatterRaw_focus (s : State) (ps : List Nat) (bs : List Byte) :
    (s.scatterRaw ps bs).focusU = s.focusU ∧ (s.scatterRaw ps bs).focusK = s.focusK := by
  induction ps generalizing s bs with
  | nil => exact ⟨rfl, rfl⟩
  | cons p ps ih =>
    obtain ⟨hu, hk⟩ := ih (s.setBytes p (bs.take 16)) (bs.drop 16)
    obtain ⟨hu', hk'⟩ := setBytes_focus s p (bs.take 16)
    exact ⟨hu.trans hu', hk.trans hk'⟩

section Await

variable {t : State} (ha : t.me.acquires = [])
include ha

/-- A step at a home blocks while an earlier write or request is in its way, or at the ingress of its die (R207, R413). -/
theorem awaitWrites_block {home : Nat} (h : t.early home true = true ∨ t.crossing t.focusU t.focusK home = true) :
    awaitWrites t home = .error (.block none) := by
  simp only [awaitWrites, ha, List.isEmpty_nil, if_true, ok_bind, (Bool.or_eq_true _ _).mpr h]

theorem awaitWrites_ok {home : Nat} (he : t.early home true = false) (hc : t.crossing t.focusU t.focusK home = false) :
    awaitWrites t home = .ok () := by
  simp only [awaitWrites, ha, List.isEmpty_nil, if_true, ok_bind, he, hc, Bool.or_self, Bool.false_eq_true, if_false]

end Await

section Place

variable {s : State} {i : Instr} {body : State → Run} (h : s.Ready) (hi : exec i s = performSeq s body)
include h hi

/-- A row that a test of an address stops: the record names the address (R356). -/
theorem row_failAt {c : Cause} {a : Nat} (hb : body s = failAt c a) :
    exec i s = .next (s.trapHere { cause := c, addr := BitVec.ofNat 64 a }) := row_trap h hi hb

/-- A row that is stopped at a home: the record names address and home (R356, R371). -/
theorem row_failThere {t : State} {u : Nat} {c : Cause} {a : Nat} (hb : body s = failThere t u c a) :
    exec i s = .next (s.trapHere { cause := c, addr := BitVec.ofNat 64 a, unit := t.foundAt u }) := row_trap h hi hb

end Place

/-! `jinit` (R166) -/

section JinitTests

variable {s t : State} {a b d : Word} (h : s.Standing) (hs : s.ReadsDAB a b d t)
include h hs

/-- Cell and record on their boundaries come first (R166; log 83). -/
theorem jinit_misaligned (hd : d.toNat % 32 ≠ 0 ∨ a.toNat % 64 ≠ 0) :
    exec .jinit s = .next (s.trapHere { cause := .joinAddr, addr := low 56 d }) := by
  refine row_failAt h.1 (exec_jinit _) (a := d.toNat % 2 ^ 56) ?_
  have hc : (d.toNat % 2 ^ 56 % 32 != 0 || a.toNat % 2 ^ 56 % 64 != 0) = true := by
    simp only [Bool.or_eq_true, bne_iff_ne]; omega
  simp only [State.ReadsDAB] at hs
  simp only [hs, ok_bind, hc, if_true, failAt_bind]

variable (hd : d.toNat % 32 = 0) (ha : a.toNat % 64 = 0)
include hd ha

/-- Then the homes are found, the cell's first (R161). -/
theorem jinit_noCell {c : Cause} (hc : locate t t.focusU t.st.ctx (d.toNat % 2 ^ 56) .atomic = .error c) :
    exec .jinit s = .next (s.trapHere { cause := c, addr := low 56 d }) := by
  refine row_failAt h.1 (exec_jinit _) (a := d.toNat % 2 ^ 56) ?_
  have hal : (d.toNat % 2 ^ 56 % 32 != 0 || a.toNat % 2 ^ 56 % 64 != 0) = false := by
    simp only [Bool.or_eq_false_iff, bne_eq_false_iff_eq]; omega
  simp only [State.ReadsDAB] at hs
  simp only [hs, ok_bind, hal, Bool.false_eq_true, if_false, objectPlace_error hc, failAt_bind]

theorem jinit_noRecord {pc : Place} {c : Cause} (hp : locate t t.focusU t.st.ctx (d.toNat % 2 ^ 56) .atomic = .ok pc)
    (hr : locate t t.focusU t.st.ctx (a.toNat % 2 ^ 56) .load = .error c) :
    exec .jinit s = .next (s.trapHere { cause := c, addr := low 56 a }) := by
  refine row_failAt h.1 (exec_jinit _) (a := a.toNat % 2 ^ 56) ?_
  have hal : (d.toNat % 2 ^ 56 % 32 != 0 || a.toNat % 2 ^ 56 % 64 != 0) = false := by
    simp only [Bool.or_eq_false_iff, bne_eq_false_iff_eq]; omega
  simp only [State.ReadsDAB] at hs
  simp only [hs, ok_bind, hal, Bool.false_eq_true, if_false, objectPlace_ok hp, objectPlace_error hr, failAt_bind]

/-- Cell and record in one home's local memory, at addresses without bits 63:56, and a count of 1 to 2^32 - 1 (R166). -/
theorem jinit_misplaced {pc pr : Place} (hp : locate t t.focusU t.st.ctx (d.toNat % 2 ^ 56) .atomic = .ok pc)
    (hr : locate t t.focusU t.st.ctx (a.toNat % 2 ^ 56) .load = .ok pr)
    (hbad : pc.home ≠ pr.home ∨ b = 0 ∨ 2 ^ 32 ≤ b.toNat ∨ 2 ^ 56 ≤ d.toNat ∨ 2 ^ 56 ≤ a.toNat ∨ pc.off = none ∨
      pr.off = none) : exec .jinit s = .next (s.trapHere { cause := .joinAddr, addr := low 56 d }) := by
  refine row_failAt h.1 (exec_jinit _) (a := d.toNat % 2 ^ 56) ?_
  have hal : (d.toNat % 2 ^ 56 % 32 != 0 || a.toNat % 2 ^ 56 % 64 != 0) = false := by
    simp only [Bool.or_eq_false_iff, bne_eq_false_iff_eq]; omega
  simp only [State.ReadsDAB] at hs
  simp only [hs, ok_bind, hal, Bool.false_eq_true, if_false, objectPlace_ok hp, objectPlace_ok hr]
  have hin : (pc.home != pr.home || b.toNat == 0 || decide (2 ^ 32 ≤ b.toNat) || d.toNat != d.toNat % 2 ^ 56 ||
      a.toNat != a.toNat % 2 ^ 56) = true ↔
      pc.home ≠ pr.home ∨ b = 0 ∨ 2 ^ 32 ≤ b.toNat ∨ 2 ^ 56 ≤ d.toNat ∨ 2 ^ 56 ≤ a.toNat := by
    have hb : b = 0 ↔ b.toNat = 0 := by rw [← BitVec.toNat_inj]; rfl
    simp only [Bool.or_eq_true, bne_iff_ne, beq_iff_eq, decide_eq_true_eq, hb]
    omega
  by_cases hw : pc.home ≠ pr.home ∨ b = 0 ∨ 2 ^ 32 ≤ b.toNat ∨ 2 ^ 56 ≤ d.toNat ∨ 2 ^ 56 ≤ a.toNat
  · rw [if_pos (hin.2 hw), failAt_bind]
  · have hoff : (pc.off.isNone || pr.off.isNone) = true := by
      simp only [Bool.or_eq_true, Option.isNone_iff_eq_none]
      tauto
    rw [if_neg (mt hin.1 hw), if_pos hoff, failAt_bind]

end JinitTests

section JinitHome

variable {s t : State} {a b d : Word} {pc pr : Place} (h : s.Standing) (hs : s.ReadsDAB a b d t)
  (hd : d.toNat % 32 = 0) (hd' : d.toNat < 2 ^ 56) (ha : a.toNat % 64 = 0) (ha' : a.toNat < 2 ^ 56)
  (hb : 1 ≤ b.toNat) (hb' : b.toNat < 2 ^ 32) (hp : locate t t.focusU t.st.ctx d.toNat .atomic = .ok pc)
  (hr : locate t t.focusU t.st.ctx a.toNat .load = .ok pr) (hh : pc.home = pr.home) (hpo : pc.off.isSome = true)
  (hro : pr.off.isSome = true) (hw : 2 ≤ t.st.wgt.toNat)
include h hs hd hd' ha ha' hb hb' hp hr hh hpo hro hw

/-- What `jinit` comes to once its operands have passed every test: its step at the cell's home (R166). -/
theorem jinit_atHome :
    (t.early pc.home true = true ∨ t.crossing t.focusU t.focusK pc.home = true →
      exec .jinit s = .next (s.blockSlot s.focusU s.focusK)) ∧
    (∀ bs qc, t.early pc.home true = false → t.crossing t.focusU t.focusK pc.home = false →
      readAll t t.st.ctx pr 4 = .ok bs → (Rec.ofNum (leNat bs)).bad = false → reachAll t t.st.ctx pc 2 = .ok qc →
      let state := leNat (t.gather qc) % 2 ^ 32
      (state = 0 ∨ state = 2 →
        let h := t.st.wgt.toNat / 2
        let u := ((t.scatterRaw qc (leBytes 32 (cellNum 1 b.toNat t.st.launch.toNat a.toNat h))).stepWrite
          t.focusU t.focusK pc.home).stepRead t.focusU t.focusK pc.home
        exec .jinit s = .next (u.modSt fun st => { st with wgt := t.st.wgt - BitVec.ofNat 64 h }).rest.passed) ∧
      (state = 1 ∨ 3 ≤ state →
        exec .jinit s = .next (s.trapHere { cause := .joinState, addr := d, unit := t.foundAt pc.home }))) := by
  have hal : (d.toNat % 32 != 0 || a.toNat % 64 != 0) = false := by simp [hd, ha]
  have hin : (pc.home != pr.home || b.toNat == 0 || decide (2 ^ 32 ≤ b.toNat) || d.toNat != d.toNat || a.toNat != a.toNat)
      = false := by simp [hh]; omega
  have hoff : (pc.off.isNone || pr.off.isNone) = false := by simp [Option.isNone_eq_false_iff, hpo, hro]
  have hm : t.me.acquires = [] := srcDAB_me hs ▸ h.2.1
  simp only [State.ReadsDAB] at hs
  refine ⟨fun hc => row_block h.1 (exec_jinit _) ?_, fun bs qc he hc hbs hg hq => ⟨fun hst => ?_, fun hst => ?_⟩⟩
  · simp only [hs, ok_bind, Nat.mod_eq_of_lt hd', Nat.mod_eq_of_lt ha', hal, Bool.false_eq_true, if_false, objectPlace_ok hp,
      objectPlace_ok hr, hin, hoff, failIf_false (decide_eq_false (Nat.not_lt.2 hw)), awaitWrites_block hm hc, error_bind]
  · refine row_next h.1 (exec_jinit _) ?_
    have hs' : (leNat (t.gather qc) % 2 ^ 32 == 1 || decide (2 < leNat (t.gather qc) % 2 ^ 32)) = false := by
      simp only [Bool.or_eq_false_iff, beq_eq_false_iff_ne, decide_eq_false_iff_not]; omega
    simp only [hs, ok_bind, Nat.mod_eq_of_lt hd', Nat.mod_eq_of_lt ha', hal, Bool.false_eq_true, if_false, objectPlace_ok hp,
      objectPlace_ok hr, hin, hoff, failIf_false (decide_eq_false (Nat.not_lt.2 hw)), awaitWrites_ok hm he hc, hbs, hg, cellAt,
      hq, hs', (scatterRaw_focus _ _ _).1, (scatterRaw_focus _ _ _).2]
    rfl
  · have hs' : (leNat (t.gather qc) % 2 ^ 32 == 1 || decide (2 < leNat (t.gather qc) % 2 ^ 32)) = true := by
      simp only [Bool.or_eq_true, beq_iff_eq, decide_eq_true_eq]; omega
    refine (row_failThere h.1 (exec_jinit _) (t := t) (u := pc.home) (c := .joinState) (a := d.toNat) ?_).trans ?_
    · simp only [hs, ok_bind, Nat.mod_eq_of_lt hd', Nat.mod_eq_of_lt ha', hal, Bool.false_eq_true, if_false,
        objectPlace_ok hp, objectPlace_ok hr, hin, hoff, failIf_false (decide_eq_false (Nat.not_lt.2 hw)),
        awaitWrites_ok hm he hc, hbs, hg,
        cellAt, hq, hs', if_true, failThere_bind]
    · rw [BitVec.ofNat_toNat, BitVec.setWidth_eq]

end JinitHome

/-! `jarv` (R167) -/

section Jarv

variable {s t : State} {a : Word} (h : s.Standing) (hs : s.ReadsA a t) (hn : ∀ x ∈ t.st.asked, x.writes = false)
include h hs hn

/-- Nothing of the strand holds an arrival back at issue (R209, R413). -/
theorem jarv_goes : (t.me.acquires.isEmpty && !(t.st.asked.any (·.writes))) = true := by
  have hm : t.me.acquires = [] := (src_quiet hs).2 ▸ h.2.1
  have ha : t.st.asked.any (·.writes) = false := List.any_eq_false.2 fun x hx => by simp [hn x hx]
  simp only [hm, ha, List.isEmpty_nil, Bool.not_false, Bool.and_self]

/-- An arrival at an address that is none of a cell is reported as one at a FREE cell (R167; log 17). -/
theorem jarv_noAddress (hb : a.toNat % 32 ≠ 0 ∨ 2 ^ 56 ≤ a.toNat) (hw : t.st.writes = []) :
    exec .jarv s = .next (report t t.focusU t.self { cause := .joinState, addr := a }).passed := by
  refine row_next h.1 (exec_jarv _) ?_
  have hg := jarv_goes h hs hn
  have hc : (a.toNat % 2 ^ 56 % 32 != 0 || a.toNat != a.toNat % 2 ^ 56) = true := by
    simp only [Bool.or_eq_true, bne_iff_ne]; omega
  simp only [State.ReadsA] at hs
  simp only [hs, ok_bind, hg, hc, if_true, hw, List.isEmpty_nil]

variable (hb : a.toNat % 32 = 0) (hb' : a.toNat < 2 ^ 56)
include hb hb'

/-- An address of a cell's is looked up as for an atomic: a hole, and HBM, hold no cell; another fault is precise (R161, R167;
log 17). -/
theorem jarv_address :
    (∀ p, locate t t.focusU t.st.ctx a.toNat .atomic = .ok p →
      (p.off.isSome = true → exec .jarv s = .next (t.sendWrite p.home a false (.arrival a)).passed) ∧
      (p.off = none → t.st.writes = [] →
        exec .jarv s = .next (report t t.focusU t.self { cause := .joinState, addr := a }).passed)) ∧
    (∀ c, locate t t.focusU t.st.ctx a.toNat .atomic = .error c →
      (c = .pfHole → t.st.writes = [] →
        exec .jarv s = .next (report t t.focusU t.self { cause := .joinState, addr := a }).passed) ∧
      (c ≠ .pfHole → exec .jarv s = .next (s.trapHere { cause := c, addr := a }))) := by
  have hg := jarv_goes h hs hn
  have hc : (a.toNat % 32 != 0 || a.toNat != a.toNat) = false := by simp [hb]
  simp only [State.ReadsA] at hs
  refine ⟨fun p hp => ⟨fun ho => row_next h.1 (exec_jarv _) ?_, fun ho hw => row_next h.1 (exec_jarv _) ?_⟩,
    fun c hp => ⟨fun he hw => row_next h.1 (exec_jarv _) ?_, fun he => ?_⟩⟩
  · have ho' : p.off.isNone = false := Option.isNone_eq_false_iff.2 ho
    simp only [hs, ok_bind, hg, if_true, Nat.mod_eq_of_lt hb', hc, Bool.false_eq_true, if_false, hp, ho']
    rfl
  · simp only [hs, ok_bind, hg, if_true, Nat.mod_eq_of_lt hb', hc, Bool.false_eq_true, if_false, hp, ho, Option.isNone_none,
      hw, List.isEmpty_nil]
  · subst he
    simp only [hs, ok_bind, hg, if_true, Nat.mod_eq_of_lt hb', hc, Bool.false_eq_true, if_false, hp, hw, List.isEmpty_nil]
  · refine (row_failAt h.1 (exec_jarv _) (c := c) (a := a.toNat) ?_).trans ?_
    · simp only [hs, ok_bind, hg, if_true, Nat.mod_eq_of_lt hb', hc, Bool.false_eq_true, if_false, hp]
    · rw [BitVec.ofNat_toNat, BitVec.setWidth_eq]

end Jarv

/-- Settles O29: `jinit` at its cell's home and its tests, then `jarv` and `wmint`. -/
theorem joinCells : Obligations.JoinCells := by
  unfold Obligations.JoinCells
  refine ⟨?_, ?_, ?_, ?_⟩
  · intro s t a b d pc pr qc bs h hs hd hd' ha ha' hb hb' hp hr hh hpo hro hw
    obtain ⟨hblock, hstep⟩ := jinit_atHome h hs hd hd' ha ha' hb hb' hp hr hh hpo hro hw
    exact ⟨hblock, hstep bs qc⟩
  · intro s t a b d h hs traps cell record
    exact ⟨jinit_misaligned h hs, fun hd ha => ⟨fun c hc => jinit_noCell h hs hd ha hc, fun pc hp =>
      ⟨fun c hr => jinit_noRecord h hs hd ha hp hr, fun pr hr hbad => jinit_misplaced h hs hd ha hp hr hbad⟩⟩⟩
  · intro s t a h hs hn refused
    exact ⟨jarv_noAddress h hs hn, jarv_address h hs hn⟩
  · intro s t a h hs
    simp only [State.ReadsA] at hs
    refine ⟨fun ho => row_fail h (exec_wmint _) ?_, fun ho => row_next h (exec_wmint _) ?_⟩
    · simp only [hs, ok_bind, failIf_true (decide_eq_true ho), fail_bind]
    · simp only [hs, ok_bind, failIf_false (decide_eq_false (Nat.not_le.2 ho))]
      rfl

end Sys2Proof.Machine
end

section
/-! Groups formed and left (R149, R169, R170, R203). -/

namespace Sys2Proof.Machine

/-! `gform` (R169) -/

/-- A strand has no write of its own outstanding, whether sent or asked for (R203, R206). -/
theorem settledWrites_iff (st : Strand) : (st.writes.isEmpty && !(st.asked.any (·.writes))) = true ↔
    st.writes = [] ∧ ∀ x ∈ st.asked, x.writes = false := by
  simp only [Bool.and_eq_true, List.isEmpty_iff, Bool.not_eq_true', List.any_eq_false, Bool.not_eq_true]

/-- A group's size is one of 1 to 256 (R169). -/
theorem groupSize_iff (n : Nat) : (n == 0 || decide (256 < n)) = true ↔ n = 0 ∨ 256 < n := by
  simp only [Bool.or_eq_true, beq_iff_eq, decide_eq_true_eq]

/-- The cores that a group's members are placed on: those of its context in the yard, from the maker's barn on (R149). -/
def State.groupCores (u : State) : List Nat :=
  let own := ownedCores u u.st.ctx (dieOf u.focusU)
  if own = [] then [u.focusU] else rotateTo (barnOf u.focusU) own

section Gform

variable {s t u : State} {a b : Word} {r : Rec} (h : s.Standing) (hs : s.ReadsAB a b t)
  (hr : readRec t (a.toNat % 2 ^ 56) = .ok (r, u))
include h hs hr

theorem gform_badRecord (hb : r.bad = true) : exec .gform s = .next (s.trapHere { cause := .recBad }) := by
  refine row_fail h.1 (exec_gform _) ?_
  simp only [State.ReadsAB] at hs
  simp only [h.2.1, List.isEmpty_nil, if_true, ok_bind, hs, hr, failIf_true hb, fail_bind]

variable (hb : r.bad = false)
include hb

theorem gform_badSize (hn : b.toNat = 0 ∨ 256 < b.toNat) :
    exec .gform s = .next (s.trapHere { cause := .groupSize }) := by
  refine row_fail h.1 (exec_gform _) ?_
  simp only [State.ReadsAB] at hs
  simp only [h.2.1, List.isEmpty_nil, if_true, ok_bind, hs, hr, failIf_false hb, failIf_true ((groupSize_iff _).2 hn),
    fail_bind]

variable (hn : 1 ≤ b.toNat) (hn' : b.toNat ≤ 256)
include hn hn'

/-- A record and a size that are good: yard, launch and weight are tested next, and then the strand's writes are waited for
(R169, R203). -/
theorem gform_rest :
    (isCompute u.focusU = false → exec .gform s = .next (s.trapHere { cause := .groupYard })) ∧
    (isCompute u.focusU = true →
      (u.hasGroup u.st.launch = true → exec .gform s = .next (s.trapHere { cause := .groupBusy })) ∧
      (u.hasGroup u.st.launch = false →
        (u.st.wgt.toNat / 2 / b.toNat = 0 → exec .gform s = .next (s.trapHere { cause := .wgtExh })) ∧
        (1 ≤ u.st.wgt.toNat / 2 / b.toNat →
          (¬ (u.st.writes = [] ∧ ∀ x ∈ u.st.asked, x.writes = false) →
            exec .gform s = .next (s.blockSlot s.focusU s.focusK)) ∧
          (u.st.writes = [] ∧ (∀ x ∈ u.st.asked, x.writes = false) →
            let each := u.st.wgt.toNat / 2 / b.toNat
            exec .gform s = .next ((formGroup u u.focusU u.self u.st.launch (dieOf u.focusU) b.toNat u.groupCores
              ⟨r, BitVec.ofNat 64 each, .fork, 0, u.st.launch, u.st.ctx, u.st.dep, none, false, false, none⟩).modSt fun st =>
                { st with wgt := st.wgt - BitVec.ofNat 64 (b.toNat * each) }).rest.passed)))) := by
  have hsize : (b.toNat == 0 || decide (256 < b.toNat)) = false := Bool.eq_false_iff.2 fun c => by
    have := (groupSize_iff _).1 c; omega
  simp only [State.ReadsAB] at hs
  refine ⟨fun hy => row_fail h.1 (exec_gform _) ?_, fun hy => ⟨fun hg => row_fail h.1 (exec_gform _) ?_, fun hg =>
    ⟨fun he => row_fail h.1 (exec_gform _) ?_, fun he =>
      ⟨fun hw => row_block h.1 (exec_gform _) ?_, fun hw => row_next h.1 (exec_gform _) ?_⟩⟩⟩⟩
  · simp only [h.2.1, List.isEmpty_nil, if_true, ok_bind, hs, hr, failIf_false hb, failIf_false hsize, hy, Bool.not_false,
      failIf_true, fail_bind]
  · simp only [h.2.1, List.isEmpty_nil, if_true, ok_bind, hs, hr, failIf_false hb, failIf_false hsize, hy, Bool.not_true,
      failIf_false, failIf_true hg, fail_bind]
  · simp only [h.2.1, List.isEmpty_nil, if_true, ok_bind, hs, hr, failIf_false hb, failIf_false hsize, hy, Bool.not_true,
      failIf_false, failIf_false hg, he, BEq.rfl, failIf_true, fail_bind]
  · have hz : (u.st.wgt.toNat / 2 / b.toNat == 0) = false := beq_false_of_ne (by omega)
    simp only [h.2.1, List.isEmpty_nil, if_true, ok_bind, hs, hr, failIf_false hb, failIf_false hsize, hy, Bool.not_true,
      failIf_false, failIf_false hg, failIf_false hz, if_neg (mt (settledWrites_iff _).1 hw), error_bind]
  · have hz : (u.st.wgt.toNat / 2 / b.toNat == 0) = false := beq_false_of_ne (by omega)
    simp only [h.2.1, List.isEmpty_nil, if_true, ok_bind, hs, hr, failIf_false hb, failIf_false hsize, hy, Bool.not_true,
      failIf_false, failIf_false hg, failIf_false hz, if_pos ((settledWrites_iff _).2 hw), List.isEmpty_iff]
    rfl

end Gform

/-- Settles O30: `gform` and the placing of its members, then `gleave`. -/
theorem groups : Obligations.Groups := by
  unfold Obligations.Groups
  refine ⟨?_, ?_, ?_⟩
  · intro s t u a b r h hs hr n each traps
    refine ⟨gform_badRecord h hs hr, fun hb => ⟨gform_badSize h hs hr hb, fun hn hn' => ?_⟩⟩
    obtain ⟨hyard, hin⟩ := gform_rest h hs hr hb hn hn'
    refine ⟨hyard, fun hy => ?_⟩
    obtain ⟨hbusy, hfree⟩ := hin hy
    refine ⟨hbusy, fun hg => ?_⟩
    obtain ⟨hlight, hheavy⟩ := hfree hg
    refine ⟨hlight, fun he hw => (hheavy he).1 ?_, fun he hw ha => (hheavy he).2 ⟨hw, ha⟩⟩
    rintro ⟨hw', ha⟩
    rcases hw with hw | ⟨x, hx, hw⟩
    · exact hw hw'
    · exact Bool.false_ne_true ((ha x hx).symm.trans hw)
  · intro src w cs q i is s v x
    rfl
  · intro s h
    refine ⟨fun hm => row_fail h (exec_gleave _) ?_, fun m hm => ⟨fun hn => row_block h (exec_gleave _) ?_, fun n hn =>
      row_next h (exec_gleave _) ?_⟩⟩
    · simp only [hm]
    · simp only [hm, hn]
    · simp only [hm, hn]
      rfl

end Sys2Proof.Machine
end

section
/-! Handler entries set, locked and unlocked, locks that lapse, and the stealing domain (R156, R174, R175). -/

namespace Sys2Proof.Machine

/-! A lock that lapses (R156) -/

/-- A lock that has stood for 64 cycles lapses: its holder is remembered, and what is parked is dispatched (R156). -/
theorem lapseLock_due {s : State} {ctx : BitVec 12} {i n : Nat} {h : Holder}
    (hl : ((s.context ctx).handler i).lock = some (h, n)) (hn : n + 64 ≤ s.now) :
    s.lapseLock ctx i = dispatchParked (s.setHandler ctx i { (s.context ctx).handler i with
      lock := none, lapsed := h :: ((s.context ctx).handler i).lapsed.filter (· != h) }) ctx i := by
  simp only [State.lapseLock, HandlerEntry.lapse, hl, hn, if_true]

theorem lapseLock_early {s : State} {ctx : BitVec 12} {i : Nat}
    (hn : ∀ h n, ((s.context ctx).handler i).lock = some (h, n) → s.now < n + 64) : s.lapseLock ctx i = s := by
  rcases hl : ((s.context ctx).handler i).lock with _ | ⟨h, n⟩
  · simp only [State.lapseLock, HandlerEntry.lapse, hl]
  · simp only [State.lapseLock, HandlerEntry.lapse, hl, Nat.not_le.2 (hn h n hl), if_false]

/-! Stops that the hub finds -/

section Hub

variable {s : State} {i : Instr} {body : State → Run} (h : s.Ready) (hi : exec i s = performSeq s body)
include h hi

theorem row_failHub {c : Cause} (hb : body s = failHub c) :
    exec i s = .next (s.trapHere { cause := c, unit := some mgmtUnit }) := row_trap h hi hb

/-- The refusal that ends a lapsed hold (R174). -/
theorem row_lapsedLock {v : State} {ctx : BitVec 12} {n : Nat} {e : HandlerEntry}
    (hb : body s = .error (lapsedLock v ctx n e)) :
    exec i s = .next ((v.setHandler ctx n { e with lapsed := e.lapsed.filter (· != v.holder) }).trapHere
      { cause := .hndLock, unit := some mgmtUnit }) := by
  rw [hi, performSeq_error h hb]; rfl

end Hub

theorem failHub_bind {α β : Type} (c : Cause) (f : α → Except Stop β) :
    ((failHub c : Except Stop α) >>= f) = failHub c := rfl

/-! `hlock` and `hunlock` (R174) -/

section Locks

variable {s t : State} {a : Word} (h : s.Ready) (hs : s.ReadsA a t)
include h hs

theorem locks_badIndex (hi : 256 ≤ a.toNat) :
    exec .hlock s = .next (s.trapHere { cause := .hndIdx }) ∧ exec .hunlock s = .next (s.trapHere { cause := .hndIdx }) := by
  have hi' : 255 < a.toNat := hi
  simp only [State.ReadsA] at hs
  refine ⟨row_fail h (exec_hlock _) ?_, row_fail h (exec_hunlock _) ?_⟩
  · simp only [hs, ok_bind, failIf_true (decide_eq_true hi'), fail_bind]
  · simp only [hs, ok_bind, failIf_true (decide_eq_true hi'), fail_bind]

variable (hi : a.toNat < 256)
include hi

/-- A lock is taken on an entry that none holds, over the state that it keeps (R174). -/
theorem hlock_cases {u : State} (hu : t.lapseLock s.st.ctx a.toNat = u) (hc : u.st.ctx = s.st.ctx) :
    (((u.context s.st.ctx).handler a.toNat).lock ≠ none →
      exec .hlock s = .next (s.trapHere { cause := .hndLock, unit := some mgmtUnit })) ∧
    (((u.context s.st.ctx).handler a.toNat).lock = none → exec .hlock s = .next
      (u.setHandler s.st.ctx a.toNat { (u.context s.st.ctx).handler a.toNat with
        lock := some (⟨u.st.launch, u.st.strid⟩, u.now) }).rest.passed) := by
  have hi' : ¬ 255 < a.toNat := Nat.not_lt.2 (Nat.le_of_lt_succ hi)
  have hst := src_st hs
  simp only [State.ReadsA] at hs
  refine ⟨fun hl => row_failHub h (exec_hlock _) ?_, fun hl => row_next h (exec_hlock _) ?_⟩
  · have hl' := Option.isSome_iff_ne_none.2 hl
    simp only [hs, ok_bind, failIf_false (decide_eq_false hi'), hst, hu, hc, failHubIf, hl', if_true, failHub_bind]
  · simp only [hs, ok_bind, failIf_false (decide_eq_false hi'), hst, hu, hc, failHubIf, hl, Option.isSome_none,
      Bool.false_eq_true, if_false]
    rfl

/-- The holder unlocks; another is refused, and so is one whose hold has lapsed (R156, R174). -/
theorem hunlock_cases {u v : State} (hu : t.lapseLock s.st.ctx a.toNat = u) (hv : s.lapseLock s.st.ctx a.toNat = v)
    {e : HandlerEntry} (he : (u.context s.st.ctx).handler a.toNat = e) :
    (v.holder ∉ e.lapsed →
      (∀ n, e.lock = some (v.holder, n) → exec .hunlock s = .next
        (dispatchParked (u.setHandler s.st.ctx a.toNat { e with lock := none }) s.st.ctx a.toNat).rest.passed) ∧
      ((∀ n, e.lock ≠ some (v.holder, n)) →
        exec .hunlock s = .next (s.trapHere { cause := .hndLock, unit := some mgmtUnit }))) ∧
    (v.holder ∈ e.lapsed → exec .hunlock s = .next ((v.setHandler s.st.ctx a.toNat
      { e with lapsed := e.lapsed.filter (· != v.holder) }).trapHere { cause := .hndLock, unit := some mgmtUnit })) := by
  have hi' : ¬ 255 < a.toNat := Nat.not_lt.2 (Nat.le_of_lt_succ hi)
  simp only [State.ReadsA] at hs
  refine ⟨fun hh => ?_, fun hh => row_lapsedLock h (exec_hunlock _) ?_⟩
  · have hh' : e.lapsed.contains v.holder = false := Bool.eq_false_iff.2 (mt List.contains_iff_mem.1 hh)
    refine ⟨fun n hl => row_next h (exec_hunlock _) ?_, fun hl => row_failHub h (exec_hunlock _) ?_⟩
    · simp only [hs, ok_bind, failIf_false (decide_eq_false hi'), hu, hv, he, hh', hl, bne_self_eq_false, Bool.false_eq_true,
        if_false]
      rfl
    · rcases hk : e.lock with _ | ⟨k, n⟩
      · simp only [hs, ok_bind, failIf_false (decide_eq_false hi'), hu, hv, he, hh', hk, Bool.false_eq_true, if_false]
      · have hne : (k != v.holder) = true := bne_iff_ne.2 fun c => hl n (c ▸ hk)
        simp only [hs, ok_bind, failIf_false (decide_eq_false hi'), hu, hv, he, hh', hk, hne, Bool.false_eq_true, if_false,
          if_true]
  · have hh' : e.lapsed.contains v.holder = true := List.contains_iff_mem.2 hh
    simp only [hs, ok_bind, failIf_false (decide_eq_false hi'), hu, hv, he, hh', if_true]

end Locks

/-! `sdom` (R175) -/

section Sdom

variable {s t : State} {a : Word} (h : s.Ready) (hs : s.ReadsA a t) (hq : s.me.acquires = [])
include h hs hq

theorem sdom_bad (ha : 4 ≤ a.toNat) : exec .sdom s = .next (s.trapHere { cause := .domBad }) := by
  have ha' : 3 < a.toNat := ha
  refine row_fail h (exec_sdom _) ?_
  simp only [State.ReadsA] at hs
  simp only [hq, List.isEmpty_nil, if_true, hs, ok_bind, failIf_true (decide_eq_true ha'), fail_bind]

/-- The domain of the launch is read and replaced (R175). -/
theorem sdom_next {x : Launch} (ha : a.toNat < 4) (hx : t.launch t.st.launch = some x)
    (hr : (t.setLaunch t.st.launch { x with domain := BitVec.ofNat 3 a.toNat }).Room) : exec .sdom s = .next
      ((t.setLaunch t.st.launch { x with domain := BitVec.ofNat 3 a.toNat }).putLong (x.domain.setWidth 64)).passed := by
  have ha' : ¬ 3 < a.toNat := by omega
  refine row_next h (exec_sdom _) ?_
  simp only [State.ReadsA] at hs
  simp only [State.Room] at hr
  simp only [hq, List.isEmpty_nil, if_true, hs, ok_bind, failIf_false (decide_eq_false ha'), hx, dstLong,
    ← BitVec.ofNat_toNat, State.putLong]
  exact if_pos hr

end Sdom

/-! `hset` (R174) -/

/-- What `hset` does with the record `r` it has read to `u`: its entry written, when the strand that stands in `v` may
(R174). -/
def hsetEntry (v u : State) (ctx : BitVec 12) (i : Nat) (b : Word) (r : Rec) : Run := do
  let _ ← failIf (b != 0 && r.bad) .recBad
  let e := (u.context ctx).handler i
  let new := { e with valid := b != 0, code := r.code, budget := r.budget, key := r.dkey }
  if e.lapsed.contains v.holder then .error (lapsedLock v ctx i e)
  else
    match e.lock with
    | some (h, _) =>
      if h != v.holder then failHub .hndLock
      else return (dispatchParked (u.setHandler ctx i { new with lock := none }) ctx i).rest
    | none => return (u.setHandler ctx i new).rest

section HsetEntry

variable {v u : State} {ctx : BitVec 12} {i : Nat} {b : Word} {r : Rec} (hb : b = 0 ∨ r.bad = false)
include hb

theorem hset_goodRecord : (b != 0 && r.bad) = false := by
  rcases hb with rfl | hb
  · rfl
  · rw [hb, Bool.and_false]

theorem hsetEntry_lapsed (hh : v.holder ∈ ((u.context ctx).handler i).lapsed) :
    hsetEntry v u ctx i b r = .error (lapsedLock v ctx i ((u.context ctx).handler i)) := by
  simp only [hsetEntry, failIf_false (hset_goodRecord hb), ok_bind, List.contains_iff_mem.2 hh, if_true]

/-- An entry that none holds is written; its holder unlocks it by writing it, and another is refused (R174). -/
theorem hsetEntry_cases (hh : v.holder ∉ ((u.context ctx).handler i).lapsed) :
    let e := (u.context ctx).handler i
    let new := { e with valid := b != 0, code := r.code, budget := r.budget, key := r.dkey }
    (e.lock = none → hsetEntry v u ctx i b r = .ok (u.setHandler ctx i new).rest) ∧
    (∀ n, e.lock = some (v.holder, n) →
      hsetEntry v u ctx i b r = .ok (dispatchParked (u.setHandler ctx i { new with lock := none }) ctx i).rest) ∧
    (∀ k n, e.lock = some (k, n) → k ≠ v.holder → hsetEntry v u ctx i b r = failHub .hndLock) := by
  have hh' : ((u.context ctx).handler i).lapsed.contains v.holder = false :=
    Bool.eq_false_iff.2 (mt List.contains_iff_mem.1 hh)
  refine ⟨fun hl => ?_, fun n hl => ?_, fun k n hl hk => ?_⟩
  · simp only [hsetEntry, failIf_false (hset_goodRecord hb), ok_bind, hh', hl, Bool.false_eq_true, if_false]
    rfl
  · simp only [hsetEntry, failIf_false (hset_goodRecord hb), ok_bind, hh', hl, bne_self_eq_false, Bool.false_eq_true,
      if_false]
    rfl
  · simp only [hsetEntry, failIf_false (hset_goodRecord hb), ok_bind, hh', hl, bne_iff_ne.2 hk, Bool.false_eq_true,
      if_false, if_true]

end HsetEntry

section Hset

variable {s t : State} {a b : Word} (h : s.Standing) (hs : s.ReadsAB a b t)
include h hs

theorem hset_badIndex (hi : 256 ≤ a.toNat) : exec .hset s = .next (s.trapHere { cause := .hndIdx }) := by
  have hi' : 255 < a.toNat := hi
  refine row_fail h.1 (exec_hset _) ?_
  simp only [State.ReadsAB] at hs
  simp only [h.2.1, List.isEmpty_nil, if_true, hs, ok_bind, failIf_true (decide_eq_true hi'), fail_bind]

/-- The record that `hset` writes is zero for a zero operand, else the one at its address (R174). -/
theorem hset_effect {r : Rec} {u : State} (hi : a.toNat < 256)
    (hr : (b = 0 ∧ r = Rec.zero ∧ u = t.lapseLock t.st.ctx a.toNat) ∨
      (b ≠ 0 ∧ readRec (t.lapseLock t.st.ctx a.toNat) (b.toNat % 2 ^ 56) = .ok (r, u))) :
    exec .hset s = performSeq s fun _ => hsetEntry (s.lapseLock t.st.ctx a.toNat) u t.st.ctx a.toNat b r := by
  have hi' : ¬ 255 < a.toNat := Nat.not_lt.2 (Nat.le_of_lt_succ hi)
  simp only [State.ReadsAB] at hs
  rcases hr with ⟨hb, rfl, rfl⟩ | ⟨hb, hr⟩
  · simp only [exec_hset, execHset, performSeq, perform_ready h.1, h.2.1, List.isEmpty_nil, if_true, hs, ok_bind,
      failIf_false (decide_eq_false hi'), if_pos hb]
    rfl
  · simp only [exec_hset, execHset, performSeq, perform_ready h.1, h.2.1, List.isEmpty_nil, if_true, hs, ok_bind,
      failIf_false (decide_eq_false hi'), if_neg hb, hr]
    rfl

end Hset

/-- Settles O32: locks that lapse, then `hlock`, `hunlock` and `sdom`, then `hset`. -/
theorem handlerTable : Obligations.HandlerTable := by
  unfold Obligations.HandlerTable
  refine ⟨fun s ctx i => ⟨fun h n => lapseLock_due, lapseLock_early⟩, ?_, ?_⟩
  · intro s t a h hs i v u e
    refine ⟨locks_badIndex h hs, fun hi hc => ?_, sdom_bad h hs, fun x hq hi hx => sdom_next h hs hq hi hx⟩
    obtain ⟨hheld, hfree⟩ := hlock_cases h hs hi rfl hc
    obtain ⟨hmine, hlapsed⟩ := hunlock_cases h hs hi rfl rfl rfl
    exact ⟨hheld, hfree, hmine, hlapsed⟩
  · intro s t a b h hs i v w
    refine ⟨hset_badIndex h hs, ?_⟩
    intro r u hi hr e new
    have heff := hset_effect h hs hi hr
    refine ⟨fun hb hbad => row_fail h.1 heff ?_, fun hb hh => ?_, fun hb hh =>
      row_lapsedLock h.1 heff (hsetEntry_lapsed hb hh)⟩
    · rw [hsetEntry, failIf_true (by rw [hbad, bne_iff_ne.2 hb]; rfl), fail_bind]
    · obtain ⟨hfree, hmine, hother⟩ := hsetEntry_cases hb hh
      exact ⟨fun hl => row_next h.1 heff (hfree hl), fun n hl => row_next h.1 heff (hmine n hl),
        fun k n hl hk => row_failHub h.1 heff (hother k n hl hk)⟩

end Sys2Proof.Machine
end

section
/-! What the hardware's own writes to memory leave alone: the records of faults, with the filters and counters that see them
(R199, R321, R356 to R358, R403). -/

namespace Sys2Proof.Machine

/-- What each step of a fold keeps the fold keeps. -/
theorem foldl_keeps {α β : Type} {f : State → α} {g : State → β → State} (hg : ∀ s b, f (g s b) = f s) (l : List β)
    (s : State) : f (l.foldl g s) = f s := by
  induction l generalizing s with
  | nil => rfl
  | cons b l ih => exact (ih _).trans (hg s b)

/-- A reading of the state that no write of a fault record changes: it looks at no byte of memory, no key that memory was
written under and no event counter. -/
structure ApartFromRecords {α : Type} (f : State → α) : Prop where
  mem : ∀ s m, f { s with mem := m } = f s
  seals : ∀ s m, f { s with seals := m } = f s
  count : ∀ s u ctx code n, f (s.count u ctx code n) = f s
  countHub : ∀ s ctx code n, f (s.countHub ctx code n) = f s

namespace ApartFromRecords

variable {α : Type} {f : State → α} (h : ApartFromRecords f)
include h

theorem setBytes (s : State) (p : Nat) (bs : List Byte) : f (s.setBytes p bs) = f s := by
  induction bs generalizing s p with
  | nil => rfl
  | cons b bs ih => exact (ih (s.setByte p b) (p + 1)).trans (h.mem s _)

theorem scatterRaw (s : State) (ps : List Nat) (bs : List Byte) : f (s.scatterRaw ps bs) = f s := by
  induction ps generalizing s bs with
  | nil => rfl
  | cons p ps ih => exact (ih _ _).trans (h.setBytes s p _)

theorem underUnit (s : State) (key : Option (BitVec 256)) (i : Nat) : f (s.underUnit key i) = f s := by
  unfold State.underUnit
  split
  · exact h.seals s _
  · split
    · rfl
    · generalize leBytes _ _ = bs
      exact (h.seals _ _).trans (h.setBytes s _ bs)

theorem under (s : State) (key : Option (BitVec 256)) (p n : Nat) : f (s.under key p n) = f s := by
  have units : ∀ n i (s : State), f (underUnits key i n s) = f s := by
    intro n
    induction n with
    | zero => intro i s; rfl
    | succ n ih => intro i s; exact (ih _ _).trans (h.underUnit s key i)
  unfold State.under
  split
  · exact units _ _ s
  · rfl

/-- Filters that a write does not concern count it, and no more (R321). -/
theorem untaken (p n : Nat) (s : State) : f (untaken p n s) = f s := by
  refine foldl_keeps (fun s c => foldl_keeps (fun s g => foldl_keeps (fun s i => ?_) _ s) _ s) _ s
  unfold filterTouch
  dsimp only
  split
  · rfl
  · exact (h.countHub _ _ _ _).trans (h.count s _ _ _ _)

theorem storePlain (s : State) (p : Nat) (bs : List Byte) : f (s.storePlain p bs) = f s := by
  unfold State.storePlain
  dsimp only
  split
  · exact (h.untaken _ _ _).trans (h.setBytes s p bs)
  · exact h.setBytes s p bs

theorem setArea (s : State) (x : Option (BitVec 256) × List Nat) (v : Nat) : f (s.setArea x v) = f s := by
  unfold State.setArea
  dsimp only
  split
  · exact (h.storePlain _ _ _).trans (h.under s _ _ _)
  · exact h.scatterRaw s _ _

/-- A record appended to a fault area (R358). -/
theorem appendRecord (s : State) (t : Trap) (pc msgId : Word) (launch strid : BitVec 32) (ctx : BitVec 12) (u : Nat) :
    f (appendRecord s t pc msgId launch strid ctx u).1 = f s := by
  unfold Machine.appendRecord
  dsimp only
  split
  · rfl
  · split
    · rfl
    · split
      · split
        · exact h.setArea s _ _
        · exact (h.setArea _ _ _).trans (h.setArea s _ _)
      · exact h.setArea s _ _

end ApartFromRecords

/-! Readings apart from records -/

theorem count_hub (s : State) (u : Nat) (ctx : BitVec 12) (code n : Nat) : (s.count u ctx code n).hub = s.hub := by
  unfold State.count
  dsimp only
  repeat' split
  all_goals rfl

/-- The hub's count changes its counters alone. -/
theorem countHub_eq (s : State) (ctx : BitVec 12) (code n : Nat) :
    ∃ x, s.countHub ctx code n = { s with hub := { s.hub with counters := x } } := by
  unfold State.countHub
  split
  · exact ⟨_, rfl⟩
  · exact ⟨s.hub.counters, rfl⟩

theorem apart_launches : ApartFromRecords fun s => s.hub.launches where
  mem _ _ := rfl
  seals _ _ := rfl
  count s u ctx code n := by rw [count_hub]
  countHub s ctx code n := by obtain ⟨x, hx⟩ := countHub_eq s ctx code n; rw [hx]

/-! Launches -/

theorem launchLive_congr {s t : State} (h : t.hub.launches = s.hub.launches) (l : BitVec 32) :
    t.launchLive l = s.launchLive l := by
  simp only [State.launchLive, State.launch, h]

/-- Weight added to ISSUED leaves every launch in its state (R146). -/
theorem launchLive_issue (s : State) (l' : BitVec 32) (w : Word) (l : BitVec 32) :
    (s.issue l' w).launchLive l = s.launchLive l := by
  unfold State.issue
  split
  · rename_i x hx
    split
    · simp only [State.launchLive, State.launch, State.setLaunch] at hx ⊢
      by_cases hl : l.toNat = l'.toNat
      · rw [hl, kget_kput_self, hx]
      · rw [kget_kput_of_ne _ _ hl]
    · rfl
  · rfl

theorem launchLive_queueTask (s : State) (src : Nat) (w : Sender) (u : Nat) (q : Queued) (l : BitVec 32) :
    (s.queueTask src w u q).launchLive l = s.launchLive l := by
  unfold State.queueTask
  split <;> rfl

/-- A fault that no strand takes is recorded and brings a handler task; the launches go on as they were (R360). -/
theorem launchLive_report (s : State) (u : Nat) (w : Sender) (t : Trap) (l : BitVec 32) :
    (report s u w t).launchLive l = s.launchLive l := by
  have hrec : ∀ t pc mid, (appendRecord s t pc mid w.launch w.strid w.ctx u).1.launchLive l = s.launchLive l :=
    fun t pc mid => launchLive_congr (apart_launches.appendRecord s t pc mid _ _ _ u) l
  unfold report
  dsimp only
  split
  · rw [launchLive_queueTask, launchLive_issue, hrec]
  · exact hrec _ _ _

/-- Parked messages are dispatched while the launches go on as they were (R156). -/
theorem launchLive_dispatchList (u : Nat) (ctx : BitVec 12) (i : Nat) (ps : List Parked) (s : State) (l : BitVec 32) :
    (dispatchList u ctx i ps s).launchLive l = s.launchLive l := by
  induction ps generalizing s with
  | nil => rfl
  | cons p ps ih =>
    cases p with
    | send q j =>
      simp only [dispatchList]
      split
      · split
        · exact (ih _).trans (launchLive_queueTask s _ _ _ _ l)
        · exact (ih _).trans (launchLive_report s _ _ _ l)
      · exact (ih _).trans rfl
    | _ => exact (ih _).trans rfl

theorem launchLive_dispatchParked (s : State) (ctx : BitVec 12) (i : Nat) (l : BitVec 32) :
    (dispatchParked s ctx i).launchLive l = s.launchLive l := by
  unfold dispatchParked
  refine foldl_keeps (f := fun s => s.launchLive l) (fun s c => ?_) _ s
  split
  · rfl
  · exact (launchLive_dispatchList _ _ _ _ _ l).trans rfl

/-- A lock that lapses changes no launch's state (R156). -/
theorem launchLive_lapseLock (s : State) (ctx : BitVec 12) (i : Nat) (l : BitVec 32) :
    (s.lapseLock ctx i).launchLive l = s.launchLive l := by
  unfold State.lapseLock
  split
  · exact (launchLive_dispatchParked _ ctx i l).trans rfl
  · rfl

end Sys2Proof.Machine
end

section
/-! Tasks, messages, arrivals at join cells, lapsing locks, weight, serials and clocks where they arrive (R129, R137, R146,
R148, R156, R163, R164, R207). -/

namespace Sys2Proof.Machine

section Arrival

variable {s : State} {i : Nat} {m : Msg} (hm : s.arriving i = some m)
include hm

/-! Tasks and messages (R156, R163, R164) -/

/-- A task that arrives is queued while its launch is LIVE and its core has room (R137, R163). -/
theorem callatArrival_next {q : Queued} (h : s.ev = some (.callatArrival i)) (hb : m.body = .callat q) :
    (s.launchLive q.launch = false → exec .callatArrival s = .next (s.unpost i)) ∧
    (s.launchLive q.launch = true → (s.core m.dst).hasRoom = true → exec .callatArrival s = .next
      (((s.unpost i).learnFrom m.src m.dst m.dep).modCore m.dst fun c => { c with ready := c.ready ++ [q] })) ∧
    (s.launchLive q.launch = true → (s.core m.dst).hasRoom = false → exec .callatArrival s = .next s) := by
  refine ⟨fun hl => ?_, fun hl hr => ?_, fun hl hr => ?_⟩
  · simp only [exec_callatArrival, execCallatArrival, h, hm, hb, hl, Bool.not_false, if_true]
  · simp only [exec_callatArrival, execCallatArrival, h, hm, hb, hl, hr, Bool.not_true, Bool.false_eq_true, if_false, if_true]
    rfl
  · simp only [exec_callatArrival, execCallatArrival, h, hm, hb, hl, hr, Bool.not_true, Bool.false_eq_true, if_false]

/-- A message parked at its core, which learns what it bears (R156, R207). -/
def State.parked (w : State) (i : Nat) (m : Msg) (q : Queued) (idx : BitVec 8) : State :=
  ((w.unpost i).learnFrom m.src m.dst m.dep).modCore m.dst fun c => { c with overflow := c.overflow ++ [.send q idx] }

/-- A message under a LOCKED entry is parked, one under a VALID entry takes its code, key and budget, and one under an EMPTY
entry is parked and reported (R156, R164). -/
theorem sendArrival_next {q : Queued} {idx : BitVec 8} (h : s.ev = some (.sendArrival i)) (hb : m.body = .send q idx)
    (hl : s.launchLive q.launch = true) :
    let w := s.lapseLock q.ctx idx.toNat
    let e := (w.context q.ctx).handler idx.toNat
    let c := w.core m.dst
    (e.lock ≠ none → c.overflow.length < 64 → exec .sendArrival s = .next (w.parked i m q idx)) ∧
    (e.lock = none → e.valid = true → c.hasRoom = true → exec .sendArrival s = .next
      (((w.unpost i).learnFrom m.src m.dst m.dep).modCore m.dst fun c => { c with ready := c.ready ++
        [{ q with crec := { q.crec with code := e.code, budget := e.budget, dkey := e.key } }] })) ∧
    (e.lock = none → e.valid = true → c.hasRoom = false → exec .sendArrival s = .next w) ∧
    (e.lock = none → e.valid = false → c.overflow.length < 64 → exec .sendArrival s = .next (report (w.parked i m q idx) m.dst
      { m.sender with msgId := q.msgId } { cause := .handlerMissing, pc := some 0, msgId := some q.msgId })) := by
  have hl' : (s.lapseLock q.ctx idx.toNat).launchLive q.launch = true := (launchLive_lapseLock s _ _ _).trans hl
  refine ⟨fun hk ho => ?_, fun hk hv hr => ?_, fun hk hv hr => ?_, fun hk hv ho => ?_⟩
  · have ho' : ((s.lapseLock q.ctx idx.toNat).core m.dst).overflow.length < overflowRoom := ho
    simp only [exec_sendArrival, execSendArrival, h, hm, hb, hl', Option.isSome_iff_ne_none.2 hk, ho', Bool.not_true,
      Bool.false_eq_true, if_false, if_true]
    rfl
  · simp only [exec_sendArrival, execSendArrival, h, hm, hb, hl', hk, hv, hr, Option.isSome_none, Bool.not_true,
      Bool.false_eq_true, if_false, if_true]
    rfl
  · simp only [exec_sendArrival, execSendArrival, h, hm, hb, hl', hk, hv, hr, Option.isSome_none, Bool.not_true,
      Bool.false_eq_true, if_false, if_true]
  · have ho' : ((s.lapseLock q.ctx idx.toNat).core m.dst).overflow.length < overflowRoom := ho
    simp only [exec_sendArrival, execSendArrival, h, hm, hb, hl', hk, hv, ho', Option.isSome_none, Bool.not_true,
      Bool.false_eq_true, if_false, if_true]
    rfl

/-! Arrivals at join cells (R148, R167) -/

/-- The state in which an arrival at a cell is acknowledged to its strand (R148). -/
def State.acked (t : State) (i : Nat) (m : Msg) (cell : Word) : State :=
  (t.unpost i).post m.dst m.src m.sender (t.heard (dieOf m.dst) m.dep) none (.ack m.id cell m.sender.pc m.dst none)

section Cell

variable {cell : Word} {p : Place} {q : List Nat} (h : s.ev = some (.jarvArrival i)) (hb : m.body = .arrival cell)
  (hl : s.launchLive m.sender.launch = true)
  (hp : locate (s.learnFrom m.src m.dst m.dep) m.src m.sender.ctx cell.toNat .atomic = .ok p)
  (hq : reachAll (s.learnFrom m.src m.dst m.dep) m.sender.ctx p 2 = .ok q)
include h hb hl hp hq

/-- A cell that is not ARMED refuses an arrival (R148). -/
theorem jarvArrival_refused (hs : leNat ((s.learnFrom m.src m.dst m.dep).gather q) % 2 ^ 32 ≠ 1) :
    exec .jarvArrival s = .next ((report (s.learnFrom m.src m.dst m.dep) m.dst m.sender
      { cause := .joinState, addr := cell }).acked i m cell) := by
  simp only [exec_jarvArrival, execJarvArrival, h, hm, hb, hl, hp, hq, bne_iff_ne.2 hs, Bool.not_true, Bool.false_eq_true,
    if_false, if_true]
  rfl

/-- An ARMED cell takes an arrival; the one that releases its record waits for room there (R137, R148). -/
theorem jarvArrival_armed (hs : leNat ((s.learnFrom m.src m.dst m.dep).gather q) % 2 ^ 32 = 1) :
    let h := s.learnFrom m.src m.dst m.dep
    let last := releases (leNat (h.gather q))
    (last = true → (h.core m.dst).hasRoom = false → exec .jarvArrival s = .next h) ∧
    (last = false ∨ (h.core m.dst).hasRoom = true →
      exec .jarvArrival s = .next (((arriveAt h m cell q).learn (dieOf m.dst) m.dep).acked i m cell)) := by
  refine ⟨fun hr hroom => ?_, fun hr => ?_⟩
  · simp only [exec_jarvArrival, execJarvArrival, h, hm, hb, hl, hp, hq, hs, hr, hroom, bne_self_eq_false, Bool.not_true,
      Bool.not_false, Bool.and_self, Bool.false_eq_true, if_false, if_true]
  · have hw : (releases (leNat ((s.learnFrom m.src m.dst m.dep).gather q)) &&
        !((s.learnFrom m.src m.dst m.dep).core m.dst).hasRoom) = false := by
      rcases hr with hr | hr <;> simp [hr]
    simp only [exec_jarvArrival, execJarvArrival, h, hm, hb, hl, hp, hq, hs, hw, bne_self_eq_false, Bool.not_true,
      Bool.false_eq_true, if_false]
    rfl

end Cell

end Arrival

theorem releases_iff (v : Nat) : releases v = true ↔ bits v 95 64 ≤ 1 := decide_eq_true_iff

section ArriveAt

variable (h : State) (m : Msg) (cell : Word) (q : List Nat)

/-- The cell's LAUNCH and WEIGHT as an arrival reads them and writes them back. -/
theorem cell_fields (v : Nat) : (BitVec.ofNat 32 (bits v 127 96)).toNat = bits v 127 96 ∧
    (BitVec.ofNat 64 (bits v 255 192)).toNat = bits v 255 192 := by
  constructor
  · exact Nat.mod_eq_of_lt (Nat.mod_lt _ (by decide))
  · exact Nat.mod_eq_of_lt (Nat.mod_lt _ (by decide))

/-- An arrival that is not the last counts the cell down (R148). -/
theorem arriveAt_counts (hr : releases (leNat (h.gather q)) = false) :
    let v := leNat (h.gather q)
    arriveAt h m cell q = h.scatterRaw q
      (leBytes 32 (cellNum 1 (bits v 95 64 - 1) (bits v 127 96) (bits v 191 128) (bits v 255 192))) := by
  obtain ⟨hlaunch, hweight⟩ := cell_fields (leNat (h.gather q))
  simp only [arriveAt, hr, Bool.not_false, if_true, hlaunch, hweight]

/-- The last arrival releases the cell's record, as a task where its launch is LIVE (R148). -/
theorem arriveAt_releases (hr : releases (leNat (h.gather q)) = true) :
    let v := leNat (h.gather q)
    let l := BitVec.ofNat 32 (bits v 127 96)
    let w := BitVec.ofNat 64 (bits v 255 192)
    let t := h.scatterRaw q (leBytes 32 (cellNum 2 0 (bits v 127 96) (bits v 191 128) 0))
    (∀ c, releasedRec t m.dst m.sender.ctx (bits v 191 128 % 2 ^ 56) = .error c →
      arriveAt h m cell q = (report t m.dst m.sender { cause := c, addr := cell }).returned l w) ∧
    (∀ r, t.launchLive l = true → releasedRec t m.dst m.sender.ctx (bits v 191 128 % 2 ^ 56) = .ok r →
      arriveAt h m cell q = t.modCore m.dst fun c => { c with ready := c.ready ++
        [⟨r, w, .join, 0, l, m.sender.ctx, t.heard (dieOf m.dst) m.dep, none, false, false, none⟩] }) := by
  obtain ⟨hlaunch, -⟩ := cell_fields (leNat (h.gather q))
  refine ⟨fun c hc => ?_, fun r hl hc => ?_⟩
  · simp only [arriveAt, hr, Bool.not_true, Bool.false_eq_true, if_false, hlaunch, hc]
  · simp only [arriveAt, hr, Bool.not_true, Bool.false_eq_true, if_false, hlaunch, hc, hl, if_true]
    rfl

end ArriveAt

/-! Weight, serials and clocks (R129, R146, R207) -/

/-- Weight that returns counts towards its LIVE launch, which is DONE with the last of it (R146). -/
theorem returned_live {s : State} {l : BitVec 32} {x : Launch} (hx : s.launch l = some x) (hs : x.state = .live) (w : Word) :
    let r := x.returned + w.setWidth 96
    (r ≠ x.issued → s.returned l w = s.setLaunch l { x with returned := r }) ∧
    (∀ q, r = x.issued → x.queue = some q →
      let u := s.setLaunch l { x with returned := r, state := .done }
      s.returned l w = { u with hub := { u.hub with done := u.hub.done ++ [⟨q, l, 0, x.entry⟩] } }) := by
  refine ⟨fun hr => ?_, fun q hr hq => ?_⟩
  · simp only [State.returned, hx, hs, BEq.rfl, if_true, beq_eq_false_iff_ne.2 hr, Bool.false_eq_true, if_false]
  · simp only [State.returned, hx, hs, BEq.rfl, if_true, beq_iff_eq.2 hr, hq]

section Notice

variable {s : State} {i : Nat} {m : Msg} (hm : s.arriving i = some m)
include hm

theorem weightReturn_next {w : Word} (h : s.ev = some (.weightReturn i)) (hb : m.body = .weight w) :
    exec .weightReturn s = .next ((s.unpost i).returned m.sender.launch w) := by
  simp only [exec_weightReturn, execWeightReturn, h, hm, hb]

theorem serialNoticeArrival_next {n : Nat} (h : s.ev = some (.serialNoticeArrival i)) (hb : m.body = .serial n) :
    exec .serialNoticeArrival s = .next ((s.unpost i).modCore m.dst fun c => c.clearSerial n) := by
  simp only [exec_serialNoticeArrival, execSerialNoticeArrival, h, hm, hb]

theorem clockNoticeArrival_next {ser : BitVec 32} (h : s.ev = some (.clockNoticeArrival i)) (hb : m.body = .clock ser) :
    exec .clockNoticeArrival s = .next ((s.unpost i).setDie (dieOf m.dst)
      { s.die (dieOf m.dst) with app := sset 0 (s.die (dieOf m.dst)).app (dieOf m.src) ser }) := by
  simp only [exec_clockNoticeArrival, execClockNoticeArrival, h, hm, hb]

end Notice

/-- A die tells every other its SER once it has changed (R207). -/
theorem clockNoticeSend_next {s : State} {d : Nat} (h : s.ev = some (.clockNoticeSend d)) :
    let x := s.die d
    (d < 57 → x.ser ≠ x.told → exec .clockNoticeSend s = .next (((List.range 57).filter (· != d)).foldl (fun s e =>
      s.post (dieUnit d) (dieUnit e) ⟨dieUnit d, 0, 0, 0, 0, 0, false, 0⟩ [] none (.clock x.ser))
        (s.setDie d { x with told := x.ser }))) ∧
    (57 ≤ d ∨ x.ser = x.told → exec .clockNoticeSend s = .next s) := by
  refine ⟨fun hd hx => ?_, fun hd => ?_⟩
  · have hc : (decide (d < 57) && (s.die d).ser != (s.die d).told) = true := by simp [hd, hx]
    simp only [exec_clockNoticeSend, execClockNoticeSend, h, hc, if_true, List.foldl_filter, bne_iff_ne, ite_not]
  · have hc : (decide (d < 57) && (s.die d).ser != (s.die d).told) = false := by
      rcases hd with hd | hx
      · simp [Nat.not_lt.2 hd]
      · simp [hx]
    simp only [exec_clockNoticeSend, execClockNoticeSend, h, hc, Bool.false_eq_true, if_false]

/-- Settles O48: tasks and messages, arrivals at cells, lapsing locks, weight, serials and clocks in turn. -/
theorem taskArrivals : Obligations.TaskArrivals := by
  unfold Obligations.TaskArrivals
  refine ⟨?_, ?_, ?_, ?_, ?_⟩
  · intro s i m q hm gone c ready
    exact ⟨callatArrival_next hm, fun idx h hb hl => sendArrival_next hm h hb hl⟩
  · intro s i m cell p q hev hm hb hlive h hp hq ack v l rec_
    refine ⟨fun hs => ?_, jarvArrival_refused hm hev hb hlive hp hq⟩
    obtain ⟨hwait, hgo⟩ := jarvArrival_armed hm hev hb hlive hp hq hs
    refine ⟨fun hn => ?_, fun hn hroom => hwait ((releases_iff v).2 hn) hroom, fun hn hroom => ?_⟩
    · have hr : releases v = false := Bool.eq_false_iff.2 fun c => absurd ((releases_iff v).1 c) (Nat.not_le.2 hn)
      rw [hgo (.inl hr), arriveAt_counts h m cell q hr]
      rfl
    · obtain ⟨hbad, hgood⟩ := arriveAt_releases h m cell q ((releases_iff v).2 hn)
      exact ⟨fun c hc => (hgo (.inr hroom)).trans (by rw [hbad c hc]; rfl),
        fun r hl hr => (hgo (.inr hroom)).trans (by rw [hgood r hl hr]; rfl)⟩
  · intro s ctx idx h n hev e hl
    have hnext : exec .handlerLockLapse s = .next (s.lapseLock ctx idx.toNat) := by
      simp only [exec_handlerLockLapse, execHandlerLockLapse, hev]
    rw [hnext]
    refine ⟨fun hn => congrArg _ (lapseLock_early fun h' n' hl' => ?_), fun hn => congrArg _ (lapseLock_due hl hn)⟩
    obtain ⟨-, rfl⟩ := Prod.mk.inj (Option.some.inj (hl.symm.trans hl'))
    exact hn
  · intro s i m hm
    refine ⟨fun w x h hb hx hs => ?_, fun n h hb => serialNoticeArrival_next hm h hb,
      fun ser h hb => clockNoticeArrival_next hm h hb⟩
    obtain ⟨hsome, hlast⟩ := returned_live (s := s.unpost i) hx hs w
    rw [weightReturn_next hm h hb]
    exact ⟨fun hr => congrArg _ (hsome hr), fun q hr hq => congrArg _ (hlast q hr hq)⟩
  · intro s d h
    exact clockNoticeSend_next h

end Sys2Proof.Machine
end

section
/-! Budgets that count and are spent: the end of a cycle, and the trap on the instruction at hand, with nothing of it left
(R145, R351, R352, R356). -/

namespace Sys2Proof.Machine

/-! The end of a cycle (R145) -/

/-- BUD goes down in a cycle that a strand begins and ends in ISSUING or WAITING, and in no other (R145). -/
theorem tickSlot_bud (before after : Slot) :
    (before.mode = .issuing ∨ before.mode = .waiting → after.mode = .issuing ∨ after.mode = .waiting →
      (tickSlot before after).st.bud = if after.st.bud = 0 then 0 else after.st.bud - 1) ∧
    (before.mode = .handler ∨ before.mode = .quiesced → after.mode = .handler ∨ after.mode = .quiesced →
      (tickSlot before after).st.bud = after.st.bud) := by
  refine ⟨fun hb ha => ?_, fun hb ha => ?_⟩
  · have hc : (((before.mode == .issuing || before.mode == .waiting) || before.mode == .empty) &&
        (after.mode == .issuing || after.mode == .waiting)) = true := by
      rcases hb with hb | hb <;> rcases ha with ha | ha <;> rw [hb, ha] <;> rfl
    simp only [tickSlot, hc, if_true, beq_iff_eq]
  · have hc : (((before.mode == .issuing || before.mode == .waiting) || before.mode == .empty) &&
        (after.mode == .issuing || after.mode == .waiting)) = false := by
      rcases hb with hb | hb <;> rw [hb] <;> rfl
    simp only [tickSlot, hc, Bool.false_eq_true, if_false]
    split <;> rfl

theorem countCycle_fabric (s : State) (u n : Nat) : (countCycle s u n).fabric = s.fabric := by
  unfold countCycle
  dsimp only
  split_ifs
  · rfl
  · rfl
  · split <;> rfl

/-- The core after a cycle: its slots' budgets counted, CYC one more, and its counters (R22, R145, R403). -/
theorem endCycle_core (before : Core) (u : Nat) (s : State) : (endCycle before u s).core u = { s.core u with
    slots := List.zipWith tickSlot before.slots (s.core u).slots, cyc := (s.core u).cyc + 1,
    counters := (s.core u).counters.map (bumpOne 0x01 1) } := by
  rw [State.core, endCycle, countCycle_cores]
  change ((State.modCore _ u _).core u) = _
  rw [core_modCore, if_pos rfl]
  change (fun c : Core => { c with counters := c.counters.map (bumpOne 0x01 1) }) ((s.setCore u _).core u) = _
  rw [core_setCore_self]

theorem endCycle_slot {before : Core} {u k : Nat} {s : State} (hb : k < before.slots.length)
    (hs : k < (s.core u).slots.length) : (endCycle before u s).slot u k = tickSlot (before.slot k) (s.slot u k) := by
  simp only [State.slot, Core.slot, endCycle_core, List.getD_eq_getElem?_getD, List.getElem?_zipWith,
    List.getElem?_eq_getElem hb, List.getElem?_eq_getElem hs, Option.getD_some]

/-! The instruction given up (R145, R160) -/

theorem kget_map {α : Type} (g : α → α) (m : List (Nat × α)) (a : Nat) :
    kget (m.map fun p => (p.1, g p.2)) a = (kget m a).map g := by
  induction m with
  | nil => rfl
  | cons p m ih =>
    obtain ⟨k, v⟩ := p
    simp only [List.map_cons, kget, ih]
    split <;> rfl

/-- Every core changed by one function that leaves a core after reset as it is. -/
theorem core_map {s t : State} {g : Core → Core} (ht : t.cores = s.cores.map fun p => (p.1, g p.2)) (u : Nat)
    (hg : g (Core.reset u) = Core.reset u) : t.core u = g (s.core u) := by
  rw [State.core, State.core, ht, kget_map]
  cases kget s.cores u with
  | none => exact hg.symm
  | some c => rfl

/-- A slot changed by a function reads as changed, when it lies in its core. -/
theorem slot_modSlot {s : State} {u k : Nat} (hk : k < (s.core u).slots.length) (f : Slot → Slot) :
    (s.modSlot u k f).slot u k = f (s.slot u k) := by
  simp only [State.slot, State.modSlot, State.setSlot, core_setCore_self, Core.slot_setSlot, hk, and_self, if_true]

theorem core_modSlot (s : State) (u k : Nat) (f : Slot → Slot) :
    (s.modSlot u k f).core u = (s.core u).setSlot k (f (s.slot u k)) := core_setCore_self s u _

theorem slot_beyond {c : Core} {k : Nat} (hk : ¬ k < c.slots.length) : c.slot k = Slot.reset := by
  simp only [Core.slot, List.getD_eq_getElem?_getD, List.getElem?_eq_none (Nat.not_lt.1 hk), Option.getD_none]

/-- The entries that a slot's instruction has taken stand again before the others, and the slot holds none (R145, R160). -/
theorem giveBack_core (s : State) (u k : Nat) : ((s.giveBack u k).core u).qs = (s.slot u k).taken ++ (s.core u).qs ∧
    ((s.giveBack u k).slot u k).taken = [] := by
  have hq : ((s.modCore u fun c => { c with qs := (c.slot k).taken ++ c.qs }).core u).qs =
      (s.slot u k).taken ++ (s.core u).qs := by rw [core_modCore, if_pos rfl]; rfl
  constructor
  · rw [State.giveBack, core_modSlot, Core.setSlot_qs, hq]
  · by_cases hk : k < (s.core u).slots.length
    · have hk' : k < ((s.modCore u fun c => { c with qs := (c.slot k).taken ++ c.qs }).core u).slots.length := by
        rw [core_modCore, if_pos rfl]; exact hk
      rw [State.giveBack, slot_modSlot hk']
    · rw [State.slot, slot_beyond]
      · rfl
      · rw [State.giveBack, core_modSlot, Core.setSlot_length, core_modCore, if_pos rfl]
        exact hk

/-- A withdrawn strand's entries taken out of the waiting places of every home and of the hub (R160). -/
def State.unawait (s : State) (w : Sender) : State := { s with
  cores := s.cores.map fun p =>
    (p.1, { p.2 with waiters := p.2.waiters.filter fun x => !(x.blocks && x.sender.same w) })
  hub := { s.hub with
    slots := s.hub.slots.map fun p => (p.1, { p.2 with waiting := p.2.waiting.filter fun x => !x.1.same w })
    collWaits := s.hub.collWaits.filter fun x => !x.sender.same w
    ckptWaits := s.hub.ckptWaits.filter fun x => !x.sender.same w } }

/-- A command that the strand in slot `k` awaits and that has not registered: it goes with the instruction (R160). -/
def Cmd.abandonedBy (k : Nat) (x : Cmd) : Bool := x.awaited && x.slot == k && !x.registered

/-- A core without the commands that go with the instruction in slot `k` (R160). -/
def Core.dropAwaited (k : Nat) (c : Core) : Core := { c with cmds := c.cmds.filter fun x => !x.abandonedBy k }

/-- The slot of a withdrawn instruction, `n` of whose commands are gone (R160). -/
def Slot.retract (n : Nat) (sl : Slot) : Slot :=
  { sl with asked := false, st := { sl.st with cseq := sl.st.cseq - BitVec.ofNat 32 n } }

theorem withdraw_eq (s : State) (u k : Nat) : s.withdraw u k =
    let t := s.unawait (s.sender u k)
    ((t.modCore u (Core.dropAwaited k)).giveBack u k).modSlot u k
      (Slot.retract ((t.core u).cmds.filter (Cmd.abandonedBy k)).length) := rfl

theorem unawait_core (s : State) (w : Sender) (u : Nat) : (s.unawait w).core u =
    { s.core u with waiters := (s.core u).waiters.filter fun x => !(x.blocks && x.sender.same w) } :=
  core_map (g := fun c => { c with waiters := c.waiters.filter fun x => !(x.blocks && x.sender.same w) }) rfl u rfl

/-- The queue entries that a withdrawn instruction has taken stand again before the others (R145, R160). -/
theorem withdraw_entries (s : State) (u k : Nat) : ((s.withdraw u k).core u).qs = (s.slot u k).taken ++ (s.core u).qs ∧
    ((s.withdraw u k).slot u k).taken = [] := by
  rw [withdraw_eq]
  dsimp only
  generalize ht : (s.unawait (s.sender u k)).modCore u (Core.dropAwaited k) = t
  have hc : (t.core u).qs = (s.core u).qs ∧ (t.core u).slots = (s.core u).slots := by
    rw [← ht, core_modCore, if_pos rfl, unawait_core]
    exact ⟨rfl, rfl⟩
  obtain ⟨hqs, htaken⟩ := giveBack_core t u k
  have hslot : t.slot u k = s.slot u k := by simp only [State.slot, Core.slot, hc.2]
  constructor
  · rw [core_modSlot, Core.setSlot_qs, hqs, hslot, hc.1]
  · rw [State.slot, core_modSlot, Core.slot_setSlot]
    split
    · exact htaken
    · exact htaken

/-- A long load that is taken back leaves its strand at it, and the queue entries it took stand again; none of its results
lands (R145). -/
theorem unload_slot {s : State} {u k : Nat} (w : LongWait) (hk : k < (s.core u).slots.length) :
    (s.unload u k w).slot u k = { s.slot u k with
      inflight := (s.slot u k).inflight.take ((s.slot u k).inflight.length - w.results),
      st := { (s.slot u k).st with pc := w.pc }, long := none } := by
  have hc : (s.modCore u fun c => { c with qs := w.taken ++ c.qs }).core u =
      { s.core u with qs := w.taken ++ (s.core u).qs } := by
    rw [core_modCore, if_pos rfl]
  have hs : (s.modCore u fun c => { c with qs := w.taken ++ c.qs }).slot u k = s.slot u k := by
    rw [State.slot, hc]; rfl
  rw [State.unload, slot_modSlot (by rw [hc]; exact hk), hs]

theorem unload_entries (s : State) (u k : Nat) (w : LongWait) : ((s.unload u k w).core u).qs = w.taken ++ (s.core u).qs := by
  rw [State.unload, core_modSlot, Core.setSlot_qs, core_modCore, if_pos rfl]

/-! Entering the handler (R352) -/

/-- What lands in registers leaves the trap frames, the mode, PC and the context of its slot. -/
theorem landOne_keeps (sl : Slot) (l : Landing) : (sl.landOne l).frames = sl.frames ∧ (sl.landOne l).mode = sl.mode ∧
    (sl.landOne l).st.pc = sl.st.pc ∧ (sl.landOne l).st.ctx = sl.st.ctx := by
  unfold Slot.landOne
  split
  case h_5 => exact ⟨rfl, rfl, by unfold Strand.setGuard; split <;> rfl, by unfold Strand.setGuard; split <;> rfl⟩
  all_goals exact ⟨rfl, rfl, rfl, rfl⟩

theorem landOnes_keep (ls : List Landing) (sl : Slot) : (ls.foldl Slot.landOne sl).frames = sl.frames ∧
    (ls.foldl Slot.landOne sl).mode = sl.mode ∧ (ls.foldl Slot.landOne sl).st.pc = sl.st.pc ∧
    (ls.foldl Slot.landOne sl).st.ctx = sl.st.ctx := by
  induction ls generalizing sl with
  | nil => exact ⟨rfl, rfl, rfl, rfl⟩
  | cons l ls ih =>
    obtain ⟨hf, hm, hp, hc⟩ := ih (sl.landOne l)
    obtain ⟨hf', hm', hp', hc'⟩ := landOne_keeps sl l
    exact ⟨hf.trans hf', hm.trans hm', hp.trans hp', hc.trans hc'⟩

theorem landList_length {k : Nat} (ls : List Landing) {c : Core} (hk : k < c.slots.length) :
    (Core.landList c k ls).slots.length = c.slots.length := by
  induction ls generalizing c with
  | nil => rfl
  | cons l ls ih =>
    have h := (landOne_slot hk l).2
    exact (ih (h ▸ hk)).trans h

/-- The slot once every result of it has landed (R351). -/
theorem landAll_slot {c : Core} {k : Nat} (hk : k < c.slots.length) : (c.landAll k).slot k =
    (c.slot k).inflight.foldl Slot.landOne { c.slot k with inflight := [] } := by
  rw [Core.landAll, landList_slot _ (by simpa using hk)]
  simp [Core.slot_setSlot, hk]

theorem slots_modCore (s : State) {u v : Nat} {f : Core → Core} (hf : ∀ c, (f c).slots = c.slots) :
    ((s.modCore v f).core u).slots = (s.core u).slots := by
  rw [core_modCore]
  split
  case isTrue h => rw [hf, h]
  case isFalse => rfl

/-- Appending a record leaves the slots of every core. -/
theorem apart_slots (u : Nat) : ApartFromRecords fun s => (s.core u).slots where
  mem _ _ := rfl
  seals _ _ := rfl
  count s v ctx code n := by
    have h := slots_modCore s (u := u) (v := v) (f := fun c => { c with counters := c.counters.map (bumpOne code n) })
      fun _ => rfl
    unfold State.count
    dsimp only
    split
    · exact h
    · split
      · split
        · exact h
        · exact h
      · exact h
  countHub s ctx code n := by obtain ⟨x, hx⟩ := countHub_eq s ctx code n; rw [hx]; rfl

/-- The state in which a trap is taken: every result in flight has landed, and the queue entries taken stand again (R351). -/
def State.landed (s : State) (u k : Nat) : State := (s.modCore u fun c => c.landAll k).giveBack u k

theorem landed_slot {s : State} {u k : Nat} (hk : k < (s.core u).slots.length) : (s.landed u k).slot u k =
    { (s.slot u k).inflight.foldl Slot.landOne { s.slot u k with inflight := [] } with taken := [] } := by
  have hc : (s.modCore u fun c => c.landAll k).core u = (s.core u).landAll k := by rw [core_modCore, if_pos rfl]
  have hl : ((s.core u).landAll k).slots.length = (s.core u).slots.length := by
    rw [Core.landAll, landList_length _ (by simpa using hk), Core.setSlot_length]
  rw [State.landed, State.giveBack, slot_modSlot, State.slot, core_modCore, if_pos rfl, hc]
  · exact congrArg (fun sl : Slot => { sl with taken := [] }) (landAll_slot hk)
  · rw [core_modCore, if_pos rfl, hc]
    exact hl ▸ hk

theorem landed_length (s : State) {u k : Nat} (hk : k < (s.core u).slots.length) :
    ((s.landed u k).core u).slots.length = (s.core u).slots.length := by
  rw [State.landed, State.giveBack, core_modSlot, Core.setSlot_length, core_modCore, if_pos rfl, core_modCore, if_pos rfl,
    Core.landAll]
  exact (landList_length _ (by simpa using hk)).trans (Core.setSlot_length _ _ _)

/-- A trap of a strand outside the handler whose context has a handler makes one frame (R352). -/
theorem takeTrap_frame {s : State} {u k : Nat} (t : Trap) (hk : k < (s.core u).slots.length)
    (hm : (s.slot u k).mode ≠ .handler) (ht : (s.context (s.slot u k).st.ctx).tvec ≠ 0) (hf : (s.slot u k).frames = []) :
    ∃ e, ((takeTrap s u k t).slot u k).frames = [trapFrame ((s.landed u k).slot u k) t e] := by
  obtain ⟨hframes, hmode, -, hctx⟩ := landOnes_keep (s.slot u k).inflight { s.slot u k with inflight := [] }
  have hf' : ((s.landed u k).slot u k).frames = [] := by rw [landed_slot hk]; exact hframes.trans hf
  have hm' : ((s.landed u k).slot u k).mode ≠ .handler := by rw [landed_slot hk]; exact fun h => hm (hmode.symm.trans h)
  have ht' : ((s.landed u k).context ((s.landed u k).slot u k).st.ctx).tvec ≠ 0 := by
    have hx : ((s.landed u k).slot u k).st.ctx = (s.slot u k).st.ctx := by rw [landed_slot hk]; exact hctx
    rw [hx]; exact ht
  have hk' : k < ((s.landed u k).core u).slots.length := by rw [landed_length s hk]; exact hk
  unfold takeTrap
  dsimp only
  rw [← State.landed]
  generalize s.landed u k = x at *
  rw [if_neg (by simp [Slot.depth, hf']), if_neg (by simpa using ht'), if_neg (by simp [hm'])]
  generalize hr : (if x.recordWaits u k = true then (x, (0 : Word)) else record x u k t) = r
  have hs : (r.1.core u).slots = (x.core u).slots := by
    rw [← hr]
    split
    · rfl
    · exact (apart_slots u).appendRecord _ _ _ _ _ _ _ _
  have hsl : r.1.slot u k = x.slot u k := by simp only [State.slot, Core.slot, hs]
  rw [slot_modSlot (by rw [hs]; exact hk'), hsl]
  exact ⟨r.2, congrArg (List.cons _) hf'⟩

/-- A trap on the instruction at hand writes the PC of that instruction in its frame (R145, R352). -/
theorem takeTrap_epc {s : State} {u k : Nat} {t : Trap} (hn : t.next = false) (hk : k < (s.core u).slots.length)
    (hm : (s.slot u k).mode ≠ .handler) (ht : (s.context (s.slot u k).st.ctx).tvec ≠ 0) (hf : (s.slot u k).frames = []) :
    ∃ f, ((takeTrap s u k t).slot u k).frames = [f] ∧ f.epc = (s.slot u k).st.pc := by
  obtain ⟨e, he⟩ := takeTrap_frame t hk hm ht hf
  obtain ⟨-, -, hpc, -⟩ := landOnes_keep (s.slot u k).inflight { s.slot u k with inflight := [] }
  refine ⟨_, he, ?_⟩
  rw [trapFrame, hn, landed_slot hk]
  exact hpc

/-! The record of the trap (R356) -/

/-- Bits 383:320 of a fault's record are its PC, when its unit fits in bits 147:127 (R356). -/
theorem recordNum_pc {t : Trap} (hflags : t.flags = {}) (pc msgId : Word) (launch strid serial : BitVec 32) (ctx : BitVec 12)
    {u : Nat} (hu : u < 2 ^ 21) : recordNum t pc msgId launch strid serial ctx u / 2 ^ 320 % 2 ^ 64 = pc.toNat := by
  have hc : t.cause.code < 2 ^ 16 := by cases t.cause <;> decide
  have h0 : t.flags.code = 0 := by rw [hflags]; rfl
  have := t.detail.isLt; have := t.dseq.isLt; have := serial.isLt; have := strid.isLt; have := launch.isLt
  have := ctx.isLt; have := pc.isLt; have := t.addr.isLt; have := msgId.isLt
  rw [recordNum, h0]
  omega

/-! The obligation -/

/-- A strand that could issue takes the BUDGET trap in its turn (R134, R145). -/
theorem attempt_spent {s : State} {u k : Nat} (hm : (s.slot u k).mode = .issuing) (hb : (s.slot u k).st.bud = 0)
    (ha : (s.slot u k).answer = none) (hf : (s.slot u k).deferred = []) : attempt exec u k s =
      exec .budgetExhausted { s with focusU := u, focusK := k, ev := some (.budgetExhausted u k) } := by
  have hme : State.me { s with focusU := u, focusK := k } = s.slot u k := rfl
  simp [attempt, hme, hm, hb, ha, hf]

/-- Settles O60: the budget of a slot is counted as its core's cycle ends; a spent one withdraws what the instruction asked
for and takes the trap there. -/
theorem budgets : Obligations.Budgets := by
  unfold Obligations.Budgets
  refine ⟨tickSlot_bud, fun before u k s hb hs => endCycle_slot hb hs, fun s u k hm hb ha hd hf => ?_,
    fun s u k hm hb ha hd hf h => ?_, fun s u k w hk => ?_, fun s u k hk hm ht hf => takeTrap_epc rfl hk hm ht hf,
    fun s u k => ⟨rfl, rfl, withdraw_entries s u k⟩, fun before u s => ⟨?_, ?_⟩, fun s u k => rfl,
    fun pc msgId launch strid serial ctx u hu => recordNum_pc rfl pc msgId launch strid serial ctx hu⟩
  · rw [attempt_spent hm hb ha hf]
    exact budgetExhausted_issuing rfl hb hd hm ha hf
  · obtain ⟨hplain, hback, hdone⟩ := budgetExhausted_waiting h hb hd hm ha hf
    exact ⟨hplain, fun w hl => ⟨hdone w hl, hback w hl⟩⟩
  · simp only [unload_slot w hk, unload_entries]
    exact ⟨trivial, trivial, trivial, fun l hl => List.mem_of_mem_take hl, fun _ => rfl, fun _ => rfl, fun _ => rfl,
      rfl, rfl, rfl⟩
  · exact countCycle_fabric _ _ _
  · rw [endCycle_core]

end Sys2Proof.Machine
end

section
/-! The steps of units beside the cores: the Carder's registration, the Fuller, the scrub, forwarding entries, notices of
RPOS, Clear, collectives, linked barriers and recovery (R158, R289, R309 to R311, R329, R364, R399, R401, R402). -/

namespace Sys2Proof.Machine

/-! Registration (R289) -/

/-- The first selection command that has not registered is put to the tests of R290, when no strand waits at it, its guard has
resolved, and nothing before it waits (R289). -/
theorem carderRegistration_next {s : State} {u : Nat} {x : Cmd} (h : s.ev = some (.carderRegistration u))
    (hx : ((s.core u).cmds.find? fun x => x.engine == .selection && !x.registered) = some x) (ha : x.awaited = false)
    (hb : x.bound = none) (hw : registerWaits s x = false) :
    (∀ y, registerTests { s with focusU := x.unit, focusK := x.slot } x = .ok y →
      exec .carderRegistration s = .next (enrol s x y)) ∧
    (∀ t o, registerTests { s with focusU := x.unit, focusK := x.slot } x = .error (.trap t o) →
      exec .carderRegistration s = .next (failCmd s x (t.cause, t.addr.toNat))) := by
  have hg : (x.awaited || x.bound.isSome || registerWaits s x) = false := by rw [ha, hb, hw]; rfl
  constructor
  · intro y hy
    rw [h] at hy
    simp only [exec_carderRegistration, execCarderRegistration, h, hx, hg, hy, Bool.false_eq_true, if_false]
  · intro t o hy
    rw [h] at hy
    simp only [exec_carderRegistration, execCarderRegistration, h, hx, hg, hy, Bool.false_eq_true, if_false]

/-! Pages (R309 to R311) -/

/-- A full page, all of whose rows are committed, is recopied into a smaller class that has room (R309). -/
theorem fullerCompaction_smaller {s : State} {i k : Nat} (h : s.ev = some (.fullerCompaction i k))
    (hl : (s.handle i).state = .live) (hf : ((s.handle i).page k).fill = 32) (hp : ((s.handle i).page k).pois = false)
    (hc : 32 * (k % 2 ^ 20) + 32 ≤ (s.handle i).clen.toNat)
    (hd : damagedRow s (s.handle i) ((s.handle i).page k) (List.range 32) = none) :
    let h := s.handle i
    let d := h.page k
    let rows := pageRows s h d
    let img := pageImage d.scale.toNat h.fmt.toNat (zeroRows rows) rows
    let c := classFor img.length
    ∀ p st, c < d.cls.toNat → (s.pool (handleDie i)).take c = some (p, st) →
      let t := freePage ((s.setPool (handleDie i) st).setBytesUnder (h.key s) (p * 4096) img) i d
      exec .fullerCompaction s = .next (t.setHandle i ((t.handle i).setPage k
        { d with pfn := p, cls := BitVec.ofNat 2 c, cmp := true }.publish)) := by
  intro hh d rows img c p st hs ht
  have hg : (hh.state == .live && decide (d.fill = 32) && !d.pois &&
      decide (32 * (k % 2 ^ 20) + 32 ≤ hh.clen.toNat)) = true := by
    simp only [hh, d, hl, hf, hp, hc, beq_self_eq_true, decide_true, Bool.not_false, Bool.and_self]
  rw [exec_fullerCompaction, execFullerCompaction, h]
  dsimp only
  rw [if_pos hg, if_pos (by simpa using Or.inl hs), ht, hd]

/-- The scrub damages a page at the row of its unit that fails, or whole when its CRC does not fit (R310, R311). -/
theorem scrubCheck_next {s : State} {i k : Nat} (h : s.ev = some (.scrubCheck i k)) (hl : (s.handle i).state = .live)
    (hf : 0 < ((s.handle i).page k).fill) (hp : ((s.handle i).page k).pois = false) :
    let h := s.handle i
    let d := h.page k
    (∀ r, damagedRow s h d (List.range d.fill) = some r → exec .scrubCheck s = .next (pageError s i k r)) ∧
    (damagedRow s h d (List.range d.fill) = none →
      (pageCrc d.scale.toNat (pageRows s h d) = d.crc → exec .scrubCheck s = .next s) ∧
      (pageCrc d.scale.toNat (pageRows s h d) ≠ d.crc → exec .scrubCheck s = .next (pageError s i k 0))) := by
  have hg : ((s.handle i).state == .live && decide (0 < ((s.handle i).page k).fill) &&
      !((s.handle i).page k).pois) = true := by
    simp [hl, hf, hp]
  refine ⟨fun r hr => ?_, fun hr => ⟨fun hc => ?_, fun hc => ?_⟩⟩
  · simp only [exec_scrubCheck, execScrubCheck, h, hg, hr, if_true]
  · simp only [exec_scrubCheck, execScrubCheck, h, hg, hr, hc, beq_self_eq_true, if_true]
  · simp only [exec_scrubCheck, execScrubCheck, h, hg, hr, beq_eq_false_iff_ne.2 hc, Bool.false_eq_true, if_true, if_false]

/-! Forwarding entries and notices of RPOS (R158, R329) -/

/-- A forwarding entry lapses once it has been unused for 65,536 cycles (R158). -/
theorem forwardingEntryLapse_next {s : State} {u k : Nat} {f : Forward} (h : s.ev = some (.forwardingEntryLapse u k))
    (hf : (s.core u).forwards[k]? = some f) : exec .forwardingEntryLapse s = .next (if f.lastUse + 65536 ≤ (s.core u).cyc then
      s.modCore u fun c => { c with forwards := c.forwards.eraseIdx k } else s) := by
  simp only [exec_forwardingEntryLapse, execForwardingEntryLapse, h, hf]
  split <;> rfl

/-- A notice of RPOS is applied where it arrives, and the forms it completes are told (R329). -/
theorem rposNotice_next {s : State} {i j : Nat} {m : Msg} {r : BitVec 32} {ts : List (Sender × Answer)}
    (h : s.ev = some (.rposNotice i)) (hm : s.arriving i = some m) (hb : m.body = .rpos j r ts) :
    exec .rposNotice s = .next (ts.foldl tell ((s.unpost i).setHandle j { s.handle j with rpos := r }.settleClen)) := by
  simp only [exec_rposNotice, execRposNotice, h, hm, hb]
  rfl

/-! Clear (R364) -/

/-- Clear of a launch is complete when nothing of it is left that it waits for; then the launch is KILLED and its completion
waits to be posted (R364). -/
theorem launchClearComplete_next {s : State} {n : Nat} {x : Launch} (h : s.ev = some (.launchClearComplete n))
    (hl : s.launch (BitVec.ofNat 32 n) = some x) (hk : x.state = .killing) :
    let l := BitVec.ofNat 32 n
    let t := (sweep s l).setLaunch l { x with state := .killed, group := none }
    (clearDone s l = false → exec .launchClearComplete s = .next s) ∧
    (∀ q, clearDone s l = true → x.queue = some q → exec .launchClearComplete s = .next (t.complete ⟨q, l, 1, x.entry⟩)) := by
  refine ⟨fun hc => ?_, fun q hc hq => ?_⟩
  · simp only [exec_launchClearComplete, execLaunchClearComplete, h, hl, hc, Bool.and_false, Bool.false_eq_true, if_false]
  · simp only [exec_launchClearComplete, execLaunchClearComplete, h, hl, hk, hc, hq, beq_self_eq_true, Bool.and_self, if_true]

/-! Collectives (R399) -/

section Collective

variable {s : State} {i : Nat} {m : Msg} {hdev : Nat} {cid : BitVec 16} {step : BitVec 32} (hm : s.arriving i = some m)
include hm

/-- A contribution is applied at its home, where it waits while there is no room; one for another device leaves (R399). -/
theorem collContributionArrival_here {c : Contribution} (h : s.ev = some (.collContributionArrival (.here i)))
    (hb : m.body = .contribution hdev cid step c) : exec .collContributionArrival s = .next
      (if hdev ≠ s.hub.device.toNat then s.unpost i
       else (contribute (s.unpost i) m.sender.ctx cid step c m.dep).getD s) := by
  simp only [exec_collContributionArrival, execCollContributionArrival, h, hm, hb, bne_iff_ne]
  split <;> rfl

/-- An ABANDON at its home decides the collective while it is of that step and undecided (R399). -/
theorem collAbandonArrival_here {x : Collective} (h : s.ev = some (.collAbandonArrival (.here i)))
    (hb : m.body = .abandon hdev cid step) (hd : hdev = s.hub.device.toNat)
    (hx : kget s.hub.colls (collKey m.sender.ctx cid) = some x) : exec .collAbandonArrival s = .next
      (if x.step = step ∧ x.outcome = none then failColl (s.unpost i) m.sender.ctx (collKey m.sender.ctx cid) x
       else s.unpost i) := by
  have hx' : kget (s.unpost i).hub.colls (collKey m.sender.ctx cid) = some x := hx
  have hn : (hdev != s.hub.device.toNat) = false := by rw [hd]; exact bne_self_eq_false _
  simp only [exec_collAbandonArrival, execCollAbandonArrival, h, hm, hb, hn, abandon, hx', Bool.and_eq_true,
    decide_eq_true_eq, Option.isNone_iff_eq_none, Bool.false_eq_true, if_false]

end Collective

/-- What comes from another device comes over a link that is up, and to this device (R397, R399). -/
theorem collContributionArrival_peer {s : State} {ctx : BitVec 12} {dev : Nat} {desc : BitVec 512} {smp : Bool}
    {data : List Byte}
    (h : s.ev = some (.collContributionArrival (.peer ctx dev desc smp data))) :
    let v := desc.toNat
    let c := Contribution.make dev smp v data none
    (s.linkTo dev = false → exec .collContributionArrival s = .next s) ∧
    (∀ t, 4 ≤ s.hub.stage → s.linkTo dev = true → bits v 335 328 = s.hub.device.toNat → collDescBad smp v = false →
      contribute s ctx (BitVec.ofNat 16 (bits v 351 336)) (BitVec.ofNat 32 (bits v 415 384)) c [] = some t →
      exec .collContributionArrival s = .next t) := by
  refine ⟨fun hl => ?_, fun t hs hl hd hb ht => ?_⟩
  · simp only [exec_collContributionArrival, execCollContributionArrival, h, hl, Bool.not_false, Bool.or_true, Bool.true_or,
      if_true]
  · have hs' : decide (s.hub.stage < 4) = false := decide_eq_false (Nat.not_lt.2 hs)
    simp only [exec_collContributionArrival, execCollContributionArrival, h, hl, hs', hd, hb, ht, Bool.not_true,
      bne_self_eq_false, Bool.or_self, Bool.false_eq_true, if_false, Option.getD_some]

theorem collAbandonArrival_peer {s : State} {ctx : BitVec 12} {dev : Nat} {cid : BitVec 16} {step : BitVec 32}
    (h : s.ev = some (.collAbandonArrival (.peer ctx dev cid step))) :
    exec .collAbandonArrival s = .next (if s.linkTo dev then abandon s ctx cid step else s) := by
  simp only [exec_collAbandonArrival, execCollAbandonArrival, h]

/-- At its deadline a member that waits sends ABANDON to the home, and once only (R399). -/
theorem collWatchdogExpiry_next {s : State} {u k : Nat} {x : CollWait} (h : s.ev = some (.collWatchdogExpiry u k))
    (hx : s.hub.collWait (s.sender u k) = some x) :
    (((s.core u).cyc < x.deadline ∨ x.abandoned = true) → exec .collWatchdogExpiry s = .next s) ∧
    (x.deadline ≤ (s.core u).cyc → x.abandoned = false →
      let f := fun y : CollWait => if y.sender.same x.sender then { y with abandoned := true } else y
      let t := { s with hub := { s.hub with collWaits := s.hub.collWaits.map f } }
      exec .collWatchdogExpiry s = .next (t.postPlain u k mgmtUnit (.abandon x.hdev x.cid x.step))) := by
  refine ⟨fun hc => ?_, fun hc ha => ?_⟩
  · have hg : (decide (x.deadline ≤ (s.core u).cyc) && !x.abandoned) = false := by
      rcases hc with hc | hc
      · rw [decide_eq_false (Nat.not_le.2 hc), Bool.false_and]
      · rw [hc, Bool.not_true, Bool.and_false]
    simp only [exec_collWatchdogExpiry, execCollWatchdogExpiry, h, hx, hg, Bool.false_eq_true, if_false]
  · simp only [exec_collWatchdogExpiry, execCollWatchdogExpiry, h, hx, hc, ha, decide_true, Bool.not_false, Bool.and_self,
      if_true]

/-! Linked barriers and recovery (R401, R402) -/

/-- A linked barrier is passed, and the copy follows, or timed out (R401). -/
theorem ckptBarrierTimeout_next {s : State} {u k : Nat} {x : CkptWait} {reached : Bool}
    (h : s.ev = some (.ckptBarrierTimeout u k reached))
    (hx : (s.hub.ckptWaits.find? fun x => x.sender.unit == u && x.sender.slot == k) = some x) :
    let t := { s with hub := { s.hub with ckptWaits := s.hub.ckptWaits.filter fun y => !y.sender.same x.sender } }
    let r := saveStep t x.sender.ctx x.step x.ranges
    exec .ckptBarrierTimeout s = .next
      (if reached then tell r.1 (x.sender, .value (BitVec.ofNat 64 r.2))
       else if x.deadline ≤ (s.core u).cyc then tell t (x.sender, .value 1) else s) := by
  simp only [exec_ckptBarrierTimeout, execCkptBarrierTimeout, h, hx]
  split
  · rfl
  · split <;> rfl

/-- Recovery kills the launches of the contexts whose set holds the device, then loads their shards (R402). -/
theorem deviceRecovery_next {s : State} {dev : Nat} {step : BitVec 32} (h : s.ev = some (.deviceRecovery dev step)) :
    let mine := (s.hub.contexts.filter fun c => c.2.ckSet.contains dev).map fun c => BitVec.ofNat 12 c.1
    let live := mine.flatMap (unended s)
    exec .deviceRecovery s = .next (if live = [] then mine.foldl (fun s c => loadShard s c step) s
      else live.foldl (fun s l => s.kill (BitVec.ofNat 32 l)) s) := by
  simp only [exec_deviceRecovery, execDeviceRecovery, h, List.isEmpty_iff]
  split <;> rfl

/-- Settles O50: registration, pages, forwarding entries, RPOS, Clear, collectives, barriers and recovery in turn. -/
theorem unitSteps : Obligations.UnitSteps := by
  unfold Obligations.UnitSteps
  refine ⟨?_, ?_, ?_, ?_, ?_, ?_, ?_⟩
  · intro s u x h hx ha hb hw
    exact carderRegistration_next h hx ha hb hw
  · intro s i k
    refine ⟨fun h hl hf hp hc hd => fullerCompaction_smaller h hl hf hp hc hd, fun h hl hf hp => scrubCheck_next h hl hf hp,
      fun f h hf => ⟨fun hc => ?_, fun hc => ?_⟩, fun m j r ts h hm hb => rposNotice_next h hm hb⟩
    · rw [forwardingEntryLapse_next h hf, if_neg (Nat.not_le.2 hc)]
    · rw [forwardingEntryLapse_next h hf, if_pos hc]
  · intro s n x h hl
    exact ⟨fun hk hc => (launchClearComplete_next h hl hk).1 hc,
      fun q hk hc hq => (launchClearComplete_next h hl hk).2 q hc hq⟩
  · intro s i m hdev cid step hm
    refine ⟨fun c h hb => ?_, fun x h hb hd hx => ?_⟩
    · rw [collContributionArrival_here hm h hb]
      refine ⟨fun hd => by rw [if_pos hd], fun hd => ⟨fun t ht => ?_, fun ht => ?_⟩⟩
      · rw [if_neg (not_not.2 hd), ht, Option.getD_some]
      · rw [if_neg (not_not.2 hd), ht, Option.getD_none]
    · rw [collAbandonArrival_here hm h hb hd hx]
      exact ⟨fun hs ho => by rw [if_pos ⟨hs, ho⟩]; rfl, fun hc => by rw [if_neg fun e => hc.elim (· e.1) (· e.2)]⟩
  · intro s ctx dev
    refine ⟨fun desc smp data h => collContributionArrival_peer h, fun cid step h => ?_⟩
    rw [collAbandonArrival_peer h]
    exact ⟨fun hl => by rw [hl]; rfl, fun hl => by rw [if_pos hl]⟩
  · intro s u k
    refine ⟨fun x h hx => collWatchdogExpiry_next h hx, fun x reached h hx => ?_⟩
    rw [ckptBarrierTimeout_next h hx]
    exact ⟨fun hr => by rw [if_pos hr], fun hr hc => by rw [hr, if_neg Bool.false_ne_true, if_pos hc],
      fun hr hc => by rw [hr, if_neg Bool.false_ne_true, if_neg (Nat.not_le.2 hc)]⟩
  · intro s dev step h
    rw [deviceRecovery_next h]
    exact ⟨fun hl => by rw [if_pos hl], fun hl => by rw [if_neg hl]⟩

end Sys2Proof.Machine
end

section
/-! The host's side: queues and their states, launches, completions, QCTL, the egress and reply rings, and the host's
windows (R150 to R155, R217, R334, R335, R394 to R396). -/

namespace Sys2Proof.Machine

/-! Reading one's own writes of hub records -/

@[simp] theorem context_setContext_self (s : State) (ctx : BitVec 12) (x : Context) :
    (s.setContext ctx x).context ctx = x := by
  simp only [State.context, State.setContext, kget_kput_self, Option.getD_some]

/-! Translation (R182) -/

theorem SameMaps.numUnder {s t : State} (h : SameMaps s t) (key : Option (BitVec 256)) (p n : Nat) :
    t.numUnder key p n = s.numUnder key p n := congrArg leNat ((h.under key p n).bytes p n)

section SameTables

variable {s t : State} {ctx : BitVec 12} (hm : SameMaps s t) (hk : t.keyOf ctx = s.keyOf ctx)
include hm hk

theorem pte_congr (x i : Nat) : t.pte ctx x i = s.pte ctx x i := by
  rw [State.pte, State.pte, hk, hm.numUnder]

/-- A walk finds the same page in two states that hold the same memory and the same key of the context (R182). -/
theorem walk_congr (a n x : Nat) : walk t ctx a n x = walk s ctx a n x := by
  induction n generalizing x with
  | zero => rfl
  | succ n ih => simp only [walk, groupHead, pte_congr hm hk, ih]

/-- A place of the hub is the same in two states that hold the same memory and agree in the key and the table of the context
(R199). -/
theorem hubPlace_congr (hr : (t.context ctx).troot = (s.context ctx).troot) (a n : Nat) (k : Access) :
    hubPlace t ctx a n k = hubPlace s ctx a n k := by
  have hp : ∀ p n, t.anyPoison p n = s.anyPoison p n := fun p n => by
    rw [State.anyPoison, State.anyPoison, hm.2.2.2.2.1]
  simp only [hubPlace, translate, pageEntry, walk_congr hm hk, hr, hk, hp]

end SameTables

/-- The states of the queues are not looked at by a translation. -/
theorem hubPlace_queues (s : State) (qs : List (Nat × QueueState)) (ctx : BitVec 12) (a n : Nat) (k : Access) :
    hubPlace { s with hub := { s.hub with queues := qs } } ctx a n k = hubPlace s ctx a n k :=
  hubPlace_congr (t := { s with hub := { s.hub with queues := qs } }) (.refl s) rfl rfl a n k

/-- What an atomic access may reach a store may (R182). -/
theorem mapped_store {e : Pte} {a : Nat} {m : Mapping} (h : mapped e a .atomic = .ok m) : mapped e a .store = .ok m := by
  unfold mapped at h ⊢
  dsimp only at h ⊢
  split at h
  case isTrue hrw =>
    rw [if_pos (Bool.and_eq_true_iff.1 hrw).2]
    exact h
  case isFalse => cases h

theorem translate_store {s : State} {ctx : BitVec 12} {a : Nat} {m : Mapping} (h : translate s ctx a .atomic = .ok m) :
    translate s ctx a .store = .ok m := by
  unfold translate at h ⊢
  split at h
  case h_1 e he => exact mapped_store h
  case h_2 => cases h

theorem hubPlace_store {s : State} {ctx : BitVec 12} {a n : Nat} {p : Nat × Option (BitVec 256)}
    (h : hubPlace s ctx a n .atomic = some p) : hubPlace s ctx a n .store = some p := by
  unfold hubPlace at h ⊢
  split at h
  case isFalse => cases h
  case isTrue hr =>
    rw [if_pos hr]
    cases ht : translate s ctx a .atomic with
    | error c => rw [ht] at h; cases h
    | ok m =>
      rw [ht] at h
      rw [translate_store ht]
      exact h

/-! Notifies and hardware slots (R154) -/

/-- A notify is latched from stage 3 on, for a queue that the host reaches (R154, R155). -/
theorem notify_next {s : State} {q : Nat} {t : BitVec 32} (h : s.ev = some (.notify q t)) :
    (s.hub.stage < 3 ∨ queueReached s q = false → exec .notify s = .next s) ∧
    (3 ≤ s.hub.stage → queueReached s q = true → exec .notify s = .next (latch s q t)) := by
  refine ⟨fun hc => ?_, fun hs hr => ?_⟩
  · have hg : (decide (s.hub.stage < 3) || !queueReached s q) = true := by
      rcases hc with hc | hc
      · rw [decide_eq_true hc, Bool.true_or]
      · rw [hc, Bool.not_false, Bool.or_true]
    simp only [exec_notify, execNotify, h, hg, if_true]
  · simp only [exec_notify, execNotify, h, hr, decide_eq_false (Nat.not_lt.2 hs), Bool.not_true, Bool.or_self,
      Bool.false_eq_true, if_false]

section Descriptor

variable {s : State} {q : Nat} {d : Desc} (hd : s.desc q = some d)
include hd

/-- The queue that is runnable longest takes a free slot, and what was latched is taken with it (R154). -/
theorem queueMap_next (h : s.ev = some (.queueMap q)) (hr : s.hub.runnable.head? = some q) (hm : s.hub.mapped.length < 1024) :
    let t := s.setHubNum d.place 0 8 ((d.en s).toNat + 2 + d.ntail s % 2 ^ 32 * 2 ^ 32)
    exec .queueMap s = .next { t with hub := { t.hub with
      runnable := t.hub.runnable.tail, mapped := t.hub.mapped ++ [⟨q, t.now, false, t.now⟩] } } := by
  have hm' : s.hub.mapped.length < mappedRoom := hm
  rw [exec_queueMap, execQueueMap, h]
  dsimp only
  rw [hd]
  dsimp only
  rw [hr, beq_self_eq_true, decide_eq_true hm', Bool.and_self, if_pos rfl]
  rfl

/-- An idle queue loses its slot after 16,384 cycles (R154). -/
theorem queueIdleUnmap_next {x : Mapped} (h : s.ev = some (.queueIdleUnmap q))
    (hx : (s.hub.mapped.find? fun x => x.queue == q) = some x) : exec .queueIdleUnmap s = .next
      (if d.head s = d.ntail s ∧ x.idleAt + 16384 ≤ s.now then unmap s q else s) := by
  simp only [exec_queueIdleUnmap, execQueueIdleUnmap, h, hx, hd, Bool.and_eq_true, beq_iff_eq, decide_eq_true_eq]
  split <;> rfl

/-- The entry at HEAD of a mapped, enabled queue is taken: it completes BAD when it cannot be read or is malformed, and
starts a launch when the cores have room (R151, R154). -/
theorem launchStart_next {bufs : List (Nat × Nat)} (h : s.ev = some (.launchStart q bufs)) (hq : s.hub.isMapped q = true)
    (he : d.en s = true) (hn : d.head s ≠ d.ntail s) (hp : s.hub.power.stopped = false) :
    let bad := (takeHead s q d false).complete ⟨q, 0, 2, BitVec.ofNat 32 (d.head s)⟩
    (hubGranules s d.ctx (d.ring s + 128 * (d.head s % 2 ^ d.log s)) 8 = none → exec .launchStart s = .next bad) ∧
    (∀ bs, hubGranules s d.ctx (d.ring s + 128 * (d.head s % 2 ^ d.log s)) 8 = some bs → bs ≠ [] →
      (entryLaunch s d.ctx bs = none → exec .launchStart s = .next bad) ∧
      (∀ h r yard data tags t, entryLaunch s d.ctx bs = some (h, r, yard, data, tags) →
        beginLaunch s q d.ctx (d.head s) h r yard data tags bufs = some t →
        exec .launchStart s = .next (takeHead t q d true))) := by
  have hg : (s.hub.isMapped q && d.en s && d.head s != d.ntail s && !s.hub.power.stopped) = true := by
    simp [hq, he, hn, hp]
  refine ⟨fun hb => ?_, fun bs hb hne => ⟨fun hl => ?_, fun hd' r yard data tags t hl ht => ?_⟩⟩
  · simp only [exec_launchStart, execLaunchStart, h, hd, hg, hb, Option.getD_none, List.isEmpty_nil, if_true]
  · have hne' : bs.isEmpty = false := by simpa using hne
    simp only [exec_launchStart, execLaunchStart, h, hd, hg, hb, hne', hl, Option.getD_some, Bool.false_eq_true, if_true,
      if_false]
  · have hne' : bs.isEmpty = false := by simpa using hne
    simp only [exec_launchStart, execLaunchStart, h, hd, hg, hb, hne', hl, ht, Option.getD_some, Bool.false_eq_true, if_true,
      if_false]

end Descriptor

/-- With no slot free, the queue that has started a launch and is mapped longest gives its slot to a waiting one (R154). -/
theorem queueEvict_next {s : State} {q : Nat} {x : Mapped} (h : s.ev = some (.queueEvict q)) (hr : s.hub.runnable ≠ [])
    (hm : 1024 ≤ s.hub.mapped.length) (hx : (s.hub.mapped.find? fun x => x.started) = some x) (hq : x.queue = q) :
    exec .queueEvict s = .next (unmap s q) := by
  have hr' : s.hub.runnable.isEmpty = false := by simpa using hr
  have hm' : mappedRoom ≤ s.hub.mapped.length := hm
  simp only [exec_queueEvict, execQueueEvict, h, hr', hm', hx, hq, Option.any_some, beq_self_eq_true, decide_true,
    Bool.not_false, Bool.and_self, if_true]

/-! Completions (R153) -/

/-- The first completion whose ring has room is posted (R153). -/
theorem completionPost_next {s : State} {c : Completion} {d : Desc} {p : Nat × Option (BitVec 256)}
    (h : s.ev = some .completionPost) (hp : postable s s.hub.done [] = some (c, d, p)) :
    let t := (s.setHubNum p 0 16 (c.launch.toNat + c.status.toNat * 2 ^ 32 + c.entry.toNat * 2 ^ 64)).setHubNum
      d.place 40 4 ((d.cplcnt s + 1) % 2 ^ 32)
    exec .completionPost s = .next { t with hub := { t.hub with done := t.hub.done.erase c } } := by
  simp only [exec_completionPost, execCompletionPost, h, hp]

theorem completionPost_none {s : State} (h : s.ev = some .completionPost) (hp : postable s s.hub.done [] = none) :
    exec .completionPost s = .next s := by
  simp only [exec_completionPost, execCompletionPost, h, hp]

/-! QCTL (R155) -/

theorem qregs_qsel (s : State) (ctx : BitVec 12) (q : Nat) (desc : Option Word) :
    ((s.qregs ctx q desc).context ctx).page.qsel.toNat = q % 2 ^ 14 := by
  simp only [State.qregs, context_setContext_self, BitVec.toNat_ofNat]

/-- A QCTL write of a host that reaches the context acts on the queue number and the descriptor written before it (R155). -/
theorem qctl_next {s : State} {ctx : BitVec 12} {q : Nat} :
    (∀ a, s.ev = some (.qctlCreate ctx q a) → exec .qctlCreate s = .next
      (if hostReaches s ctx then qctlCreate (s.qregs ctx q (some a)) ctx (q % 2 ^ 14) a else s)) ∧
    (s.ev = some (.qctlDisable ctx q) → exec .qctlDisable s = .next
      (if hostReaches s ctx then qctlDisable (s.qregs ctx q none) ctx (q % 2 ^ 14) else s)) ∧
    (s.ev = some (.qctlDestroy ctx q) → exec .qctlDestroy s = .next
      (if hostReaches s ctx then qctlDestroy (s.qregs ctx q none) ctx (q % 2 ^ 14) else s)) := by
  refine ⟨fun a h => ?_, fun h => ?_, fun h => ?_⟩
  · simp only [exec_qctlCreate, execQctlCreate, h, qregs_qsel]
    split <;> rfl
  · simp only [exec_qctlDisable, execQctlDisable, h, qregs_qsel]
    split <;> rfl
  · simp only [exec_qctlDestroy, execQctlDestroy, h, qregs_qsel]
    split <;> rfl

/-- A queue that the context does not hold is refused (R155). -/
theorem qctl_foreign {s : State} {ctx : BitVec 12} {q : Nat} (h : ownsQueue s ctx q = false) :
    let bad := s.setQctl ctx 0x80000001
    (∀ a, qctlCreate s ctx q a = bad) ∧ qctlDisable s ctx q = bad ∧ qctlDestroy s ctx q = bad := by
  refine ⟨fun a => ?_, ?_, ?_⟩
  · simp only [qctlCreate, h, Bool.not_false, if_true]
  · simp only [qctlDisable, h, Bool.not_false, if_true]
  · simp only [qctlDestroy, h, Bool.not_false, if_true]

/-- The place of the descriptor that a create has checked (R155). -/
theorem desc_created {s : State} {ctx : BitVec 12} {a : Word} {p : Nat} (q : Nat) (hc : createCheck s ctx a.toNat = .ok p) :
    ∃ d, State.desc { s with hub := { s.hub with queues := kput s.hub.queues q (.active ctx a) } } q = some d := by
  have hp : ∃ x, hubPlace s ctx a.toNat 64 .atomic = some x := by
    unfold createCheck at hc
    split at hc
    · cases hc
    · split at hc
      · cases hc
      · next x hx => exact ⟨x, hx⟩
  obtain ⟨x, hx⟩ := hp
  refine ⟨⟨x, ctx⟩, ?_⟩
  simp only [State.desc, kget_kput_self, hubPlace_queues, hubPlace_store hx, Option.map_some]

section Assigned

variable {s : State} {ctx : BitVec 12} {q : Nat} (h : kget s.hub.queues q = some (.assigned ctx))
include h

theorem ownsQueue_assigned : ownsQueue s ctx q = true := by simp only [ownsQueue, h, beq_self_eq_true]

theorem desc_assigned : s.desc q = none := by simp only [State.desc, h]

/-- A create checks the descriptor of an ASSIGNED queue, and activates and enables it (R155). -/
theorem qctlCreate_assigned (a : Word) :
    (∀ c, createCheck s ctx a.toNat = .error c → qctlCreate s ctx q a = s.setQctl ctx c) ∧
    (∀ p, createCheck s ctx a.toNat = .ok p →
      let t := { s with hub := { s.hub with queues := kput s.hub.queues q (.active ctx a) } }
      ∃ d, t.desc q = some d ∧ qctlCreate s ctx q a = ((t.setHubNum d.place 0 8
        (1 + 2 * (s.hub.isMapped q).toNat + 4 * (d.run t).toNat + d.ntail t % 2 ^ 32 * 2 ^ 32)).setQctl
          ctx 1).makeRunnable q) := by
  refine ⟨fun c hc => ?_, fun p hc => ?_⟩
  · simp only [qctlCreate, ownsQueue_assigned h, h, hc, Bool.not_true, Bool.false_eq_true, if_false]
  · obtain ⟨d, hd⟩ := desc_created q hc
    refine ⟨d, hd, ?_⟩
    simp only [qctlCreate, ownsQueue_assigned h, h, hc, hd, Bool.not_true, Bool.false_eq_true, if_false]
    rfl

/-- A disable and a destroy leave an ASSIGNED queue as it is (R155; log 80). -/
theorem qctl_assigned : qctlDisable s ctx q = s ∧ qctlDestroy s ctx q = s := by
  refine ⟨?_, ?_⟩
  · simp only [qctlDisable, ownsQueue_assigned h, desc_assigned h, Bool.not_true, Bool.false_eq_true, if_false]
  · simp only [qctlDestroy, ownsQueue_assigned h, desc_assigned h, Bool.not_true, Bool.false_eq_true, if_false]

end Assigned

section Owned

variable {s : State} {ctx : BitVec 12} {q : Nat} {d : Desc} (hd : s.desc q = some d) (ho : ownsQueue s ctx q = true)
include hd ho

/-- A disabled queue leaves the runnable ones (R154, R155). -/
theorem qctlDisable_owned :
    let off := (s.setHubNum d.place 0 8 (false.toNat + 2 * (s.hub.isMapped q).toNat + 4 * (d.run s).toNat +
      d.ntail s % 2 ^ 32 * 2 ^ 32)).setQctl ctx 2
    qctlDisable s ctx q = { off with hub := { off.hub with runnable := off.hub.runnable.filter (· != q) } } := by
  simp only [qctlDisable, ho, hd, Bool.not_true, Bool.false_eq_true, if_false]
  rfl

/-- A queue is destroyed once it is disabled and no launch of it is LIVE (R155). -/
theorem qctlDestroy_owned :
    (d.en s = true ∨ queueLive s q = true → qctlDestroy s ctx q = s.setQctl ctx 0x80000004) ∧
    (d.en s = false → queueLive s q = false → qctlDestroy s ctx q = (destroyQueue s q (.assigned ctx)).setQctl ctx 3) := by
  refine ⟨fun hc => ?_, fun he hl => ?_⟩
  · simp only [qctlDestroy, ho, hd, Bool.or_eq_true_iff.2 hc, Bool.not_true, Bool.false_eq_true, if_false, if_true]
  · simp only [qctlDestroy, ho, hd, he, hl, Bool.or_self, Bool.not_true, Bool.false_eq_true, if_false]

end Owned

/-! The rings (R334, R335, R396) -/

theorem ringRoom_iff (prod cons : BitVec 32) (log : Nat) : ringRoom prod cons log = true ↔ (prod - cons).toNat < 2 ^ log :=
  decide_eq_true_iff

/-- A request that leaves is written to its context's ring while a host reaches the context and the ring has room (R396). -/
theorem egressWrite_next {s : State} {n : Nat} {e : Nat × Nat} {x : Outward} {xs : List Outward}
    (h : s.ev = some (.egressWrite n)) (he : (s.hub.egress.find? fun p => p.2 == n) = some e)
    (hl : (s.req n).leaving = x :: xs) :
    let ctx := BitVec.ofNat 12 e.1
    let c := s.context ctx
    let p := c.page
    (p.egbase = 0 ∨ hostReaches s ctx = false ∨ 2 ^ p.eglog.toNat ≤ (p.egprod - p.egcons).toNat →
      exec .egressWrite s = .next s) ∧
    (p.egbase ≠ 0 → hostReaches s ctx = true → (p.egprod - p.egcons).toNat < 2 ^ p.eglog.toNat →
      let t := ((s.setHostBytes (p.egbase.toNat + 64 * (p.egprod.toNat % 2 ^ p.eglog.toNat)) (x.bytes n)).setContext ctx
        { c with page := { p with egprod := p.egprod + 1 } })
      let u := t.setReq n { t.req n with leaving := xs }
      exec .egressWrite s = .next
        ({ u with hub := { u.hub with egress := u.hub.egress.erase e } }.countHub ctx 0x15 1)) := by
  intro ctx c p
  refine ⟨fun hc => ?_, fun hb hr hroom => ?_⟩
  · have hg : (p.egbase == 0 || !hostReaches s ctx || !ringRoom p.egprod p.egcons p.eglog.toNat) = true := by
      rw [Bool.or_eq_true_iff, Bool.or_eq_true_iff, beq_iff_eq, Bool.not_eq_true', Bool.not_eq_true', or_assoc, ringRoom,
        decide_eq_false_iff_not, Nat.not_lt]
      exact hc
    simp only [exec_egressWrite, execEgressWrite, h, he, hl]
    exact if_pos hg
  · have hg : ¬ (p.egbase == 0 || !hostReaches s ctx || !ringRoom p.egprod p.egcons p.eglog.toNat) = true := by
      rw [hr, (ringRoom_iff _ _ _).2 hroom, beq_false_of_ne hb]
      exact Bool.false_ne_true
    simp only [exec_egressWrite, execEgressWrite, h, he, hl]
    exact if_neg hg

/-- The host's doorbell (R396). -/
theorem replyDoorbell_next {s : State} {ctx : BitVec 12} {tail : BitVec 32} (h : s.ev = some (.replyDoorbell ctx tail)) :
    exec .replyDoorbell s = .next (if hostReaches s ctx then setTail s ctx tail else s) := by
  simp only [exec_replyDoorbell, execReplyDoorbell, h]

/-- A reply is delivered to a slot in use whose read-only requests include its serial (R335). -/
theorem replyLive_iff (r : ReqSlot) (serial : BitVec 32) : replyLive r serial = true ↔
    r.state ≠ .free ∧ (serial - r.first).toNat < (r.serial - r.first).toNat ∧ serial ∉ r.dead := by
  simp [replyLive, and_assoc]

/-- A saturating count of 32 bits stops at its greatest value (R342). -/
theorem addSat_toNat (a : BitVec 32) (n : Nat) : (ReqSlot.addSat a n).toNat = min (2 ^ 32 - 1) (a.toNat + n) := by
  rw [ReqSlot.addSat, BitVec.toNat_ofNat]
  omega

theorem addSat_one (a : BitVec 32) : ReqSlot.addSat a 1 = if a.toNat = 2 ^ 32 - 1 then a else a + 1 := by
  have := a.isLt
  apply BitVec.eq_of_toNat_eq
  rw [addSat_toNat]
  split
  · omega
  · rw [BitVec.toNat_add]
    change _ = (a.toNat + 1) % 2 ^ 32
    omega

/-- The header of a reply as the hub writes it (R5, R335). -/
theorem replyNum_bits (v : Nat) : replyNum v / 2 ^ 32 = v / 2 ^ 32 ∧ bits (replyNum v) 31 24 = 0 ∧
    bits (replyNum v) 23 4 = bits v 23 4 ∧ bit (replyNum v) 3 = false ∧ bits (replyNum v) 2 0 = bits v 2 0 := by
  simp only [replyNum, bits, bit, beq_eq_false_iff_ne]
  omega

section Reply

variable {s : State} {ctx : BitVec 12} (h : s.ev = some (.replyDeliver ctx))
include h

/-- Nothing is delivered past RPTAIL, or while no host reaches the context (R396). -/
theorem replyDeliver_idle (hc : (s.context ctx).page.rpdone = (s.context ctx).page.rptail ∨ hostReaches s ctx = false) :
    exec .replyDeliver s = .next s := by
  have hg : ((s.context ctx).page.rpdone == (s.context ctx).page.rptail || !hostReaches s ctx) = true := by
    rcases hc with hc | hc
    · rw [hc, beq_self_eq_true, Bool.true_or]
    · rw [hc, Bool.not_false, Bool.or_true]
  simp only [exec_replyDeliver, execReplyDeliver, h, hg, if_true]

variable (hne : (s.context ctx).page.rpdone ≠ (s.context ctx).page.rptail) (hr : hostReaches s ctx = true)
include hne hr

/-- A reply whose slot does not take it is dropped and counted, at its slot too unless that is FREE; one that is taken is
appended to the delivery ring while that has room (R335, R342, R396). -/
theorem replyDeliver_next :
    let c := s.context ctx
    let p := c.page
    let v := leNat (s.hostBytes (p.rpbase.toNat + 64 * (p.rpdone.toNat % 2 ^ p.rplog.toNat)) 64)
    let n := bits v 23 8
    let r := s.req n
    let next := fun t : State => t.setContext ctx
      { t.context ctx with page := { (t.context ctx).page with rpdone := (t.context ctx).page.rpdone + 1 } }
    (replyLive r (BitVec.ofNat 32 (bits v 63 32)) = false →
      (r.state = .free → exec .replyDeliver s = .next (next (s.countHub ctx 0x16 1))) ∧
      (r.state ≠ .free → exec .replyDeliver s = .next
        (next ((s.setReq n { r with rdrop := ReqSlot.addSat r.rdrop 1 }).countHub ctx 0x16 1)))) ∧
    (∀ h, replyLive r (BitVec.ofNat 32 (bits v 63 32)) = true → hubPlace s ctx p.dlbase.toNat 64 .store = some h →
      let cnt := s.hubNum h 0 4
      let room := ringRoom (BitVec.ofNat 32 cnt) (BitVec.ofNat 32 (s.hubNum h 4 4)) p.dllog.toNat
      (room = false → exec .replyDeliver s = .next s) ∧
      (∀ q, room = true → hubPlace s ctx (p.dlbase.toNat + 64 + 64 * (cnt % 2 ^ p.dllog.toNat)) 64 .store = some q →
        exec .replyDeliver s = .next (next ((s.setHubNum q 0 64 (replyNum v)).setHubNum h 0 4 ((cnt + 1) % 2 ^ 32))))) := by
  have hg : ((s.context ctx).page.rpdone == (s.context ctx).page.rptail || !hostReaches s ctx) = false := by
    rw [hr, beq_false_of_ne hne, Bool.not_true, Bool.or_self]
  refine ⟨fun hl => ⟨fun hf => ?_, fun hf => ?_⟩, fun x hl hx => ⟨fun hroom => ?_, fun q hroom hq => ?_⟩⟩
  · simp only [exec_replyDeliver, execReplyDeliver, h, hg, hl, hf, bne_self_eq_false, Bool.false_eq_true, if_false]
  · simp only [exec_replyDeliver, execReplyDeliver, h, hg, hl, bne_iff_ne.2 hf, Bool.false_eq_true, if_false, if_true]
  · simp only [exec_replyDeliver, execReplyDeliver, h, hg, hl, hx, hroom, Bool.false_eq_true, if_false, if_true]
  · simp only [exec_replyDeliver, execReplyDeliver, h, hg, hl, hx, hroom, hq, Bool.false_eq_true, if_false, if_true]

end Reply

/-! The windows (R217, R394, R395) -/

/-- The host reaches a context through a function in D0 of a link that is up (R394). -/
theorem hostFunction_iff {s : State} {i f : Nat} {ctx : BitVec 12} : hostFunction s i f = some ctx ↔
    ∃ l x, s.hub.hosts[i]? = some l ∧ l.up = true ∧ kget l.functions f = some x ∧ x.d3hot = false ∧ x.ctx = ctx := by
  unfold hostFunction
  cases hl : s.hub.hosts[i]? with
  | none => simp
  | some l =>
    cases hu : l.up with
    | false => simp [hu]
    | true =>
      cases hx : kget l.functions f with
      | none => simp [hx, hu]
      | some x => cases hd : x.d3hot <;> simp [hx, hu, hd]

/-- A host's access at the host's own memory, or through a function that reaches a context (R394 to R396). -/
theorem hostWindowAccess_next {s : State} {i f o : Nat} :
    (∀ bs, s.ev = some (.hostWindowAccess i f o (some bs)) →
      (2 ^ 40 ≤ o → exec .hostWindowAccess s = .next (s.setHostBytes (o - 2 ^ 40) bs)) ∧
      (o < 2 ^ 40 → hostFunction s i f = none → exec .hostWindowAccess s = .next s) ∧
      (∀ ctx, o < 2 ^ 40 → hostFunction s i f = some ctx → exec .hostWindowAccess s = .next (hostWrite s ctx o bs))) ∧
    (s.ev = some (.hostWindowAccess i f o none) →
      let answer := fun bs : List Byte => { s with hub := { s.hub with hostRead := bs } }
      (2 ^ 40 ≤ o → exec .hostWindowAccess s = .next (answer (s.hostBytes (o - 2 ^ 40) 8))) ∧
      (o < 2 ^ 40 → hostFunction s i f = none → exec .hostWindowAccess s = .next s) ∧
      (∀ ctx, o < 2 ^ 40 → hostFunction s i f = some ctx →
        exec .hostWindowAccess s = .next (answer (hostRead s ctx o)))) := by
  have hin : 2 ^ 40 ≤ o → hostBase ≤ o := id
  have hout : o < 2 ^ 40 → ¬ hostBase ≤ o := Nat.not_le.2
  refine ⟨fun bs h => ⟨fun ho => ?_, fun ho hf => ?_, fun ctx ho hf => ?_⟩,
    fun h => ⟨fun ho => ?_, fun ho hf => ?_, fun ctx ho hf => ?_⟩⟩
  · simp only [exec_hostWindowAccess, execHostWindowAccess, h, hin ho, if_true]; rfl
  · simp only [exec_hostWindowAccess, execHostWindowAccess, h, hout ho, hf, if_false]
  · simp only [exec_hostWindowAccess, execHostWindowAccess, h, hout ho, hf, if_false]
  · simp only [exec_hostWindowAccess, execHostWindowAccess, h, hin ho, if_true]; rfl
  · simp only [exec_hostWindowAccess, execHostWindowAccess, h, hout ho, hf, if_false]
  · simp only [exec_hostWindowAccess, execHostWindowAccess, h, hout ho, hf, if_false]

/-- A doorbell page of BAR2 latches a notify of its queue, when the context holds it (R154, R395). -/
theorem hostWrite_doorbell (s : State) (ctx : BitVec 12) {q : Nat} (bs : List Byte) (hq : q < 16384) :
    hostWrite s ctx (2 ^ 37 + 4096 * q) bs =
      if ownsQueue s ctx q then latch s q (BitVec.ofNat 32 (leNat bs)) else s := by
  have h0 : ¬ 2 ^ 37 + 4096 * q < bar0Base := by unfold bar0Base; omega
  have h2 : ¬ 2 ^ 37 + 4096 * q < bar2Base := by unfold bar2Base; omega
  have hs : 2 ^ 37 + 4096 * q - bar2Base = 4096 * q := by unfold bar2Base; omega
  have hd : 4096 * q / 4096 = q := Nat.mul_div_cancel_left q (by decide)
  have hm : 4096 * q % 4096 = 0 := Nat.mul_mod_right 4096 q
  simp only [hostWrite, h0, h2, hs, hd, hm, hq, if_false, decide_true, Bool.true_and]

/-- Settles O51: queues, launches, completions, QCTL, rings and windows in turn. -/
theorem hostInterface : Obligations.HostInterface := by
  unfold Obligations.HostInterface
  refine ⟨?_, fun s h hp => completionPost_none h hp, ?_, ?_, ?_, fun s ctx q h => qctl_foreign h, ?_, ?_, replyNum_bits,
    fun r f => addSat_toNat _ _, ?_, ?_⟩
  · intro s q d hd
    refine ⟨fun t h => notify_next h, fun h hr hm => queueMap_next hd h hr hm, fun x h hx => ⟨fun hi ha => ?_, fun hc => ?_⟩,
      fun x h hr hm hx hq => queueEvict_next h hr hm hx hq, fun bufs h hq he hn hp => launchStart_next hd h hq he hn hp,
      fun c p h hp => completionPost_next h hp⟩
    · rw [queueIdleUnmap_next hd h hx, if_pos ⟨hi, ha⟩]
    · rw [queueIdleUnmap_next hd h hx, if_neg fun e => hc.elim (· e.1) (Nat.not_lt.2 e.2)]
  · intro s ctx q a
    obtain ⟨hcreate, hdisable, hdestroy⟩ := qctl_next (s := s) (ctx := ctx) (q := q)
    refine ⟨fun h => ?_, fun h => ?_, fun h => ?_⟩
    · rw [hcreate a h]
      exact ⟨fun hr => by rw [if_pos hr]; rfl, fun hr => by rw [hr]; rfl⟩
    · rw [hdisable h]
      exact ⟨fun hr => by rw [if_pos hr]; rfl, fun hr => by rw [hr]; rfl⟩
    · rw [hdestroy h]
      exact ⟨fun hr => by rw [if_pos hr]; rfl, fun hr => by rw [hr]; rfl⟩
  · intro s ctx q a h
    obtain ⟨hbad, hok⟩ := qctlCreate_assigned h a
    exact ⟨hbad, hok, qctl_assigned h⟩
  · intro s ctx q d hd ho
    exact ⟨qctlDisable_owned hd ho, qctlDestroy_owned hd ho⟩
  · intro s n e x xs h he hl
    exact egressWrite_next h he hl
  · intro s ctx c p v n serial r alive next
    refine ⟨fun tail h => ?_, fun h => ⟨fun hc => replyDeliver_idle h hc, fun hne hr => ?_⟩⟩
    · rw [replyDoorbell_next h]
      exact ⟨fun hr => by rw [if_pos hr]; rfl, fun hr => by rw [hr]; rfl⟩
    · obtain ⟨hdrop, hlive⟩ := replyDeliver_next h hne hr
      have hdead : ¬ alive → replyLive r serial = false := fun ha =>
        Bool.eq_false_iff.2 fun e => ha ((replyLive_iff r serial).1 e)
      refine ⟨fun ha => (hdrop (hdead ha)).1, fun ha hf => ?_, fun x ha hx => ?_⟩
      · rw [← addSat_one]
        exact (hdrop (hdead ha)).2 hf
      · obtain ⟨hfull, hroom⟩ := hlive x ((replyLive_iff r serial).2 ha) hx
        exact ⟨fun hh => hfull (decide_eq_false (Nat.not_lt.2 hh)), fun q hh hq => hroom q (decide_eq_true hh) hq⟩
  · intro s i f o
    exact ⟨hostWindowAccess_next.1, hostWindowAccess_next.2, fun ctx => hostFunction_iff⟩
  · intro s ctx q bs hq
    rw [hostWrite_doorbell s ctx bs hq]
    exact ⟨fun ho => by rw [if_pos ho], fun ho => by rw [ho]; rfl⟩

end Sys2Proof.Machine
end

section
/-! What the management core, the links, the cooling and the security block do to the module, and what reaches it from outside
(R155, R179, R184, R199, R363, R364, R397, R406 to R409). -/

namespace Sys2Proof.Machine

/-! Maps filtered by key -/

/-- A canonical map filtered by a test of its keys reads as before where the test holds, and as empty elsewhere. -/
theorem sget_filter {α : Type} [DecidableEq α] {d : α} {m : List (Nat × α)} {lo : Nat} (q : Nat → Bool)
    (h : swfFrom d lo m = true) (a : Nat) : sget d (m.filter fun e => q e.1) a = if q a then sget d m a else d := by
  induction m generalizing lo with
  | nil => simp [sget]
  | cons e m ih =>
    obtain ⟨k, w⟩ := e
    simp only [swfFrom, Bool.and_eq_true, decide_eq_true_eq] at h
    have hlow : a ≤ k → sget d m a = d := fun hk => sget_eq_default_of_lt h.2 (by omega)
    rw [List.filter_cons]
    rcases Nat.lt_trichotomy a k with hk | rfl | hk
    · cases hq : q k
      · simp [ih h.2, sget, hk, hk.ne, hlow hk.le]
      · simp [sget, hk, hk.ne]
    · cases hq : q a
      · simp [ih h.2, hq]
      · simp [sget]
    · cases hq : q k
      · simp [ih h.2, sget, hk.ne', hk.not_gt]
      · simp [ih h.2, sget, hk.ne', hk.not_gt]

/-- What is written at a key is read there, in any map, unless it is what an unlisted key reads as. -/
theorem sget_sset_listed {α : Type} [DecidableEq α] {d v : α} (hv : v ≠ d) (m : List (Nat × α)) (a : Nat) :
    sget d (sset d m a v) a = v := by
  induction m with
  | nil => simp [sset, sget, hv]
  | cons e m ih =>
    obtain ⟨k, w⟩ := e
    rcases Nat.lt_trichotomy a k with hk | rfl | hk
    · simp [sset, sget, hv, hk, hk.ne]
    · simp [sset, sget, hv]
    · simp [sset, sget, hk.ne', hk.not_gt, ih]

/-! Contexts (R155, R199, R364) -/

section Context

variable {s : State} {ctx : BitVec 12}

/-- What a context is created with (R155, R400). -/
def createdContext (x : ContextSetup) : Context :=
  match x.ck with
  | some k => { Context.none with
      live := true, troot := x.troot, serial := 1, exchange := x.exchange, ckSize := k.size, ckSlots := k.slots,
      ckSet := k.set, ckBuddy := k.buddy, ckHeld := k.held }
  | none => { Context.none with live := true, troot := x.troot, serial := 1, exchange := x.exchange }

/-- A context is created from stage 5 on, once, with a checkpoint set that fits (R155, R400, R409). -/
theorem contextCreate_next {x : ContextSetup} (h : s.ev = some (.contextCreate ctx x)) :
    (s.hub.stage < 5 ∨ (s.context ctx).live = true ∨ x.ck.all CkSetup.fits = false → exec .contextCreate s = .next s) ∧
    (5 ≤ s.hub.stage → (s.context ctx).live = false → x.ck.all CkSetup.fits = true → ∃ t, exec .contextCreate s = .next t ∧
      t.context ctx = createdContext x ∧ s.SameMemory t ∧ t.cores = s.cores) := by
  refine ⟨fun hc => ?_, fun hs hl hf => ?_⟩
  · have hg : (decide (s.hub.stage < 5) || (s.context ctx).live || !(x.ck.all CkSetup.fits)) = true := by
      rw [Bool.or_eq_true_iff, Bool.or_eq_true_iff, decide_eq_true_iff, Bool.not_eq_true', or_assoc]
      exact hc
    rw [exec_contextCreate, execContextCreate, h]
    exact if_pos hg
  · have hg : ¬ (decide (s.hub.stage < 5) || (s.context ctx).live || !(x.ck.all CkSetup.fits)) = true := by
      rw [decide_eq_false (Nat.not_lt.2 hs), hl, hf]
      exact Bool.false_ne_true
    rw [exec_contextCreate, execContextCreate, h]
    refine ⟨_, if_neg hg, ?_, ⟨fun _ => rfl, fun _ => rfl, fun _ => rfl, rfl, rfl, rfl⟩, rfl⟩
    exact (context_setContext_self s ctx _).trans rfl

/-- A context that ends has its launches killed, and then goes (R364). -/
theorem contextEnd_next (h : s.ev = some (.contextEnd ctx)) (hl : (s.context ctx).live = true) :
    (unended s ctx = [] → exec .contextEnd s = .next (removeContext s ctx)) ∧
    (unended s ctx ≠ [] → exec .contextEnd s = .next ((unended s ctx).foldl (fun s l => s.kill (BitVec.ofNat 32 l)) s)) := by
  refine ⟨fun hu => ?_, fun hu => ?_⟩
  · simp only [exec_contextEnd, execContextEnd, h, hl, hu, Bool.not_true, Bool.false_eq_true, if_false]
  · simp only [exec_contextEnd, execContextEnd, h, hl, Bool.not_true, Bool.false_eq_true, if_false]

/-- A key pair is delivered inside a secured session, from stage 5 on (R199, R408, R409). -/
theorem keyPairDelivery_next {key : BitVec 256} (h : s.ev = some (.keyPairDelivery ctx key)) :
    exec .keyPairDelivery s = .next (if s.hub.security.spdm = .session ∧ 5 ≤ s.hub.stage then
      { s with hub := { s.hub with security := { s.hub.security with keys := kput s.hub.security.keys ctx.toNat key } } }
      else s) := by
  simp only [exec_keyPairDelivery, execKeyPairDelivery, h, Bool.and_eq_true, beq_iff_eq, decide_eq_true_eq]
  split <;> rfl

end Context

/-! Page tables (R182, R184) -/

/-- Writes of page tables leave every context (R180). -/
theorem apart_contexts : ApartFromRecords fun s => s.hub.contexts where
  mem _ _ := rfl
  seals _ _ := rfl
  count s u ctx code n := by rw [count_hub]
  countHub s ctx code n := by obtain ⟨x, hx⟩ := countHub_eq s ctx code n; rw [hx]

theorem writeEntry_contexts (s : State) (ctx : BitVec 12) (a : Nat) (v : BitVec 64) :
    (writeEntry s ctx a v).hub.contexts = s.hub.contexts := by
  have put : ∀ t : State, ((t.under (t.keyOf ctx) a 8).storeNum false a 8 v.toNat).hub.contexts = t.hub.contexts := fun t =>
    (apart_contexts.storePlain _ a (leBytes 8 v.toNat)).trans (apart_contexts.under t _ a 8)
  unfold writeEntry
  dsimp only
  split
  · split
    · rfl
    · exact put _
  · exact put s

theorem barn_map {s t : State} {g : Barn → Barn} (ht : t.barns = s.barns.map fun p => (p.1, g p.2)) (b : Nat)
    (hg : g Barn.reset = Barn.reset) : t.barn b = g (s.barn b) := by
  rw [State.barn, State.barn, ht, kget_map]
  cases kget s.barns b with
  | none => exact hg.symm
  | some c => rfl

/-- A cache without the entries of a context holds none of its pages. -/
theorem find_dropped (l : List CachedPage) (ctx : BitVec 12) (a : Nat) :
    ((l.filter fun p => !(p.ctx == ctx)).find? fun p => p.holds ctx a) = none := by
  rw [List.find?_eq_none]
  intro p hp hh
  have hne : (p.ctx == ctx) = false := by simpa using (List.mem_filter.1 hp).2
  rw [CachedPage.holds, hne] at hh
  exact Bool.false_ne_true hh

/-- Once a shootdown has completed, the accesses of its context walk the tables (R184). -/
theorem translateAt_dropPages (s : State) (u : Nat) (ctx : BitVec 12) (a : Nat) (k : Access) :
    translateAt (s.dropPages fun _ p => p.ctx == ctx) u ctx a k =
      translate (s.dropPages fun _ p => p.ctx == ctx) ctx a k := by
  have hc := core_map (s := s) (t := s.dropPages fun _ p => p.ctx == ctx)
    (g := fun c => { c with tlb := c.tlb.filter fun p => !(p.ctx == ctx) }) rfl u rfl
  have hb := barn_map (s := s) (t := s.dropPages fun _ p => p.ctx == ctx)
    (g := fun b => { b with tlb := b.tlb.filter fun p => !(p.ctx == ctx) }) rfl (barnOf u) rfl
  have hn : (s.dropPages fun _ p => p.ctx == ctx).cachedPage u ctx a = none := by
    simp only [State.cachedPage, hc, hb, find_dropped, ite_self]
  simp only [translateAt, hn]

/-- A change of page tables begins a shootdown, which completes once no access translated before it is left (R184). -/
theorem translationShootdown_next {s : State} {ctx : BitVec 12} {root : Option (BitVec 41)} {es : List (Nat × BitVec 64)}
    (h : s.ev = some (.translationShootdown ctx root es)) :
    let x := s.context ctx
    (x.changing = false →
      let t := es.foldl (fun t e => writeEntry t ctx e.1 e.2) s
      exec .translationShootdown s = .next (t.setContext ctx
        { t.context ctx with changing := true, troot := root.getD x.troot })) ∧
    (x.changing = true →
      (translating s ctx = true → exec .translationShootdown s = .next s) ∧
      (translating s ctx = false → exec .translationShootdown s = .next
        ((s.setContext ctx { x with changing := false }).dropPages fun _ p => p.ctx == ctx))) := by
  refine ⟨fun hc => ?_, fun hc => ⟨fun ht => ?_, fun ht => ?_⟩⟩
  · have hx : (es.foldl (fun t e => writeEntry t ctx e.1 e.2) s).context ctx = s.context ctx := by
      have := foldl_keeps (f := fun t : State => t.hub.contexts)
        (fun t (e : Nat × BitVec 64) => writeEntry_contexts t ctx e.1 e.2) es s
      simp only [State.context, this]
    simp only [exec_translationShootdown, execTranslationShootdown, h, hc, changeTables, hx, Bool.not_false, if_true]
  · simp only [exec_translationShootdown, execTranslationShootdown, h, hc, ht, Bool.not_true, Bool.false_eq_true, if_false,
      if_true]
  · simp only [exec_translationShootdown, execTranslationShootdown, h, hc, ht, Bool.not_true, Bool.false_eq_true, if_false]

/-! Pages that change hands and frames retired (R199, R363) -/

/-- An entry that would map a retired frame is not written; any other is, and the page it maps is prepared (R180, R199,
R363). -/
theorem writeEntry_eq (s : State) (ctx : BitVec 12) (a : Nat) (v : BitVec 64) :
    let put := fun t : State => (t.under (t.keyOf ctx) a 8).storeNum false a 8 v.toNat
    (newPage ctx v = none → writeEntry s ctx a v = put s) ∧
    (∀ p, newPage ctx v = some p → ((∃ f ∈ s.hub.retired, p.covers f = true) → writeEntry s ctx a v = s) ∧
      ((∀ f ∈ s.hub.retired, p.covers f = false) → writeEntry s ctx a v = put (mapPage s p))) := by
  refine ⟨fun hn => ?_, fun p hp => ⟨fun hc => ?_, fun hc => ?_⟩⟩
  · simp only [writeEntry, hn]
  · simp only [writeEntry, hp, List.any_eq_true.2 hc, if_true]
  · have hn : s.hub.retired.any p.covers = false := List.any_eq_false.2 fun f hf => by rw [hc f hf]; exact Bool.false_ne_true
    simp only [writeEntry, hp, hn, Bool.false_eq_true, if_false]

/-- Whether a frame passes to a page that is mapped from a plain page of another context (R199). -/
def framePasses (s : State) (p : MappedPage) (f : Nat) : Bool :=
  p.covers f && (s.lastMapped f).any fun q => q.plain && q.ctx != p.ctx

theorem framePasses_iff (s : State) (p : MappedPage) (f : Nat) : framePasses s p f = true ↔
    p.covers f = true ∧ ∃ q, s.lastMapped f = some q ∧ q.plain = true ∧ q.ctx ≠ p.ctx := by
  simp [framePasses, Option.any_eq_true]

theorem mapPage_mem (s : State) (p : MappedPage) : (mapPage s p).mem =
    s.mem.filter fun e => !(decide (e.1 < hbmEnd) && framePasses s p (e.1 / 4096)) := rfl

/-- Mapping a page zeroes the frames that pass to it, and no other byte of HBM (R199). -/
theorem mapPage_byte {s : State} (p : MappedPage) (hs : s.Canonical) {r : Nat} (hr : r < hbmEnd) :
    let passes := p.covers (r / 4096) = true ∧
      ∃ q, s.lastMapped (r / 4096) = some q ∧ q.plain = true ∧ q.ctx ≠ p.ctx
    (passes → (mapPage s p).byte r = 0) ∧ (¬ passes → (mapPage s p).byte r = s.byte r) := by
  have hb : (mapPage s p).byte r = if !framePasses s p (r / 4096) then s.byte r else blank := by
    have h := sget_filter (d := blank) (fun r => !(decide (r < hbmEnd) && framePasses s p (r / 4096))) hs.1 r
    rw [decide_eq_true hr, Bool.true_and] at h
    rw [State.byte, mapPage_mem]
    exact h
  refine ⟨fun hp => ?_, fun hp => ?_⟩
  · rw [hb, (framePasses_iff s p _).2 hp]
    rfl
  · rw [hb, Bool.eq_false_iff.2 fun e => hp ((framePasses_iff s p _).1 e)]
    rfl

/-- The frames of a context's pages that hold a poisoned unit (R363). -/
def badFrames (s : State) (ctx : BitVec 12) : List Nat :=
  s.poison.filterMap fun p =>
    if 16 * p.1 < hbmEnd && (s.lastMapped (p.1 / 256)).any (fun p => p.ctx == some ctx) then some (p.1 / 256) else none

theorem mem_badFrames {s : State} {ctx : BitVec 12} {f : Nat} : f ∈ badFrames s ctx ↔
    (∃ x ∈ s.poison, 16 * x.1 < hbmEnd ∧ x.1 / 256 = f) ∧ ∃ p, s.lastMapped f = some p ∧ p.ctx = some ctx := by
  have key : ∀ x : Nat × Bool,
      (if 16 * x.1 < hbmEnd && (s.lastMapped (x.1 / 256)).any (fun p => p.ctx == some ctx) then some (x.1 / 256) else none) =
        some f ↔ (16 * x.1 < hbmEnd ∧ x.1 / 256 = f) ∧ ∃ p, s.lastMapped f = some p ∧ p.ctx = some ctx := by
    intro x
    rw [Option.ite_none_right_eq_some, Option.some_inj, Bool.and_eq_true, decide_eq_true_eq, Option.any_eq_true]
    simp only [beq_iff_eq]
    constructor
    · rintro ⟨⟨hx, hp⟩, rfl⟩
      exact ⟨⟨hx, rfl⟩, hp⟩
    · rintro ⟨⟨hx, rfl⟩, hp⟩
      exact ⟨⟨hx, hp⟩, rfl⟩
  rw [badFrames, List.mem_filterMap]
  simp only [key]
  constructor
  · rintro ⟨x, hx, hf, hp⟩
    exact ⟨⟨x, hx, hf⟩, hp⟩
  · rintro ⟨⟨x, hx, hf⟩, hp⟩
    exact ⟨x, hx, hf, hp⟩

theorem retirePages_poison (s : State) (ctx : BitVec 12) : (retirePages s ctx).poison =
    s.poison.filter fun p => !(decide (16 * p.1 < hbmEnd) && (badFrames s ctx).contains (p.1 / 256)) := rfl

theorem retirePages_retired (s : State) (ctx : BitVec 12) : (retirePages s ctx).hub.retired =
    (s.hub.retired ++ badFrames s ctx).eraseDups := rfl

/-- A frame with a poisoned unit is retired, and its units cleared, when the context that ends was the last to map it
(R363). -/
theorem retirePages_frame {s : State} {ctx : BitVec 12} {x : Nat × Bool} (hx : x ∈ s.poison) (hb : 16 * x.1 < hbmEnd) :
    let f := x.1 / 256
    ((∃ p, s.lastMapped f = some p ∧ p.ctx = some ctx) →
      f ∈ (retirePages s ctx).hub.retired ∧ ∀ y ∈ (retirePages s ctx).poison, y.1 / 256 ≠ f) ∧
    ((∀ p, s.lastMapped f = some p → p.ctx ≠ some ctx) → x ∈ (retirePages s ctx).poison) := by
  intro f
  refine ⟨fun hp => ?_, fun hp => ?_⟩
  · have hf : f ∈ badFrames s ctx := mem_badFrames.2 ⟨⟨x, hx, hb, rfl⟩, hp⟩
    refine ⟨?_, fun y hy hyf => ?_⟩
    · rw [retirePages_retired, List.mem_eraseDups]
      exact List.mem_append_right _ hf
    · have hyb : 16 * y.1 < hbmEnd := by unfold hbmEnd at hb ⊢; omega
      rw [retirePages_poison, List.mem_filter, hyf, List.contains_iff_mem.2 hf, decide_eq_true hyb] at hy
      exact Bool.false_ne_true hy.2
  · have hf : f ∉ badFrames s ctx := fun hf => by
      obtain ⟨p, hl, hc⟩ := (mem_badFrames.1 hf).2
      exact hp p hl hc
    have hf' : (badFrames s ctx).contains (x.1 / 256) = false := Bool.eq_false_iff.2 fun e => hf (List.contains_iff_mem.1 e)
    rw [retirePages_poison, List.mem_filter, hf', Bool.and_false]
    exact ⟨hx, rfl⟩

end Sys2Proof.Machine
end

section
/-! Ownership, links, power, attestation, reset and the inputs from outside (R179, R184, R363, R397, R406 to R409). -/

namespace Sys2Proof.Machine

/-! Ownership (R179) -/

theorem ownedTogether_eq (n : Nat) : ownedTogether n = if n < 2 ^ 20 then
    (List.range 16).map fun i => barnOf n + i else [n] := by
  unfold ownedTogether isCompute
  split
  case isTrue h => rw [if_pos (decide_eq_true_iff.1 h)]
  case isFalse h => rw [if_neg fun e => h (decide_eq_true_iff.2 e)]

/-- A barn or loft core, given by its key, owned by a context or by none (R179). -/
def State.own (s : State) (key : Nat) (new : Option (BitVec 12)) : State :=
  { s with owners := match new with | some c => kput s.owners key c | none => kdel s.owners key }

/-- A barn with nothing of its owner left, or a loft core, passes cleared to a new owner (R179). -/
theorem ownershipChange_next {s : State} {n : Nat} {new : Option (BitVec 12)} (h : s.ev = some (.ownershipChange n new)) :
    let us := ownedTogether n
    (5 ≤ s.hub.stage → isWorker n = true → (n < 2 ^ 20 → ∀ u ∈ us, (s.core u).vacant = true) →
      let v := us.foldl clearCore s
      let t := v.dropPages fun u p => us.contains u && v.owner n == some p.ctx
      let key := if n < 2 ^ 20 then barnOf n else n
      exec .ownershipChange s = .next (t.own key new)) ∧
    (s.hub.stage < 5 ∨ isWorker n = false ∨ (n < 2 ^ 20 ∧ ∃ u ∈ us, (s.core u).vacant = false) →
      exec .ownershipChange s = .next s) := by
  intro us
  refine ⟨fun hs hw hv => ?_, fun hc => ?_⟩
  · have hg : ¬ (decide (s.hub.stage < 5) || !isWorker n || (isCompute n && us.any fun u => !(s.core u).vacant)) = true := by
      rw [decide_eq_false (Nat.not_lt.2 hs), hw, Bool.not_true, Bool.or_self, Bool.false_or, Bool.and_eq_true,
        List.any_eq_true]
      rintro ⟨hn, u, hu, hx⟩
      rw [hv (decide_eq_true_iff.1 hn) u hu] at hx
      exact Bool.false_ne_true hx
    rw [exec_ownershipChange, execOwnershipChange, h]
    refine (if_neg hg).trans ?_
    by_cases hn : n < 2 ^ 20
    · simp only [isCompute, hn, decide_true, if_true]
      rfl
    · simp only [isCompute, hn, decide_false, Bool.false_eq_true, if_false]
      rfl
  · have hg : (decide (s.hub.stage < 5) || !isWorker n || (isCompute n && us.any fun u => !(s.core u).vacant)) = true := by
      rw [Bool.or_eq_true_iff, Bool.or_eq_true_iff, decide_eq_true_iff, Bool.not_eq_true', Bool.and_eq_true, List.any_eq_true,
        or_assoc]
      refine hc.imp_right (Or.imp_right ?_)
      rintro ⟨hn, u, hu, hx⟩
      exact ⟨decide_eq_true hn, u, hu, by rw [hx]; rfl⟩
    rw [exec_ownershipChange, execOwnershipChange, h]
    exact if_pos hg

/-! Device links (R397) -/

/-- The module as a device link goes down: the hub counts it, and the collectives of the devices behind it are decided
(R397, R399, R403). -/
def linkLost (i : Nat) (s : State) : State :=
  let u := match s.hub.counters.owner with
    | some c => s.countHub c 0x17 1
    | none => s
  (u.hub.routes.filter fun r => r.2 == i).foldl (fun s r => abandonDevice s r.1) u

/-- A link counts its failed replays in a row, and goes down at the 32nd (R397). -/
theorem flitReplay_next {s : State} {i : Nat} {good : Bool} {l : Link} (h : s.ev = some (.flitReplay i good))
    (hl : s.hub.links[i]? = some l) :
    let t := fun (up : Bool) (n : Nat) => { s with hub := { s.hub with links := s.hub.links.set i ⟨up, n⟩ } }
    (l.up = false → exec .flitReplay s = .next s) ∧
    (l.up = true → good = true → exec .flitReplay s = .next (t true 0)) ∧
    (l.up = true → good = false → l.failed + 1 < 32 → exec .flitReplay s = .next (t true (l.failed + 1))) ∧
    (l.up = true → good = false → 32 ≤ l.failed + 1 → exec .flitReplay s = .next (linkLost i (t false (l.failed + 1)))) := by
  refine ⟨fun hu => ?_, fun hu hg => ?_, fun hu hg hn => ?_, fun hu hg hn => ?_⟩
  · simp only [exec_flitReplay, execFlitReplay, h, hl, hu, Bool.not_false, if_true]
  · simp only [exec_flitReplay, execFlitReplay, h, hl, hu, hg, Bool.not_true, Bool.false_eq_true, if_false, if_true]
    rfl
  · simp only [exec_flitReplay, execFlitReplay, h, hl, hu, hg, Nat.not_le.2 hn, decide_false, Bool.not_true, Bool.not_false,
      Bool.false_eq_true, if_false]
  · simp only [exec_flitReplay, execFlitReplay, h, hl, hu, hg, hn, decide_true, Bool.not_true, Bool.false_eq_true, if_false,
      if_true]
    rfl

/-! Power and cooling (R406, R407) -/

/-- The estimate moves n by one, down above PLIM and up below 95 % of it (R406). -/
theorem powerEstimate_next {s : State} {mw : Nat} (h : s.ev = some (.powerEstimate mw)) :
    let p := s.hub.power
    let allow := fun n : Nat => { s with hub := { s.hub with power := { p with allow := n } } }
    (p.plim < mw → exec .powerEstimate s = .next (allow (max 1 (p.allow - 1)))) ∧
    (mw ≤ p.plim → 100 * mw < 95 * p.plim → exec .powerEstimate s = .next (allow (min 16 (p.allow + 1)))) ∧
    (mw ≤ p.plim → 95 * p.plim ≤ 100 * mw → exec .powerEstimate s = .next s) := by
  refine ⟨fun hp => ?_, fun hp hq => ?_, fun hp hq => ?_⟩
  · simp only [exec_powerEstimate, execPowerEstimate, h, hp, if_true]
  · simp only [exec_powerEstimate, execPowerEstimate, h, Nat.not_lt.2 hp, hq, if_false, if_true]
  · rw [exec_powerEstimate, execPowerEstimate, h]
    dsimp only
    rw [if_neg (Nat.not_lt.2 hp), if_neg (Nat.not_lt.2 hq), ← h]

/-- Above 100 °C n is halved (R407). -/
theorem thermalThrottle_next {s : State} {c : Int} (h : s.ev = some (.thermalThrottle c)) :
    exec .thermalThrottle s = .next (if 100 < c then
      { s with hub := { s.hub with power := { s.hub.power with allow := max 1 (s.hub.power.allow / 2) } } } else s) := by
  simp only [exec_thermalThrottle, execThermalThrottle, h]
  split <;> rfl

/-- At 110 °C every launch has ended, every link is down, and the module has stopped (R407). -/
theorem thermalStop_next {s : State} {c : Int} (h : s.ev = some (.thermalStop c)) (hc : 110 ≤ c) :
    ∃ t, exec .thermalStop s = .next t ∧ t.hub.power.stopped = true ∧ (∀ l ∈ t.hub.links, l.up = false) ∧
      (∀ l ∈ t.hub.hosts, l.up = false) ∧ (∀ x ∈ t.hub.launches, x.2.state ≠ .live ∧ x.2.state ≠ .killing) ∧
        s.SameMemory t := by
  rw [exec_thermalStop, execThermalStop, h]
  refine ⟨_, if_pos hc, rfl, fun l hl => ?_, fun l hl => ?_, fun x hx => ?_,
    ⟨fun _ => rfl, fun _ => rfl, fun _ => rfl, rfl, rfl, rfl⟩⟩
  · obtain ⟨_, -, rfl⟩ := List.mem_map.1 hl
    rfl
  · obtain ⟨_, -, rfl⟩ := List.mem_map.1 hl
    rfl
  · obtain ⟨y, -, rfl⟩ := List.mem_map.1 hx
    dsimp only
    split
    case isTrue => exact ⟨nofun, nofun⟩
    case isFalse hn => simpa using hn

/-- A reset leaves nothing but the host's memory and the agenda, and the module in stage 1 with its links down (R26, R409). -/
theorem moduleReset_next {s : State} (h : s.ev = some .moduleReset) : ∃ t, exec .moduleReset s = .next t ∧ t.mem = [] ∧
    t.full = [] ∧ t.tags = [] ∧ t.cores = [] ∧ t.owners = [] ∧ t.fabric = [] ∧ t.hub.contexts = [] ∧ t.hub.launches = [] ∧
    t.hub.security.keys = [] ∧ t.hostMem = s.hostMem ∧ t.hub.stage = 1 ∧ (∀ l ∈ t.hub.links, l.up = false) ∧
    (∀ l ∈ t.hub.hosts, l.up = false) := by
  refine ⟨{ State.reset with hostMem := s.hostMem, agenda := s.agenda, fresh := s.fresh }, ?_, rfl, rfl, rfl, rfl, rfl, rfl,
    rfl, rfl, rfl, rfl, rfl, fun l hl => ?_, fun l hl => ?_⟩
  · simp only [exec_moduleReset, execModuleReset, h]
  · rw [List.eq_of_mem_replicate hl]
  · rw [List.eq_of_mem_replicate hl]

/-! Attestation (R408) -/

/-- The module after a request of the SPDM connection is answered: the stage has moved, and the response is drawn (R408;
log 66). -/
def State.answerSpdm (s : State) (n : Spdm) : State := { s with
  fresh := s.fresh + 1
  hub := { s.hub with security := { s.hub.security with spdm := n, response := [Config.freeBits 512 s.fresh] } } }

/-- A request is answered from stage 3 on in the connection's stages that it has (R408, R409). -/
theorem spdm_next {s : State} (hs : 3 ≤ s.hub.stage) {stages : List Spdm} (hx : s.hub.security.spdm ∈ stages)
    (next : Option Spdm) : spdm s stages next = .next (s.answerSpdm (next.getD s.hub.security.spdm)) := by
  have hg : ¬ (decide (s.hub.stage < 3) || !stages.contains s.hub.security.spdm) = true := by
    rw [decide_eq_false (Nat.not_lt.2 hs), List.contains_iff_mem.2 hx]
    exact Bool.false_ne_true
  exact if_neg hg

/-- A request that keeps the connection at its stage. -/
theorem spdm_stay {s : State} (hs : 3 ≤ s.hub.stage) {stages : List Spdm} {n : Spdm} (hx : s.hub.security.spdm = n)
    (hn : n ∈ stages) : spdm s stages none = .next (s.answerSpdm n) := by
  subst hx
  exact spdm_next hs hn none

/-- A request that moves the connection from one stage to another. -/
theorem spdm_move {s : State} (hs : 3 ≤ s.hub.stage) {stages : List Spdm} {n : Spdm} (m : Spdm) (hx : s.hub.security.spdm = n)
    (hn : n ∈ stages) : spdm s stages (some m) = .next (s.answerSpdm m) := by
  subst hx
  exact spdm_next hs hn (some m)

theorem mem_anyStage (x : Spdm) : x ∈ anyStage := by cases x <;> decide

/-! The inputs from outside (R184, R363, R397, R406, R409) -/

/-- An uncorrectable error poisons its unit of HBM (R363). -/
theorem poisonUnit_poison (s : State) {p : Nat} (hp : p < hbmEnd) :
    (∀ n, 0 < n → (poisonUnit s p).anyPoison p n = true) ∧ (poisonUnit s p).mem = s.mem := by
  have hg : (decide (p < hbmEnd) || (decide (2 ^ 48 ≤ p) && isWorker ((p - 2 ^ 48) / 2 ^ 19))) = true := by
    rw [decide_eq_true hp, Bool.true_or]
  rw [poisonUnit, if_pos hg]
  refine ⟨fun n hn => List.any_eq_true.2 ⟨0, List.mem_range.2 (by omega), ?_⟩, rfl⟩
  exact sget_sset_listed (by decide) _ _

/-- The SIZE of a leaf that a walk accepts is one of R181. -/
theorem leaf_size {e e' : Pte} {level i : Nat} (h : leaf e level i = .ok e') (hz : e.size ≠ 0) : e' = e ∧
    0 < pageSize e'.size := by
  unfold leaf at h
  split at h
  case isTrue => cases h
  case isFalse hb =>
    cases h
    refine ⟨rfl, ?_⟩
    have hs : sizeAllowed level i e.size = true := by
      by_contra hn
      exact hb (by simp [Pte.bad, hn])
    unfold sizeAllowed at hs
    split at hs <;> simp_all [pageSize]

theorem groupHead_size {s : State} {ctx : BitVec 12} {t level i : Nat} {e : Pte} {j : Nat}
    (h : groupHead s ctx t level i = some (e, j)) : e.size ≠ 0 := by
  have head : ∀ n z, z ≠ 0 → (let e := s.pte ctx t (i - i % n); if e.v && e.size == z then some (e, i - i % n) else none) =
      some (e, j) → e.size ≠ 0 := by
    intro n z hz hh
    dsimp only at hh
    split at hh
    case isTrue hc =>
      obtain ⟨rfl, -⟩ := Prod.mk.inj (Option.some.inj hh)
      rw [beq_iff_eq.1 (Bool.and_eq_true_iff.1 hc).2]
      exact hz
    case isFalse => cases hh
  unfold groupHead at h
  split at h
  · exact head 128 4 (by decide) h
  · exact head 16 2 (by decide) h
  · cases h

/-- The entry that a walk finds maps a page (R182). -/
theorem walk_size {s : State} {ctx : BitVec 12} {a n t : Nat} {e : Pte} (h : walk s ctx a n t = .ok e) :
    0 < pageSize e.size := by
  induction n generalizing t with
  | zero => cases h
  | succ level ih =>
    unfold walk at h
    dsimp only at h
    split at h
    case h_1 e' j hg => exact (leaf_size h (groupHead_size hg)).2
    case h_2 =>
      split at h
      case isTrue => cases h
      case isFalse =>
        split at h
        case isTrue => cases h
        case isFalse =>
          split at h
          case isTrue hz => exact (leaf_size h (by simpa using hz)).2
          case isFalse => exact ih h

/-- The entry of the page that an address lies in, as a translation cache holds it (R184). -/
def Pte.cached (e : Pte) (ctx : BitVec 12) (a : Nat) : CachedPage :=
  ⟨ctx, a - a % pageSize e.size, e.size, BitVec.ofNat 64 e.raw⟩

theorem core_setBarn (s : State) (b : Nat) (x : Barn) (u : Nat) : (s.setBarn b x).core u = s.core u := rfl

theorem cached_holds {e : Pte} (ctx : BitVec 12) (a : Nat) (he : 0 < pageSize e.size) :
    (Pte.cached e ctx a).holds ctx a = true := by
  have := Nat.mod_lt a he
  have := Nat.mod_le a (pageSize e.size)
  simp only [CachedPage.holds, Pte.cached, beq_self_eq_true, Bool.true_and, Bool.and_eq_true]
  exact ⟨decide_eq_true (by omega), decide_eq_true (by omega)⟩

/-- A page that no cache of a unit holds is taken into its core's when a walk finds it, and nothing is when it does not
(R184). -/
theorem cachePage_next {s : State} {u : Nat} {ctx : BitVec 12} {a : Nat} (hn : s.cachedPage u ctx a = none) :
    (∀ e, pageEntry s ctx a = .ok e →
      (s.cachePage u ctx a).cachedPage u ctx a = some (Pte.cached e ctx a) ∧ s.SameMemory (s.cachePage u ctx a)) ∧
    (∀ c, pageEntry s ctx a = .error c → s.cachePage u ctx a = s) := by
  refine ⟨fun e he => ?_, fun c he => ?_⟩
  · have hc : (s.cachePage u ctx a).core u =
        { s.core u with tlb := holdPage coreTlbRoom (Pte.cached e ctx a) (s.core u).tlb } := by
      simp only [State.cachePage, hn, he]
      split
      · rw [core_setBarn, core_modCore, if_pos rfl, Pte.cached]
      · rw [core_modCore, if_pos rfl, Pte.cached]
    refine ⟨?_, ?_⟩
    · have hh := cached_holds (e := e) ctx a (walk_size he)
      simp only [State.cachedPage, hc, holdPage, coreTlbRoom, List.take_succ_cons, List.find?_cons, hh]
    · simp only [State.cachePage, hn, he]
      split
      · exact ⟨fun _ => rfl, fun _ => rfl, fun _ => rfl, rfl, rfl, rfl⟩
      · exact ⟨fun _ => rfl, fun _ => rfl, fun _ => rfl, rfl, rfl, rfl⟩
  · simp only [State.cachePage, hn, he]

/-- A walk does not look at the agenda. -/
theorem pageEntry_agenda (s : State) (r : List Pick) (ctx : BitVec 12) (a : Nat) :
    pageEntry { s with agenda := r } ctx a = pageEntry s ctx a :=
  walk_congr (s := s) (t := { s with agenda := r }) (.refl s) rfl a 4 _

/-- PLIM is set from 10 to 26 kW (R406). -/
theorem setLimit_eq (s : State) (mw : Nat) :
    (10_000_000 ≤ mw → mw ≤ 26_000_000 →
      setLimit s mw = { s with hub := { s.hub with power := { s.hub.power with plim := mw } } }) ∧
    (mw < 10_000_000 ∨ 26_000_000 < mw → setLimit s mw = s) := by
  refine ⟨fun hl hu => ?_, fun hc => ?_⟩
  · rw [setLimit, decide_eq_true hl, decide_eq_true hu, Bool.and_self, if_pos rfl]
  · rw [setLimit, if_neg]
    rw [Bool.and_eq_true, decide_eq_true_eq, decide_eq_true_eq]
    omega

/-- A device link trains from stage 4 on (R397, R409). -/
theorem trainDevice_eq (s : State) {k : Nat} (hs : 4 ≤ s.hub.stage) (hk : k < 16) :
    trainDevice s k = { s with hub := { s.hub with links := s.hub.links.set k ⟨true, 0⟩ } } := by
  rw [trainDevice, decide_eq_true hs, decide_eq_true hk, Bool.and_self, if_pos rfl]

/-- Settles O52: contexts, page tables, pages, ownership, links, power, attestation and inputs in turn. -/
theorem moduleSteps : Obligations.ModuleSteps := by
  unfold Obligations.ModuleSteps
  refine ⟨?_, ⟨writeEntry_eq, fun s p hs r hr => mapPage_byte p hs hr, fun s ctx x hx hb => retirePages_frame hx hb⟩, ?_,
    fun s i good l h hl => flitReplay_next h hl, ?_, ?_, ?_⟩
  · intro s ctx
    refine ⟨fun x h => contextCreate_next h, fun h hl => contextEnd_next h hl, fun key h => ?_, fun root es h => ?_⟩
    · rw [keyPairDelivery_next h]
      exact ⟨fun hx hs => by rw [if_pos ⟨hx, hs⟩], fun hc => by rw [if_neg fun e => hc.elim (· e.1) (Nat.not_lt.2 e.2)]⟩
    · obtain ⟨hbegin, hend⟩ := translationShootdown_next h
      exact ⟨hbegin, fun hc => ⟨(hend hc).1, fun ht => ⟨(hend hc).2 ht, fun u a k => translateAt_dropPages _ u ctx a k⟩⟩⟩
  · intro s n new h
    rw [← ownedTogether_eq]
    exact ownershipChange_next h
  · intro s
    refine ⟨fun mw h => powerEstimate_next h, fun c h => ?_, fun c h hc => thermalStop_next h hc, fun h => moduleReset_next h⟩
    rw [thermalThrottle_next h]
    exact ⟨fun hc => by rw [if_pos hc], fun hc => by rw [if_neg (not_lt.2 hc)]⟩
  · intro s hs x to_
    refine ⟨spdm_move hs _ rfl (mem_anyStage _), fun hx => spdm_move hs _ hx (by decide),
      fun hx => spdm_move hs _ hx (by decide), fun hx => ⟨spdm_stay hs hx (by decide), spdm_move hs _ hx (by decide)⟩,
      fun hx => ?_, fun ok h hx => ?_,
      fun hx => ⟨spdm_move hs _ hx (by decide), spdm_stay hs hx (by decide)⟩⟩
    · have hm : x.spdm ∈ [Spdm.negotiated, .session] := by simpa using hx
      exact ⟨spdm_stay hs rfl hm, spdm_stay hs rfl hm, spdm_stay hs rfl hm⟩
    · have hf : exec .finish s = spdm s [.keyed] (some (if ok then .session else .negotiated)) := by
        simp only [exec_finish, execFinish, h]
      exact hf.trans (spdm_move hs _ hx (by decide))
  · intro s i r h hp t
    have hstep : step s = .next (doInput t i) := by rw [step_input h, hp, if_neg Bool.false_ne_true]
    rw [hstep]
    refine ⟨?_, ?_, ?_, ?_, ?_⟩
    · rintro rfl
      rfl
    · rintro mw rfl
      exact ⟨fun hl hu => congrArg _ ((setLimit_eq t mw).1 hl hu), fun hc => congrArg _ ((setLimit_eq t mw).2 hc)⟩
    · rintro k rfl hs hk
      exact congrArg _ (trainDevice_eq t hs hk)
    · rintro p rfl hp
      exact ⟨_, rfl, poisonUnit_poison t hp⟩
    · rintro u ctx a rfl hu hn
      have hd : doInput t (.cachePage u ctx a) = t.cachePage u ctx a.toNat := if_pos hu
      obtain ⟨hok, herr⟩ := cachePage_next (s := t) hn
      rw [hd]
      exact ⟨fun e he => ⟨_, rfl, hok e ((pageEntry_agenda s r ctx _).trans he)⟩,
        fun c he => congrArg _ (herr c ((pageEntry_agenda s r ctx _).trans he))⟩

end Sys2Proof.Machine
end

section
/-! Barriers: arrivals, drops, queries and waits (R171 to R173, R413, R414). -/

namespace Sys2Proof.Machine

/-! The focus under a store that no filter takes -/

theorem apart_focus : ApartFromRecords fun s => (s.focusU, s.focusK) where
  mem _ _ := rfl
  seals _ _ := rfl
  count s u ctx code n := by simp only [focusU_count, focusK_count]
  countHub s ctx code n := by obtain ⟨x, hx⟩ := countHub_eq s ctx code n; rw [hx]

theorem storeNum_untaken (s : State) (q n v : Nat) : s.storeNum false q n v = s.storePlain q (leBytes n v) := rfl

theorem storeNum_focus (s : State) (q n v : Nat) :
    (s.storeNum false q n v).focusU = s.focusU ∧ (s.storeNum false q n v).focusK = s.focusK := by
  rw [storeNum_untaken]
  exact Prod.mk.inj (apart_focus.storePlain s q (leBytes n v))

/-! What a home's step leaves and waits for, and how a row ends -/

@[simp] theorem learn_ir (s : State) (d : Nat) (c : Clock) : (s.learn d c).ir = s.ir := by
  cases c <;> rfl

/-- A read at a home leaves the operands of the instruction in hand (R207). -/
@[simp] theorem stepRead_ir (s : State) (u k home : Nat) : (s.stepRead u k home).ir = s.ir := by
  simp only [State.stepRead, State.modSlot_ir, State.learnFrom]
  split
  · rfl
  · exact learn_ir s _ _

/-- A read waits for no more than a write does (R413, R414). -/
theorem early_read {t : State} {home : Nat} (h : t.early home true = false) : t.early home false = false := by
  simp only [State.early, Strand.asks, Bool.or_eq_false_iff, List.any_eq_false, Bool.true_and, Bool.false_and,
    Bool.true_or, Bool.false_or, Bool.or_eq_true, not_or, not_true_eq_false] at h ⊢
  obtain ⟨hasked, hwrites⟩ := h
  exact ⟨fun x hx => ⟨(hasked x hx).1, Bool.false_ne_true⟩, fun x hx => (hwrites x hx).elim⟩

theorem dstLong_room {t : State} (h : t.Room) (v : Word) : dstLong t.ir.d v t = .ok (t.putLong v) := if_pos h

section Row

variable {s : State} {i : Instr} {body : State → Run} (h : s.Ready) (hi : exec i s = performSeq s body)
include h hi

/-- A row that must stay at issue changes nothing (R44). -/
theorem row_hold (hb : body s = .error .hold) : exec i s = .next s := hi.trans (performSeq_error h hb)

/-- A row that the address in a word stops: the record names the word (R356). -/
theorem row_failAt_word {c : Cause} {a : Word} (hb : body s = failAt c a.toNat) :
    exec i s = .next (s.trapHere { cause := c, addr := a }) := by
  simpa only [BitVec.ofNat_toNat, BitVec.setWidth_eq] using row_failAt h hi hb

theorem row_failThere_word {t : State} {u : Nat} {c : Cause} {a : Word} (hb : body s = failThere t u c a.toNat) :
    exec i s = .next (s.trapHere { cause := c, addr := a, unit := t.foundAt u }) := by
  simpa only [BitVec.ofNat_toNat, BitVec.setWidth_eq] using row_failThere h hi hb

end Row

/-! The object (R171) -/

section Place

variable {t : State} {a : Nat}

/-- Alignment and bits 63:56 of an object's address are tested first (log 83). -/
theorem barrierPlace_misaligned (h : a % 16 ≠ 0 ∨ 2 ^ 56 ≤ a) : barrierPlace t a = failAt .barAddr a := by
  have ht : (a % 16 != 0 || decide (2 ^ 56 ≤ a)) = true := by simpa only [Bool.or_eq_true, bne_iff_ne, decide_eq_true_eq]
  simp only [barrierPlace, ht, if_true, failAt_bind]

variable (hal : a % 16 = 0) (hlt : a < 2 ^ 56)
include hal hlt

theorem barrierPlace_aligned :
    barrierPlace t a = objectPlace t a .atomic >>= fun p => if p.off.isNone then failAt .barAddr a else .ok p := by
  have ht : (a % 16 != 0 || decide (2 ^ 56 ≤ a)) = false := by
    simp only [Bool.or_eq_false_iff, bne_eq_false_iff_eq, decide_eq_false_iff_not]; omega
  simp only [barrierPlace, ht, Bool.false_eq_true, if_false, ok_bind]

theorem barrierPlace_unlocated {c : Cause} (h : locate t t.focusU t.st.ctx a .atomic = .error c) :
    barrierPlace t a = failAt c a := by
  rw [barrierPlace_aligned hal hlt, objectPlace_error h, failAt_bind]

/-- An object that lies in no core's local memory is misplaced (R171). -/
theorem barrierPlace_notLocal {p : Place} (h : locate t t.focusU t.st.ctx a .atomic = .ok p) (ho : p.off = none) :
    barrierPlace t a = failAt .barAddr a := by
  rw [barrierPlace_aligned hal hlt, objectPlace_ok h, ok_bind, ho, Option.isNone_none, if_pos rfl]

end Place

theorem barrierAt_malformed {t : State} {p : Place} {a q : Nat} (hq : objectAt t p a 16 = .ok q)
    (hb : Barrier.ofNum (t.num q 16) = none) : barrierAt t p a = failThere t p.home .barAddr a := by
  simp only [barrierAt, hq, ok_bind, hb]

/-- The strand of STRID `n` is no member of a barrier that has yet to arrive in its phase (R171, R172). -/
def Barrier.Overrun (b : Barrier) (n : Nat) : Prop :=
  n < b.base ∨ 47 < n - b.base ∨ b.member.testBit (n - b.base) = false ∨ b.arrived.testBit (n - b.base) = true

theorem Barrier.overrun_iff (b : Barrier) (n : Nat) :
    (decide (n < b.base) || decide (47 < n - b.base) || !bit b.member (n - b.base) || bit b.arrived (n - b.base)) = true ↔
      b.Overrun n := by
  simp only [Overrun, bit_eq_testBit, Bool.or_eq_true, decide_eq_true_eq, Bool.not_eq_true', or_assoc]

/-- A state with the barrier object at `q` replaced by a strand's step at its home `u` (R172, R207). -/
def State.leaveBarrier (t : State) (u q : Nat) (b : Barrier) : State :=
  ((t.storeNum false q 16 b.num).stepWrite t.focusU t.focusK u).stepRead t.focusU t.focusK u

/-! Arrivals and drops (R172) -/

section Arrival

variable {s t : State} {a : Word} {j : Instr} {f : Barrier → Nat → Barrier} (hj : exec j s = arrival s f)
  (h : s.Standing) (hs : s.ReadsA a t)
include hj h hs

theorem arrival_badPlace {c : Cause} (hp : barrierPlace t a.toNat = failAt c a.toNat) :
    exec j s = .next (s.trapHere { cause := c, addr := a }) := by
  refine row_failAt_word h.1 hj ?_
  simp only [State.ReadsA] at hs
  simp only [hs, ok_bind, hp, failAt_bind]

variable {p : Place} (hp : barrierPlace t a.toNat = .ok p)
include hp

/-- An arrival waits for what its strand has yet to do in its way, and at the ingress of the home's die (R172, R207, R413). -/
theorem arrival_blocks (hc : t.early p.home true = true ∨ t.crossing t.focusU t.focusK p.home = true) :
    exec j s = .next (s.blockSlot s.focusU s.focusK) := by
  have hm : t.me.acquires = [] := (src_quiet hs).2 ▸ h.2.1
  refine row_block h.1 hj ?_
  simp only [State.ReadsA] at hs
  simp only [hs, ok_bind, hp, awaitWrites_block hm hc, error_bind]

variable (he : t.early p.home true = false) (hc : t.crossing t.focusU t.focusK p.home = false)
include he hc

theorem arrival_malformed (hb : barrierAt t p a.toNat = failThere t p.home .barAddr a.toNat) :
    exec j s = .next (s.trapHere { cause := .barAddr, addr := a, unit := t.foundAt p.home }) := by
  have hm : t.me.acquires = [] := (src_quiet hs).2 ▸ h.2.1
  refine row_failThere_word h.1 hj ?_
  simp only [State.ReadsA] at hs
  simp only [hs, ok_bind, hp, awaitWrites_ok hm he hc, hb, failThere_bind]

variable {q : Nat} {b : Barrier} (hb : barrierAt t p a.toNat = .ok (q, b))
include hb

theorem arrival_overrun (ho : b.Overrun t.st.strid.toNat) :
    exec j s = .next (s.trapHere { cause := .barOver, addr := a, unit := t.foundAt p.home }) := by
  have hm : t.me.acquires = [] := (src_quiet hs).2 ▸ h.2.1
  refine row_failThere_word h.1 hj ?_
  simp only [State.ReadsA] at hs
  simp only [hs, ok_bind, hp, awaitWrites_ok hm he hc, hb, if_pos ((b.overrun_iff _).2 ho), failThere_bind]

/-- The object is left as the arrival makes it, in its next phase when all have arrived, and the phase arrived in is given
(R172). -/
theorem arrival_next {u : State} (ho : ¬ b.Overrun t.st.strid.toNat)
    (hu : t.leaveBarrier p.home q (f b (t.st.strid.toNat - b.base)).complete = u) (hr : u.Room) :
    exec j s = .next (u.putLong (word b.phase)).passed := by
  have hm : t.me.acquires = [] := (src_quiet hs).2 ▸ h.2.1
  refine row_next h.1 hj ?_
  simp only [State.ReadsA] at hs
  simp only [State.leaveBarrier] at hu
  simp only [hs, ok_bind, hp, awaitWrites_ok hm he hc, hb, if_neg (mt (b.overrun_iff _).1 ho), (storeNum_focus _ _ _ _).1,
    (storeNum_focus _ _ _ _).2, hu, dstLong_room hr]

end Arrival

/-! Queries (R173) -/

section Query

variable {s t : State} {a : Word} (h : s.Standing) (hs : s.ReadsA a t)
include h hs

theorem barQry_badPlace {c : Cause} (hp : barrierPlace t a.toNat = failAt c a.toNat) :
    exec .barQry s = .next (s.trapHere { cause := c, addr := a }) := by
  refine row_failAt_word h.1 (exec_barQry _) ?_
  simp only [State.ReadsA] at hs
  simp only [h.2.1, List.isEmpty_nil, if_true, hs, ok_bind, hp, failAt_bind]

variable {p : Place} (hp : barrierPlace t a.toNat = .ok p)
include hp

theorem barQry_holds (he : t.early p.home false = true) : exec .barQry s = .next s := by
  refine row_hold h.1 (exec_barQry _) ?_
  simp only [State.ReadsA] at hs
  simp only [h.2.1, List.isEmpty_nil, if_true, hs, ok_bind, hp, he]

variable (he : t.early p.home false = false) (hc : t.crossing t.focusU t.focusK p.home = false)
include he hc

theorem barQry_malformed (hb : barrierAt t p a.toNat = failThere t p.home .barAddr a.toNat) :
    exec .barQry s = .next (s.trapHere { cause := .barAddr, addr := a, unit := t.foundAt p.home }) := by
  refine row_failThere_word h.1 (exec_barQry _) ?_
  simp only [State.ReadsA] at hs
  simp only [h.2.1, List.isEmpty_nil, if_true, hs, ok_bind, hp, he, hc, Bool.false_eq_true, if_false, hb, failThere_bind]

theorem barQry_next {q : Nat} {b : Barrier} (hb : barrierAt t p a.toNat = .ok (q, b))
    (hr : (t.stepRead t.focusU t.focusK p.home).Room) :
    exec .barQry s = .next ((t.stepRead t.focusU t.focusK p.home).putLong
      (word (b.phase * 2 ^ 48 + (b.member - (b.member &&& b.arrived))))).passed := by
  refine row_next h.1 (exec_barQry _) ?_
  simp only [State.ReadsA] at hs
  simp only [h.2.1, List.isEmpty_nil, if_true, hs, ok_bind, hp, he, hc, Bool.false_eq_true, if_false, hb]
  simpa only [stepRead_ir] using dstLong_room hr _

end Query

/-! Waits (R173) -/

section Wait

variable {s t : State} {a v : Word} {p : Place} (h : s.Standing) (hs : s.ReadsAB a v t)
  (hp : barrierPlace t a.toNat = .ok p)
include h hs hp

theorem barWait_holds (he : t.early p.home false = true) : exec .barWait s = .next s := by
  refine row_hold h.1 (exec_barWait _) ?_
  simp only [State.ReadsAB] at hs
  simp only [h.2.1, List.isEmpty_nil, if_true, hs, ok_bind, hp, he]

/-- A wait ends when the phase is no longer its operand's (R173). -/
theorem barWait_cases (he : t.early p.home false = false) (hc : t.crossing t.focusU t.focusK p.home = false) {q : Nat}
    {b : Barrier} (hb : barrierAt t p a.toNat = .ok (q, b)) :
    (b.phase = v.toNat % 2 ^ 16 → exec .barWait s = .next (s.blockSlot s.focusU s.focusK)) ∧
    (b.phase ≠ v.toNat % 2 ^ 16 → exec .barWait s = .next (t.stepRead t.focusU t.focusK p.home).rest.passed) := by
  simp only [State.ReadsAB] at hs
  refine ⟨fun hv => row_block h.1 (exec_barWait _) ?_, fun hv => row_next h.1 (exec_barWait _) ?_⟩
  · simp only [h.2.1, List.isEmpty_nil, if_true, hs, ok_bind, hp, he, hc, Bool.false_eq_true, if_false, hb, if_pos hv]
  · simp only [h.2.1, List.isEmpty_nil, if_true, hs, ok_bind, hp, he, hc, Bool.false_eq_true, if_false, hb, if_neg hv]
    rfl

end Wait

/-- A form that gives a result stops where its barrier has no place (R161, R171). -/
theorem barrier_badPlace {s t : State} {a : Word} {c : Cause} (h : s.Standing) (hs : s.ReadsA a t)
    (hp : barrierPlace t a.toNat = failAt c a.toNat) {j : Instr} (hj : j = .barArv ∨ j = .barDrop ∨ j = .barQry) :
    exec j s = .next (s.trapHere { cause := c, addr := a }) := by
  obtain rfl | rfl | rfl := hj
  · exact arrival_badPlace (exec_barArv _) h hs hp
  · exact arrival_badPlace (exec_barDrop _) h hs hp
  · exact barQry_badPlace h hs hp

/-- Arrivals and drops are the one shared effect, each with its own change of the object (R172). -/
theorem exec_arrival {j : Instr} (hj : j = .barArv ∨ j = .barDrop) (s : State) : ∃ f, exec j s = arrival s f := by
  obtain rfl | rfl := hj
  · exact ⟨_, exec_barArv s⟩
  · exact ⟨_, exec_barDrop s⟩

/-- Settles O31: arrivals and drops, queries, waits, and what stops them. -/
theorem barriers : Obligations.Barriers := by
  unfold Obligations.Barriers
  refine ⟨?_, ?_, ?_⟩
  · intro s t a p h hs hp cross
    refine ⟨fun hw j hj => ?_, fun he hc q b hb => ⟨fun ho j hj => ?_, fun ho => ⟨fun hr => ?_, fun hr => ?_⟩⟩,
      barQry_holds h hs hp, fun he hc q b hb => barQry_next h hs hp he hc hb, fun q hq hb he hc j hj => ?_⟩
    · obtain ⟨f, hf⟩ := exec_arrival hj s
      exact arrival_blocks hf h hs hp hw
    · obtain ⟨f, hf⟩ := exec_arrival hj s
      exact arrival_overrun hf h hs hp he hc hb ho
    · exact arrival_next (exec_barArv _) h hs hp he hc hb ho rfl hr
    · exact arrival_next (exec_barDrop _) h hs hp he hc hb ho rfl hr
    · have hbad := barrierAt_malformed hq hb
      obtain rfl | rfl | rfl := hj
      · exact arrival_malformed (exec_barArv _) h hs hp he hc hbad
      · exact arrival_malformed (exec_barDrop _) h hs hp he hc hbad
      · exact barQry_malformed h hs hp (early_read he) hc hbad
  · intro s t a v p h hs hp cross
    exact ⟨barWait_holds h hs hp, fun he hc q b hb => barWait_cases h hs hp he hc hb⟩
  · intro s t a h hs j hj traps
    exact ⟨fun hm => barrier_badPlace h hs (barrierPlace_misaligned hm) hj, fun hal hlt =>
      ⟨fun c hc => barrier_badPlace h hs (barrierPlace_unlocated hal hlt hc) hj,
        fun p hp ho => barrier_badPlace h hs (barrierPlace_notLocal hal hlt hp ho) hj⟩⟩

end Sys2Proof.Machine
end

section
/-! The maps of memory stay canonical: what every operation of the state leaves of them (R177, R192, R199, R363). -/

namespace Sys2Proof.Machine

section
variable {s : State}

namespace State.Canonical

/-! Updates of records that are no maps of memory -/

theorem setCore (h : s.Canonical) {u c} : (s.setCore u c).Canonical := h
theorem setSlot (h : s.Canonical) {u k x} : (s.setSlot u k x).Canonical := h
theorem modCore (h : s.Canonical) {u f} : (s.modCore u f).Canonical := h
theorem modSlot (h : s.Canonical) {u k f} : (s.modSlot u k f).Canonical := h
theorem setMe (h : s.Canonical) {x} : (s.setMe x).Canonical := h
theorem modMe (h : s.Canonical) {f} : (s.modMe f).Canonical := h
theorem modSt (h : s.Canonical) {f} : (s.modSt f).Canonical := h
theorem setContext (h : s.Canonical) {c x} : (s.setContext c x).Canonical := h
theorem setLaunch (h : s.Canonical) {l x} : (s.setLaunch l x).Canonical := h
theorem setBarn (h : s.Canonical) {b x} : (s.setBarn b x).Canonical := h
theorem setDie (h : s.Canonical) {d x} : (s.setDie d x).Canonical := h
theorem draw (h : s.Canonical) : s.draw.2.Canonical := h
theorem post (h : s.Canonical) {src dst w dep ser b} : (s.post src dst w dep ser b).Canonical := h
theorem postPlain (h : s.Canonical) {u k d b} : (s.postPlain u k d b).Canonical := h
theorem unpost (h : s.Canonical) {i} : (s.unpost i).Canonical := h
theorem giveBack (h : s.Canonical) {u k} : (s.giveBack u k).Canonical := h
theorem dropPages (h : s.Canonical) {f} : (s.dropPages f).Canonical := h
theorem closeSessions (h : s.Canonical) {st} : (s.closeSessions st).Canonical := h

/-- One of two states, by a test. -/
theorem ite {t : State} (h : s.Canonical) (k : t.Canonical) {c : Prop} [Decidable c] :
    (if c then s else t).Canonical := by split <;> assumption

theorem learn (h : s.Canonical) {d c} : (s.learn d c).Canonical := (sameMaps_learn s d c).canonical h

theorem learnFrom (h : s.Canonical) {a b c} : (s.learnFrom a b c).Canonical := h.ite h.learn

theorem count (h : s.Canonical) {u ctx code n} : (s.count u ctx code n).Canonical :=
  (sameMaps_count s u ctx code n).canonical h

theorem countHub (h : s.Canonical) {ctx code n} : (s.countHub ctx code n).Canonical := by
  unfold State.countHub
  split <;> exact h

theorem foldl {α : Type} (h : s.Canonical) {f : State → α → State} (hf : ∀ s a, s.Canonical → (f s a).Canonical)
    (l : List α) : (l.foldl f s).Canonical := by
  induction l generalizing s with
  | nil => exact h
  | cons a l ih => exact ih (hf s a h)

theorem cachePage (h : s.Canonical) {u ctx a} : (s.cachePage u ctx a).Canonical := by
  unfold State.cachePage
  extract_lets found
  clear_value found
  split
  · exact h
  · exact (h.modCore.setBarn).ite h.modCore

/-! Messages -/

theorem postWrite (h : s.Canonical) {u k d b} : (s.postWrite u k d b).Canonical :=
  (sameMaps_postWrite s u k d b).canonical h

theorem stepWrite (h : s.Canonical) {u k home} : (s.stepWrite u k home).Canonical :=
  h.learn.ite h.setDie.modSlot.learn

theorem stepRead (h : s.Canonical) {u k home} : (s.stepRead u k home).Canonical := h.learnFrom.modSlot

/-! Records of faults -/

theorem scatterRaw (h : s.Canonical) {ps bs} : (s.scatterRaw ps bs).Canonical := by
  induction ps generalizing s bs with
  | nil => exact h
  | cons p ps ih => exact ih (canonical_setBytes h _ _)

theorem setArea (h : s.Canonical) {x v} : (s.setArea x v).Canonical :=
  ite (canonical_storePlain (canonical_under h _ _ _) _ _) h.scatterRaw

theorem appendRecord (h : s.Canonical) {t pc id l st ctx u} : (appendRecord s t pc id l st ctx u).1.Canonical := by
  unfold Machine.appendRecord
  extract_lets frec
  split
  · exact h
  · split
    · exact h
    · extract_lets v wr rd lost logn a spill
      split
      · split
        · exact h.setArea
        · exact h.setArea.setArea
      · exact h.setArea

theorem record (h : s.Canonical) {u k t} : (record s u k t).1.Canonical := h.appendRecord

/-! Launches and traps -/

theorem kill (h : s.Canonical) {l} : (s.kill l).Canonical := by
  unfold State.kill
  split
  · exact h.setLaunch.ite h
  · exact h

theorem returned (h : s.Canonical) {l w} : (s.returned l w).Canonical := by
  unfold State.returned
  dsimp only
  repeat' split
  all_goals exact h

theorem issue (h : s.Canonical) {l w} : (s.issue l w).Canonical := by
  unfold State.issue
  split
  · exact h.setLaunch.ite h
  · exact h

theorem leaveGroup (h : s.Canonical) {l m} : (s.leaveGroup l m).Canonical := by
  unfold State.leaveGroup
  repeat' split
  all_goals exact h

theorem killWith (h : s.Canonical) {u k t} : (killWith s u k t).Canonical := h.record.kill

theorem fatal (h : s.Canonical) {u k t} : (fatal s u k t).Canonical := h.modSlot.ite h.killWith

theorem takeTrap (h : s.Canonical) {u k t} : (takeTrap s u k t).Canonical := by
  unfold Machine.takeTrap
  extract_lets settled s1 sl tvec late r s2 s3 f
  have h1 : s1.Canonical := h.modCore.giveBack
  have hr : r.1.Canonical := by unfold r; split; exacts [h1, h1.record]
  exact h1.fatal.ite (h1.fatal.ite (hr.kill.ite hr).modSlot)

theorem settleDue (h : s.Canonical) {u k} : (settleDue s u k).Canonical := by
  unfold Machine.settleDue
  split
  · exact h
  · exact h.ite (h.modSlot.killWith.ite h.modSlot.record.modSlot)

theorem queueTask (h : s.Canonical) {src w u q} : (s.queueTask src w u q).Canonical := h.modCore.ite h.post

theorem report (h : s.Canonical) {u w t} : (report s u w t).Canonical :=
  h.appendRecord.issue.queueTask.ite h.appendRecord

theorem reportAfter (h : s.Canonical) {w t} : (reportAfter s w t).Canonical := h.modSlot.ite h.report

theorem settleOwed (h : s.Canonical) {u k} : (settleOwed s u k).Canonical := by
  unfold Machine.settleOwed
  split
  · exact h
  · exact h.ite h.modSlot.report

theorem freeNumber (h : s.Canonical) {u k n} : (s.freeNumber u k n).Canonical := by
  unfold State.freeNumber
  split
  · exact h
  · exact h.modCore.ite h.postPlain

theorem vacate (h : s.Canonical) {u k} : (s.vacate u k).Canonical := by
  unfold State.vacate
  extract_lets st s1 s2 s3 d s4
  have h2 : s2.Canonical := by
    unfold s2
    split
    · exact h.freeNumber.leaveGroup
    · exact h.freeNumber
  exact h2.closeSessions.setCore.count.setSlot

/-! Issue -/

theorem fly (h : s.Canonical) {n r v} : (s.fly n r v).Canonical := h

theorem put (h : s.Canonical) {n v} : (s.put n v).Canonical := by
  unfold State.put
  split <;> exact h

theorem blockSlot (h : s.Canonical) {u k} : (s.blockSlot u k).Canonical := (h.ite h.count).modSlot.modCore

theorem turn (h : s.Canonical) {u} : (s.turn u).Canonical := h.modCore.count

theorem advance (h : s.Canonical) : s.advance.Canonical := h

theorem finish (h : s.Canonical) : s.finish.Canonical := (sameMaps_finish s).canonical h

theorem passed (h : s.Canonical) : s.passed.Canonical := (sameMaps_passed s).canonical h

theorem trapHere (h : s.Canonical) {t} : (s.trapHere t).Canonical := h.takeTrap.modSlot.modCore

theorem sendAndWait {t : State} (h : t.Canonical) : (s.sendAndWait t).Canonical :=
  h.modMe.blockSlot.modCore.ite h.modMe.blockSlot

theorem delay (h : s.Canonical) {n} : (s.delay n).Canonical := h
theorem refetch (h : s.Canonical) {n} : (s.refetch n).Canonical := h
theorem redirect (h : s.Canonical) {n anew} : (s.redirect n anew).Canonical := h.ite h.refetch

end State.Canonical
end

/-! What performing leaves -/

/-- The state that a stop leaves behind, where it leaves one, is canonical. -/
def Stop.Canonical : Stop → Prop
  | .trap _ (some s) => s.Canonical
  | .block (some s) => s.Canonical
  | _ => True

/-- A computation of an instruction gives what `Q` says, or stops and leaves no state that is not canonical. -/
def Keeps {α : Type} (Q : α → Prop) : Except Stop α → Prop
  | .ok a => Q a
  | .error e => e.Canonical

/-- What is given with a state: the state is canonical. -/
abbrev With {α : Type} (x : α × State) : Prop := x.2.Canonical

/-- A computation that gives no state. -/
abbrev Bare {α : Type} (r : Except Stop α) : Prop := Keeps (fun _ => True) r

section
variable {α β : Type} {Q : α → Prop} {R : β → Prop}

theorem Keeps.bind {r : Except Stop α} {f : α → Except Stop β} (h : Keeps Q r) (hf : ∀ a, Q a → Keeps R (f a)) :
    Keeps R (r >>= f) := by
  cases r with
  | ok a => exact hf a h
  | error e => exact h

theorem Keeps.ite {r q : Except Stop α} {c : Prop} [Decidable c] (h : Keeps Q r) (k : Keeps Q q) :
    Keeps Q (if c then r else q) := by split <;> assumption

/-- A test in a computation, as one of two beginnings of what follows. -/
theorem keeps_choose {r q : Except Stop α} {f : α → Except Stop β} {c : Prop} [Decidable c] (h : Keeps Q r) (k : Keeps Q q)
    (hf : ∀ a, Q a → Keeps R (f a)) : Keeps R (if c then r >>= f else q >>= f) := by
  split
  · exact h.bind hf
  · exact k.bind hf

theorem bare_ok {a : α} : Bare (.ok a) := trivial

/-- A test in a computation, as one of two beginnings of what follows, none of which gives a state. -/
theorem bare_choose {r q : Except Stop α} {f : α → Except Stop β} {c : Prop} [Decidable c] (h : Bare r) (k : Bare q)
    (hf : ∀ a, Keeps R (f a)) : Keeps R (if c then r >>= f else q >>= f) := keeps_choose h k fun a _ => hf a

/-- A test that must hold, with the stop where it fails. -/
theorem keeps_check {f : Unit → Except Stop β} {c : Prop} [Decidable c] {e : Stop} (he : e.Canonical)
    (hf : ∀ x, Keeps R (f x)) : Keeps R (if c then Except.ok () >>= f else Except.error e >>= f) := by
  split
  · exact hf ()
  · exact he

/-- A test that must not hold, with the stop where it does. -/
theorem keeps_guard {f : Unit → Except Stop β} {c : Prop} [Decidable c] {e : Stop} (he : e.Canonical)
    (hf : ∀ x, Keeps R (f x)) : Keeps R (if c then Except.error e >>= f else Except.ok () >>= f) := by
  split
  · exact he
  · exact hf ()

theorem Keeps.imp {r : Except Stop α} {Q' : α → Prop} (h : Keeps Q r) (hq : ∀ a, Q a → Q' a) : Keeps Q' r := by
  cases r with
  | ok a => exact hq a h
  | error e => exact h

theorem Keeps.bare {r : Except Stop α} (h : Keeps Q r) : Bare r := h.imp fun _ _ => trivial

/-- A test that stops where it fails, without a state. -/
theorem bare_test {c : Prop} [Decidable c] {e : Stop} (he : e.Canonical) : Bare (if c then .ok () else .error e) :=
  Keeps.ite trivial he

theorem bare_failIf {b : Bool} {c : Cause} : Bare (failIf b c) := Keeps.ite trivial trivial

theorem bare_failHubIf {b : Bool} {c : Cause} : Bare (failHubIf b c) := Keeps.ite trivial trivial

theorem bare_whole {l : List Opd} {s : State} : Bare (whole l s) := Keeps.ite trivial trivial

theorem bare_read {r : VReg} : Bare r.read := Keeps.ite trivial trivial

end

section
variable {s : State}

/-- What a form that reads sources and writes D comes to. -/
theorem WritesD.keeps {r : Run} (hw : WritesD s r) (h : s.Canonical) : Keeps State.Canonical r := by
  unfold WritesD at hw
  split at hw
  · obtain ⟨t, hq, -, rfl | ⟨n, v, rfl⟩⟩ := hw
    · exact hq.sameMaps.canonical h
    · exact (hq.sameMaps.canonical h).put
  · subst hw; trivial
  · subst hw; trivial
  · trivial

theorem keeps_src (h : s.Canonical) {o : Opd} : Keeps With (src o s) := by
  cases e : src o s with
  | ok x => exact (sameMaps_src e).canonical h
  | error e' => exact (src_stop e).keeps (r := .error e') h

theorem keeps_srcAB (h : s.Canonical) : Keeps (fun x => With x.2) (srcAB s) :=
  bare_whole.bind fun _ _ => (keeps_src h).bind fun _ h => (keeps_src h).bind fun _ h => h

theorem keeps_srcABD (h : s.Canonical) : Keeps (fun x => With x.2.2) (srcABD s) :=
  bare_whole.bind fun _ _ => (keeps_src h).bind fun _ h => (keeps_src h).bind fun _ h => (keeps_src h).bind fun _ h => h

theorem keeps_srcDAB (h : s.Canonical) : Keeps (fun x => With x.2.2) (srcDAB s) :=
  bare_whole.bind fun _ _ => (keeps_src h).bind fun _ h => (keeps_src h).bind fun _ h => (keeps_src h).bind fun _ h => h

theorem keeps_movSrc (h : s.Canonical) : Keeps With (movSrc s) := by
  unfold movSrc
  split
  · exact h
  · exact keeps_src h

theorem keeps_dst (h : s.Canonical) {o n v} : Keeps State.Canonical (dst o n v s) := by
  unfold dst
  split
  · split
    · exact h.fly
    · exact h
  · trivial

/-! Outcomes -/

/-- Every next state of an outcome is canonical. -/
def Ends (r : Host.Outcome State Fault Refusal) : Prop := ∀ t, r = .next t → t.Canonical

theorem ends_next {t : State} (h : t.Canonical) : Ends (.next t) := fun _ e => by cases e; exact h

theorem ends_fault {f : Fault} : Ends (.fault f) := fun _ e => by cases e

theorem ends_settleRun (h : s.Canonical) {r : Run} (hr : Keeps State.Canonical r) : Ends (settleRun s r) := by
  unfold settleRun
  split
  · exact ends_next hr
  · rename_i o
    cases o with
    | none => exact ends_next h.trapHere
    | some u => exact ends_next (State.Canonical.trapHere hr)
  · exact ends_next h.blockSlot
  · exact ends_next (State.Canonical.sendAndWait hr)
  · exact ends_next h

theorem ends_perform (h : s.Canonical) {body : State → Run} (hb : Keeps State.Canonical (body s)) : Ends (perform s body) := by
  unfold perform
  split
  · split
    · exact ends_next h.blockSlot
    · exact ends_next h.advance.finish
    · exact ends_settleRun h hb
  · exact ends_fault

theorem ends_performSeq (h : s.Canonical) {body : State → Run} (hb : Keeps State.Canonical (body s)) :
    Ends (performSeq s body) := by
  refine ends_perform h ?_
  split
  · rename_i e; rw [e] at hb; exact State.Canonical.finish (State.Canonical.advance hb)
  · rename_i e; rw [e] at hb; exact hb

theorem ends_performBranch (h : s.Canonical) {o : Opd} {target : State → Except Stop (Nat × State)}
    (ht : Keeps With (target s)) : Ends (performBranch s o target) := by
  unfold performBranch
  split
  · split
    · exact ends_next h.blockSlot
    · exact ends_next h.advance.finish.redirect
    · refine ends_settleRun h (ht.bind fun ⟨a, u⟩ hu => ?_)
      exact keeps_check trivial fun _ => hu.modSt.finish.redirect
  · exact ends_fault

/-- A meaning that leaves the maps of memory canonical. -/
def KeepsMaps (f : State → Host.Outcome State Fault Refusal) : Prop := ∀ s : State, s.Canonical → Ends (f s)

/-- A form that reads sources and writes D touches no map. -/
theorem OnlyWritesD.keepsMaps {f : State → Host.Outcome State Fault Refusal} (hf : OnlyWritesD f) : KeepsMaps f := by
  obtain ⟨body, rfl, hb⟩ := hf
  intro s h
  refine ends_performSeq h ?_
  exact (hb s).keeps h

end

end Sys2Proof.Machine
end

section
/-! Homes and the waiters they keep (R190 to R201, R219 to R235) -/

namespace Sys2Proof.Machine

/-- A computation that may fail gives what `Q` says. -/
def Gives {ε α : Type} (Q : α → Prop) (r : Except ε α) : Prop := ∀ a, r = .ok a → Q a

section
variable {ε α β : Type} {Q : α → Prop} {R : β → Prop}

theorem gives_ok {a : α} (h : Q a) : Gives Q (.ok a : Except ε α) := fun _ e => by cases e; exact h

theorem gives_error {e : ε} : Gives Q (.error e) := fun _ h => by cases h

theorem gives_bind {r : Except ε α} {f : α → Except ε β} (hf : ∀ a, r = .ok a → Gives R (f a)) : Gives R (r >>= f) := by
  cases r with
  | ok a => exact hf a rfl
  | error e => exact gives_error

end

section
variable {s : State}

namespace State.Canonical

theorem under (h : s.Canonical) {key p n} : (s.under key p n).Canonical := canonical_under h key p n
theorem storeNum (h : s.Canonical) {takes p n v} : (s.storeNum takes p n v).Canonical := canonical_storeNum h takes p n v
theorem store (h : s.Canonical) {takes p bs} : (s.store takes p bs).Canonical := canonical_store h takes p bs
theorem setFull (h : s.Canonical) {p b} : (s.setFull p b).Canonical := canonical_setFull h p b
theorem setTag (h : s.Canonical) {p t} : (s.setTag p t).Canonical := canonical_setTag h p t

theorem fill (h : s.Canonical) {ctx u a} : (s.fill ctx u a).Canonical := (h.count.ite h).setFull

theorem performAt (h : s.Canonical) {ctx p op} : Gives With (performAt s ctx p op) := by
  unfold Machine.performAt
  cases op with
  | load n sg => exact gives_bind fun _ _ => gives_ok h
  | pair => exact gives_bind fun _ _ => gives_ok h
  | decode => exact gives_bind fun _ _ => gives_ok h
  | store n v => exact gives_bind fun _ _ => gives_ok h.under.storeNum
  | storePair lo hi => exact gives_bind fun _ _ => gives_ok h.under.storeNum
  | storeWide v => exact gives_bind fun _ _ => gives_ok h.under.storeNum
  | sub b i v => exact gives_bind fun _ _ => gives_ok h.under.storeNum
  | atom op n v => exact gives_bind fun _ _ => gives_ok h.under.storeNum
  | cas n old new => exact gives_bind fun _ _ => gives_ok (h.under.storeNum.ite h)
  | take n consume => exact gives_bind fun _ _ => gives_ok (h.setFull.ite h)
  | storeFull n v => exact gives_bind fun _ _ => gives_ok h.storeNum.fill
  | setFull => exact gives_bind fun _ _ => gives_ok h.setFull
  | setEmpty => exact gives_bind fun _ _ => gives_ok h.setFull
  | testFull => exact gives_bind fun _ _ => gives_ok h

theorem deliver (h : s.Canonical) {u x r} : (s.deliver u x r).Canonical := h.learnFrom.modSlot.ite h.learnFrom.post

theorem serveList (h : s.Canonical) {u xs} : (serveList u xs s).Canonical := by
  induction xs generalizing s with
  | nil => exact h
  | cons x xs ih =>
    unfold Machine.serveList
    split
    · exact ih h.deliver
    · split
      · split
        · rename_i e
          have hp := h.performAt _ e
          exact ih (hp.learn.ite hp).deliver
        · exact ih h.deliver
      · exact ih h.modCore

theorem serve (h : s.Canonical) {u} : (s.serve u).Canonical := by
  unfold State.serve
  extract_lets ws
  clear_value ws
  split
  · exact h
  · exact h.modCore.serveList

theorem performFor (h : s.Canonical) {ctx dep p op} : Gives With (performFor s ctx dep p op) :=
  gives_bind fun ⟨_, u⟩ e =>
    have hu : State.Canonical u := h.performAt _ e
    gives_ok ((hu.learn.ite hu).serve.ite (hu.learn.ite hu))

theorem pushGranule (h : s.Canonical) {ctx dep p bs stamp} :
    Gives State.Canonical (pushGranule s ctx dep p bs stamp) := by
  refine gives_bind fun a _ => ?_
  dsimp only
  split
  · exact gives_error
  · refine gives_ok (serve (learn ?_))
    split
    · exact h.store.fill.setTag
    · exact h.store.fill

/-! The way to the home (R187 to R190, R220) -/

theorem landLong (h : s.Canonical) {regs} : (landLong regs s).Canonical := (sameMaps_landLong regs s).canonical h
theorem takeBack (h : s.Canonical) {z} : (takeBack z s).Canonical := h
theorem sendLong (h : s.Canonical) {x z} : (sendLong x z s).Canonical := h
theorem linger (h : s.Canonical) : s.linger.Canonical := h
theorem hear (h : s.Canonical) : s.hear.Canonical := h

theorem putLong (h : s.Canonical) {v} : (s.putLong v).Canonical := h.landLong

theorem sendMigrant (h : s.Canonical) {u k d} : (s.sendMigrant u k d).Canonical :=
  h.modCore.count.count.modCore.postPlain.setSlot.modCore

theorem sendWrite (h : s.Canonical) {home a loft b} : (s.sendWrite home a loft b).Canonical := h.postWrite.modSt

theorem refuse (h : s.Canonical) {id u w home a c} : (s.refuse id u w home a c).Canonical := h.report.modSlot

end State.Canonical

theorem keeps_dstLong (h : s.Canonical) {o v} : Keeps State.Canonical (dstLong o v s) := Keeps.ite h.landLong trivial

theorem keeps_loadDst (h : s.Canonical) {n long v} : Keeps State.Canonical (loadDst n long v s) :=
  (keeps_dstLong h).ite (keeps_dst h)

theorem keeps_loadPair (h : s.Canonical) {long v} : Keeps State.Canonical (loadPair long v s) := by
  unfold loadPair
  split
  · exact State.Canonical.ite h.landLong h.fly.fly
  · exact h

theorem keeps_served {g : Word → State → Run} {f : State → Run}
    (hg : ∀ v, Keeps State.Canonical (g v s)) (hf : Keeps State.Canonical (f s)) : Keeps State.Canonical (served s g f) := by
  unfold served
  split
  · trivial
  · exact hg 0
  · exact hg _
  · trivial
  · exact Keeps.ite trivial hf

theorem bare_refusedNow (h : s.Canonical) {mine} : Bare (refusedNow s mine) := by
  unfold refusedNow
  split
  · trivial
  · exact h.modSt

theorem bare_fenceWaits (h : s.Canonical) {sc all} : Bare (fenceWaits s sc all) := (bare_refusedNow h).ite trivial

theorem bare_releaseWait (h : s.Canonical) {sc} : Bare (releaseWait s sc) := (bare_refusedNow h).ite trivial

theorem keeps_ea (h : s.Canonical) : Keeps With (ea s) := (keeps_src h).bind fun _ h => h

theorem bare_decodeTests {p a} : Bare (decodeTests p a) := by
  unfold decodeTests
  split
  · trivial
  · exact Keeps.ite trivial trivial
  · exact bare_test trivial

theorem bare_locateForm {a f} : Bare (locateForm s a f) := by
  refine keeps_check trivial fun _ => keeps_guard trivial fun _ => ?_
  split
  · trivial
  · exact keeps_choose bare_decodeTests trivial fun _ _ => keeps_guard trivial fun _ => trivial

theorem keeps_migrate (h : s.Canonical) {home} : Keeps State.Canonical (migrate s home) :=
  bare_failIf.bind fun _ _ => bare_failIf.bind fun _ _ => bare_failIf.bind fun _ _ => Keeps.ite h.sendMigrant trivial

theorem keeps_sendRequest (h : s.Canonical) {f p a} : Keeps State.Canonical (sendRequest f p a s) :=
  Keeps.ite trivial (State.Canonical.ite h.postWrite h.postPlain).modCore.modMe

/-- A result put where the form puts it keeps the maps. -/
def PutKeeps (put : Bool → Nat → State → Run) : Prop :=
  ∀ long v (s : State), s.Canonical → Keeps State.Canonical (put long v s)

theorem keeps_accessNow (h : s.Canonical) {f p a} {put : Bool → Nat → State → Run} (hp : PutKeeps put) :
    Keeps State.Canonical (accessNow f p a put s) := by
  unfold accessNow
  split
  · trivial
  · split
    · rename_i e
      have hu := h.performFor _ e
      exact hp _ _ _ (hu.hear.ite hu)
    · exact Keeps.ite (State.Canonical.refuse (s := { s with nextId := s.nextId + 1 }) h) trivial

theorem keeps_accessSend (h : s.Canonical) {f p a} : Keeps State.Canonical (accessSend f p a s) := by
  refine keeps_guard trivial fun _ => ?_
  refine Keeps.ite (Keeps.ite trivial h.sendWrite) ?_
  split
  · exact Keeps.ite trivial h.sendWrite
  · trivial

theorem keeps_accessLong (h : s.Canonical) {f p a z} : Keeps State.Canonical (accessLong f p a z s) :=
  Keeps.ite trivial h.sendLong

theorem ends_memory (h : s.Canonical) {more build put} (hb : ∀ u : State, u.Canonical → Keeps With (build u))
    (hp : PutKeeps put) : Ends (memory s more build put) := by
  refine ends_perform h ?_
  have done : ∀ {r : Run}, Keeps State.Canonical r → Keeps State.Canonical (do let t ← r; return t.advance.finish) :=
    fun hr => hr.bind fun _ ht => ht.advance.finish
  refine keeps_check trivial fun _ => bare_whole.bind fun _ _ => (keeps_ea h).bind fun ⟨a, t⟩ ht =>
    (hb t ht).bind fun ⟨f, u⟩ hu => bare_locateForm.bind fun p _ =>
      keeps_choose (bare_releaseWait h) trivial fun _ _ => Keeps.ite ?_ ?_
  · exact done ((keeps_accessNow hu hp).ite (keeps_accessSend hu))
  · split
    · exact done ((keeps_accessLong hu).ite (keeps_accessNow hu hp))
    · exact (done (keeps_accessSend hu)).ite (Keeps.ite ((keeps_accessNow hu hp).bind fun _ ht => ht.takeBack.advance.finish)
        (done (keeps_accessLong hu)))
    · exact keeps_migrate h
    · exact Keeps.ite (keeps_guard trivial fun _ => done (keeps_sendRequest hu)) (done (keeps_accessSend hu))
/-! The forms of classes 4 to 6 -/

theorem keeps_form (h : s.Canonical) {f} : Keeps With (form f s) := h

theorem keeps_formD (h : s.Canonical) {f} : Keeps With (formD f s) := (keeps_src h).bind fun _ h => h

theorem putKeeps_loadDst {n : Nat} : PutKeeps (loadDst n) := fun _ _ _ h => keeps_loadDst h

theorem putKeeps_loadPair : PutKeeps loadPair := fun _ _ _ h => keeps_loadPair h

theorem putKeeps_noResult : PutKeeps noResult := fun _ _ _ h => h

/-- A load leaves the maps canonical. -/
theorem ends_load (h : s.Canonical) {f n} : Ends (memory s [] (form f) (loadDst n)) :=
  ends_memory h (fun _ h => keeps_form h) putKeeps_loadDst

/-- A store of D leaves the maps canonical. -/
theorem ends_store (h : s.Canonical) {more f} : Ends (memory s more (formD f) noResult) :=
  ends_memory h (fun _ h => keeps_formD h) putKeeps_noResult

/-- A full/empty form that has no result leaves the maps canonical. -/
theorem ends_mark (h : s.Canonical) {f} : Ends (memory s [] (form f) noResult) :=
  ends_memory h (fun _ h => keeps_form h) putKeeps_noResult

theorem ends_atomic (h : s.Canonical) {op n od} : Ends (atomic s op n od) :=
  ends_memory h (fun _ h => keeps_formD h) putKeeps_loadDst

theorem ends_execLdp128 (h : s.Canonical) : Ends (execLdp128 s) := ends_memory h (fun _ h => keeps_form h) putKeeps_loadPair

theorem ends_execStp128 (h : s.Canonical) : Ends (execStp128 s) := ends_memory h (fun _ h => h) putKeeps_noResult

theorem ends_execAcas (h : s.Canonical) {w od} : Ends (execAcas w od s) := ends_memory h (fun _ h => h) putKeeps_loadDst

theorem ends_execFenceAcq (h : s.Canonical) : Ends (execFenceAcq s) := ends_performSeq h h.modMe

theorem ends_fenceWait (h : s.Canonical) : Ends (fenceWait s) := ends_performSeq h <| (bare_fenceWaits h).bind fun _ _ => h

theorem ends_execFenceTotal (h : s.Canonical) : Ends (execFenceTotal s) :=
  ends_performSeq h <| (bare_fenceWaits h).bind fun _ _ => Keeps.ite h.landLong trivial

/-! Arrivals -/

theorem State.Canonical.answered (h : s.Canonical) {u} : (s.answered u).Canonical := h

theorem State.Canonical.arrive (h : s.Canonical) {m r} : (arrive s m r).Canonical := by
  unfold Machine.arrive
  extract_lets res
  have hr : Gives With res := by
    unfold res
    split
    · exact gives_error
    · exact h.performFor
  clear_value res
  split
  · have hu := hr _ rfl
    exact hu.learnFrom.post.ite hu.learnFrom.post
  · exact h.learnFrom.post.ite h.learnFrom.report.post

theorem State.Canonical.handleRequest (h : s.Canonical) {i m r} : (handleRequest s i m r).Canonical :=
  (h.unpost.answered.ite h.unpost).ite ((h.unpost.modCore.ite h).ite h.unpost.arrive)

theorem ends_execStayRequestAtHome (h : s.Canonical) : Ends (execStayRequestAtHome s) := by
  unfold execStayRequestAtHome
  repeat' split
  · exact ends_next h.handleRequest
  all_goals exact ends_next h

theorem ends_execSubbyteStoreAtHome (h : s.Canonical) : Ends (execSubbyteStoreAtHome s) := by
  unfold execSubbyteStoreAtHome
  repeat' split
  · exact ends_next h.handleRequest
  all_goals exact ends_next h

theorem ends_execWriteAcknowledgement (h : s.Canonical) : Ends (execWriteAcknowledgement s) := by
  unfold execWriteAcknowledgement
  repeat' split
  all_goals exact ends_next h

theorem State.Canonical.orphan (h : s.Canonical) {u w id v} : (orphan s u w id v).Canonical :=
  h.ite (h.modCore.count.report.ite h.modCore.count)

theorem State.Canonical.replied (h : s.Canonical) {i m} : (s.replied i m).Canonical := h.unpost.answered.ite h.unpost

theorem ends_execReplyArrival (h : s.Canonical) : Ends (execReplyArrival s) := by
  unfold execReplyArrival
  split
  · split
    · split
      · extract_lets c
        split
        · split
          · exact ends_next h.replied.modCore
          · exact ends_next h
        · split
          · exact ends_next h.replied.modCore.post
          · exact ends_next h.replied.orphan
      · exact ends_next h
    · exact ends_next h
  · exact ends_next h

theorem ends_execForwardingEntryLapse (h : s.Canonical) : Ends (execForwardingEntryLapse s) := by
  unfold execForwardingEntryLapse
  repeat' split
  all_goals exact ends_next h

theorem State.Canonical.dropMigrant (h : s.Canonical) {u st} : (s.dropMigrant u st).Canonical := h.freeNumber.closeSessions

theorem ends_execMigrantArrival (h : s.Canonical) : Ends (execMigrantArrival s) := by
  unfold execMigrantArrival
  split
  · split
    · split
      · split
        · exact ends_next h.unpost.dropMigrant
        · split
          · exact ends_next h.unpost.learnFrom.modCore
          · exact ends_next h
      · split
        · exact ends_next h.unpost
        · split
          · exact ends_next h.unpost.learnFrom.modCore
          · exact ends_next h
      · exact ends_next h
    · exact ends_next h
  · exact ends_next h

/-! Declared buffers -/

theorem bare_bufferPlace {a} : Bare (bufferPlace s a) := by
  unfold bufferPlace
  split
  · trivial
  · split <;> trivial

theorem ends_bufferForm (h : s.Canonical) {writes act}
    (ha : ∀ a u off (t : State), t.Canonical → Keeps State.Canonical (act a u off t)) : Ends (bufferForm s writes act) :=
  ends_performSeq h <| keeps_check trivial fun _ => (keeps_src h).bind fun ⟨_, _⟩ ht => bare_bufferPlace.bind fun _ _ =>
    keeps_guard trivial fun _ => keeps_guard trivial fun _ => ha _ _ _ _ ht

theorem ends_execBdecl (h : s.Canonical) : Ends (execBdecl s) := by
  refine ends_performSeq h <| keeps_check trivial fun _ => (keeps_srcAB h).bind fun ⟨_, _, _⟩ ht => bare_bufferPlace.bind fun _ _ =>
    keeps_guard trivial fun _ => keeps_guard trivial fun _ => ?_
  split
  · trivial
  · exact keeps_dstLong ht.setCore

theorem ends_execBstat (h : s.Canonical) : Ends (execBstat s) :=
  ends_bufferForm h fun _ _ _ _ ht => keeps_dstLong ht.stepRead

theorem ends_bufferEvent (h : s.Canonical) {writes wait f} : Ends (bufferEvent s writes wait f) := by
  refine ends_bufferForm h fun _ _ _ _ ht => ?_
  extract_lets c
  split
  · trivial
  · split
    · trivial
    · exact Keeps.ite trivial ((ht.setCore.stepWrite.ite ht.setCore).serve.landLong)

/-! Pushes and the transfers of loft cores -/

theorem bare_readRun {u off a n} : Bare (readRun s u off a n) := by
  unfold readRun
  split <;> trivial

theorem bare_localSide {d} : Bare (localSide s d) := Keeps.ite trivial (Keeps.ite trivial trivial)

theorem bare_farSide {a k} : Bare (farSide s a k) := by
  refine Keeps.ite trivial (Keeps.ite (Keeps.ite trivial trivial) ?_)
  split <;> trivial

theorem ends_execHrd (h : s.Canonical) : Ends (execHrd s) :=
  ends_perform h <| keeps_check trivial fun _ => bare_whole.bind fun _ _ => (keeps_ea h).bind fun ⟨_, _⟩ ht =>
    bare_farSide.bind fun _ _ => Keeps.ite (keeps_migrate h) <| keeps_guard trivial fun _ => (keeps_src ht).bind fun ⟨_, _⟩ hu =>
      bare_localSide.bind fun _ _ => Keeps.ite trivial hu.sendLong.advance.finish

theorem ends_execHwr (h : s.Canonical) : Ends (execHwr s) :=
  ends_perform h <| keeps_check trivial fun _ => bare_whole.bind fun _ _ => (keeps_ea h).bind fun ⟨_, _⟩ ht =>
    bare_farSide.bind fun _ _ => Keeps.ite (keeps_migrate h) <| keeps_guard trivial fun _ => (keeps_src ht).bind fun ⟨_, _⟩ hu =>
      bare_localSide.bind fun _ _ => Keeps.ite trivial <| bare_readRun.bind fun _ _ => hu.hear.sendWrite.advance.finish

theorem bare_pushSource {a n} : Bare (pushSource s a n) := by
  unfold pushSource
  repeat' split
  all_goals trivial

theorem bare_pushDest {a n} : Bare (pushDest s a n) := by
  unfold pushDest
  repeat' split
  all_goals trivial

theorem bare_pushRead {a n r} : Bare (pushRead s a n r) := by
  unfold pushRead
  repeat' split
  all_goals trivial

theorem bare_map {α β : Type} {r : Except Stop α} {f : α → β} (h : Bare r) : Bare (r.map f) := by
  cases r with
  | ok a => trivial
  | error e => exact h

theorem bare_pushRows {n pattern rows} : Bare (pushRows n pattern rows s) := by
  induction rows generalizing s with
  | nil => trivial
  | cons r rows ih =>
    unfold pushRows
    dsimp only
    split
    · refine (bare_map bare_pushSource).bind fun p _ => bare_pushDest.bind fun v _ => ?_
      split
      · exact bare_pushRead.bind fun _ _ => ih.bind fun _ _ => trivial
      · exact ih.bind fun _ _ => trivial
      · exact ih.bind fun _ _ => trivial
    · exact bare_pushDest.bind fun v _ => ih.bind fun _ _ => trivial

theorem State.Canonical.sendRows (h : s.Canonical) {ps} : (sendRows s ps).Canonical := by
  induction ps generalizing s with
  | nil => exact h
  | cons p ps ih => exact ih h.sendWrite

theorem keeps_pushAll (h : s.Canonical) {rows n pattern} : Keeps State.Canonical (pushAll s rows n pattern) :=
  Keeps.ite trivial <| bare_pushRows.bind fun _ _ => Keeps.ite trivial <|
    ((h.hear.ite h).sendRows.linger.ite (h.hear.ite h).sendRows)

theorem ends_execPush (h : s.Canonical) : Ends (execPush s) :=
  ends_performSeq h <| keeps_check trivial fun _ => (keeps_srcDAB h).bind fun ⟨_, _, _, _⟩ ht => bare_failIf.bind fun _ _ =>
    keeps_check trivial fun _ => keeps_check trivial fun _ => keeps_pushAll ht

theorem ends_execPush2d (h : s.Canonical) : Ends (execPush2d s) :=
  ends_performSeq h <| keeps_check trivial fun _ => (keeps_srcDAB h).bind fun ⟨_, _, _, _⟩ ht => bare_failIf.bind fun _ _ =>
    keeps_check trivial fun _ => keeps_check trivial fun _ => keeps_pushAll ht

theorem ends_execPushFill (h : s.Canonical) : Ends (execPushFill s) :=
  ends_performSeq h <| keeps_check trivial fun _ => (keeps_srcDAB h).bind fun ⟨_, _, _, _⟩ ht => bare_failIf.bind fun _ _ =>
    keeps_check trivial fun _ => keeps_pushAll ht

theorem ends_execHpf (h : s.Canonical) : Ends (execHpf s) := ends_performSeq h <| (keeps_src h).bind fun _ h => h

theorem ends_execKeysel (h : s.Canonical) : Ends (execKeysel s) :=
  ends_performSeq h <| (keeps_src h).bind fun ⟨_, _⟩ ht => bare_failIf.bind fun _ _ => keeps_dst ht.modMe

theorem ends_execHfence (h : s.Canonical) : Ends (execHfence s) :=
  ends_performSeq h <| keeps_check trivial fun _ => Keeps.ite trivial (keeps_dstLong h.modSt)

theorem State.Canonical.writeGranule (h : s.Canonical) {i m a bs stamp first} :
    (writeGranule s i m a bs stamp first).Canonical := by
  unfold Machine.writeGranule
  extract_lets ackTo refuse
  split
  · exact h.report.unpost.post
  · extract_lets p
    split
    · exact h.report.unpost.post
    · rename_i e
      have ht := h.pushGranule _ e
      split
      · exact ht.unpost.post
      · exact ht

theorem ends_execPushGranuleWrite (h : s.Canonical) : Ends (execPushGranuleWrite s) := by
  unfold execPushGranuleWrite
  repeat' split
  · exact ends_next h.writeGranule
  all_goals exact ends_next h

end

end Sys2Proof.Machine
end

section
/-! Tasks, engine commands and state registers (R129 to R156, R174, R246 to R297) -/

namespace Sys2Proof.Machine

section
variable {s : State}

namespace State.Canonical

theorem startTask (h : s.Canonical) {u k q} : (s.startTask u k q).Canonical := by
  unfold State.startTask
  extract_lets q' c
  split
  · exact h.setCore
  · exact h
  · exact h.setCore

theorem seatMigrant (h : s.Canonical) {u k st q7} : (s.seatMigrant u k st q7).Canonical := h.modCore

theorem endStrand (h : s.Canonical) {u k} : (s.endStrand u k).Canonical := h.vacate.modCore

theorem sendWeight (h : s.Canonical) {u k w} : (s.sendWeight u k w).Canonical := h.postPlain

theorem releaseAll (h : s.Canonical) {u k es} : (releaseAll u k es s).Canonical := by
  induction es generalizing s with
  | nil => exact h
  | cons e es ih =>
    unfold Machine.releaseAll
    extract_lets q
    split
    · exact ih h.modCore
    · exact ih h.setCore.postPlain

theorem dropTask (h : s.Canonical) {u k} : (s.dropTask u k).Canonical := h.sendWeight.turn.endStrand

theorem discardEntries (h : s.Canonical) {u k} : (s.discardEntries u k).Canonical := h.setCore.count

theorem setHandler (h : s.Canonical) {ctx i e} : (s.setHandler ctx i e).Canonical := h.setContext

theorem missing (h : s.Canonical) {u w q} : (missing s u w q).Canonical := h.report

theorem dispatchList (h : s.Canonical) {u ctx i l} : (dispatchList u ctx i l s).Canonical := by
  induction l generalizing s with
  | nil => exact h
  | cons p ps ih =>
    cases p with
    | send q j =>
      unfold Machine.dispatchList
      extract_lets keep w e
      split
      · split
        · exact ih h.queueTask
        · exact ih h.missing.modCore
      · exact ih h.modCore
    | _ => exact ih h.modCore

theorem dispatchParked (h : s.Canonical) {ctx i} : (dispatchParked s ctx i).Canonical := by
  refine h.foldl (fun t p ht => ?_) _
  split
  · exact ht
  · exact ht.modCore.dispatchList

theorem lapseLock (h : s.Canonical) {ctx i} : (s.lapseLock ctx i).Canonical := by
  unfold State.lapseLock
  split
  · exact h.setHandler.dispatchParked
  · exact h

/-! What a command does in its core -/

theorem setCmd (h : s.Canonical) {x} : (s.setCmd x).Canonical := h.modCore

theorem putGrain (h : s.Canonical) {g bs} : (putGrain g bs s).Canonical := by
  refine h.foldl (fun t i ht => ?_) _
  split
  · exact ht.store
  · exact ht

theorem putGrains (h : s.Canonical) {gs bs} : (putGrains gs bs s).Canonical := by
  induction gs generalizing s bs with
  | nil => exact h
  | cons g gs ih => exact ih h.putGrain

theorem deferFault (h : s.Canonical) {x c a} : (deferFault s x c a).Canonical := h.modSlot.ite h

theorem appendEntry (h : s.Canonical) {x q v} : (appendEntry s x q v).Canonical := h.modCore.ite h

theorem retireCmd (h : s.Canonical) {x} : (retireCmd s x).Canonical := by
  unfold Machine.retireCmd
  extract_lets s1 s2
  have h2 : s2.Canonical := h.modCore.modSlot.ite h.modCore
  split
  · exact h2.count
  · exact h2.count
  · exact h2.count
  · exact h2

theorem failCmd (h : s.Canonical) {x e} : (failCmd s x e).Canonical := h.deferFault.retireCmd

/-- What a command does with a state keeps the maps. -/
def Continues (k : State → Cmd → State) : Prop := ∀ (s : State) x, s.Canonical → (k s x).Canonical

theorem continues_retire : Continues Machine.retireCmd := fun _ _ h => h.retireCmd

theorem continues_setCmd : Continues State.setCmd := fun _ _ h => h.setCmd

theorem reading (h : s.Canonical) {x l k} (hk : Continues k) : (reading s x l k).Canonical := by
  unfold Machine.reading
  split
  · exact hk _ _ h
  · split
    · exact h.failCmd
    · exact (hk _ _ h).ite h.setCmd

theorem writing (h : s.Canonical) {x k} (hk : Continues k) : (writing s x k).Canonical := by
  unfold Machine.writing
  split
  · exact hk _ _ h
  · exact h.failCmd.ite ((hk _ _ h.putGrains.learn).ite h.putGrains.learn.setCmd)

end State.Canonical

open State.Canonical (Continues continues_retire continues_setCmd)

/-! Reading a record, and the end of a task -/

theorem keeps_readBlock (h : s.Canonical) {a} : Keeps With (readBlock s a) := by
  unfold readBlock
  refine Keeps.ite trivial ?_
  split
  · trivial
  · refine Keeps.ite trivial (Keeps.ite trivial ?_)
    split
    · trivial
    · exact h.stepRead

theorem keeps_readRec (h : s.Canonical) {a} : Keeps With (readRec s a) := (keeps_readBlock h).bind fun ⟨_, _⟩ ht => ht

theorem keeps_endWait {z : State} (hz : z.Canonical) (h : s.Canonical) : Keeps State.Canonical (endWait z s) := by
  unfold endWait
  extract_lets off s'
  exact Keeps.ite h.modCore hz.modCore

theorem keeps_release (h : s.Canonical) : Keeps State.Canonical (release s) := by
  unfold release
  extract_lets st u s1 s2
  split
  · exact h.modSt
  · have h1 : s1.Canonical := h.discardEntries
    exact Keeps.ite h1.releaseAll.sendWeight.turn.endStrand h1

/-! Commands at issue -/

theorem keeps_accept (h : s.Canonical) {x} : Keeps State.Canonical (accept x s) := Keeps.ite trivial h.modCore.modSt

/-- The tests and acceptance of a command keep the maps. -/
def CmdKeeps (body : Option (Fin 8 × Bool) → State → Run) : Prop :=
  ∀ bound (s : State), s.Canonical → Keeps State.Canonical (body bound s)

theorem CmdKeeps.ends {body} (hb : CmdKeeps body) (h : s.Canonical) :
    Ends (performCmd s body) := by
  have go : ∀ bound, Ends (settleRun s <| do
      let _ ← failIf (engOwn s) .engOwn
      let t ← body bound s
      return t.advance.finish) :=
    fun bound => ends_settleRun h <| bare_failIf.bind fun _ _ => (hb bound s h).bind fun _ ht => ht.advance.finish
  unfold performCmd
  split
  · extract_lets
    split
    · exact go _
    · exact ends_next h.advance.finish
    · exact go _
  · exact ends_fault

theorem bare_scalar (h : s.Canonical) {o} : Bare (scalar o s) := by
  unfold scalar
  split
  · trivial
  · exact (keeps_src h).bind fun ⟨_, _⟩ _ => trivial

section
variable {α β : Type}

theorem bare_forM {f : α → Except Stop Unit} (hf : ∀ a, Bare (f a)) : ∀ l : List α, Bare (l.forM f)
  | [] => trivial
  | a :: l => (hf a).bind fun _ _ => bare_forM hf l

theorem bare_mapM {f : α → Except Stop β} (hf : ∀ a, Bare (f a)) (l : List α) : Bare (l.mapM f) := by
  induction l with
  | nil => trivial
  | cons a l ih =>
    rw [List.mapM_cons]
    exact (hf a).bind fun _ _ => ih.bind fun _ _ => trivial

end

theorem bare_homeTests {l} : Bare (homeTests s l) := by
  refine bare_forM (fun c => ?_) _
  split <;> trivial

theorem bare_engineAddr {a} : Bare (engineAddr s a) := by
  unfold engineAddr
  split <;> trivial

theorem bare_grainsAt {l} : Bare (grainsAt s l) := by
  refine bare_homeTests.bind fun _ _ => bare_mapM (fun _ => ?_) l
  exact bare_engineAddr.bind fun ⟨_, _⟩ _ => trivial

theorem bare_grainsOf {a n} : Bare (grainsOf s a n) := bare_grainsAt

theorem bare_grainRows {n rows} : Bare (grainRows s n rows) := bare_grainsAt

theorem bare_bufTests {l} : Bare (bufTests s l) := by
  induction l with
  | nil => trivial
  | cons g gs ih => exact Keeps.ite trivial ih

/-! State registers -/

theorem ends_writeSr (h : s.Canonical) {f} (hf : ∀ v t, State.Canonical t → Keeps State.Canonical (f v t)) :
    Ends (writeSr s f) :=
  ends_performSeq h <| (keeps_movSrc h).bind fun ⟨_, _⟩ ht => hf _ _ ht

theorem ends_execKeyWrite (h : s.Canonical) : Ends (execKeyWrite s) := ends_writeSr h fun _ _ h => h.modSt

theorem ends_execBudWrite (h : s.Canonical) : Ends (execBudWrite s) := ends_writeSr h fun _ _ h => h.modSt

theorem ends_execBrmodeWrite (h : s.Canonical) : Ends (execBrmodeWrite s) :=
  ends_perform h <| (keeps_movSrc h).bind fun ⟨_, _⟩ ht => ht.modSt.advance.finish.refetch

theorem ends_execVshapeWrite (h : s.Canonical) : Ends (execVshapeWrite s) := ends_writeSr h fun _ _ h => Keeps.ite trivial h.modMe

theorem ends_execMxcfgWrite (h : s.Canonical) : Ends (execMxcfgWrite s) := ends_writeSr h fun _ _ h => Keeps.ite trivial h.modMe

theorem ends_execRegisterWrite (h : s.Canonical) : Ends (execRegisterWrite s) := by
  refine ends_writeSr h fun _ _ h => Keeps.ite ?_ trivial
  split
  · exact Keeps.ite (Keeps.ite trivial h.modMe) (Keeps.ite h.modMe (Keeps.ite h.modMe trivial))
  · trivial

/-! The vector engine -/

theorem cmdKeeps_vectorCmd {row test} (ht : ∀ v s, Bare (test s v)) : CmdKeeps (vectorCmd row test) :=
  fun _ _ h => (bare_scalar h).bind fun _ _ => (bare_scalar h).bind fun _ _ => (ht _ _).bind fun _ _ => keeps_accept h

theorem bare_noTest (v s) : Bare (noTest s v) := trivial

theorem bare_typeTest (op) (v s) : Bare (typeTest op s v) := bare_failIf

theorem bare_intTest (v s) : Bare (intTest s v) := bare_failIf

theorem cmdKeeps_cmdVcvt : CmdKeeps cmdVcvt := by
  refine cmdKeeps_vectorCmd fun _ _ => ?_
  split
  · trivial
  · exact bare_failIf

theorem cmdKeeps_vectorMem {row grains} (hg : ∀ a p s, Bare (grains a p s)) : CmdKeeps (vectorMem row grains) :=
  fun _ _ h => (bare_scalar h).bind fun _ _ => (bare_scalar h).bind fun _ _ => (hg _ _ _).bind fun _ _ =>
    bare_bufTests.bind fun _ _ => keeps_accept h

theorem bare_tileGrains (a p s) : Bare (tileGrains a p s) := keeps_check trivial fun _ => bare_grainRows

theorem bare_maskGrains (a p s) : Bare (maskGrains a p s) := keeps_check trivial fun _ => bare_grainsOf

theorem bare_decodedRow {a cols base pitch} : Bare (decodedRow s a cols base pitch) := by
  refine bare_engineAddr.bind fun ⟨u, off⟩ _ => ?_
  dsimp only
  split
  · trivial
  · split
    · trivial
    · exact Keeps.ite trivial trivial
  · exact keeps_check trivial fun _ => trivial

theorem bare_decodedRows {a pitch} : Bare (decodedRows s a pitch) := by
  refine bare_homeTests.bind fun _ _ => (bare_mapM (fun _ => bare_decodedRow) _).bind fun _ _ => bare_homeTests.bind fun _ _ =>
    bare_mapM (fun _ => ?_) _
  exact bare_grainsAt.bind fun _ _ => trivial

theorem cmdKeeps_cmdVldd : CmdKeeps cmdVldd :=
  fun _ _ h => (bare_scalar h).bind fun _ _ => (bare_scalar h).bind fun _ _ => bare_failIf.bind fun _ _ =>
    bare_decodedRows.bind fun _ _ => bare_bufTests.bind fun _ _ => keeps_accept h

theorem ends_maskQuery (h : s.Canonical) {f} : Ends (maskQuery s f) :=
  ends_performSeq h <| Keeps.ite h.modMe (keeps_dstLong h)

/-- What a state comes to, where it comes to one, is canonical. -/
def Yields (r : Option State) : Prop := ∀ t, r = some t → t.Canonical

theorem yields_some {t : State} (h : t.Canonical) : Yields (some t) := fun _ e => by cases e; exact h

theorem yields_none : Yields none := fun _ e => by cases e

theorem Yields.ite {r q : Option State} (h : Yields r) (k : Yields q) {c : Prop} [Decidable c] : Yields (if c then r else q) := by
  split <;> assumption

theorem State.Canonical.loading (h : s.Canonical) {x} : (loading s x).Canonical :=
  h.reading fun _ _ h => h.setCore.retireCmd

theorem State.Canonical.storing (h : s.Canonical) {x bs} : (storing s x bs).Canonical := h.writing continues_retire

theorem yields_vectorEffect (h : s.Canonical) {x} : Yields (vectorEffect s x) := by
  unfold vectorEffect
  extract_lets c z
  clear_value c z
  split
  · exact yields_some h.loading
  · exact yields_some h.storing
  · exact yields_some h.loading
  · exact yields_some h.loading
  · exact yields_some h.storing
  · split
    · exact (yields_some h.retireCmd).ite ((yields_some h.appendEntry.retireCmd).ite yields_none)
    · exact yields_some h.retireCmd
  · split
    · refine (yields_some h.retireCmd).ite ?_
      split
      · exact yields_some h.setCore.retireCmd
      · exact yields_some h.setCore.failCmd
      · exact yields_none
    · exact yields_some h.retireCmd
  · exact yields_some h.setCore.retireCmd

end

end Sys2Proof.Machine
end

section
/-! The matrix engine, the copy engine and the Carder (R269 to R297) -/

namespace Sys2Proof.Machine

section
variable {s : State}

open State.Canonical (Continues continues_retire continues_setCmd)

/-! The matrix engine -/

theorem bare_tagTest {f t a} : Bare (tagTest f t a) := by
  unfold tagTest
  split <;> trivial

theorem bare_slotRow {t a u off} : Bare (slotRow t a u off) := by
  unfold slotRow
  split
  · trivial
  · exact Keeps.ite trivial trivial

theorem bare_rowTests {f p} : Bare (rowTests s f p) := by
  refine bare_choose trivial bare_ok fun _ => bare_choose bare_ok (bare_forM (fun i => ?_) _) fun _ => bare_homeTests
  exact Keeps.ite trivial trivial

theorem bare_operandRows {f p} : Bare (operandRows s f p) := by
  refine (bare_mapM (fun i => ?_) _).bind fun _ _ => trivial
  exact bare_engineAddr.bind fun ⟨_, _⟩ _ => bare_tagTest.bind fun _ _ =>
    bare_choose bare_slotRow bare_grainsOf fun _ => trivial

theorem cmdKeeps_mma {row f} : CmdKeeps (mma row f) :=
  fun _ _ h => bare_failIf.bind fun _ _ => bare_choose bare_rowTests bare_ok fun _ =>
    bare_choose bare_rowTests bare_ok fun _ => bare_choose bare_operandRows bare_ok fun _ =>
      bare_choose bare_operandRows bare_ok fun _ => bare_bufTests.bind fun _ _ => keeps_accept h

theorem cmdKeeps_cmdMzero : CmdKeeps cmdMzero := fun _ _ h => keeps_accept h

theorem bare_tileRows {a pitch} : Bare (tileRows s a pitch) := keeps_check trivial fun _ => bare_grainRows

theorem cmdKeeps_tileCmd {row e} : CmdKeeps (tileCmd row e) :=
  fun _ _ h => (bare_scalar h).bind fun _ _ => (bare_scalar h).bind fun _ _ => bare_tileRows.bind fun _ _ =>
    bare_bufTests.bind fun _ _ => keeps_accept h

theorem cmdKeeps_cmdAcmv : CmdKeeps cmdAcmv :=
  fun _ _ h => (bare_scalar h).bind fun _ _ => bare_failIf.bind fun _ _ => keeps_accept h

theorem cmdKeeps_cmdRstat : CmdKeeps cmdRstat :=
  fun _ _ h => (bare_scalar h).bind fun _ _ => bare_failIf.bind fun _ _ => keeps_accept h

theorem State.Canonical.startArray (h : s.Canonical) {x} : (startArray s x).Canonical := h.setCmd.modCore

theorem yields_arrayWrite (h : s.Canonical) {x} : Yields (arrayWrite s x) := by
  unfold arrayWrite
  extract_lets n s1
  have h1 : s1.Canonical := h.modCore.setCmd.ite h
  clear_value s1
  exact (yields_some h1).ite
    (((yields_some h1.appendEntry.retireCmd).ite ((yields_some h1).ite yields_none)).ite (yields_some h1.retireCmd))

theorem yields_arrayStep (h : s.Canonical) {x} : Yields (arrayStep s x) := by
  unfold arrayStep
  extract_lets l full
  clear_value full
  refine (yields_arrayWrite h).ite ?_
  split
  · exact yields_arrayWrite h
  · split
    · exact yields_some h.deferFault.setCmd.modCore
    · exact yields_some h.setCmd

theorem State.Canonical.rowNext (h : s.Canonical) {x} : (rowNext s x).Canonical := by
  unfold Machine.rowNext
  extract_lets done r
  split
  · exact h.writing fun _ _ h => h.setCmd
  · exact h.setCore.setCmd

theorem yields_rowStep (h : s.Canonical) {x} : Yields (rowStep s x) :=
  ((yields_some h.rowNext).ite yields_none).ite
    (((yields_some h.appendEntry.retireCmd).ite yields_none).ite (yields_some h.retireCmd))

/-! The copy engine -/

theorem bare_shadowOf {a l} : Bare (shadowOf s a l) := by
  unfold shadowOf
  split
  · trivial
  · split
    · trivial
    · extract_lets d
      split <;> trivial

theorem keeps_registerCopy (h : s.Canonical) {x a buf} : Keeps State.Canonical (registerCopy s x a buf) :=
  Keeps.ite trivial <| Keeps.ite ((keeps_accept h).bind fun _ ht => ht.landLong) trivial

theorem bare_alignTest {n l} : Bare (alignTest n l) := by
  induction l with
  | nil => trivial
  | cons a l ih => exact Keeps.ite ih trivial

theorem bare_copyTests {row a d b} : Bare (copyTests row s a d b) :=
  Keeps.bind (bare_alignTest.bind fun _ _ => bare_alignTest) fun _ _ => bare_grainRows.bind fun _ _ => bare_grainRows.bind fun _ _ =>
    bare_shadowOf.bind fun _ _ => bare_bufTests.bind fun _ _ => trivial

theorem cmdKeeps_copyCmd {row} : CmdKeeps (copyCmd row) :=
  fun _ _ h => (bare_scalar h).bind fun _ _ => (bare_scalar h).bind fun _ _ => (bare_scalar h).bind fun _ _ =>
    bare_failIf.bind fun _ _ => bare_copyTests.bind fun ⟨_, _, _⟩ _ => keeps_registerCopy h

namespace State.Canonical

theorem copyWrite (h : s.Canonical) {x k} (hk : Continues k) : (copyWrite s x k).Canonical := by
  unfold Machine.copyWrite
  split
  · exact hk _ _ h
  · refine h.failCmd.ite ?_
    exact (hk _ _ h.store.fill.learn.serve).ite h.store.fill.learn.serve.setCmd

theorem copyDone (h : s.Canonical) {x} : (copyDone s x).Canonical := h.setCmd.ite h.retireCmd

theorem copyBegin (h : s.Canonical) {x bs} : (copyBegin s x bs).Canonical := h.copyWrite fun _ _ h => h.copyDone

theorem gatherNext (h : s.Canonical) {x} : (gatherNext s x).Canonical := by
  unfold Machine.gatherNext
  split
  · exact h.failCmd
  · exact h.setCmd.ite h.setCmd

theorem copyKnown (h : s.Canonical) {x} : (copyKnown s x).Canonical := by
  unfold Machine.copyKnown
  extract_lets x' here b to_
  split
  · split
    · exact h.setCmd
    · exact h.failCmd
    · exact h.setCmd
  · exact h.setCmd

end State.Canonical

theorem yields_copyOperands (h : s.Canonical) {x} : Yields (copyOperands s x) := by
  unfold copyOperands
  extract_lets take left
  refine (yields_some h.retireCmd).ite ?_
  split
  · exact yields_none
  · split
    · exact yields_none
    · split
      · exact yields_some h.modCore.copyKnown
      · exact yields_some h.modCore.failCmd
      · exact yields_some h.modCore.failCmd

theorem yields_copyEffect (h : s.Canonical) {x} : Yields (copyEffect s x) := by
  unfold copyEffect
  split
  · refine (yields_copyOperands h).ite ?_
    split
    · exact yields_some h.copyBegin
    · exact (yields_some h.gatherNext).ite (yields_some (h.reading continues_setCmd))
    · exact yields_some (h.reading fun _ _ h => h.copyBegin)
  · exact yields_some (h.copyWrite fun _ _ h => h.copyDone)
  · exact ((yields_some h.appendEntry.retireCmd).ite yields_none).ite (yields_some h.retireCmd)

/-! The Carder -/

theorem bare_openSession {w0 w1 b} : Bare (openSession s w0 w1 b) := by
  unfold openSession
  refine Keeps.ite trivial ?_
  split
  · exact Keeps.ite trivial trivial
  · trivial

theorem bare_sessionOf {x} : Bare (sessionOf s x) := by
  unfold sessionOf
  split
  · exact Keeps.ite trivial trivial
  · trivial

theorem bare_registerTests {x} : Bare (registerTests s x) := by
  refine Keeps.ite ?_ ?_
  · exact bare_openSession.bind fun _ _ => bare_failIf.bind fun _ _ => bare_bufTests.bind fun _ _ => trivial
  · refine bare_sessionOf.bind fun y _ => bare_failIf.bind fun _ _ => ?_
    have last : ∀ w : List Grain, Bare (do
        let _ ← if x.row == .crdWait || x.row == .crdClose then .ok ()
          else bufTests s (y.columnGrains ++ y.areaGrains ++ w ++ x.memB)
        return y) := fun _ => bare_choose bare_ok bare_bufTests fun _ => trivial
    exact Keeps.ite (bare_failIf.bind fun _ _ => bare_alignTest.bind fun _ _ => bare_grainsOf.bind fun _ _ => last _) (last _)

theorem State.Canonical.enrol (h : s.Canonical) {x y} : (enrol s x y).Canonical := h.setBarn.setCmd

theorem State.Canonical.withdrawCmd (h : s.Canonical) {x} : (withdrawCmd s x).Canonical := h.modCore.modSt

theorem keeps_registerHere (h : s.Canonical) {x} : Keeps State.Canonical (registerHere x s) := by
  unfold registerHere
  refine Keeps.ite h.modMe ?_
  have ht : Bare (registerTests s x) := bare_registerTests
  split
  · exact h.enrol.landLong
  · exact h.withdrawCmd
  · rename_i e _ he
    rw [he] at ht
    exact ht

/-- The tests of a selection command at issue give no state. -/
def MakesBare (make : Option (Fin 8 × Bool) → State → Except Stop Cmd) : Prop :=
  ∀ bound (s : State), s.Canonical → Bare (make bound s)

theorem ends_carderCmd (h : s.Canonical) {make} (hm : MakesBare make) : Ends (carderCmd s make) := by
  unfold carderCmd
  split
  · refine ends_performSeq h ?_
    split
    · exact keeps_registerHere h
    · exact h
  · refine CmdKeeps.ends (fun bound s h => (hm bound s h).bind fun x _ => ?_) h
    split
    · exact keeps_accept h
    · exact (keeps_accept h).bind fun _ ht => keeps_registerHere ht

theorem cmdKeeps_selectionCmd {make} (hm : MakesBare make) : CmdKeeps (selectionCmd make) :=
  fun _ _ h => (hm _ _ h).bind fun _ _ => keeps_accept h

theorem makesBare_makeCrdOpen : MakesBare makeCrdOpen :=
  fun _ _ h => (bare_scalar h).bind fun _ _ => bare_openSession.bind fun _ _ => bare_alignTest.bind fun _ _ =>
    bare_grainsOf.bind fun _ _ => bare_alignTest.bind fun _ _ => bare_grainsOf.bind fun _ _ => trivial

theorem makesBare_digitCmd {row al n} : MakesBare (digitCmd row al n) :=
  fun _ _ h => (bare_scalar h).bind fun _ _ => (bare_scalar h).bind fun _ _ => (bare_scalar h).bind fun _ _ =>
    bare_failIf.bind fun _ _ => bare_alignTest.bind fun _ _ => bare_grainsOf.bind fun _ _ => trivial

theorem makesBare_makeCrdElim : MakesBare makeCrdElim :=
  fun _ _ h => (bare_scalar h).bind fun _ _ => bare_failIf.bind fun _ _ => trivial

theorem makesBare_makeCrdRes : MakesBare makeCrdRes :=
  fun _ _ h => (bare_scalar h).bind fun _ _ => (bare_scalar h).bind fun _ _ => (bare_scalar h).bind fun _ _ =>
    bare_failIf.bind fun _ _ => bare_alignTest.bind fun _ _ => bare_grainsOf.bind fun _ _ => trivial

theorem makesBare_sessionCmd {row} : MakesBare (sessionCmd row) :=
  fun _ _ h => (bare_scalar h).bind fun _ _ => bare_failIf.bind fun _ _ => trivial

theorem ends_execCarderRegistration (h : s.Canonical) : Ends (execCarderRegistration s) := by
  unfold execCarderRegistration
  split
  · split
    · split
      · exact ends_next h
      · split
        · exact ends_next h.enrol
        · exact ends_next h.failCmd
        · exact ends_next h
    · exact ends_next h
  · exact ends_next h

theorem State.Canonical.carderDone (h : s.Canonical) {x} : (carderDone s x).Canonical := h.setCmd.ite h.retireCmd

theorem yields_carderEffect (h : s.Canonical) {x} : Yields (carderEffect s x) := by
  unfold carderEffect
  split
  · exact yields_some (h.reading fun _ _ h => h.writing fun _ _ h => h.carderDone)
  · exact yields_some (h.writing fun _ _ h => h.carderDone)
  · exact ((yields_some h.appendEntry.retireCmd).ite yields_none).ite (yields_some h.retireCmd)
  · exact yields_some h.retireCmd

theorem State.Canonical.tidyLine (h : s.Canonical) {u} : (tidyLine s u).Canonical := h.setBarn

theorem cmdKeeps_typed {row op} : CmdKeeps (vectorCmd row (typeTest op)) := cmdKeeps_vectorCmd (bare_typeTest op)

theorem cmdKeeps_plain {row} : CmdKeeps (vectorCmd row noTest) := cmdKeeps_vectorCmd bare_noTest

theorem cmdKeeps_shift {row} : CmdKeeps (vectorCmd row intTest) := cmdKeeps_vectorCmd bare_intTest

theorem cmdKeeps_limited {row} {b : State → Word → Bool} {c} : CmdKeeps (vectorCmd row fun s v => failIf (b s v) c) :=
  cmdKeeps_vectorCmd fun _ _ => bare_failIf

theorem cmdKeeps_tiled {row} : CmdKeeps (vectorMem row tileGrains) := cmdKeeps_vectorMem bare_tileGrains

theorem cmdKeeps_masked {row} : CmdKeeps (vectorMem row maskGrains) := cmdKeeps_vectorMem bare_maskGrains

theorem cmdKeeps_digit {row al n} : CmdKeeps (selectionCmd (digitCmd row al n)) := cmdKeeps_selectionCmd makesBare_digitCmd

theorem cmdKeeps_session {row} : CmdKeeps (selectionCmd (sessionCmd row)) := cmdKeeps_selectionCmd makesBare_sessionCmd

/-- The tests and acceptance of every command row keep the maps. -/
theorem cmdKeeps_commandOf {i : Instr} {body} (hi : commandOf i = some body) : CmdKeeps body := by
  unfold commandOf at hi
  split at hi <;> cases hi
  case h_1 | h_2 | h_3 | h_4 | h_5 | h_6 | h_7 | h_8 | h_9 | h_10 | h_11 | h_12 => exact cmdKeeps_typed
  case h_13 | h_14 | h_15 | h_16 | h_20 | h_21 | h_22 | h_23 | h_24 | h_25 | h_26 | h_30 | h_31 | h_34 | h_35 | h_36 |
    h_37 | h_38 | h_39 => exact cmdKeeps_plain
  case h_17 | h_18 | h_19 => exact cmdKeeps_shift
  case h_27 => exact cmdKeeps_cmdVcvt
  case h_28 | h_29 | h_32 | h_33 => exact cmdKeeps_limited
  case h_40 | h_41 => exact cmdKeeps_tiled
  case h_42 => exact cmdKeeps_cmdVldd
  case h_43 | h_44 => exact cmdKeeps_masked
  case h_45 | h_46 | h_47 => exact cmdKeeps_mma
  case h_48 => exact cmdKeeps_cmdMzero
  case h_49 | h_50 => exact cmdKeeps_tileCmd
  case h_51 => exact cmdKeeps_cmdAcmv
  case h_52 => exact cmdKeeps_cmdRstat
  case h_53 | h_54 | h_55 | h_56 => exact cmdKeeps_copyCmd
  case h_57 => exact cmdKeeps_selectionCmd makesBare_makeCrdOpen
  case h_58 | h_59 | h_60 => exact cmdKeeps_digit
  case h_61 => exact cmdKeeps_selectionCmd makesBare_makeCrdElim
  case h_62 => exact cmdKeeps_selectionCmd makesBare_makeCrdRes
  case h_63 | h_64 => exact cmdKeeps_session

end

end Sys2Proof.Machine
end

section
/-! Handles and their pages, filters and request slots (R300 to R347) -/

namespace Sys2Proof.Machine

section
variable {s : State}

namespace State.Canonical

theorem setHandle (h : s.Canonical) {i x} : (s.setHandle i x).Canonical := h
theorem setPool (h : s.Canonical) {d x} : (s.setPool d x).Canonical := h
theorem setFilter (h : s.Canonical) {ctx k f} : (s.setFilter ctx k f).Canonical := h.setContext
theorem setReq (h : s.Canonical) {n r} : (s.setReq n r).Canonical := h

theorem countLf (h : s.Canonical) {ctx u code} : (s.countLf ctx u code).Canonical := h.count.countHub

theorem setBytesUnder (h : s.Canonical) {key p bs} : (s.setBytesUnder key p bs).Canonical := canonical_setBytesUnder h key p bs

theorem freePage (h : s.Canonical) {i d} : (freePage s i d).Canonical := h.ite h.setPool

theorem cutPage (h : s.Canonical) {i x k d} : (cutPage s i x k d).1.Canonical := by
  unfold Machine.cutPage
  extract_lets keep
  split
  · exact h
  · split
    · exact h.freePage
    · exact h

theorem cutPages (h : s.Canonical) {i x l} : (cutPages i x l s).1.Canonical := by
  induction l generalizing s with
  | nil => exact h
  | cons p ps ih =>
    obtain ⟨k, d⟩ := p
    have hp : (if d.fill = 0 then (s, d) else Machine.cutPage s i x k d).1.Canonical := by
      split
      · exact h
      · exact h.cutPage
    exact ih hp

theorem cutTo (h : s.Canonical) {i pos} : (cutTo s i pos).Canonical := h.cutPages.setHandle

theorem freeHandle (h : s.Canonical) {i} : (freeHandle s i).Canonical := by
  unfold Machine.freeHandle
  extract_lets x s1 s2
  have h1 : s1.Canonical := h.foldl (fun _ _ h => h.freePage) _
  exact h1.setPool.setHandle

theorem poisonPage (h : s.Canonical) {i k} : (poisonPage s i k).Canonical := h.setHandle

theorem cutSound (h : s.Canonical) {n i pos} : (cutSound n s i pos).1.Canonical := by
  induction n generalizing s pos with
  | zero =>
    unfold Machine.cutSound
    exact ((h.foldl (fun _ _ h => h.poisonPage) _).foldl (fun _ _ h => h.countLf) _).cutTo
  | succ n ih =>
    unfold Machine.cutSound
    extract_lets x place errs deep s1 s2 s3
    have h3 : s3.Canonical := ((h.foldl (fun _ _ h => h.poisonPage) _).foldl (fun _ _ h => h.countLf) _).cutTo
    split
    · rename_i e _
      cases e
      exact ih h3
    · exact h3

theorem cutAll (h : s.Canonical) {i pos} : (cutAll s i pos).Canonical := h.cutSound

/-! Request slots -/

theorem leaveOne (h : s.Canonical) {n x} : (leaveOne s n x).Canonical := h

theorem releaseHeld (h : s.Canonical) {n k} : (releaseHeld s n k).Canonical := by
  induction k generalizing s with
  | zero => exact h
  | succ k ih =>
    unfold Machine.releaseHeld
    split
    · exact (ih h.setReq.leaveOne).ite h
    · exact h

theorem writeLog (h : s.Canonical) {w n r id} : (writeLog s w n r id).Canonical := by
  unfold Machine.writeLog
  refine h.ite ?_
  extract_lets a refuse
  split
  · exact h.reportAfter
  · split
    · exact h.reportAfter
    · exact h.under.storeNum

theorem stopSlot (h : s.Canonical) {n} : (stopSlot s n).Canonical := by
  unfold Machine.stopSlot
  extract_lets r r' s1
  have h1 : s1.Canonical := h.setReq
  split
  · exact h1.cutAll
  · exact h1

theorem retire (h : s.Canonical) {w n k} : (retire s w n k).Canonical := by
  induction k generalizing s with
  | zero => exact h
  | succ k ih =>
    unfold Machine.retire
    extract_lets r
    split
    · refine ite ?_ h
      exact h.writeLog.setReq.stopSlot.ite (ih h.writeLog.setReq)
    · exact h

theorem retireStep (h : s.Canonical) {w n} : (retireStep s w n).Canonical := h.setReq.retire.releaseHeld

theorem staleAll (h : s.Canonical) {n} : (staleAll s n).1.Canonical := h.setReq

theorem tell (h : s.Canonical) {x} : (tell s x).Canonical := h.modSlot

theorem tellAll (h : s.Canonical) {ts : List (Sender × Answer)} : (ts.foldl Machine.tell s).Canonical :=
  h.foldl (fun _ _ h => h.tell) ts

theorem applyRpos (h : s.Canonical) {i r ts} : (applyRpos s i r ts).Canonical := h.setHandle.tellAll

theorem flushRpos (h : s.Canonical) {i} : (flushRpos s i).Canonical := by
  unfold Machine.flushRpos
  extract_lets mine
  refine State.Canonical.foldl (s := { s with fabric := s.fabric.filter fun m => !mine m }) h (fun t m ht => ?_) _
  split
  · exact ht.applyRpos
  · exact ht

theorem discardFrom (h : s.Canonical) {n p} : (discardFrom s n p).Canonical := h

theorem rewind (h : s.Canonical) {w n l} : (rewind s w n l).1.Canonical := by
  unfold Machine.rewind
  extract_lets r
  split
  · exact h
  · extract_lets keep s1 s2
    have h1 : s1.Canonical := h
    have h2 : s2.Canonical := by
      unfold s2
      split
      · exact h1.flushRpos.cutSound.discardFrom.ite h1.flushRpos.cutSound
      · exact h1
    exact h2.staleAll.retireStep

theorem putTokens (h : s.Canonical) {w n ids} : (putTokens s w n ids).Canonical := h.setReq.retireStep

theorem emitRequest (h : s.Canonical) {n cls body} : (emitRequest s n cls body).Canonical :=
  h.setReq.setReq.ite h.setReq.leaveOne

theorem tryWait (h : s.Canonical) {n w x r} (e : tryWait s n w x = some r) : r.1.Canonical := by
  unfold Machine.tryWait at e
  dsimp only at e
  split at e
  · cases e; exact h
  · split at e
    · split at e
      · cases e; exact h.putTokens
      · cases e
    · split at e
      · cases e; exact h
      · split at e
        · cases e; exact h.setReq.putTokens
        · cases e
    · split at e
      · cases e
      · cases e; exact h.emitRequest

theorem serveOne (h : s.Canonical) {n l r} (e : serveOne s n l = some r) : r.1.Canonical := by
  induction l with
  | nil => cases e
  | cons p l ih =>
    unfold Machine.serveOne at e
    dsimp only at e
    split at e
    · rename_i e'
      cases e
      exact h.setReq.tryWait e'
    · exact ih e

theorem serveSlot (h : s.Canonical) {n k} : (serveSlot n k s).1.Canonical := by
  induction k generalizing s with
  | zero => exact h
  | succ k ih =>
    unfold Machine.serveSlot
    split
    · exact h
    · rename_i e
      exact ih (h.serveOne e)

theorem settleSlot (h : s.Canonical) {w n old ts} : (settleSlot s w n old ts).Canonical := by
  unfold Machine.settleSlot
  extract_lets r
  split
  · exact h.tellAll.ite (State.Canonical.post (h.foldl (fun _ _ h => h.tell) _))
  · exact h.tellAll

theorem speculativeCut (h : s.Canonical) {i p u} : (speculativeCut s i p u).Canonical := by
  unfold Machine.speculativeCut
  extract_lets x
  have h1 := h.countLf (ctx := x.ctx) (u := u) (code := 0x10) |>.cutSound (n := 32) (i := i) (pos := p)
  split
  rename_i s1 p1 e1
  rw [e1] at h1
  split
  · exact h1
  · exact (h1.discardFrom.staleAll.ite h1.discardFrom.staleAll.retireStep).serveSlot.settleSlot

end State.Canonical
end

end Sys2Proof.Machine
end

section
/-! The key-value forms, the filters and the forms of group D (R309 to R347) -/

namespace Sys2Proof.Machine

section
variable {s : State}

/-! Key-value forms -/

theorem keeps_withHandle {w body} (hb : ∀ i, Keeps State.Canonical (body i)) : Keeps State.Canonical (withHandle s w body) := by
  unfold withHandle
  split
  · trivial
  · exact hb _

theorem ends_blocking (h : s.Canonical) {body : State → Run} (hb : Keeps State.Canonical (body s)) : Ends (blocking s body) :=
  ends_performSeq h <| keeps_check trivial fun _ => hb

theorem ends_execKvNew (h : s.Canonical) : Ends (execKvNew s) := by
  refine ends_blocking h <| (keeps_srcAB h).bind fun ⟨_, _, _⟩ ht => bare_failIf.bind fun _ _ => ?_
  split
  · trivial
  · exact keeps_dstLong ht.setHandle

theorem ends_execKvDrop (h : s.Canonical) : Ends (execKvDrop s) :=
  ends_blocking h <| (keeps_src h).bind fun ⟨_, _⟩ ht => keeps_withHandle fun _ => bare_failIf.bind fun _ _ =>
    ht.freeHandle.landLong

theorem State.Canonical.pageError (h : s.Canonical) {i k row} : (pageError s i k row).Canonical := by
  unfold Machine.pageError
  extract_lets s1 x d p
  have h1 : s1.Canonical := h.flushRpos.ite h
  exact h1.speculativeCut.ite h1.poisonPage

theorem State.Canonical.appendRow (h : s.Canonical) {i d scale rise row fresh} :
    (appendRow s i d scale rise row fresh).1.Canonical := by
  unfold Machine.appendRow
  extract_lets x f old rows d'
  split
  · split
    · exact h.setBytesUnder
    · exact h
  · exact h.setBytesUnder.freePage

theorem keeps_appendAt (h : s.Canonical) {z : State} (hz : z.Canonical) {hw i q codes fuel} :
    Keeps With (appendAt hw i q codes fuel z s) := by
  induction fuel generalizing s z with
  | zero =>
    unfold appendAt
    extract_lets x f p k d stop
    refine Keeps.ite hz ?_
    split
    · exact hz
    · split
      · exact hz
      · extract_lets fresh
        split
        · exact hz
        · refine Keeps.ite hz (Keeps.ite hz ?_)
          split
          · rename_i e
            cases e
          · exact h.setPool.appendRow.setHandle
  | succ fuel ih =>
    unfold appendAt
    extract_lets x f p k d stop
    refine Keeps.ite hz ?_
    split
    · exact hz
    · split
      · exact hz
      · extract_lets fresh
        split
        · exact hz
        · refine Keeps.ite hz (Keeps.ite hz ?_)
          extract_lets hurt
          split
          · rename_i e
            cases e
            exact ih h.pageError hz.pageError
          · exact h.setPool.appendRow.setHandle

theorem ends_execKvApp (h : s.Canonical) : Ends (execKvApp s) := by
  refine ends_blocking h <| (keeps_srcABD h).bind fun ⟨_, _, _, _⟩ ht => bare_failIf.bind fun _ _ =>
    keeps_withHandle fun _ => bare_failIf.bind fun _ _ => keeps_check trivial fun _ => Keeps.ite trivial ?_
  exact bare_readRun.bind fun _ _ => (keeps_appendAt ht.hear h).bind fun ⟨_, _⟩ hu => keeps_dstLong hu

theorem ends_execKvLen (h : s.Canonical) : Ends (execKvLen s) :=
  ends_blocking h <| (keeps_src h).bind fun ⟨_, _⟩ ht => keeps_withHandle fun _ => keeps_dstLong ht

theorem ends_execKvCut (h : s.Canonical) : Ends (execKvCut s) :=
  ends_blocking h <| (keeps_srcAB h).bind fun ⟨_, _, _⟩ ht => bare_failIf.bind fun _ _ => keeps_withHandle fun _ =>
    bare_failIf.bind fun _ _ => bare_failIf.bind fun _ _ => (ht.setHandle.ite ht.cutAll).landLong

theorem State.Canonical.pushFrom (h : s.Canonical) {u off a tag first gs} : (pushFrom s u off a tag first gs).Canonical := by
  induction gs generalizing s first with
  | nil => exact h
  | cons g gs ih =>
    obtain ⟨o, bs⟩ := g
    unfold Machine.pushFrom
    extract_lets p
    split
    · exact h.report
    · rename_i e
      exact ih (h.pushGranule _ e)

theorem State.Canonical.pushFrame (h : s.Canonical) {u off a tag first gs} : (pushFrame s u off a tag first gs).Canonical :=
  h.stepWrite.pushFrom

theorem bare_refDest {a gs} : Bare (refDest s a gs) := by
  refine bare_pushDest.bind fun _ _ => (bare_forM (fun g => ?_) _).bind fun _ _ => trivial
  exact bare_pushDest.bind fun _ _ => trivial

theorem keeps_refAt (h : s.Canonical) {z : State} (hz : z.Canonical) {hw i k row cnt a tests fuel}
    (ht : ∀ s, Bare (tests s)) : Keeps State.Canonical (refAt hw i k row cnt a tests fuel z s) := by
  induction fuel generalizing s z with
  | zero =>
    unfold refAt
    extract_lets x d o base bs tag jp
    have hj : ∀ u, Keeps State.Canonical (jp u) := by
      intro u
      unfold jp
      split
      · rename_i e
        cases e
      · exact h.pushFrame.landLong
    clear_value jp
    have hs := ht s
    split
    · exact hj _
    · exact hz
    · rename_i e' _ e
      rw [e] at hs
      exact hs
  | succ fuel ih =>
    unfold refAt
    extract_lets x d o base bs tag jp
    have hj : ∀ u, Keeps State.Canonical (jp u) := by
      intro u
      unfold jp
      split
      · rename_i e
        cases e
        exact ih h.pageError hz.pageError
      · exact h.pushFrame.landLong
    clear_value jp
    have hs := ht s
    split
    · exact hj _
    · exact hz
    · rename_i e' _ e
      rw [e] at hs
      exact hs

theorem ends_execKvRef (h : s.Canonical) : Ends (execKvRef s) := by
  refine ends_blocking h <| (keeps_srcABD h).bind fun ⟨_, _, _, _⟩ ht => bare_failIf.bind fun _ _ =>
    Keeps.ite trivial <| keeps_withHandle fun _ => bare_failIf.bind fun _ _ => keeps_refAt ht h fun _ => ?_
  refine bare_failIf.bind fun _ _ => keeps_guard trivial fun _ => bare_refDest.bind fun _ _ => ?_
  extract_lets base gran jp0 jp
  have hj : ∀ x, Bare (jp x) := fun _ => by
    refine bare_failIf.bind fun _ _ => ?_
    exact bare_choose trivial bare_ok fun _ => bare_ok
  clear_value jp
  split
  · trivial
  · exact hj _

theorem ends_execFullerCompaction (h : s.Canonical) : Ends (execFullerCompaction s) := by
  unfold execFullerCompaction
  split
  · extract_lets x d
    split
    · split
      · split
        · exact ends_next h.setPool.setBytesUnder.freePage.setHandle
        · exact ends_next h.pageError
        · exact ends_next h
      · exact ends_next h
    · exact ends_next h
  · exact ends_next h

theorem ends_execScrubCheck (h : s.Canonical) : Ends (execScrubCheck s) := by
  unfold execScrubCheck
  split
  · extract_lets x d
    split
    · split
      · exact ends_next h.pageError
      · split
        · exact ends_next h
        · exact ends_next h.pageError
    · exact ends_next h
  · exact ends_next h

theorem ends_execRposNotice (h : s.Canonical) : Ends (execRposNotice s) := by
  unfold execRposNotice
  repeat' split
  · exact ends_next h.unpost.applyRpos
  all_goals exact ends_next h

/-! Filters and stop sets -/

theorem ends_execLfArm (h : s.Canonical) : Ends (execLfArm s) := by
  refine ends_blocking h <| (keeps_srcAB h).bind fun ⟨_, _, _⟩ ht => bare_failIf.bind fun _ _ =>
    bare_failIf.bind fun _ _ => bare_failHubIf.bind fun _ _ => ?_
  split
  · trivial
  · refine (bare_mapM (fun x => ?_) _).bind fun _ _ => keeps_dstLong ht.setFilter
    unfold framePlace
    split <;> trivial

theorem bare_filterArg {a} : Bare (filterArg a) := Keeps.ite trivial trivial

theorem bare_armed {k} : Bare (armed s k) := by
  unfold armed
  split <;> trivial

theorem bare_writesFirst : Bare (writesFirst s) := bare_test trivial

theorem ends_execLfTop (h : s.Canonical) : Ends (execLfTop s) := by
  refine ends_blocking h <| bare_whole.bind fun _ _ => (keeps_src h).bind fun ⟨_, _⟩ ht => (keeps_src ht).bind fun ⟨_, _⟩ hu =>
    bare_filterArg.bind fun _ _ => keeps_check trivial fun _ => keeps_check trivial fun _ => bare_writesFirst.bind fun _ _ =>
      bare_armed.bind fun _ _ => bare_pushDest.bind fun _ _ => ?_
  extract_lets off v base jp0 jp
  have hj : ∀ x, Keeps State.Canonical (jp x) := by
    intro x
    refine bare_choose trivial bare_ok fun _ => ?_
    exact hu.hear.pushFrame.landLong
  clear_value jp
  split
  · trivial
  · exact hj _

theorem ends_execLfSum (h : s.Canonical) : Ends (execLfSum s) :=
  ends_blocking h <| (keeps_src h).bind fun ⟨_, _⟩ ht => bare_filterArg.bind fun _ _ => bare_writesFirst.bind fun _ _ =>
    bare_armed.bind fun _ _ => keeps_dstLong ht.hear

theorem ends_execLfEnd (h : s.Canonical) : Ends (execLfEnd s) :=
  ends_blocking h <| (keeps_src h).bind fun ⟨_, _⟩ ht => bare_filterArg.bind fun _ _ => bare_armed.bind fun _ _ =>
    ht.setContext.landLong

theorem bare_openReq {a} : Bare (openReq s a) := Keeps.ite trivial trivial

theorem ends_execStopSet (h : s.Canonical) : Ends (execStopSet s) :=
  ends_blocking h <| (keeps_srcAB h).bind fun ⟨_, _, _⟩ ht => bare_failIf.bind fun _ _ => bare_openReq.bind fun _ _ =>
    Keeps.ite ht.landLong <| bare_failHubIf.bind fun _ _ => ht.setReq.landLong

theorem ends_execStopClr (h : s.Canonical) : Ends (execStopClr s) :=
  ends_blocking h <| (keeps_src h).bind fun ⟨_, _⟩ ht => bare_openReq.bind fun _ _ => ht.setReq.landLong

/-! Request slots -/

theorem bare_slotArg {a stopped} : Bare (slotArg s a stopped) := Keeps.ite trivial (Keeps.ite trivial trivial)

/-- A result put where the form puts it keeps the maps. -/
def GivenKeeps (given : Word → State → Run) : Prop := ∀ v (s : State), s.Canonical → Keeps State.Canonical (given v s)

theorem givenKeeps_empty : GivenKeeps empty := fun _ _ h => h.landLong

theorem givenKeeps_inD : GivenKeeps inD := fun _ _ h => keeps_dstLong h

theorem keeps_settleForm (h : s.Canonical) {given} (hg : GivenKeeps given) {n old own ts} :
    Keeps State.Canonical (settleForm given n old own ts s) := by
  have h1 : (serveSlot n (s.req n).waiting.length s).1.Canonical := h.serveSlot
  unfold settleForm
  split
  rename_i s1 us e
  rw [e] at h1
  replace h1 : s1.Canonical := h1
  extract_lets ts' r asks s2
  have ha : asks.Canonical := h1.modMe
  split
  · exact ha.settleSlot
  · refine Keeps.ite ha.settleSlot ?_
    have h2 : s2.Canonical := h1.settleSlot
    split
    · exact hg _ _ h2
    · exact h2
    · exact hg _ _ h2

theorem keeps_untaking {z : State} {r : Run} (hr : Keeps State.Canonical r) : Keeps State.Canonical (untaking z r) := by
  unfold untaking
  split
  · exact State.Canonical.modCore hr
  · exact hr

theorem ends_hubForm (h : s.Canonical) {given body} (hg : GivenKeeps given) (hb : Keeps State.Canonical (body s)) :
    Ends (hubForm s given body) :=
  ends_blocking h <| keeps_untaking <| keeps_served (fun v => hg v s h) hb

theorem bare_boundHandle {w} : Bare (boundHandle s w) := by
  unfold boundHandle
  refine Keeps.ite trivial ?_
  split
  · trivial
  · exact bare_failIf.bind fun _ _ => bare_failIf.bind fun _ _ => trivial

theorem ends_execTrOpen (h : s.Canonical) : Ends (execTrOpen s) := by
  refine ends_blocking h <| (keeps_srcAB h).bind fun ⟨_, _, _⟩ ht => (keeps_readBlock ht).bind fun ⟨_, u⟩ hu =>
    bare_failIf.bind fun _ _ => bare_boundHandle.bind fun b _ => ?_
  replace hu : State.Canonical u := hu
  split
  · trivial
  · extract_lets r start u'
    have hu' : u'.Canonical := by
      unfold u'
      split
      · exact hu.setHandle
      · exact hu
    exact keeps_dstLong hu'.setReq

theorem State.Canonical.freeReq (h : s.Canonical) {n} : (freeReq s n).Canonical := by
  unfold Machine.freeReq
  extract_lets r s1
  have h1 : s1.Canonical := by
    unfold s1
    split
    · exact h.flushRpos.cutAll.setHandle
    · exact h
  exact h1.setReq

theorem ends_execTrClose (h : s.Canonical) : Ends (execTrClose s) :=
  ends_hubForm h givenKeeps_empty <| (keeps_src h).bind fun ⟨_, _⟩ ht => bare_slotArg.bind fun _ _ =>
    keeps_settleForm ht.freeReq givenKeeps_empty

theorem ends_execTrCall (h : s.Canonical) : Ends (execTrCall s) :=
  ends_hubForm h givenKeeps_inD <| (keeps_src h).bind fun ⟨_, _⟩ ht => keeps_check trivial fun _ => bare_slotArg.bind fun _ _ =>
    bare_failHubIf.bind fun _ _ => bare_failHubIf.bind fun _ _ => keeps_settleForm ht.setReq givenKeeps_inD

theorem bare_openLevel {r b} : Bare (openLevel r b) := by
  unfold openLevel
  refine Keeps.ite trivial ?_
  split
  · exact Keeps.ite trivial trivial
  · trivial

theorem ends_execTrConf (h : s.Canonical) : Ends (execTrConf s) :=
  ends_hubForm h givenKeeps_empty <| (keeps_srcAB h).bind fun ⟨_, _, _⟩ ht => bare_slotArg.bind fun _ _ =>
    bare_openLevel.bind fun _ _ => keeps_settleForm ht.setReq.retireStep givenKeeps_empty

theorem ends_execTrMiss (h : s.Canonical) : Ends (execTrMiss s) :=
  ends_hubForm h givenKeeps_empty <| (keeps_srcAB h).bind fun ⟨_, _, _⟩ ht => bare_slotArg.bind fun _ _ =>
    bare_openLevel.bind fun _ _ => keeps_settleForm ht.rewind givenKeeps_empty

theorem keeps_standOrWait (h : s.Canonical) {n x} : Keeps State.Canonical (standOrWait s n x) := by
  unfold standOrWait
  extract_lets r
  split
  · rename_i e
    exact keeps_settleForm (h.tryWait e) givenKeeps_inD
  · exact keeps_settleForm h.setReq givenKeeps_inD

theorem ends_execTrPut (h : s.Canonical) : Ends (execTrPut s) :=
  ends_hubForm h givenKeeps_inD <| (keeps_srcAB h).bind fun ⟨_, _, _⟩ ht => bare_failIf.bind fun _ _ => bare_slotArg.bind fun _ _ =>
    keeps_standOrWait ht

theorem ends_execTrQry (h : s.Canonical) : Ends (execTrQry s) := by
  refine ends_hubForm h givenKeeps_inD <| (keeps_srcAB h).bind fun ⟨_, _, _⟩ ht => bare_failIf.bind fun _ _ =>
    bare_slotArg.bind fun _ _ => ?_
  split
  · exact keeps_dstLong ht
  · exact keeps_dstLong ht
  · extract_lets l
    split
    · exact keeps_dstLong ht
    · trivial
  · exact keeps_dstLong ht

theorem ends_execTrLim (h : s.Canonical) : Ends (execTrLim s) :=
  ends_hubForm h givenKeeps_inD <| (keeps_srcAB h).bind fun ⟨_, _, _⟩ ht => bare_failIf.bind fun _ _ => bare_slotArg.bind fun _ _ =>
    keeps_settleForm ht.setReq givenKeeps_inD

theorem ends_execEmit (h : s.Canonical) : Ends (execEmit s) :=
  ends_hubForm h givenKeeps_inD <| (keeps_srcAB h).bind fun ⟨_, _, _⟩ ht => bare_failIf.bind fun _ _ =>
    keeps_check trivial fun _ => Keeps.ite trivial <| bare_readRun.bind fun _ _ => bare_failIf.bind fun _ _ =>
      (bare_releaseWait h).bind fun _ _ => bare_slotArg.bind fun _ _ => keeps_standOrWait ht

theorem ends_execDtNode (h : s.Canonical) : Ends (execDtNode s) :=
  ends_hubForm h givenKeeps_inD <| (keeps_srcAB h).bind fun ⟨_, _, _⟩ ht => bare_failIf.bind fun _ _ => bare_slotArg.bind fun _ _ =>
    bare_failHubIf.bind fun _ _ => bare_failHubIf.bind fun _ _ => keeps_dstLong ht.setReq

theorem ends_execDtAccept (h : s.Canonical) : Ends (execDtAccept s) := by
  refine ends_hubForm h givenKeeps_inD <| (keeps_srcAB h).bind fun ⟨_, _, _⟩ ht => bare_slotArg.bind fun _ _ => ?_
  extract_lets r
  split
  · trivial
  · exact bare_failHubIf.bind fun _ _ => keeps_standOrWait ht

theorem ends_execDtReset (h : s.Canonical) : Ends (execDtReset s) :=
  ends_hubForm h givenKeeps_empty <| (keeps_src h).bind fun ⟨_, _⟩ ht => bare_slotArg.bind fun _ _ => ht.setReq.landLong

end

end Sys2Proof.Machine
end

section
/-! Tasks, messages, groups, barriers and stealing (R129 to R175) -/

namespace Sys2Proof.Machine

section
variable {s : State}

theorem keeps_bufferSend (h : s.Canonical) {r o target idx} : Keeps State.Canonical (bufferSend r o target idx s) :=
  bare_failIf.bind fun _ _ => bare_failIf.bind fun _ _ => h.modSt

theorem ends_execFork (h : s.Canonical) : Ends (execFork s) :=
  ends_performSeq h <| (keeps_srcAB h).bind fun ⟨_, _, _⟩ ht => bare_failIf.bind fun _ _ => keeps_bufferSend ht

theorem ends_execCallat (h : s.Canonical) : Ends (execCallat s) :=
  ends_performSeq h <| (keeps_srcABD h).bind fun ⟨_, _, _, _⟩ ht => bare_failIf.bind fun _ _ => bare_failIf.bind fun _ _ =>
    keeps_bufferSend ht

theorem ends_execSend (h : s.Canonical) : Ends (execSend s) :=
  ends_performSeq h <| bare_whole.bind fun _ _ => (keeps_src h).bind fun ⟨_, _⟩ ht => (keeps_src ht).bind fun ⟨_, _⟩ hu =>
    bare_failIf.bind fun _ _ => bare_failIf.bind fun _ _ => keeps_bufferSend hu

theorem ends_execDone (h : s.Canonical) : Ends (execDone s) :=
  ends_perform h <| (keeps_endWait h h).bind fun _ ht => Keeps.ite ht.dropTask (keeps_release ht)

/-! Join cells -/

theorem bare_awaitWrites {home} : Bare (awaitWrites s home) := keeps_check trivial fun _ => Keeps.ite trivial trivial

theorem bare_objectPlace {a k} : Bare (objectPlace s a k) := by
  unfold objectPlace
  split <;> trivial

theorem bare_objectAt {p a n} : Bare (objectAt s p a n) := by
  unfold objectAt
  split <;> trivial

theorem bare_cellAt {ctx p} {bad : Cause × Nat → Except Stop (List Nat)} (hb : ∀ e, Bare (bad e)) :
    Bare (cellAt s ctx p bad) := by
  unfold cellAt
  split
  · trivial
  · exact hb _

theorem ends_execJinit (h : s.Canonical) : Ends (execJinit s) := by
  refine ends_performSeq h <| (keeps_srcDAB h).bind fun ⟨_, _, _, _⟩ ht => ?_
  refine bare_choose (by trivial) bare_ok fun _ => bare_objectPlace.bind fun _ _ => bare_objectPlace.bind fun _ _ => ?_
  refine bare_choose (by trivial) bare_ok fun _ => bare_choose (by trivial) bare_ok fun _ => bare_failIf.bind fun _ _ => bare_awaitWrites.bind fun _ _ => ?_
  extract_lets half last rest
  have hlast : ∀ x, Keeps State.Canonical (last x) := by
    intro x
    refine (bare_cellAt fun _ => (by trivial)).bind fun _ _ => ?_
    exact bare_choose (by trivial) bare_ok fun _ => ht.scatterRaw.stepWrite.stepRead.modSt.landLong
  have hrest : ∀ bs, Keeps State.Canonical (rest bs) := fun _ => bare_choose (by trivial) bare_ok hlast
  clear_value rest
  split
  · exact hrest _
  · trivial

theorem ends_execJarv (h : s.Canonical) : Ends (execJarv s) := by
  refine ends_performSeq h <| (keeps_src h).bind fun ⟨_, t⟩ ht => keeps_check trivial fun _ => ?_
  replace ht : State.Canonical t := ht
  extract_lets refuse
  have hr : ∀ x, Keeps State.Canonical (refuse x) := fun _ => Keeps.ite ht.report trivial
  clear_value refuse
  refine Keeps.ite (hr _) ?_
  split
  · exact hr _
  · trivial
  · exact Keeps.ite (hr _) ht.sendWrite

theorem State.Canonical.arriveAt (h : s.Canonical) {m cell q} : (arriveAt s m cell q).Canonical := by
  unfold Machine.arriveAt
  extract_lets v launch recaddr weight s1
  have h1 : s1.Canonical := h.scatterRaw
  refine h.scatterRaw.ite ?_
  split
  · exact h1.report.returned
  · exact h1.modCore.ite h1

theorem ends_execJarvArrival (h : s.Canonical) : Ends (execJarvArrival s) := by
  unfold execJarvArrival
  split
  · split
    · split
      · extract_lets ack s1 refuse
        have ha : ∀ t : State, t.Canonical → (ack t).Canonical := fun _ ht => ht.unpost.post
        have h1 : s1.Canonical := h.learnFrom
        have hr : ∀ c, Ends (refuse c) := fun _ => ends_next (ha _ h1.report)
        clear_value ack s1 refuse
        split
        · exact ends_next h.unpost
        · split
          · exact hr _
          · split
            · exact hr _
            · extract_lets v
              split
              · exact hr _
              · split
                · exact ends_next h1
                · exact ends_next (ha _ h1.arriveAt.learn)
      · exact ends_next h
    · exact ends_next h
  · exact ends_next h

theorem ends_execWmint (h : s.Canonical) : Ends (execWmint s) :=
  ends_performSeq h <| (keeps_src h).bind fun ⟨_, _⟩ ht => bare_failIf.bind fun _ _ => ht.issue.modSt.landLong

/-! Groups -/

namespace State.Canonical

theorem queueMember (h : s.Canonical) {src w u dep x} : (s.queueMember src w u dep x).Canonical :=
  h.learnFrom.modCore.ite h.post

theorem placeMembers (h : s.Canonical) {src w cs q l} : (placeMembers src w cs q l s).Canonical := by
  induction l generalizing s with
  | nil => exact h
  | cons i l ih => exact ih h.queueMember

theorem formGroup (h : s.Canonical) {src w l yard n cs q} : (formGroup s src w l yard n cs q).Canonical := by
  unfold Machine.formGroup
  extract_lets s1
  have h1 : s1.Canonical := by
    unfold s1
    split
    · exact h.setLaunch
    · exact h
  exact h1.placeMembers

theorem renumber (h : s.Canonical) {w n} : (s.renumber w n).Canonical := h

end State.Canonical

theorem ends_execGform (h : s.Canonical) : Ends (execGform s) :=
  ends_performSeq h <| keeps_check trivial fun _ => (keeps_srcAB h).bind fun ⟨_, _, _⟩ ht => (keeps_readRec ht).bind fun ⟨_, _⟩ hu =>
    bare_failIf.bind fun _ _ => bare_failIf.bind fun _ _ => bare_failIf.bind fun _ _ => bare_failIf.bind fun _ _ =>
      bare_failIf.bind fun _ _ => keeps_check trivial fun _ => hu.formGroup.modSt.landLong

theorem ends_execGleave (h : s.Canonical) : Ends (execGleave s) := by
  refine ends_performSeq h ?_
  split
  · trivial
  · split
    · trivial
    · exact h.modCore.leaveGroup.renumber.modSt.landLong

/-! Barriers -/

theorem bare_barrierPlace {a} : Bare (barrierPlace s a) :=
  keeps_guard trivial fun _ => bare_objectPlace.bind fun _ _ => Keeps.ite trivial trivial

theorem bare_barrierAt {p a} : Bare (barrierAt s p a) := by
  refine bare_objectAt.bind fun _ _ => ?_
  split <;> trivial

theorem ends_arrival (h : s.Canonical) {f} : Ends (arrival s f) := by
  refine ends_performSeq h <| (keeps_src h).bind fun ⟨_, _⟩ ht => bare_barrierPlace.bind fun _ _ => bare_awaitWrites.bind fun _ _ =>
    bare_barrierAt.bind fun ⟨_, _⟩ _ => ?_
  exact keeps_guard trivial fun _ => keeps_dstLong (ht.storeNum.stepWrite.stepRead)

theorem ends_execBarWait (h : s.Canonical) : Ends (execBarWait s) :=
  ends_performSeq h <| keeps_check trivial fun _ => (keeps_srcAB h).bind fun ⟨_, _, _⟩ ht => bare_barrierPlace.bind fun _ _ =>
    Keeps.ite trivial <| Keeps.ite trivial <| bare_barrierAt.bind fun ⟨_, _⟩ _ => Keeps.ite trivial ht.stepRead.landLong

theorem ends_execBarQry (h : s.Canonical) : Ends (execBarQry s) :=
  ends_performSeq h <| keeps_check trivial fun _ => (keeps_src h).bind fun ⟨_, _⟩ ht => bare_barrierPlace.bind fun _ _ =>
    Keeps.ite trivial <| Keeps.ite trivial <| bare_barrierAt.bind fun ⟨_, _⟩ _ => keeps_dstLong ht.stepRead

/-! Handler tables -/

theorem ends_execHset (h : s.Canonical) : Ends (execHset s) := by
  refine ends_performSeq h <| keeps_check trivial fun _ => (keeps_srcAB h).bind fun ⟨_, _, s0⟩ ht => bare_failIf.bind fun _ _ => ?_
  replace ht : State.Canonical s0 := ht
  refine keeps_choose (Q := With) ht.lapseLock (keeps_readRec ht.lapseLock) fun ⟨_, _⟩ hu => bare_failIf.bind fun _ _ => ?_
  refine Keeps.ite h.lapseLock.setHandler ?_
  split
  · exact Keeps.ite trivial hu.setHandler.dispatchParked.landLong
  · exact hu.setHandler.landLong

theorem ends_execHlock (h : s.Canonical) : Ends (execHlock s) :=
  ends_performSeq h <| (keeps_src h).bind fun ⟨_, _⟩ ht => bare_failIf.bind fun _ _ => bare_failHubIf.bind fun _ _ =>
    ht.lapseLock.setHandler.landLong

theorem ends_execHunlock (h : s.Canonical) : Ends (execHunlock s) := by
  refine ends_performSeq h <| (keeps_src h).bind fun ⟨_, _⟩ ht => bare_failIf.bind fun _ _ => ?_
  refine Keeps.ite h.lapseLock.setHandler ?_
  split
  · exact Keeps.ite trivial ht.lapseLock.setHandler.dispatchParked.landLong
  · trivial

theorem ends_execHandlerLockLapse (h : s.Canonical) : Ends (execHandlerLockLapse s) := by
  unfold execHandlerLockLapse
  split
  · exact ends_next h.lapseLock
  · exact ends_next h

theorem ends_execSdom (h : s.Canonical) : Ends (execSdom s) := by
  refine ends_performSeq h <| keeps_check trivial fun _ => (keeps_src h).bind fun ⟨_, _⟩ ht => bare_failIf.bind fun _ _ => ?_
  split
  · exact keeps_dstLong ht.setLaunch
  · exact keeps_dstLong ht

/-! Message arrivals -/

theorem ends_execCallatArrival (h : s.Canonical) : Ends (execCallatArrival s) := by
  unfold execCallatArrival
  split
  · split
    · split
      · split
        · exact ends_next h.unpost
        · split
          · exact ends_next h.unpost.learnFrom.modCore
          · exact ends_next h
      · exact ends_next h
    · exact ends_next h
  · exact ends_next h

theorem ends_execSendArrival (h : s.Canonical) : Ends (execSendArrival s) := by
  unfold execSendArrival
  split
  · split
    · rename_i m _
      split
      · rename_i q idx _
        extract_lets s1 e c park
        have h1 : s1.Canonical := h.lapseLock
        have hp : ∀ t : State, t.Canonical → (park t).Canonical := fun _ ht => ht.learnFrom.modCore
        clear_value s1 park
        split
        · exact ends_next h1.unpost
        · split
          · split
            · exact ends_next (hp _ h1.unpost)
            · exact ends_next h1
          · split
            · split
              · exact ends_next h1.unpost.learnFrom.modCore
              · exact ends_next h1
            · split
              · exact ends_next (hp _ h1.unpost).missing
              · exact ends_next h1
      · exact ends_next h
    · exact ends_next h
  · exact ends_next h

/-! Selection and stealing -/

namespace State.Canonical

theorem dropDead (h : s.Canonical) {u} : (s.dropDead u).Canonical := by
  unfold State.dropDead
  extract_lets c live s1
  refine State.Canonical.foldl h.setCore (fun t x ht => ?_) _
  split
  · exact ht.dropMigrant
  · exact ht

theorem holdArrival (h : s.Canonical) {u k} : (s.holdArrival u k).Canonical := h.modSlot.ite h

theorem requeueCmd (h : s.Canonical) {u k r} : (requeueCmd s u k r).Canonical := by
  unfold Machine.requeueCmd
  split
  · exact h
  · split
    · exact h
    · extract_lets bound t
      split
      · exact h.modCore
      · exact h.modSlot
      · exact h

theorem seatResumed (h : s.Canonical) {u k st vshape mxcfg qs cmds} : (seatResumed s u k st vshape mxcfg qs cmds).Canonical :=
  State.Canonical.foldl h.modCore (fun _ _ h => h.requeueCmd) _

theorem selectTask (h : s.Canonical) {u k} : (selectTask s u k).Canonical := by
  unfold Machine.selectTask
  extract_lets c
  split
  · exact h
  · split
    · exact h
    · exact h.ite h.setCore.startTask

theorem stealFailed (h : s.Canonical) {u} : (stealFailed s u).Canonical := h.modCore.count

end State.Canonical

theorem ends_execSlotSelect (h : s.Canonical) : Ends (execSlotSelect s) := by
  unfold execSlotSelect
  split
  · extract_lets s1 c
    have h1 : s1.Canonical := h.dropDead
    clear_value s1
    split
    · split
      · exact ends_next h1.setCore.seatMigrant.holdArrival
      · exact ends_next h1.setCore.startTask.holdArrival
      · exact ends_next h1.setCore.seatResumed.holdArrival
      · split
        · exact ends_next h1
        · exact ends_next h1.setCore.selectTask
    · exact ends_next h1
  · exact ends_next h

theorem ends_execStealAttempt (h : s.Canonical) : Ends (execStealAttempt s) := by
  unfold execStealAttempt
  split
  · extract_lets s1 c
    have h1 : s1.Canonical := h.dropDead
    clear_value s1
    split
    · split
      · exact ends_next h1.setCore.post
      · exact ends_next h1
    · exact ends_next h1
  · exact ends_next h

theorem ends_execStealRequestAtVictim (h : s.Canonical) : Ends (execStealRequestAtVictim s) := by
  unfold execStealRequestAtVictim
  split
  · split
    · split
      · split
        · exact ends_next h.unpost.post
        · split
          · exact ends_next h
          · exact ends_next h.unpost.modCore.post
      · exact ends_next h
    · exact ends_next h
  · exact ends_next h

theorem ends_execStealGrantArrival (h : s.Canonical) : Ends (execStealGrantArrival s) := by
  unfold execStealGrantArrival
  split
  · split
    · extract_lets mine
      split
      · split
        · exact ends_next h.unpost.stealFailed
        · exact ends_next h.unpost
      · split
        · exact ends_next (h.unpost.stealFailed.ite h.unpost)
        · split
          · exact ends_next h.unpost.learnFrom.modCore.count
          · exact ends_next h
      · exact ends_next h
    · exact ends_next h
  · exact ends_next h

theorem ends_execStealTimeout (h : s.Canonical) : Ends (execStealTimeout s) := by
  unfold execStealTimeout
  repeat' split
  · exact ends_next h.stealFailed
  all_goals exact ends_next h

theorem ends_execStealBackoffExpiry (h : s.Canonical) : Ends (execStealBackoffExpiry s) := by
  unfold execStealBackoffExpiry
  repeat' split
  · exact ends_next h.modCore
  all_goals exact ends_next h

theorem ends_execWeightReturn (h : s.Canonical) : Ends (execWeightReturn s) := by
  unfold execWeightReturn
  repeat' split
  · exact ends_next h.unpost.returned
  all_goals exact ends_next h

theorem ends_execSerialNoticeArrival (h : s.Canonical) : Ends (execSerialNoticeArrival s) := by
  unfold execSerialNoticeArrival
  repeat' split
  · exact ends_next h.unpost.modCore
  all_goals exact ends_next h

theorem ends_execClockNoticeSend (h : s.Canonical) : Ends (execClockNoticeSend s) := by
  unfold execClockNoticeSend
  split
  · extract_lets x
    split
    · refine ends_next (State.Canonical.foldl h.setDie (fun t x ht => ?_) _)
      exact ht.ite ht.post
    · exact ends_next h
  · exact ends_next h

theorem ends_execClockNoticeArrival (h : s.Canonical) : Ends (execClockNoticeArrival s) := by
  unfold execClockNoticeArrival
  repeat' split
  · exact ends_next h.unpost.setDie
  all_goals exact ends_next h

/-! Collectives -/

namespace State.Canonical

theorem localWrite (h : s.Canonical) {w off bs n} : (localWrite w off bs n s).Canonical := by
  induction n generalizing s off bs with
  | zero => exact h
  | succ n ih =>
    unfold Machine.localWrite
    refine h.ite ?_
    extract_lets now s1
    have h1 : s1.Canonical := by
      unfold s1
      split
      · exact h.store
      · exact h.report
    exact ih h1

theorem answerColl (h : s.Canonical) {x o} : (answerColl s x o).Canonical := by
  unfold Machine.answerColl
  extract_lets w hub s1 sl s2
  have h1 : s1.Canonical := h
  have h2 : s2.Canonical := h1.ite (h1.localWrite.ite h1.localWrite)
  exact h2.modSlot.tell.ite h1

theorem answerMember (h : s.Canonical) {o c} : (answerMember o s c).Canonical := by
  unfold Machine.answerMember
  split
  · exact h
  · split
    · exact h.answerColl
    · exact h

theorem decideColl (h : s.Canonical) {ctx key x o} : (decideColl s ctx key x o).Canonical := by
  unfold Machine.decideColl
  extract_lets y hub s1 s2
  have h1 : s1.Canonical := h
  have h2 : s2.Canonical := h1.countHub.ite h1
  exact State.Canonical.foldl h2 (fun _ _ h => h.answerMember) _

theorem failColl (h : s.Canonical) {ctx key x} : (failColl s ctx key x).Canonical := h.decideColl

theorem settleColl (h : s.Canonical) {ctx key x} : (settleColl s ctx key x).Canonical := by
  unfold Machine.settleColl
  split
  · exact h
  · refine h.failColl.ite ?_
    split
    · exact State.Canonical.decideColl (s := { s with fresh := s.fresh + 2 ^ 15 }) h
    · exact h

end State.Canonical

theorem yields_contribute (h : s.Canonical) {ctx cid step c dep} : Yields (contribute s ctx cid step c dep) := by
  unfold contribute
  extract_lets key s1 fresh
  have h1 : s1.Canonical := h.learn
  have hf : ∀ t : State, t.Canonical → (fresh t).Canonical := fun _ ht => ht.settleColl
  clear_value s1 fresh
  split
  · exact (yields_some (hf _ h1)).ite yields_none
  · split
    · split
      · exact yields_some h1.answerMember
      · exact (yields_some h1.answerMember).ite (yields_some h1.settleColl)
    · split
      · split
        · exact (yields_some (hf _ h1)).ite yields_none
        · exact yields_some (hf _ h1.failColl)
      · exact yields_some h1.answerMember

theorem State.Canonical.abandon (h : s.Canonical) {ctx cid step} : (abandon s ctx cid step).Canonical := by
  unfold Machine.abandon
  extract_lets key
  split
  · exact h.failColl.ite h
  · exact h

theorem State.Canonical.abandonDevice (h : s.Canonical) {dev} : (abandonDevice s dev).Canonical :=
  h.foldl (fun _ _ h => h.failColl.ite h) _

theorem bare_readL {a n al bad} : Bare (readL s a n al bad) :=
  bare_failIf.bind fun _ _ => keeps_check trivial fun _ => Keeps.ite trivial <| bare_readRun.bind fun _ _ => trivial

/-- The state of an outcome that may come to none is canonical. -/
theorem Yields.getD {r : Option State} (hr : Yields r) (h : s.Canonical) : (r.getD s).Canonical := by
  cases r with
  | none => exact h
  | some t => exact hr t rfl

theorem ends_collForm (h : s.Canonical) {smp} : Ends (collForm smp s) := by
  refine ends_blocking h <| keeps_served (fun v => givenKeeps_inD v s h) <| (keeps_srcAB h).bind fun ⟨_, _, _⟩ ht =>
    bare_readL.bind fun _ _ => bare_failIf.bind fun _ _ => ?_
  refine (Keeps.ite (bare_readL.bind fun _ _ => bare_failIf.bind fun _ _ => bare_ok) bare_ok).bind fun _ _ => ?_
  exact bare_readL.bind fun _ _ => (bare_releaseWait h).bind fun _ _ => Keeps.ite trivial ht

theorem ends_execCollContributionArrival (h : s.Canonical) : Ends (execCollContributionArrival s) := by
  unfold execCollContributionArrival
  split
  · split
    · split
      · split
        · exact ends_next h.unpost
        · exact ends_next ((yields_contribute h.unpost).getD h)
      · exact ends_next h
    · exact ends_next h
  · extract_lets v c
    split
    · exact ends_next h
    · exact ends_next ((yields_contribute h).getD h)
  · extract_lets left
    split
    · split
      · exact ends_next h.answerColl
      · exact ends_next h
    · exact ends_next h
  · exact ends_next h

theorem ends_execCollWatchdogExpiry (h : s.Canonical) : Ends (execCollWatchdogExpiry s) := by
  unfold execCollWatchdogExpiry
  repeat' split
  all_goals exact ends_next h

theorem ends_execCollAbandonArrival (h : s.Canonical) : Ends (execCollAbandonArrival s) := by
  unfold execCollAbandonArrival
  split
  · split
    · split
      · split
        · exact ends_next h.unpost
        · exact ends_next h.unpost.abandon
      · exact ends_next h
    · exact ends_next h
  · exact ends_next (h.abandon.ite h)
  · exact ends_next h

end

end Sys2Proof.Machine
end

section
/-! A core's cycle, continuation objects and launches (R133 to R155, R372 to R387) -/

namespace Sys2Proof.Machine

section
variable {s : State}

/-- The state of a pair, once the pair has a name for it. -/
theorem fst_canonical {β : Type} {r : State × β} {t b} (e : r = (t, b)) (h : r.1.Canonical) : t.Canonical := by
  rw [e] at h
  exact h

/-! Rows of words and strands that cannot issue -/

theorem ends_execFetchFault (h : s.Canonical) : Ends (execFetchFault s) := by
  unfold execFetchFault
  split
  · exact ends_next (h.trapHere.ite h)
  · exact ends_next h

theorem ends_execIllegalInstruction (h : s.Canonical) : Ends (execIllegalInstruction s) := by
  unfold execIllegalInstruction
  split
  · exact ends_next (h.trapHere.ite h)
  · exact ends_next h

namespace State.Canonical

theorem fetching (h : s.Canonical) {u k} : (s.fetching u k).Canonical := by
  unfold State.fetching
  split
  · exact h
  · exact h.modCore.modSlot

theorem withdraw (h : s.Canonical) {u k} : (s.withdraw u k).Canonical := by
  unfold State.withdraw
  refine State.Canonical.modSlot ?_
  refine State.Canonical.giveBack ?_
  exact h

theorem setHub (h : s.Canonical) {x} : State.Canonical { s with hub := x } := h

theorem focus (h : s.Canonical) {u k} : State.Canonical { s with focusU := u, focusK := k } := h

theorem unload (h : s.Canonical) {u k w} : (s.unload u k w).Canonical := h.modCore.modSlot

theorem longDone (h : s.Canonical) {u k regs v} : (s.longDone u k regs v).Canonical := h.modCore.modSlot

theorem longFault (h : s.Canonical) {u k w home c a} : (s.longFault u k w home c a).Canonical := h.withdraw.unload.takeTrap

theorem longHear (h : s.Canonical) {u k} : (s.longHear u k).Canonical := h.modSlot

theorem nextId (h : s.Canonical) {n} : State.Canonical { s with nextId := n } := h

theorem register (h : s.Canonical) {u k me op x} : (s.register u k me op x).Canonical := h.ite h.modCore.modSlot.nextId

theorem copyIn (h : s.Canonical) {u k off me x} : Gives State.Canonical (s.copyIn u k off me x) := by
  unfold State.copyIn
  extract_lets st
  split
  · exact gives_error
  · exact gives_error
  · exact gives_ok (h.nextId.refuse.ite h.scatterRaw.learn).longHear

theorem longCome (h : s.Canonical) {u k w x} : (longCome u k w x s).Canonical := by
  unfold Machine.longCome
  extract_lets sl home me
  clear_value sl home me
  split
  · exact h.longFault
  · exact h.longDone
  · refine h.ite (h.register.ite ?_)
    split
    · rename_i e
      have hu := h.performFor _ e
      exact (hu.longHear.ite hu).longDone
    · exact h.nextId.refuse.longDone.ite h.longFault
  · refine h.ite ?_
    split
    · rename_i e
      exact (h.copyIn _ e).longDone
    · exact h.longFault

theorem clearSlot (h : s.Canonical) {u k} : (s.clearSlot u k).Canonical := h.withdraw.modCore.vacate

theorem countCycle (h : s.Canonical) {u n} : (countCycle s u n).Canonical := by
  unfold Machine.countCycle
  extract_lets bump s1 b s2
  have h1 : s1.Canonical := h.modCore
  have h2 : s2.Canonical := by
    unfold s2
    refine ite (h1.setBarn.ite h1) ?_
    split <;> exact h1
  exact h2

theorem endCycle (h : s.Canonical) {c u} : (endCycle c u s).Canonical := by
  unfold Machine.endCycle
  extract_lets c' s1
  have h1 : s1.Canonical := h.setCore
  exact State.Canonical.countCycle (s := { s1 with now := max s1.now (c'.cyc + 1) }) h1

end State.Canonical

theorem ends_execDeferredFault (h : s.Canonical) : Ends (execDeferredFault s) := by
  unfold execDeferredFault
  split
  · extract_lets sl
    split
    · extract_lets t s0 s1
      have h0 : s0.Canonical := h.withdraw.modSlot
      have h1 : s1.Canonical := h0
      clear_value s1
      split
      · exact ends_next h1.trapHere
      · split
        · exact ends_next h1.takeTrap
        · exact ends_next h
    · exact ends_next h
  · exact ends_next h

theorem ends_execBudgetExhausted (h : s.Canonical) : Ends (execBudgetExhausted s) := by
  unfold execBudgetExhausted
  split
  · extract_lets sl s1 s2
    have h1 : s1.Canonical := h.withdraw
    have h2 : s2.Canonical := by
      unfold s2
      split
      · exact h1.unload
      · exact h1
    split
    · exact ends_next h
    · split
      · exact ends_next h1.focus.count.trapHere
      · split
        · exact ends_next h2.count.takeTrap
        · exact ends_next h
  · exact ends_next h

theorem ends_execHandlerBudgetExpiry (h : s.Canonical) : Ends (execHandlerBudgetExpiry s) := by
  unfold execHandlerBudgetExpiry
  split
  · extract_lets sl outer
    split
    · exact ends_next h.fatal
    · exact ends_next h
  · exact ends_next h

theorem ends_execForcedSwitch (h : s.Canonical) : Ends (execForcedSwitch s) := by
  unfold execForcedSwitch
  split
  · extract_lets sl
    split
    · exact ends_next h.modSlot.count.modCore
    · exact ends_next h
  · exact ends_next h

/-! Objects -/

theorem bare_homesReady {us w} : Bare (homesReady s us w) := Keeps.ite trivial trivial

theorem bare_readPieces {a n} : Bare (readPieces s a n) := by
  induction n generalizing a with
  | zero => trivial
  | succ n ih =>
    unfold readPieces
    split
    · trivial
    · rename_i bs _
      have hr : Bare (readPieces s (a + 16) n) := ih
      split
      · rename_i e
        rw [e] at hr
        exact hr
      · trivial

theorem bare_readObject {a n} : Bare (readObject s a n) := bare_homesReady.bind fun _ _ => bare_readPieces

namespace State.Canonical

theorem heardAt (h : s.Canonical) {us} : (s.heardAt us).Canonical := h.foldl (fun _ _ h => h.stepRead) us

theorem writePiece (h : s.Canonical) {a bs} : Gives State.Canonical (writePiece s a bs) :=
  gives_bind fun _ _ => gives_bind fun _ _ => gives_ok h.under.store.stepWrite

theorem writeObject (h : s.Canonical) {n a bs} : (writeObject n a bs s).1.Canonical := by
  induction n generalizing s a bs with
  | zero => exact h
  | succ n ih =>
    unfold Machine.writeObject
    split
    · exact h
    · extract_lets now
      split
      · exact h
      · rename_i e
        exact ih (h.writePiece _ e)

theorem takeSerial (h : s.Canonical) : (takeSerial s).2.Canonical := h.setContext

theorem writeAll (h : s.Canonical) {a len blob bad} : (writeAll a len blob bad s).1.Canonical := by
  unfold Machine.writeAll
  extract_lets room put
  have hp : ∀ o k v (t : State), t.Canonical → (put o k v t).Canonical := fun _ _ _ _ ht => ht.writeObject
  clear_value put
  split
  rename_i stop addr cause _
  have hw : (Machine.writeObject (stop + 1) a (blob.take stop) s).1.Canonical := h.writeObject
  split
  rename_i e
  rw [e] at hw
  split
  · exact State.Canonical.ite (hp _ _ _ _ hw) hw
  · split
    · exact State.Canonical.ite (hp _ _ _ _ hw) hw
    · exact hp _ _ _ _ (hp _ _ _ _ hw)

theorem quiesceSlot (h : s.Canonical) {m} : (quiesceSlot s m).Canonical := by
  unfold Machine.quiesceSlot
  extract_lets sl s1 s2 s3 s4 s5
  have h1 : s1.Canonical := h.withdraw
  have h2 : s2.Canonical := by
    unfold s2
    split
    · exact h1.unload
    · exact h1
  exact h2.modCore.modSlot.modCore.ite h

theorem stripMember (h : s.Canonical) {m} : (stripMember s m).Canonical := h.modCore.modSlot

theorem saveMember (h : s.Canonical) {n m} : (saveMember n s m).Canonical :=
  h.stripMember.closeSessions.modMe.modCore.modSt.ite h.stripMember.endStrand

theorem tidyAll (h : s.Canonical) {l : List Nat} : (l.foldl Machine.tidyLine s).Canonical := h.foldl (fun _ _ h => h.tidyLine) l

theorem sealObject (h : s.Canonical) {ms n} : (sealObject s ms n).Canonical := by
  unfold Machine.sealObject
  extract_lets s1 s2 l s3 s4
  have h1 : s1.Canonical := h.foldl (fun _ _ h => h.saveMember) ms
  have h2 : s2.Canonical := h1.modMe.ite h1
  have h3 : s3.Canonical := by
    unfold s3
    split
    · exact h2.setLaunch
    · exact h2
  have h4 : s4.Canonical := h3.tidyAll
  exact h4

theorem setSuspension (h : s.Canonical) {x} : (s.setSuspension x).Canonical := h

end State.Canonical

theorem bare_readList {d n f} : Bare (readList s d n f) := by
  refine Keeps.ite trivial ?_
  refine keeps_check trivial fun _ => bare_readObject.bind fun _ _ => ?_
  dsimp only
  split <;> trivial

theorem bare_suspendTests {record a b d} : Bare (suspendTests record a b d s) := by
  unfold suspendTests
  dsimp only
  split
  · trivial
  · exact bare_failIf.bind fun _ _ => bare_failIf.bind fun _ _ => bare_failIf.bind fun _ _ => bare_readList.bind fun _ _ =>
      bare_failIf.bind fun _ _ => trivial

theorem keeps_suspendStep (h : s.Canonical) {s0 : State} (h0 : s0.Canonical) {record a b x} :
    Keeps State.Canonical (suspendStep record a b x s0 s) := by
  unfold suspendStep
  extract_lets l hub gone stop t0 t here failed len
  have hgone : gone.Canonical := h0
  clear_value gone
  split
  · trivial
  · split
    · exact hgone
    · extract_lets ms needs after
      have hs : ∀ r : State, r.Canonical → (stop r).Canonical := fun r hr =>
        hr.foldl (fun _ _ h => h.ite h.quiesceSlot) _
      have ht0 : t0.Canonical := hs _ h0
      have ht : t.Canonical := hs _ h
      have hf : failed.Canonical := ht0.setSuspension
      clear_value stop t0 t failed
      refine Keeps.ite ht0 (Keeps.ite hf (Keeps.ite ht0 ?_))
      split
      · exact ht0
      · have ha : ∀ r : State, r.Canonical → (after r).Canonical := fun r hr => hr.foldl (fun _ _ h => h.modSt) _
        clear_value after
        have hu : (takeSerial (after t)).2.Canonical := (ha _ ht).takeSerial
        split
        rename_i serial u e
        rw [e] at hu
        split
        refine Keeps.ite ht0 ?_
        rename_i blob bad _
        extract_lets write
        have hw : ∀ r : State, r.Canonical → (write r).1.Canonical := fun _ hr => hr.writeAll
        clear_value write
        have hv := hw _ hu
        split
        · rename_i v e
          rw [e] at hv
          exact (State.Canonical.sealObject (s := { v with fresh := v.fresh + 8 }) hv).landLong
        · exact hw _ (ha _ hf).takeSerial

theorem ends_suspend (h : s.Canonical) {record} : Ends (suspend record s) := by
  refine ends_blocking h <| (keeps_srcABD h).bind fun ⟨_, _, _, _⟩ ht => ?_
  dsimp only
  split
  · exact keeps_suspendStep ht h
  · exact bare_suspendTests.bind fun _ _ => keeps_suspendStep (State.Canonical.modMe (State.Canonical.setSuspension ht.heardAt)) h.heardAt.setSuspension.modMe

theorem bare_objectArg {a} : Bare (objectArg a) := bare_failIf

theorem bare_awaitObject {a} : Bare (awaitObject s a) := by
  unfold awaitObject
  split
  · exact bare_awaitWrites
  · trivial

theorem bare_readHead {a right} : Bare (readHead s a right) := by
  refine bare_readObject.bind fun _ _ => ?_
  split
  · trivial
  · exact bare_failIf.bind fun _ _ => trivial

theorem bare_sealedOnly {a double x} : Bare (sealedOnly s a double x) :=
  Keeps.ite trivial <| Keeps.ite trivial <| Keeps.ite trivial trivial

theorem keeps_writeField (h : s.Canonical) {a off n v} : Keeps State.Canonical (writeField a off n v s) := by
  unfold writeField
  split
  · rename_i e
    exact h.writePiece _ e
  · split <;> trivial

namespace State.Canonical

theorem writeFoot (h : s.Canonical) {u off bs full n} : (writeFoot u off bs full n s).Canonical := by
  induction n generalizing s off bs full with
  | zero => exact h
  | succ n ih =>
    unfold Machine.writeFoot
    extract_lets s1
    have h1 : s1.Canonical := by
      unfold s1
      split
      · exact h.store.setFull.stepWrite
      · exact h.report
    exact ih h1

theorem leaveForward (h : s.Canonical) {u strid launch dest} : (leaveForward u strid launch dest s).Canonical :=
  h.setCore.ite h.countHub

theorem placeAll (h : s.Canonical) {x cs w i ms} : (placeAll x cs w i ms s).Canonical := by
  induction ms generalizing s i with
  | nil => exact h
  | cons m ms ih =>
    unfold Machine.placeAll
    extract_lets u s1 s2 s3 s4 s5
    have h1 : s1.Canonical := h.foldl (fun _ _ h => h.writeFoot) _
    have h2 : s2.Canonical := by
      unfold s2
      split
      · exact h1.modCore
      · exact h1
    have h4 : s4.Canonical := h2.serve.queueMember
    exact ih (h4.ite h4.leaveForward)

theorem thawSlot (h : s.Canonical) {m} : (thawSlot s m).Canonical := h.modSlot

end State.Canonical

theorem ends_execResume (h : s.Canonical) : Ends (execResume s) := by
  refine ends_blocking h <| (keeps_srcAB h).bind fun ⟨_, _, t⟩ ht => bare_objectArg.bind fun _ _ => bare_awaitObject.bind fun _ _ =>
    bare_readHead.bind fun _ _ => bare_sealedOnly.bind fun _ _ => bare_failIf.bind fun _ _ => bare_failIf.bind fun _ _ =>
      bare_failIf.bind fun _ _ => bare_readObject.bind fun _ _ => bare_awaitWrites.bind fun _ _ => ?_
  replace ht : State.Canonical t := ht
  split
  · trivial
  · refine keeps_guard trivial fun _ => (keeps_writeField ht.heardAt).bind fun u hu => ?_
    extract_lets u1 u2 yard cs size u3 u4 u5
    have h2 : u2.Canonical := hu.modSt.returned
    have h3 : u3.Canonical := by
      unfold u3
      split
      · exact h2.setLaunch
      · exact h2
    have h4 : u4.Canonical := State.Canonical.placeAll h3
    have h5 : u5.Canonical := h4
    exact keeps_dstLong h5

theorem ends_execCcopy (h : s.Canonical) : Ends (execCcopy s) := by
  refine ends_blocking h <| (keeps_srcABD h).bind fun ⟨_, _, _, t⟩ ht => bare_objectArg.bind fun _ _ => bare_objectArg.bind fun _ _ =>
    bare_awaitObject.bind fun _ _ => bare_readHead.bind fun _ _ => bare_failIf.bind fun _ _ => bare_sealedOnly.bind fun _ _ =>
      bare_homesReady.bind fun _ _ => bare_homesReady.bind fun _ _ => ?_
  replace ht : State.Canonical t := ht
  dsimp only
  split
  · rename_i e
    exact keeps_dstLong (State.Canonical.modSt (fst_canonical e ht.heardAt.takeSerial.writeAll))
  · exact h.heardAt.takeSerial.writeAll

theorem ends_execCdisc (h : s.Canonical) : Ends (execCdisc s) :=
  ends_blocking h <| (keeps_src h).bind fun ⟨_, _⟩ ht => bare_objectArg.bind fun _ _ => bare_awaitObject.bind fun _ _ =>
    bare_readHead.bind fun _ _ => bare_sealedOnly.bind fun _ _ => (keeps_writeField ht.heardAt).bind fun _ hu =>
      hu.returned.landLong

theorem ends_execCinsp (h : s.Canonical) : Ends (execCinsp s) := by
  refine ends_blocking h <| (keeps_srcAB h).bind fun ⟨_, _, _⟩ ht => bare_objectArg.bind fun _ _ => bare_readHead.bind fun _ _ => ?_
  split
  · trivial
  · exact keeps_dstLong ht.heardAt

theorem ends_execCrights (h : s.Canonical) : Ends (execCrights s) :=
  ends_blocking h <| (keeps_srcAB h).bind fun ⟨_, _, _⟩ ht => bare_objectArg.bind fun _ _ => bare_awaitObject.bind fun _ _ =>
    bare_readHead.bind fun _ _ => bare_failIf.bind fun _ _ => (keeps_writeField ht.heardAt).bind fun _ hu => keeps_dstLong hu

theorem ends_execGthaw (h : s.Canonical) : Ends (execGthaw s) := by
  refine ends_blocking h <| bare_failIf.bind fun _ _ => ?_
  exact State.Canonical.landLong (h.setHub.foldl (fun _ _ h => h.thawSlot) _)

/-! Host queues and launches -/

namespace State.Canonical

theorem setHubNum (h : s.Canonical) {p o n v} : (s.setHubNum p o n v).Canonical := h.under.storeNum

theorem setQstate (h : s.Canonical) {d : Desc} {en mapped run ntail} : (d.setQstate s en mapped run ntail).Canonical :=
  h.setHubNum

theorem makeRunnable (h : s.Canonical) {q} : (s.makeRunnable q).Canonical := by
  unfold State.makeRunnable
  split
  · split <;> exact h
  · exact h

theorem markIdle (h : s.Canonical) {q} : (s.markIdle q).Canonical := h

theorem latch (h : s.Canonical) {q t} : (latch s q t).Canonical := by
  unfold Machine.latch
  split
  · exact h
  · extract_lets idle s1 s2
    have h1 : s1.Canonical := h.setQstate
    have h2 : s2.Canonical := h1.markIdle.ite h1
    exact h2.makeRunnable

theorem unmap (h : s.Canonical) {q} : (unmap s q).Canonical := by
  unfold Machine.unmap
  split
  · exact h
  · exact h.setQstate.setHub.makeRunnable

theorem setQctl (h : s.Canonical) {ctx v} : (s.setQctl ctx v).Canonical := h.setContext

theorem qctlCreate (h : s.Canonical) {ctx q desc} : (qctlCreate s ctx q desc).Canonical := by
  unfold Machine.qctlCreate
  refine h.setQctl.ite ?_
  extract_lets enable
  have he : ∀ t : State, t.Canonical → (enable t).Canonical := by
    intro t ht
    unfold enable
    split
    · exact ht.setQstate.setQctl.makeRunnable
    · exact ht.setQctl
  clear_value enable
  split
  · exact he _ h
  · split
    · exact h.setQctl
    · exact he _ h

theorem qctlDisable (h : s.Canonical) {ctx q} : (qctlDisable s ctx q).Canonical := by
  unfold Machine.qctlDisable
  refine h.setQctl.ite ?_
  split
  · exact h.setQstate.setQctl.setHub
  · exact h

theorem destroyQueue (h : s.Canonical) {q st} : (destroyQueue s q st).Canonical := h.unmap.setHub

theorem qctlDestroy (h : s.Canonical) {ctx q} : (qctlDestroy s ctx q).Canonical := by
  unfold Machine.qctlDestroy
  refine h.setQctl.ite ?_
  split
  · exact h.setQctl.ite h.destroyQueue.setQctl
  · exact h

theorem qregs (h : s.Canonical) {ctx q desc} : (s.qregs ctx q desc).Canonical := h.setContext

theorem declareAll (h : s.Canonical) {u bufs} : (declareAll s u bufs).Canonical := by
  refine h.foldl (fun t b ht => ?_) bufs
  split
  · exact ht.setCore
  · exact ht

theorem loadImage (h : s.Canonical) {u data tags bufs} : (loadImage s u data tags bufs).Canonical := by
  unfold Machine.loadImage
  extract_lets s1 s2 s3
  have h1 : s1.Canonical := canonical_setBytes h _ _
  have h2 : s2.Canonical := h1.foldl (fun _ _ h => h.setFull) _
  have h3 : s3.Canonical := h2.foldl (fun _ _ h => h.setTag) _
  exact h3.declareAll

theorem complete (h : s.Canonical) {c} : (s.complete c).Canonical := h

theorem beginLaunch (h : s.Canonical) {q ctx entry x r yard data tags bufs} :
    Yields (beginLaunch s q ctx entry x r yard data tags bufs) := by
  unfold Machine.beginLaunch
  extract_lets cs l root each n task hub s1
  have h1 : s1.Canonical := h
  clear_value root s1
  split
  · exact yields_none
  · refine yields_none.ite (yields_some ?_)
    split
    · exact h1.setLaunch.loadImage.formGroup
    · exact h1.setLaunch.loadImage.modCore

theorem takeHead (h : s.Canonical) {q d started} : (takeHead s q d started).Canonical := by
  unfold Machine.takeHead
  exact h.setHubNum.setHub.markIdle.ite h.setHubNum.setHub

end State.Canonical

theorem ends_execNotify (h : s.Canonical) : Ends (execNotify s) := by
  unfold execNotify
  split
  · split
    · exact ends_next h
    · exact ends_next h.latch
  · exact ends_next h

theorem ends_execQueueMap (h : s.Canonical) : Ends (execQueueMap s) := by
  unfold execQueueMap
  repeat' split
  · exact ends_next h.setQstate.setHub
  all_goals exact ends_next h

theorem ends_execQueueIdleUnmap (h : s.Canonical) : Ends (execQueueIdleUnmap s) := by
  unfold execQueueIdleUnmap
  repeat' split
  · exact ends_next h.unmap
  all_goals exact ends_next h

theorem ends_execQueueEvict (h : s.Canonical) : Ends (execQueueEvict s) := by
  unfold execQueueEvict
  repeat' split
  · exact ends_next h.unmap
  all_goals exact ends_next h

theorem ends_execQctlCreate (h : s.Canonical) : Ends (execQctlCreate s) := by
  unfold execQctlCreate
  repeat' split
  · exact ends_next h.qregs.qctlCreate
  all_goals exact ends_next h

theorem ends_execQctlDisable (h : s.Canonical) : Ends (execQctlDisable s) := by
  unfold execQctlDisable
  repeat' split
  · exact ends_next h.qregs.qctlDisable
  all_goals exact ends_next h

theorem ends_execQctlDestroy (h : s.Canonical) : Ends (execQctlDestroy s) := by
  unfold execQctlDestroy
  repeat' split
  · exact ends_next h.qregs.qctlDestroy
  all_goals exact ends_next h

theorem ends_execLaunchStart (h : s.Canonical) : Ends (execLaunchStart s) := by
  unfold execLaunchStart
  split
  · split
    · split
      · extract_lets head bs
        split
        · exact ends_next h.takeHead.complete
        · split
          · rename_i e
            exact ends_next (h.beginLaunch _ e).takeHead
          · exact ends_next h
      · exact ends_next h
    · exact ends_next h
  · exact ends_next h

theorem ends_execCompletionPost (h : s.Canonical) : Ends (execCompletionPost s) := by
  unfold execCompletionPost
  repeat' split
  · exact ends_next h
  · exact ends_next h.setHubNum.setHubNum.setHub
  · exact ends_next h

end

end Sys2Proof.Machine
end

section
/-! Checkpoints, branches, engines, the module, the host's windows and traps (R103 to R106, R364 to R369, R394 to R409) -/

namespace Sys2Proof.Machine

section
variable {s : State}

theorem Ends.ite {r q : Host.Outcome State Fault Refusal} (hr : Ends r) (hq : Ends q) {c : Prop} [Decidable c] :
    Ends (if c then r else q) := by split <;> assumption

/-! Checkpoints -/

namespace State.Canonical

theorem putSlot (h : s.Canonical) {ctx p bs} : (s.putSlot ctx p bs).Canonical := h.under.store

theorem putHome (h : s.Canonical) {ctx p bs} : (s.putHome ctx p bs).Canonical := h.putSlot.ite h

theorem copyParts (h : s.Canonical) {ctx p l} : (copyParts ctx p l s).Canonical := by
  induction l generalizing s p with
  | nil => exact h
  | cons a l ih =>
    refine ih ?_
    split
    · exact h.putHome
    · exact h

theorem saveStep (h : s.Canonical) {ctx step rs} : (saveStep s ctx step rs).1.Canonical := by
  unfold Machine.saveStep
  extract_lets x p reached s1 failed
  have h1 : s1.Canonical := h.putHome
  have hf : failed.1.Canonical := h1.copyParts
  clear_value failed
  split
  · exact hf
  · split
    · exact hf
    · exact h1.putSlot.setContext

theorem loadPages (h : s.Canonical) {ctx l bs} : (loadPages ctx l bs s).Canonical := by
  induction l generalizing s bs with
  | nil => exact h
  | cons a l ih =>
    refine ih ?_
    split
    · exact h.under.store
    · exact h

theorem loadShard (h : s.Canonical) {ctx step} : (loadShard s ctx step).Canonical := by
  unfold Machine.loadShard
  dsimp only
  split
  · exact h.loadPages.ite h
  · exact h

theorem setCounters (h : s.Canonical) {set l} : (setCounters s set l).Canonical := by
  unfold Machine.setCounters
  split
  · exact h.modCore
  · exact h.setBarn
  · split <;> exact h
  · exact h

end State.Canonical

theorem bare_readCkpt {a} : Bare (readCkpt s a) := by
  refine bare_readL.bind fun _ _ => ?_
  split <;> trivial

theorem bare_readRanges {b n size} : Bare (readRanges s b n size) :=
  bare_failIf.bind fun _ _ => bare_readObject.bind fun _ _ => bare_failIf.bind fun _ _ => trivial

theorem bare_counterArg {a} : Bare (counterArg s a) :=
  bare_failIf.bind fun _ _ => bare_failIf.bind fun _ _ => trivial

theorem ends_execCkptSave (h : s.Canonical) : Ends (execCkptSave s) := by
  refine ends_blocking h <| keeps_served (fun v => givenKeeps_inD v s h) <| (keeps_srcAB h).bind fun ⟨_, _, t⟩ ht =>
    bare_readCkpt.bind fun _ _ => bare_readRanges.bind fun _ _ => bare_failHubIf.bind fun _ _ =>
      (bare_releaseWait h).bind fun _ _ => ?_
  replace ht : t.Canonical := ht
  refine Keeps.ite trivial (Keeps.ite ?_ ?_)
  · exact keeps_dstLong ht.heardAt.hear.saveStep
  · exact ht.heardAt.setHub.modMe

theorem ends_execCkptBarrierTimeout (h : s.Canonical) : Ends (execCkptBarrierTimeout s) := by
  unfold execCkptBarrierTimeout
  split
  · split
    · refine Ends.ite ?_ ?_
      · exact ends_next h.setHub.saveStep.tell
      · exact Ends.ite (ends_next h.setHub.tell) (ends_next h)
    · exact ends_next h
  · exact ends_next h

theorem ends_execCkptCommit (h : s.Canonical) : Ends (execCkptCommit s) := by
  refine ends_blocking h <| (keeps_src h).bind fun ⟨_, t⟩ ht => bare_readCkpt.bind fun _ _ => ?_
  replace ht : t.Canonical := ht
  dsimp only
  split
  · trivial
  · exact Keeps.ite trivial <| Keeps.ite trivial <| Keeps.ite trivial <| keeps_dstLong ht.putSlot.setContext

theorem ends_execDeviceRecovery (h : s.Canonical) : Ends (execDeviceRecovery s) := by
  unfold execDeviceRecovery
  split
  · exact Ends.ite (ends_next (h.foldl (fun _ _ h => h.loadShard) _)) (ends_next (h.foldl (fun _ _ h => h.kill) _))
  · exact ends_next h

theorem ends_execEcntSel (h : s.Canonical) : Ends (execEcntSel s) :=
  ends_performSeq h <| (keeps_srcAB h).bind fun ⟨_, _, _⟩ ht => bare_counterArg.bind fun _ _ => bare_failIf.bind fun _ _ =>
    bare_failIf.bind fun _ _ => keeps_dstLong ht.setCounters

theorem ends_execEcntRd (h : s.Canonical) : Ends (execEcntRd s) :=
  ends_performSeq h <| (keeps_src h).bind fun ⟨_, _⟩ ht => bare_counterArg.bind fun _ _ => bare_failIf.bind fun _ _ =>
    keeps_dstLong ht

/-! Branches -/

theorem State.Canonical.link (h : s.Canonical) : (link s).Canonical := h.fly

theorem State.Canonical.markPbr (h : s.Canonical) {o} : (s.markPbr o).Canonical := by
  unfold State.markPbr
  split
  · exact h.modMe
  · exact h

theorem ends_execBrOffset (h : s.Canonical) : Ends (execBrOffset s) := ends_performBranch h h

theorem ends_execBrRegister (h : s.Canonical) : Ends (execBrRegister s) := ends_performBranch h <| (keeps_src h).bind fun _ h => h

theorem ends_execCallOffset (h : s.Canonical) : Ends (execCallOffset s) := ends_performBranch h h.link

theorem ends_execCallRegister (h : s.Canonical) : Ends (execCallRegister s) :=
  ends_performBranch h <| (keeps_src h).bind fun ⟨_, _⟩ ht => ht.link

theorem ends_execRet (h : s.Canonical) : Ends (execRet s) := ends_performBranch h h

theorem ends_execPbrOffset (h : s.Canonical) : Ends (execPbrOffset s) := ends_performSeq h <| keeps_dst h.markPbr

theorem ends_execPbrRegister (h : s.Canonical) : Ends (execPbrRegister s) :=
  ends_performSeq h <| (keeps_src h).bind fun ⟨_, _⟩ ht => keeps_dst ht.markPbr

/-! Engines -/

theorem ends_execEngineCommandStart (h : s.Canonical) : Ends (execEngineCommandStart s) := by
  unfold execEngineCommandStart
  split
  · split
    · refine Ends.ite ?_ (ends_next h)
      split
      · exact ends_next h.startArray
      · exact ends_next h.setCmd.tidyLine
      · exact ends_next h.setCmd
    · exact ends_next h
  · exact ends_next h

theorem yields_engineEffect (h : s.Canonical) {e x} : Yields (engineEffect e s x) := by
  cases e
  case vector => exact yields_vectorEffect h
  case array => exact yields_arrayStep h
  case row => exact yields_rowStep h
  case copy => exact yields_copyEffect h
  case selection => exact yields_carderEffect h

theorem ends_execEngineCommandComplete (h : s.Canonical) : Ends (execEngineCommandComplete s) := by
  unfold execEngineCommandComplete
  split
  · split
    · exact ends_next ((yields_engineEffect h).getD h)
    · exact ends_next h
  · exact ends_next h

/-! The module -/

namespace State.Canonical

theorem dropLeaving (h : s.Canonical) {ctx} : (dropLeaving s ctx).Canonical := h

theorem removeContext (h : s.Canonical) {ctx} : (removeContext s ctx).Canonical := by
  unfold Machine.removeContext
  extract_lets s1 s2 s3 mine s4 s5 gone disown
  have h1 : s1.Canonical := h.dropLeaving
  have h2 : s2.Canonical := h1.foldl (fun _ _ h => h.freeReq.ite h) _
  have h3 : s3.Canonical := h2.foldl (fun _ _ h => h.freeHandle.ite h) _
  have h4 : s4.Canonical := h3.foldl (fun _ _ h => h.destroyQueue) _
  have h5 : s5.Canonical := canonical_retirePages h4.dropPages _
  exact h5

theorem changeTables (h : s.Canonical) {ctx troot entries} : (changeTables s ctx troot entries).Canonical :=
  (h.foldl (fun _ _ h => canonical_writeEntry h _ _ _) entries).setContext

theorem moduleReset (h : s.Canonical) {a f} :
    State.Canonical { State.reset with hostMem := s.hostMem, agenda := a, fresh := f } := ⟨rfl, h.2.1, rfl, rfl, rfl, rfl⟩

end State.Canonical

theorem ends_execContextCreate (h : s.Canonical) : Ends (execContextCreate s) := by
  unfold execContextCreate
  split
  · dsimp only
    split <;> exact ends_next h
  · exact ends_next h

theorem ends_execContextEnd (h : s.Canonical) : Ends (execContextEnd s) := by
  unfold execContextEnd
  split
  · refine Ends.ite (ends_next h) ?_
    split
    · exact ends_next h.removeContext
    · exact ends_next (h.foldl (fun _ _ h => h.kill) _)
  · exact ends_next h

theorem ends_execOwnershipChange (h : s.Canonical) : Ends (execOwnershipChange s) := by
  unfold execOwnershipChange
  split
  · refine Ends.ite (ends_next h) (ends_next ?_)
    exact State.Canonical.foldl h (fun _ _ h => canonical_clearCore h _) (ownedTogether _)
  · exact ends_next h

theorem ends_execTranslationShootdown (h : s.Canonical) : Ends (execTranslationShootdown s) := by
  unfold execTranslationShootdown
  split
  · exact Ends.ite (ends_next h.changeTables) (Ends.ite (ends_next h) (ends_next h.setContext.dropPages))
  · exact ends_next h

theorem ends_execFlitReplay (h : s.Canonical) : Ends (execFlitReplay s) := by
  unfold execFlitReplay
  split
  · split
    · refine Ends.ite (ends_next h) ?_
      extract_lets n down hub s1 s2
      have h1 : s1.Canonical := h
      have h2 : s2.Canonical := by
        unfold s2
        split
        · exact h1.countHub
        · exact h1
      exact Ends.ite (ends_next (h2.foldl (fun _ _ h => h.abandonDevice) _)) (ends_next h1)
    · exact ends_next h
  · exact ends_next h

theorem ends_execPowerEstimate (h : s.Canonical) : Ends (execPowerEstimate s) := by
  unfold execPowerEstimate
  split <;> exact ends_next h

theorem ends_execThermalThrottle (h : s.Canonical) : Ends (execThermalThrottle s) := by
  unfold execThermalThrottle
  split
  · dsimp only
    split <;> exact ends_next h
  · exact ends_next h

theorem ends_execThermalStop (h : s.Canonical) : Ends (execThermalStop s) := by
  unfold execThermalStop
  split
  · dsimp only
    split <;> exact ends_next h
  · exact ends_next h

theorem ends_spdm (h : s.Canonical) {l o} : Ends (spdm s l o) := by
  unfold spdm
  refine Ends.ite (ends_next h) (ends_next ?_)
  exact h.draw.setHub

theorem ends_execFinish (h : s.Canonical) : Ends (execFinish s) := by
  unfold execFinish
  split
  · exact ends_spdm h
  · exact ends_next h

theorem ends_execKeyPairDelivery (h : s.Canonical) : Ends (execKeyPairDelivery s) := by
  unfold execKeyPairDelivery
  split
  · dsimp only
    split <;> exact ends_next h
  · exact ends_next h

theorem ends_execModuleReset (h : s.Canonical) : Ends (execModuleReset s) := by
  unfold execModuleReset
  split
  · exact ends_next h.moduleReset
  · exact ends_next h

/-! The host's windows and rings -/

namespace State.Canonical

theorem setTail (h : s.Canonical) {ctx t} : (setTail s ctx t).Canonical := h.setContext

theorem setSound (h : s.Canonical) {p bs} : (s.setSound p bs).Canonical := by
  induction bs generalizing s p with
  | nil => exact h
  | cons b bs ih => exact ih (h.ite (canonical_setByte h.under _ _))

theorem windowWrite (h : s.Canonical) {ctx fuel o bs} : (windowWrite ctx fuel o bs s).Canonical := by
  induction fuel generalizing s o bs with
  | zero => exact h
  | succ n ih =>
    refine h.ite (ih ?_)
    split
    · exact (sameMaps_filtersWrite _ _ _ _).canonical h.setSound
    · exact h

theorem pageWrite (h : s.Canonical) {ctx o v} : (pageWrite s ctx o v).Canonical := by
  refine State.Canonical.ite ?_ h.setContext
  split
  · exact h.qctlCreate
  · exact h.qctlDisable
  · exact h.qctlDestroy
  · exact h

theorem hostWrite (h : s.Canonical) {ctx o bs} : (hostWrite s ctx o bs).Canonical :=
  h.windowWrite.ite ((h.pageWrite.ite h).ite (h.latch.ite h))

end State.Canonical

theorem ends_execEgressWrite (h : s.Canonical) : Ends (execEgressWrite s) := by
  unfold execEgressWrite
  split
  · split
    · exact Ends.ite (ends_next h) (ends_next (State.Canonical.setHub (State.Canonical.setReq (State.Canonical.setContext (canonical_setHostBytes h _ _)))).countHub)
    · exact ends_next h
  · exact ends_next h

theorem ends_execReplyDoorbell (h : s.Canonical) : Ends (execReplyDoorbell s) := by
  unfold execReplyDoorbell
  split
  · exact ends_next (h.setTail.ite h)
  · exact ends_next h

theorem ends_execReplyDeliver (h : s.Canonical) : Ends (execReplyDeliver s) := by
  unfold execReplyDeliver
  split
  · refine Ends.ite (ends_next h) ?_
    extract_lets bs v n serial r step s1
    have hs : ∀ t : State, t.Canonical → (step t).Canonical := fun _ ht => ht.setContext
    have h1 : s1.Canonical := h.setReq.ite h
    clear_value s1 step
    refine Ends.ite ?_ (ends_next (hs _ h1.countHub))
    split
    · exact ends_next h
    · refine Ends.ite ?_ (ends_next h)
      split
      · exact ends_next h
      · exact ends_next (hs _ h.setHubNum.setHubNum)
  · exact ends_next h

theorem ends_execHostWindowAccess (h : s.Canonical) : Ends (execHostWindowAccess s) := by
  unfold execHostWindowAccess
  split
  · extract_lets hub answer
    have ha : ∀ bs, Ends (answer bs) := fun _ => ends_next h
    clear_value answer
    refine Ends.ite ?_ ?_
    · split
      · exact ends_next (canonical_setHostBytes h _ _)
      · exact ha _
    · split
      · exact ends_next h.hostWrite
      · exact ha _
      · exact ends_next h
  · exact ends_next h

/-! Traps and the end of launches -/

theorem ends_execTrap (h : s.Canonical) : Ends (execTrap s) := ends_perform h <| (keeps_src h).bind fun ⟨_, _⟩ ht => ht

theorem ends_execBrk (h : s.Canonical) : Ends (execBrk s) := ends_perform h <| (keeps_src h).bind fun ⟨_, _⟩ ht => ht

theorem yields_redeliverSend (h : s.Canonical) {u q idx} : Yields (redeliverSend s u q idx) :=
  (yields_some h.modCore).ite (((yields_some h.modCore).ite yields_none).ite (yields_some h.modCore.missing))

theorem yields_redeliverReply (h : s.Canonical) {u w id v} : Yields (redeliverReply s u w id v) := by
  unfold redeliverReply
  split
  · exact (yields_some h.modCore).ite yields_none
  · split
    · exact yields_some h.post
    · exact yields_some h.orphan

theorem yields_redispatch (h : s.Canonical) {u reply id} : Yields (redispatch s u reply id) := by
  unfold redispatch
  split
  · exact yields_some h
  · split
    · exact yields_redeliverSend h.modCore
    · exact yields_redeliverReply h.modCore

theorem State.Canonical.discard (h : s.Canonical) {u reply id} : (discard s u reply id).Canonical := by
  unfold Machine.discard
  split
  · exact h
  · split
    · exact h.modCore.returned
    · exact h.modCore

theorem keeps_requeue {z : State} (hz : z.Canonical) (h : s.Canonical) {w} : Keeps State.Canonical (requeue z s w) :=
  Keeps.ite h.turn.endStrand.modCore.learnFrom hz

theorem ends_execTret (h : s.Canonical) : Ends (execTret s) := by
  refine ends_perform h <| (keeps_srcAB h).bind fun ⟨_, _, t⟩ ht => bare_failIf.bind fun _ _ => ?_
  replace ht : t.Canonical := ht
  dsimp only
  split
  · trivial
  · refine Keeps.ite ?_ (Keeps.ite ?_ ?_)
    · refine (keeps_endWait h ht).bind fun u hu => Keeps.ite ?_ ?_
      · split
        · rename_i e
          exact (yields_redispatch hu _ e).dropTask
        · trivial
      · exact State.Canonical.dropTask (hu.discard.ite hu)
    · exact State.Canonical.ite ht.modMe.finish.holdArrival ht.modMe.finish
    · exact (keeps_endWait h ht).bind fun u hu => Keeps.ite (keeps_requeue h hu) hu.dropTask

theorem ends_execLkill (h : s.Canonical) : Ends (execLkill s) := by
  refine ends_performSeq h <| keeps_check trivial fun _ => (keeps_src h).bind fun ⟨_, t⟩ ht => ?_
  replace ht : t.Canonical := ht
  dsimp only
  split
  · exact keeps_dstLong ht
  · refine bare_failHubIf.bind fun _ _ => ?_
    split
    · exact h.kill.modMe
    · trivial
    · exact keeps_dstLong ht
    · exact keeps_dstLong ht

theorem State.Canonical.sweep (h : s.Canonical) {l} : (sweep s l).Canonical := by
  unfold Machine.sweep
  extract_lets s1 s2 s3
  have h1 : s1.Canonical := h.foldl (fun _ _ h => h.answered) _
  have h2 : s2.Canonical := h1.foldl (fun _ _ h => h.dropDead.modCore) _
  have h3 : s3.Canonical := h2.foldl (fun t m ht => by
    split
    · exact ht.dropMigrant.ite ht
    · exact ht) _
  exact h3

theorem ends_execLaunchClearComplete (h : s.Canonical) : Ends (execLaunchClearComplete s) := by
  unfold execLaunchClearComplete
  split
  · dsimp only
    split
    · refine Ends.ite ?_ (ends_next h)
      split
      · exact ends_next h.sweep.setLaunch.complete
      · exact ends_next h.sweep.setLaunch
    · exact ends_next h
  · exact ends_next h

theorem ends_execTvset (h : s.Canonical) : Ends (execTvset s) :=
  ends_performSeq h <| (keeps_src h).bind fun ⟨_, _⟩ ht => bare_failIf.bind fun _ _ => ht.setContext.landLong

theorem bare_areaClosed {p a n} : Bare (areaClosed s p a n) := by
  unfold areaClosed
  split <;> trivial

theorem bare_storable {a n} : Bare (storable s a n) := by
  induction n generalizing a with
  | zero => trivial
  | succ n ih =>
    unfold storable
    split
    · trivial
    · exact Keeps.ite trivial ih

theorem ends_execFrset (h : s.Canonical) : Ends (execFrset s) := by
  refine ends_performSeq h <| (keeps_srcAB h).bind fun ⟨_, _, t⟩ ht => bare_failIf.bind fun _ _ => ?_
  replace ht : t.Canonical := ht
  dsimp only
  refine Keeps.ite ht.setContext.landLong <| bare_storable.bind fun _ _ => ?_
  split
  · trivial
  · refine keeps_choose bare_areaClosed trivial fun _ _ => bare_awaitWrites.bind fun _ _ => ?_
    split
    · trivial
    · exact ht.setArea.setContext.landLong

end

end Sys2Proof.Machine
end

section
/-! Inputs from outside, every row, and the step -/

namespace Sys2Proof.Machine

section
variable {s : State}

namespace State.Canonical

theorem poisonUnit (h : s.Canonical) {p} : (poisonUnit s p).Canonical := by
  refine State.Canonical.ite ?_ h
  exact ⟨h.1, h.2.1, h.2.2.1, h.2.2.2.1, sset_swf h.2.2.2.2.1 _ true, h.2.2.2.2.2⟩

theorem holdCopy (h : s.Canonical) {ctx dev k off bs} : (holdCopy s ctx dev k off bs).Canonical := by
  unfold Machine.holdCopy
  dsimp only
  split
  · exact h.putSlot.ite h
  · exact h

theorem becomeSpare (h : s.Canonical) {d ctx r bs} : (becomeSpare s d ctx r bs).Canonical := h.setHub.loadPages.ite h

theorem doInput (h : s.Canonical) (i : Input) : (doInput s i).Canonical := by
  cases i
  case nextStage => exact h
  case hostLink => exact h.ite h.setHub
  case function =>
    unfold Machine.doInput mapFunction
    exact h.setHub.ite h
  case functionPower => exact h
  case deviceLink => exact h.setHub.ite h
  case deviceGroup => exact h.setHub.ite h
  case powerLimit => exact h.setHub.ite h
  case exchangePage => exact h.setContext.ite h
  case uncorrectable => exact h.poisonUnit
  case corrected => exact h.count
  case checkpointCopy => exact h.holdCopy
  case spare => exact h.becomeSpare
  case cachePage => exact h.cachePage.ite h
  case dropPage => exact (h.setBarn.ite h.modCore).ite h

end State.Canonical

/-- A row that is an engine's command leaves a canonical state. -/
theorem ends_command (h : s.Canonical) {i : Instr} (hi : (commandOf i).isSome = true) : Ends (exec i s) := by
  cases i with
  | vadd | vsub | vmul | vdiv | vfma | vmin | vmax | vabs | vneg | vrcp | vrsq | vexp2 => exact cmdKeeps_typed.ends h
  | vand | vor | vxor | vnot | vceq | vcne | vclt | vcle | vsel | vmov | vbcast | vrsum | vrmax | mand | mor | mxor |
    mnot | mset | mclr => exact cmdKeeps_plain.ends h
  | vshl | vshr | vsar => exact cmdKeeps_shift.ends h
  | vcvt => exact cmdKeeps_cmdVcvt.ends h
  | vld | vst => exact cmdKeeps_tiled.ends h
  | vldd => exact cmdKeeps_cmdVldd.ends h
  | vpush | vpop | vtrn | vshf => exact cmdKeeps_limited.ends h
  | mld | mst => exact cmdKeeps_masked.ends h
  | mmaB8 | mmaF16 | mmaBf16 => exact cmdKeeps_mma.ends h
  | mzero => exact cmdKeeps_cmdMzero.ends h
  | acld | acst => exact cmdKeeps_tileCmd.ends h
  | acmv => exact cmdKeeps_cmdAcmv.ends h
  | rstat => exact cmdKeeps_cmdRstat.ends h
  | cpy | cpyFill | cpy2d | cpyGth => exact cmdKeeps_copyCmd.ends h
  | crdOpen => exact ends_carderCmd h makesBare_makeCrdOpen
  | crdDig | crdWdig | crdPlane => exact ends_carderCmd h makesBare_digitCmd
  | crdElim => exact ends_carderCmd h makesBare_makeCrdElim
  | crdRes => exact ends_carderCmd h makesBare_makeCrdRes
  | crdWait | crdClose => exact ends_carderCmd h makesBare_sessionCmd
  | _ => exact absurd hi Bool.false_ne_true

/-- A row that is an event leaves a canonical state. -/
theorem ends_eventRow (h : s.Canonical) {i : Instr} (hi : i.opc = none) : Ends (exec i s) := by
  cases i with
  | getVersion | getCapabilities | negotiateAlgorithms | getDigests | getCertificate | challenge | getMeasurements |
    keyExchange | endSession | heartbeat => exact ends_spdm h
  | migrantArrival => exact ends_execMigrantArrival h
  | stayRequestAtHome => exact ends_execStayRequestAtHome h
  | replyArrival => exact ends_execReplyArrival h
  | forwardingEntryLapse => exact ends_execForwardingEntryLapse h
  | subbyteStoreAtHome => exact ends_execSubbyteStoreAtHome h
  | pushGranuleWrite => exact ends_execPushGranuleWrite h
  | callatArrival => exact ends_execCallatArrival h
  | sendArrival => exact ends_execSendArrival h
  | jarvArrival => exact ends_execJarvArrival h
  | handlerLockLapse => exact ends_execHandlerLockLapse h
  | slotSelect => exact ends_execSlotSelect h
  | forcedSwitch => exact ends_execForcedSwitch h
  | stealAttempt => exact ends_execStealAttempt h
  | stealGrantArrival => exact ends_execStealGrantArrival h
  | stealTimeout => exact ends_execStealTimeout h
  | stealBackoffExpiry => exact ends_execStealBackoffExpiry h
  | budgetExhausted => exact ends_execBudgetExhausted h
  | weightReturn => exact ends_execWeightReturn h
  | serialNoticeArrival => exact ends_execSerialNoticeArrival h
  | notify => exact ends_execNotify h
  | queueMap => exact ends_execQueueMap h
  | launchStart => exact ends_execLaunchStart h
  | queueIdleUnmap => exact ends_execQueueIdleUnmap h
  | queueEvict => exact ends_execQueueEvict h
  | qctlCreate => exact ends_execQctlCreate h
  | qctlDisable => exact ends_execQctlDisable h
  | qctlDestroy => exact ends_execQctlDestroy h
  | completionPost => exact ends_execCompletionPost h
  | clockNoticeSend => exact ends_execClockNoticeSend h
  | clockNoticeArrival => exact ends_execClockNoticeArrival h
  | translationShootdown => exact ends_execTranslationShootdown h
  | ownershipChange => exact ends_execOwnershipChange h
  | engineCommandStart => exact ends_execEngineCommandStart h
  | engineCommandComplete => exact ends_execEngineCommandComplete h
  | deferredFault => exact ends_execDeferredFault h
  | carderRegistration => exact ends_execCarderRegistration h
  | fullerCompaction => exact ends_execFullerCompaction h
  | scrubCheck => exact ends_execScrubCheck h
  | rposNotice => exact ends_execRposNotice h
  | egressWrite => exact ends_execEgressWrite h
  | replyDoorbell => exact ends_execReplyDoorbell h
  | replyDeliver => exact ends_execReplyDeliver h
  | handlerBudgetExpiry => exact ends_execHandlerBudgetExpiry h
  | launchClearComplete => exact ends_execLaunchClearComplete h
  | collContributionArrival => exact ends_execCollContributionArrival h
  | collWatchdogExpiry => exact ends_execCollWatchdogExpiry h
  | collAbandonArrival => exact ends_execCollAbandonArrival h
  | ckptBarrierTimeout => exact ends_execCkptBarrierTimeout h
  | deviceRecovery => exact ends_execDeviceRecovery h
  | flitReplay => exact ends_execFlitReplay h
  | powerEstimate => exact ends_execPowerEstimate h
  | thermalThrottle => exact ends_execThermalThrottle h
  | thermalStop => exact ends_execThermalStop h
  | moduleReset => exact ends_execModuleReset h
  | finish => exact ends_execFinish h
  | illegalInstruction => exact ends_execIllegalInstruction h
  | fetchFault => exact ends_execFetchFault h
  | stealRequestAtVictim => exact ends_execStealRequestAtVictim h
  | writeAcknowledgement => exact ends_execWriteAcknowledgement h
  | hostWindowAccess => exact ends_execHostWindowAccess h
  | contextCreate => exact ends_execContextCreate h
  | contextEnd => exact ends_execContextEnd h
  | keyPairDelivery => exact ends_execKeyPairDelivery h
  | _ => exact nomatch hi

/-- An instruction that is neither a form of registers nor a command leaves a canonical state. -/
theorem ends_instruction (h : s.Canonical) {i : Instr}
    (hi : (registerForm i || (commandOf i).isSome || i.opc.isNone) = false) : Ends (exec i s) := by
  cases i with
  | ld | lds | ldd | ldAcq | ldfC | ldfK | tfe => exact ends_load h
  | st | st4 | st2 | stRel | stf => exact ends_store h
  | amadd | amin | amax | aand | aor | axor | aswap => exact ends_atomic h
  | fenceRel | fence => exact ends_fenceWait h
  | sete | setf => exact ends_mark h
  | suspendDrain | suspendRecord => exact ends_suspend h
  | collSmp | collRed => exact ends_collForm h
  | brOffset => exact ends_execBrOffset h
  | brRegister => exact ends_execBrRegister h
  | callOffset => exact ends_execCallOffset h
  | callRegister => exact ends_execCallRegister h
  | ret => exact ends_execRet h
  | pbrOffset => exact ends_execPbrOffset h
  | pbrRegister => exact ends_execPbrRegister h
  | ldp128 => exact ends_execLdp128 h
  | stp128 => exact ends_execStp128 h
  | acas => exact ends_execAcas h
  | fenceAcq => exact ends_execFenceAcq h
  | fenceTotal => exact ends_execFenceTotal h
  | bdecl => exact ends_execBdecl h
  | bstat => exact ends_execBstat h
  | hrd => exact ends_execHrd h
  | hwr => exact ends_execHwr h
  | push => exact ends_execPush h
  | push2d => exact ends_execPush2d h
  | pushFill => exact ends_execPushFill h
  | hpf => exact ends_execHpf h
  | keysel => exact ends_execKeysel h
  | hfence => exact ends_execHfence h
  | fork => exact ends_execFork h
  | done => exact ends_execDone h
  | callat => exact ends_execCallat h
  | send => exact ends_execSend h
  | jinit => exact ends_execJinit h
  | jarv => exact ends_execJarv h
  | wmint => exact ends_execWmint h
  | gform => exact ends_execGform h
  | gleave => exact ends_execGleave h
  | barWait => exact ends_execBarWait h
  | barQry => exact ends_execBarQry h
  | hset => exact ends_execHset h
  | hlock => exact ends_execHlock h
  | hunlock => exact ends_execHunlock h
  | sdom => exact ends_execSdom h
  | kvNew => exact ends_execKvNew h
  | kvDrop => exact ends_execKvDrop h
  | kvApp => exact ends_execKvApp h
  | kvLen => exact ends_execKvLen h
  | kvRef => exact ends_execKvRef h
  | kvCut => exact ends_execKvCut h
  | lfArm => exact ends_execLfArm h
  | lfTop => exact ends_execLfTop h
  | lfSum => exact ends_execLfSum h
  | lfEnd => exact ends_execLfEnd h
  | stopSet => exact ends_execStopSet h
  | stopClr => exact ends_execStopClr h
  | trOpen => exact ends_execTrOpen h
  | trCall => exact ends_execTrCall h
  | trPut => exact ends_execTrPut h
  | trConf => exact ends_execTrConf h
  | trMiss => exact ends_execTrMiss h
  | trClose => exact ends_execTrClose h
  | trQry => exact ends_execTrQry h
  | trLim => exact ends_execTrLim h
  | emit => exact ends_execEmit h
  | dtNode => exact ends_execDtNode h
  | dtAccept => exact ends_execDtAccept h
  | dtReset => exact ends_execDtReset h
  | trap => exact ends_execTrap h
  | brk => exact ends_execBrk h
  | tret => exact ends_execTret h
  | lkill => exact ends_execLkill h
  | tvset => exact ends_execTvset h
  | frset => exact ends_execFrset h
  | resume => exact ends_execResume h
  | ccopy => exact ends_execCcopy h
  | cdisc => exact ends_execCdisc h
  | cinsp => exact ends_execCinsp h
  | gthaw => exact ends_execGthaw h
  | crights => exact ends_execCrights h
  | ckptSave => exact ends_execCkptSave h
  | ckptCommit => exact ends_execCkptCommit h
  | ecntSel => exact ends_execEcntSel h
  | ecntRd => exact ends_execEcntRd h
  | keyWrite => exact ends_execKeyWrite h
  | budWrite => exact ends_execBudWrite h
  | brmodeWrite => exact ends_execBrmodeWrite h
  | vshapeWrite => exact ends_execVshapeWrite h
  | mxcfgWrite => exact ends_execMxcfgWrite h
  | registerWrite => exact ends_execRegisterWrite h
  | bfill => exact (show Ends (execBfill s) from ends_bufferEvent h)
  | bpub => exact (show Ends (execBpub s) from ends_bufferEvent h)
  | bdrain => exact (show Ends (execBdrain s) from ends_bufferEvent h)
  | bfree => exact (show Ends (execBfree s) from ends_bufferEvent h)
  | barArv => exact (show Ends (execBarArv s) from ends_arrival h)
  | barDrop => exact (show Ends (execBarDrop s) from ends_arrival h)
  | mAny => exact (show Ends (execMAny s) from ends_maskQuery h)
  | mPopc => exact (show Ends (execMPopc s) from ends_maskQuery h)
  | mFirst => exact (show Ends (execMFirst s) from ends_maskQuery h)
  | _ => exact Bool.noConfusion (show true = false from hi)

/-- Whatever a row does in a canonical state, what it leaves is canonical. -/
theorem ends_exec (h : s.Canonical) (i : Instr) : Ends (exec i s) := by
  by_cases hr : registerForm i = true
  · exact (registerForm_onlyWrites hr).keepsMaps s h
  by_cases hc : (commandOf i).isSome = true
  · exact ends_command h hc
  by_cases hi : i.opc = none
  · exact ends_eventRow h hi
  · exact ends_instruction h (by simp [hr, hc, Option.isSome_iff_ne_none.2 hi])

/-! A core's cycle -/

/-- A row performed with a word in hand or an event to come. -/
theorem ends_row (h : s.Canonical) {i : Instr} {ir ev} : Ends (exec i { s with ir := ir, ev := ev }) :=
  ends_exec (s := { s with ir := ir, ev := ev }) h i

theorem ends_event (h : s.Canonical) {i : Instr} {ev} : Ends (exec i { s with ev := ev }) :=
  ends_exec (s := { s with ev := ev }) h i

theorem ends_agendaEvent (h : s.Canonical) {i : Instr} {l ev} : Ends (exec i { s with agenda := l, ev := ev }) :=
  ends_exec (s := { s with agenda := l, ev := ev }) h i

theorem ends_attempt (h : s.Canonical) {u k} : Ends (attempt exec u k s) := by
  have h0 : State.Canonical { s with focusU := u, focusK := k } := h
  exact Ends.ite (ends_event h0) (Ends.ite (ends_event h0) (ends_row h0.fetching))

theorem ends_recheck (h : s.Canonical) {u k} : Ends (recheck exec u k s) := by
  have ha : Ends (attempt exec u k s) := ends_attempt h
  unfold recheck
  split
  · rename_i e
    exact Ends.ite (ends_next (ha _ e)) (ends_next h.modSlot)
  · exact ha

theorem ends_beginSlot (h : s.Canonical) {u k} : Ends (beginSlot exec u k s) := by
  unfold beginSlot
  extract_lets t sl
  have ht : t.Canonical := h.modCore.settleOwed
  clear_value t
  refine Ends.ite (ends_event ht) <| Ends.ite (ends_next ht.settleDue) <| Ends.ite (ends_next ht.clearSlot) <|
    Ends.ite (Ends.ite (ends_event ht) (ends_event ht)) <| Ends.ite (ends_event ht) <| Ends.ite (ends_event ht) <|
    Ends.ite (ends_next ?_) <| Ends.ite (ends_recheck ht) (ends_next ht)
  split
  · exact ht.longCome
  · exact ht.modSlot.ite ht

theorem ends_eachSlot {f : Nat → State → Host.Outcome State Fault Refusal} (hf : ∀ k (t : State), t.Canonical → Ends (f k t))
    {ks : List Nat} (h : s.Canonical) : Ends (eachSlot f ks s) := by
  induction ks generalizing s with
  | nil => exact ends_next h
  | cons k ks ih =>
    unfold eachSlot
    split
    · rename_i e
      exact ih (hf k s h _ e)
    all_goals exact fun _ e => by cases e

theorem ends_tryAll {u : Nat} {ks : List Nat} (h : s.Canonical) : Ends (tryAll exec u ks s) := by
  induction ks generalizing s with
  | nil => exact ends_next h
  | cons k ks ih =>
    unfold tryAll
    refine Ends.ite ?_ (ih h)
    have ha : Ends (attempt exec u k s) := ends_attempt h
    split
    · rename_i e
      exact Ends.ite (ih (ha _ e)) (ends_next (ha _ e))
    all_goals exact fun _ e => by cases e

theorem ends_cycle {u : Nat} (h : s.Canonical) : Ends (cycle exec u s) := by
  unfold cycle
  refine Ends.ite (ends_next h) ?_
  have he : Ends (eachSlot (beginSlot exec u) (List.range (s.core u).slots.length) s) := ends_eachSlot (fun _ _ ht => ends_beginSlot ht) h
  dsimp only
  split
  · rename_i t e
    have ht : Ends (tryAll exec u ((t.modCore u Core.fixHolder).core u).candidates (t.modCore u Core.fixHolder)) :=
      ends_tryAll (he _ e).modCore
    split
    · rename_i e'
      exact ends_next (ht _ e').endCycle
    · exact ht
  · exact he

theorem State.Canonical.onAgenda (h : s.Canonical) {l} : State.Canonical { s with agenda := l } := h

end

/-- Settles O57: each row, each input and each part of a core's cycle in turn. -/
theorem stepKeepsCanonical : Obligations.StepKeepsCanonical := by
  unfold Obligations.StepKeepsCanonical
  intro s t h
  have hs : Ends (step s) := by
    unfold step stepWith
    split
    · exact ends_cycle h
    · exact ends_cycle h.onAgenda
    · split
      · exact ends_agendaEvent h
      · exact ends_next h.onAgenda
    · dsimp only
      split
      · exact ends_next h.onAgenda
      · exact ends_next (h.onAgenda.doInput _)
  exact hs t

end Sys2Proof.Machine
end

section
/-! A form of class 10 at issue: its tests in their order, and the way its access takes (R183, R187, R208, R220). -/

namespace Sys2Proof.Machine

/-! What a form does once its operands are read -/

/-- The way an access takes from a strand of `s0` once its place has passed the tests and its release has waited (R187). -/
def wayOf (f : MemForm) (p : Place) (a : Nat) (put : Bool → Nat → State → Run) (s0 t : State) : Run :=
  let done := fun (r : Run) => r >>= fun t => .ok t.passed
  if f.op.isSub then done (if p.near then accessNow f p a put t else accessSend f p a t)
  else
    match routeOf t p with
    | .near => done (if f.op.takes then accessLong f p a s0 t else accessNow f p a put t)
    | .home =>
      if sends f p then done (accessSend f p a t)
      else if f.op.plain then accessNow f p a put t >>= fun u => .ok (takeBack s0 u).passed
      else done (accessLong f p a s0 t)
    | .away => migrate s0 p.home
    | .ask =>
      if f.op.replies then
        (if noKey t t.st.ctx p then failAt .memNokey a else .ok ()) >>= fun _ => done (sendRequest f p a t)
      else done (accessSend f p a t)

/-- A form of class 10 stands at issue, its sources read to `t`, and is the access `f` at the address `a`. -/
structure State.Forms (s : State) (more : List Opd) (build : State → Except Stop (MemForm × State)) (a : Nat)
    (f : MemForm) (t : State) : Prop where
  standing : s.Standing
  entries : whole (s.ir.a :: more) s = .ok ()
  built : ∃ b u, s.ReadsA b u ∧ a = s.address b ∧ build u = .ok (f, t)

/-- A form that reads the registers of a pair (R222, R228). -/
def formPair (F : State → MemForm) (s : State) : Except Stop (MemForm × State) := .ok (F s, s)

/-- The access of a store from a pair (R222). -/
def storePairForm (s : State) : MemForm := { kind := .store, size := 16, op := .storePair (pairOf s).1 (pairOf s).2 }

/-- The access of a compare and swap (R228). -/
def casForm (w : Wide) (od : Ord) (s : State) : MemForm :=
  { kind := .atomic, size := wideBytes w, op := .cas (wideBytes w) (pairOf s).1 (pairOf s).2, inSc := true, acq := ordAcquires od,
    rel := ordReleases od }

/-- The access of an atomic that reads its operand from D (R227). -/
def atomForm (op : AtomOp) (n : Nat) (od : Ord) (v : Word) : MemForm :=
  { kind := .atomic, size := n, op := .atom op n v, inSc := true, acq := ordAcquires od, rel := ordReleases od }

theorem exec_stp128_pair (s : State) : exec .stp128 s = memory s [] (formPair storePairForm) noResult := rfl

theorem exec_acas_pair (w : Wide) (od : Ord) (s : State) :
    exec (.acas w od) s = memory s [] (formPair (casForm w od)) (loadDst 3) := rfl

section
variable {s t : State} {more : List Opd} {build : State → Except Stop (MemForm × State)} {a : Nat} {f : MemForm}
  {put : Bool → Nat → State → Run}

theorem memory_forms (h : s.Forms more build a f t) :
    memory s more build put = settleRun s (locateForm t a f >>= fun p =>
      (if f.rel then releaseWait s t.ir.sc else .ok ()) >>= fun _ => wayOf f p a put s t) := by
  obtain ⟨⟨hready, hacq, -, -⟩, hm, b, u, ha, he, hb⟩ := h
  unfold memory
  rw [perform_ready hready]
  simp only [hacq, List.isEmpty_nil, if_true, hm, ea_of ha, ← he, hb, bind, Except.bind]
  congr 1
  cases locateForm t a f with
  | error e => rfl
  | ok p =>
    dsimp only [wayOf]
    cases f.rel <;> cases noKey t t.st.ctx p <;> rfl

namespace State.Forms

/-- A form that reads nothing but A. -/
theorem of_form {b : Word} (hs : s.Standing) (ha : s.ReadsA b t) : s.Forms [] (form f) (s.address b) f t :=
  ⟨hs, whole_one ha, b, t, ha, rfl, rfl⟩

/-- A form that stores from D, which is read after A. -/
theorem of_formD {u : State} {b v : Word} {F : Word → MemForm} (hs : s.Standing) (ha : s.ReadsA b u)
    (hd : src u.ir.d u = .ok (v, t)) : s.Forms [s.ir.d] (formD F) (s.address b) (F v) t := by
  refine ⟨hs, whole_two ha (by rw [← src_ir ha]; exact hd), b, u, ha, rfl, ?_⟩
  simp only [formD, hd, bind, Except.bind, pure, Except.pure]

/-- A form that reads the registers of a pair, and no source beside A. -/
theorem of_pair {b : Word} {F : State → MemForm} (hs : s.Standing) (ha : s.ReadsA b t) :
    s.Forms [] (formPair F) (s.address b) (F t) t := ⟨hs, whole_one ha, b, t, ha, rfl, rfl⟩

/-- A test that fails traps, and the instruction has no effect. -/
theorem traps {e : Trap} (h : s.Forms more build a f t) (hl : locateForm t a f = .error (.trap e)) :
    memory s more build put = .next (s.trapHere e) := by
  rw [memory_forms h, hl]
  rfl

/-- A form whose tests pass and whose release has nothing left to wait for goes its way. -/
theorem goes {p : Place} (h : s.Forms more build a f t) (hl : locateForm t a f = .ok p)
    (hr : f.rel = true → s.Released t.ir.sc) : memory s more build put = settleRun s (wayOf f p a put s t) := by
  rw [memory_forms h, hl]
  cases hf : f.rel with
  | true => simp only [if_true, releaseWait_ok (hr hf)]; rfl
  | false => rfl

end State.Forms

/-! The tests (R183, R192, R208, R225) -/

/-- The trap of a test, which names the address. -/
abbrev trapAt (c : Cause) (a : Nat) : Trap := { cause := c, addr := BitVec.ofNat 64 a }

theorem locateForm_align (h : a % f.size ≠ 0) : locateForm t a f = .error (.trap (trapAt .align a)) := by
  unfold locateForm
  rw [if_neg h]
  rfl

theorem locateForm_feAddr (h : a % f.size = 0) (hf : f.fe = true) (hr : regionOf a = .h) :
    locateForm t a f = .error (.trap (trapAt .feAddr a)) := by
  unfold locateForm
  simp only [h, hf, hr, if_true, bind, Except.bind, beq_self_eq_true, Bool.and_self]
  rfl

/-- A full/empty form takes no address of region H. -/
def MemForm.Takes (f : MemForm) (a : Nat) : Prop := a % f.size = 0 ∧ (f.fe = true → regionOf a ≠ .h)

/-- Past the tests of alignment and region, what is left is translation and what follows it. -/
theorem locateForm_takes (h : f.Takes a) : locateForm t a f = match locate t t.focusU t.st.ctx a f.kind with
    | .error c => .error (.trap (trapAt c a))
    | .ok p => (if f.op == .decode then decodeTests p a else .ok ()) >>= fun _ =>
      (if f.inSc && !inScope t.focusU p.home t.ir.sc then .error (.trap (trapAt .scopeOut a)) else .ok ()) >>= fun _ => .ok p := by
  obtain ⟨ha, hr⟩ := h
  have hf : (f.fe && regionOf a == .h) = false := by
    cases h : f.fe with
    | true => simpa using hr h
    | false => rfl
  unfold locateForm
  simp only [if_pos ha, hf, bind, Except.bind]
  cases locate t t.focusU t.st.ctx a f.kind with
  | error c => rfl
  | ok p =>
    dsimp only
    cases f.op == .decode <;> cases f.inSc && !inScope t.focusU p.home t.ir.sc <;> rfl

theorem locateForm_unlocated {c : Cause} (h : f.Takes a) (hl : locate t t.focusU t.st.ctx a f.kind = .error c) :
    locateForm t a f = .error (.trap (trapAt c a)) := by
  rw [locateForm_takes h, hl]

theorem locateForm_scopeOut {p : Place} (h : f.Takes a) (hl : locate t t.focusU t.st.ctx a f.kind = .ok p)
    (hd : (f.op == .decode) = false) (hi : f.inSc = true) (hs : inScope t.focusU p.home t.ir.sc = false) :
    locateForm t a f = .error (.trap (trapAt .scopeOut a)) := by
  rw [locateForm_takes h, hl]
  simp only [hd, hi, hs]
  rfl

theorem locateForm_found {p : Place} (h : f.Takes a) (hl : locate t t.focusU t.st.ctx a f.kind = .ok p)
    (hd : f.op = .decode → decodeTests p a = .ok ()) (hi : f.inSc = true → inScope t.focusU p.home t.ir.sc = true) :
    locateForm t a f = .ok p := by
  rw [locateForm_takes h, hl]
  have hd' : (if f.op == .decode then decodeTests p a else .ok ()) = .ok () := by
    split
    · rename_i e; exact hd (by simpa using e)
    · rfl
  have hi' : (f.inSc && !inScope t.focusU p.home t.ir.sc) = false := by
    cases h : f.inSc with
    | true => rw [hi h]; rfl
    | false => rfl
  simp only [hd', hi']
  rfl

/-- A form that is no full/empty form takes every address that is aligned for it. -/
theorem MemForm.Takes.plain (ha : a % f.size = 0) (hf : f.fe = false) : f.Takes a := ⟨ha, fun h => by rw [hf] at h; cases h⟩

end

/-! The rows of class 10 and their accesses -/

/-- The rows that read an address alone and give a result, each with its access and where its result goes (R221, R222, R225,
R226, R230, R231). -/
inductive LoadRow : Instr → MemForm → (Bool → Nat → State → Run) → Prop where
  | ld (w : Width) : LoadRow (.ld w) (loadForm w) (loadDst 3)
  | lds (w : Narrow) : LoadRow (.lds w) { kind := .load, size := narrowBytes w, op := .load (narrowBytes w) true } (loadDst 3)
  | ldp128 : LoadRow .ldp128 { kind := .load, size := 16, op := .pair } loadPair
  | ldd : LoadRow .ldd { kind := .load, size := 1, op := .decode } (loadDst 6)
  | ldAcq (w : Wide) : LoadRow (.ldAcq w)
      { kind := .load, size := wideBytes w, op := .load (wideBytes w) false, inSc := true, acq := true } (loadDst 3)
  | ldfC (w : Wide) : LoadRow (.ldfC w) { kind := .load, size := wideBytes w, op := .take (wideBytes w) true, fe := true } (loadDst 3)
  | ldfK (w : Wide) : LoadRow (.ldfK w) { kind := .load, size := wideBytes w, op := .take (wideBytes w) false, fe := true } (loadDst 3)
  | tfe : LoadRow .tfe { kind := .load, size := 16, op := .testFull, fe := true } (loadDst 3)

/-- The rows that store D whole, each with its access (R223, R226, R231). -/
inductive StoreRow : Instr → (Word → MemForm) → Prop where
  | st (w : Width) : StoreRow (.st w) fun v => { kind := .store, size := widthBytes w, op := .store (widthBytes w) v }
  | stRel (w : Wide) : StoreRow (.stRel w) fun v =>
      { kind := .store, size := wideBytes w, op := .store (wideBytes w) v, inSc := true, rel := true }
  | stf (w : Wide) : StoreRow (.stf w) fun v =>
      { kind := .store, size := wideBytes w, op := .storeFull (wideBytes w) v, fe := true }

/-- The rows that set and clear a full/empty bit, each with its access (R231). -/
inductive MarkRow : Instr → MemForm → Prop where
  | setf : MarkRow .setf { kind := .store, size := 16, op := .setFull, fe := true }
  | sete : MarkRow .sete { kind := .store, size := 16, op := .setEmpty, fe := true }

/-- The atomics whose operand is D, each with its operation, width and order (R227). -/
inductive AtomRow : Instr → AtomOp → Nat → Ord → Prop where
  | amadd (w : Wide) (od : Ord) : AtomRow (.amadd w od) .add (wideBytes w) od
  | amin (g : Sgn) (od : Ord) : AtomRow (.amin g od) (.min g) 8 od
  | amax (g : Sgn) (od : Ord) : AtomRow (.amax g od) (.max g) 8 od
  | aand (od : Ord) : AtomRow (.aand od) .and 8 od
  | aor (od : Ord) : AtomRow (.aor od) .or 8 od
  | axor (od : Ord) : AtomRow (.axor od) .xor 8 od
  | aswap (od : Ord) : AtomRow (.aswap od) .swap 8 od

section
variable {i : Instr} {f : MemForm} {F : Word → MemForm} {put : Bool → Nat → State → Run}

theorem LoadRow.exec_eq (h : LoadRow i f put) (s : State) : exec i s = memory s [] (form f) put := by cases h <;> rfl

theorem LoadRow.op (h : LoadRow i f put) : f.op.isSub = false ∧ f.op.replies = true ∧ f.kind = .load ∧ f.rel = false := by
  cases h <;> exact ⟨rfl, rfl, rfl, rfl⟩

theorem StoreRow.exec_eq (h : StoreRow i F) (s : State) : exec i s = memory s [s.ir.d] (formD F) noResult := by cases h <;> rfl

theorem StoreRow.op (h : StoreRow i F) (v : Word) : (F v).op.isSub = false ∧ (F v).op.replies = false ∧ (F v).kind = .store := by
  cases h <;> exact ⟨rfl, rfl, rfl⟩

theorem MarkRow.exec_eq (h : MarkRow i f) (s : State) : exec i s = memory s [] (form f) noResult := by cases h <;> rfl

theorem MarkRow.op (h : MarkRow i f) : f.op.isSub = false ∧ f.op.replies = false ∧ f.kind = .store := by
  cases h <;> exact ⟨rfl, rfl, rfl⟩

theorem AtomRow.exec_eq {op : AtomOp} {n : Nat} {od : Ord} (h : AtomRow i op n od) (s : State) :
    exec i s = memory s [s.ir.d] (formD (atomForm op n od)) (loadDst 3) := by cases h <;> rfl

end

/-! Forms whose place is found -/

/-- A form of `n` bytes of kind `k` whose place is `p` passes the rest of its tests, and its release has nothing left to wait
for. -/
structure MemForm.Passes (f : MemForm) (s t : State) (k : Access) (n a : Nat) (p : Place) : Prop where
  kind : f.kind = k
  size : f.size = n
  decoded : f.op = .decode → decodeTests p a = .ok ()
  region : f.fe = true → regionOf a ≠ .h
  scope : f.inSc = true → inScope t.focusU p.home t.ir.sc = true
  released : f.rel = true → s.Released t.ir.sc

section
variable {s t : State} {k : Access} {n a : Nat} {p : Place} {v : Word} {put : Bool → Nat → State → Run}

/-- A form whose tests pass goes its way. -/
theorem State.Forms.way {more : List Opd} {build : State → Except Stop (MemForm × State)} {f : MemForm}
    (h : s.Forms more build a f t) (ha : a % n = 0) (hl : locate t t.focusU t.st.ctx a k = .ok p) (hp : f.Passes s t k n a p) :
    memory s more build put = settleRun s (wayOf f p a put s t) :=
  h.goes (locateForm_found ⟨by rw [hp.size]; exact ha, hp.region⟩ (by rw [hp.kind]; exact hl) hp.decoded hp.scope) hp.released

theorem State.Finds.way {f : MemForm} (h : s.Finds k n a p t) (hp : f.Passes s t k n a p) :
    memory s [] (form f) put = settleRun s (wayOf f p a put s t) := by
  obtain ⟨hs, ⟨b, hA, rfl⟩, ha, hl⟩ := h
  exact (State.Forms.of_form hs hA).way ha hl hp

theorem State.Finds.way_pair {F : State → MemForm} (h : s.Finds k n a p t) (hp : (F t).Passes s t k n a p) :
    memory s [] (formPair F) put = settleRun s (wayOf (F t) p a put s t) := by
  obtain ⟨hs, ⟨b, hA, rfl⟩, ha, hl⟩ := h
  exact (State.Forms.of_pair hs hA).way ha hl hp

theorem State.FindsD.way {F : Word → MemForm} (h : s.FindsD k n a p v t) (hp : (F v).Passes s t k n a p) :
    memory s [s.ir.d] (formD F) put = settleRun s (wayOf (F v) p a put s t) := by
  obtain ⟨hs, ⟨b, u, hA, rfl, hD⟩, ha, hl⟩ := h
  exact (State.Forms.of_formD hs hA hD).way ha hl hp

theorem LoadRow.way {i : Instr} {f : MemForm} (hrow : LoadRow i f put) (h : s.Finds k n a p t) (hp : f.Passes s t k n a p) :
    exec i s = settleRun s (wayOf f p a put s t) := (hrow.exec_eq s).trans (h.way hp)

theorem MarkRow.way {i : Instr} {f : MemForm} (hrow : MarkRow i f) (h : s.Finds k n a p t) (hp : f.Passes s t k n a p) :
    exec i s = settleRun s (wayOf f p a noResult s t) := (hrow.exec_eq s).trans (h.way hp)

theorem StoreRow.way {i : Instr} {F : Word → MemForm} (hrow : StoreRow i F) (h : s.FindsD k n a p v t)
    (hp : (F v).Passes s t k n a p) : exec i s = settleRun s (wayOf (F v) p a noResult s t) := (hrow.exec_eq s).trans (h.way hp)

theorem AtomRow.way {i : Instr} {op : AtomOp} {od : Ord} (hrow : AtomRow i op n od) (h : s.FindsD .atomic n a p v t)
    (hsc : inScope t.focusU p.home t.ir.sc = true) (hrel : ordReleases od = true → s.Released t.ir.sc) :
    exec i s = settleRun s (wayOf (atomForm op n od v) p a (loadDst 3) s t) :=
  (hrow.exec_eq s).trans (h.way (F := atomForm op n od) ⟨rfl, rfl, nofun, nofun, fun _ => hsc, hrel⟩)

end

/-- Settles O19: each test of each form, for what reads A alone or with a pair, and for what stores from D. -/
theorem accessFaults : Obligations.AccessFaults := by
  unfold Obligations.AccessFaults
  refine ⟨fun s t b hs ha => ?_, fun s t u b v hs ha hd => ?_⟩
  · intro a traps
    have form_ : ∀ {f put e}, locateForm t a f = .error (.trap e) → memory s [] (form f) put = .next (s.trapHere e) :=
      (State.Forms.of_form hs ha).traps
    have stp : ∀ {e}, locateForm t a (storePairForm t) = .error (.trap e) → exec .stp128 s = .next (s.trapHere e) :=
      fun hl => (exec_stp128_pair s).trans ((State.Forms.of_pair hs ha).traps hl)
    have cas : ∀ {w od e}, locateForm t a (casForm w od t) = .error (.trap e) → exec (.acas w od) s = .next (s.trapHere e) :=
      fun hl => (exec_acas_pair _ _ s).trans ((State.Forms.of_pair hs ha).traps hl)
    have plain : ∀ {f : MemForm}, a % f.size = 0 → f.fe = false → f.Takes a := fun h hf => .plain h hf
    refine ⟨fun w h => form_ (locateForm_align h), fun w h => form_ (locateForm_align h), fun h => ?_, fun w h => ?_, fun hr => ?_,
      fun c hl => ?_, fun c hl h => ?_, fun w od h => cas (locateForm_align h), fun c w od hl h => ?_, fun p w od hl h hsc => ?_,
      fun p w hl h hsc => ?_⟩
    · exact ⟨form_ (locateForm_align h), stp (locateForm_align h), form_ (locateForm_align h), form_ (locateForm_align h),
        form_ (locateForm_align h)⟩
    · exact ⟨form_ (locateForm_align h), form_ (locateForm_align h), form_ (locateForm_align h)⟩
    · exact ⟨fun h => ⟨form_ (locateForm_feAddr h rfl hr), form_ (locateForm_feAddr h rfl hr), form_ (locateForm_feAddr h rfl hr)⟩,
        fun w h => ⟨form_ (locateForm_feAddr h rfl hr), form_ (locateForm_feAddr h rfl hr)⟩⟩
    · refine ⟨fun w h => form_ (locateForm_unlocated (plain h rfl) hl), fun w h => form_ (locateForm_unlocated (plain h rfl) hl),
        form_ (locateForm_unlocated (plain (Nat.mod_one a) rfl) hl), fun w h => ⟨form_ (locateForm_unlocated (plain h rfl) hl),
          fun hr => ⟨form_ (locateForm_unlocated ⟨h, fun _ => hr⟩ hl), form_ (locateForm_unlocated ⟨h, fun _ => hr⟩ hl)⟩⟩,
        fun h => ⟨form_ (locateForm_unlocated (plain h rfl) hl), fun hr => form_ (locateForm_unlocated ⟨h, fun _ => hr⟩ hl)⟩⟩
    · exact ⟨stp (locateForm_unlocated (plain h rfl) hl), fun hr => ⟨form_ (locateForm_unlocated ⟨h, fun _ => hr⟩ hl),
        form_ (locateForm_unlocated ⟨h, fun _ => hr⟩ hl)⟩⟩
    · exact cas (locateForm_unlocated (plain h rfl) hl)
    · exact cas (locateForm_scopeOut (plain h rfl) hl rfl rfl hsc)
    · exact form_ (locateForm_scopeOut (plain h rfl) hl rfl rfl hsc)
  · intro a traps
    have formD_ : ∀ {F : Word → MemForm} {put e}, locateForm t a (F v) = .error (.trap e) →
        memory s [s.ir.d] (formD F) put = .next (s.trapHere e) := (State.Forms.of_formD hs ha hd).traps
    have plain : ∀ {f : MemForm}, a % f.size = 0 → f.fe = false → f.Takes a := fun h hf => .plain h hf
    refine ⟨fun w h => formD_ (locateForm_align h), fun w h => ⟨formD_ (locateForm_align h), formD_ (locateForm_align h),
      fun od => formD_ (locateForm_align h)⟩, fun hr w h => formD_ (locateForm_feAddr h rfl hr), fun c hl => ?_,
      fun p w hl h hsc => formD_ (locateForm_scopeOut (plain h rfl) hl rfl rfl hsc), ?_⟩
    · exact ⟨fun w h => formD_ (locateForm_unlocated (plain h rfl) hl), formD_ (locateForm_unlocated (plain (Nat.mod_one a) rfl) hl),
        formD_ (locateForm_unlocated (plain (Nat.mod_one a) rfl) hl), fun w h => ⟨formD_ (locateForm_unlocated (plain h rfl) hl),
          fun hr => formD_ (locateForm_unlocated ⟨h, fun _ => hr⟩ hl)⟩⟩
    · intro words
      have words_ : ∀ {od c}, (∀ op, locateForm t a (atomForm op 8 od v) = .error (.trap (trapAt c a))) → words od c := fun h =>
        ⟨formD_ (h _), formD_ (h _), formD_ (h _), formD_ (h _), fun g => ⟨formD_ (h _), formD_ (h _)⟩⟩
      refine ⟨fun od h => words_ fun _ => locateForm_align h, fun c od hl => ⟨fun h => words_ fun _ => locateForm_unlocated (plain h rfl) hl,
        fun w h => formD_ (locateForm_unlocated (plain h rfl) hl)⟩, fun p od hl hsc => ⟨fun h => words_ fun _ =>
          locateForm_scopeOut (plain h rfl) hl rfl rfl hsc, fun w h => formD_ (locateForm_scopeOut (plain h rfl) hl rfl rfl hsc)⟩⟩

end Sys2Proof.Machine
end

section
/-! Stores that leave as messages, and requests under STAY (R187, R190, R198, R206, R223, R231). -/

namespace Sys2Proof.Machine

/-! Ways that leave a message -/

section
variable {s t : State} {a : Nat} {p : Place} {f : MemForm} {put : Bool → Nat → State → Run}

theorem routeOf_stay (h : t.ir.hd.stay = true) : routeOf t p = .ask := by
  simp only [routeOf, h, if_true]

/-- A store that is sent: with a key for its place, no earlier write under STAY to another home, and its buffer open where it
is tested at issue. -/
theorem accessSend_ok (hk : noKey t t.st.ctx p = false) (hq : (t.ir.hd.stay || f.op.isSub) = true ∨ ∃ q, settle t p = .ok q)
    (hw : (t.st.asked.any fun x => x.writes && x.home != p.home) = false) :
    accessSend f p a t = .ok (t.sendWrite p.home (BitVec.ofNat 64 a) false
      (if f.op.isSub then .subbyte ⟨f.op, BitVec.ofNat 64 a, p.place, false⟩ else .request ⟨f.op, BitVec.ofNat 64 a, p.place, false⟩)) := by
  unfold accessSend
  simp only [hk, hw, bind, Except.bind]
  cases ht : (t.ir.hd.stay || f.op.isSub) with
  | true => rfl
  | false =>
    obtain ⟨q, hq⟩ := hq.resolve_left (by rw [ht]; exact Bool.false_ne_true)
    rw [hq]
    rfl

/-- A store leaves as a message: to local memory at a home in reach whose buffer is open, and to every home under STAY. -/
theorem wayOf_message (hi : f.op.isSub = false) (hr : f.op.replies = false)
    (hw : (routeOf t p = .home ∧ p.off.isSome = true ∧ ∃ q, settle t p = .ok q) ∨ t.ir.hd.stay = true)
    (hk : noKey t t.st.ctx p = false) (ha : (t.st.asked.any fun x => x.writes && x.home != p.home) = false) :
    wayOf f p a put s t = .ok (t.sendWrite p.home (BitVec.ofNat 64 a) false
      (.request ⟨f.op, BitVec.ofNat 64 a, p.place, false⟩)).passed := by
  unfold wayOf
  rcases hw with ⟨hroute, hoff, hq⟩ | hst
  · have hs : sends f p = true := by simp only [sends, hr, hoff]; rfl
    rw [hi, hroute, accessSend_ok hk (.inr hq) ha, hi]
    simp only [hs]
    rfl
  · rw [hi, routeOf_stay hst, hr, accessSend_ok hk (.inl (by rw [hst]; rfl)) ha, hi]
    rfl

/-- A sub-byte store leaves as a message to every home but through L (R198). -/
theorem wayOf_subbyte (hi : f.op.isSub = true) (hn : p.near = false) (hk : noKey t t.st.ctx p = false)
    (ha : (t.st.asked.any fun x => x.writes && x.home != p.home) = false) :
    wayOf f p a put s t = .ok (t.sendWrite p.home (BitVec.ofNat 64 a) false
      (.subbyte ⟨f.op, BitVec.ofNat 64 a, p.place, false⟩)).passed := by
  unfold wayOf
  rw [hi, hn, accessSend_ok hk (.inl (by rw [hi, Bool.or_true])) ha, hi]
  rfl

theorem postWrite_focusU (t : State) (u k d : Nat) (b : Payload) : (t.postWrite u k d b).focusU = t.focusU := by
  unfold State.postWrite
  dsimp only
  split <;> rfl

/-- A request leaves while fewer than 8 of its core are outstanding. -/
theorem sendRequest_ok (h : t.here.pending < 8) :
    sendRequest f p a t = .ok (t.requested p a f.op (f.kind == .atomic) f.acq) := by
  unfold sendRequest State.requested
  rw [if_neg (by omega)]
  cases f.op.writes with
  | true => simp only [if_true, postWrite_focusU]
  | false => rfl

/-- An access under STAY that answers waits for room among its core's requests, and leaves as one. -/
theorem wayOf_request (hi : f.op.isSub = false) (hr : f.op.replies = true) (hst : t.ir.hd.stay = true)
    (hk : noKey t t.st.ctx p = false) :
    (8 ≤ t.here.pending → wayOf f p a put s t = .error .hold) ∧
    (t.here.pending < 8 → wayOf f p a put s t = .ok (t.requested p a f.op (f.kind == .atomic) f.acq).passed) := by
  unfold wayOf
  rw [hi, routeOf_stay hst, hr, hk]
  refine ⟨fun h => ?_, fun h => ?_⟩
  · have hold : sendRequest f p a t = .error .hold := if_pos h
    rw [hold]
    rfl
  · rw [sendRequest_ok h]
    rfl

end

/-- The pair that D names: an even register and the one after it (R222). -/
theorem pairOf_x {t : State} {i : Fin 16} (h : t.ir.d = .x i) : pairOf t = (t.st.x[i], t.st.x[i + 1]) := by
  simp only [pairOf, h]

theorem bits_8_8 (v : Word) : bits v.toNat 8 8 = if v.getLsbD 8 then 1 else 0 := by
  rw [bits, BitVec.getLsbD, Nat.testBit_eq_decide_div_mod_eq]
  simp only [decide_eq_true_eq]
  split <;> omega

theorem bits_9_8 (v : Word) : bits v.toNat 9 8 = (v.extractLsb' 8 2).toNat := by
  rw [BitVec.extractLsb'_toNat, Nat.shiftRight_eq_div_pow]
  rfl

/-- Settles O20: stores from D, stores from a pair and the marks, sub-byte stores, and what answers under STAY. -/
theorem messages : Obligations.Messages := by
  unfold Obligations.Messages
  refine ⟨fun s t a q n p v h hw hk ha => ?_, fun s t a q p h hw hk ha => ?_, fun s t a p v h hn hk ha => ?_,
    fun s t a n p h hst hk => ?_, fun s t a n p v od h hst hk hsc hrel => ?_, fun s t a p i w od h hst hk hsc hrel hd hn => ?_⟩
  · intro sent
    have go : ∀ {i F op}, StoreRow i F → (F v).op = op → (F v).Passes s t .store n a p → exec i s = sent op := by
      rintro i F _ hrow rfl hp
      obtain ⟨hi, hr, -⟩ := hrow.op v
      rw [hrow.way h hp, wayOf_message hi hr (hw.imp_left fun ⟨h1, h2, h3⟩ => ⟨h1, h2, q, h3⟩) hk ha]
      rfl
    refine ⟨?_, ?_, ?_⟩
    · rintro w rfl
      exact go (.st w) rfl ⟨rfl, rfl, nofun, nofun, nofun, nofun⟩
    · rintro w rfl hsc hrel
      exact go (.stRel w) rfl ⟨rfl, rfl, nofun, nofun, fun _ => hsc, fun _ => hrel⟩
    · rintro w rfl hr
      exact go (.stf w) rfl ⟨rfl, rfl, nofun, fun _ => hr, nofun, nofun⟩
  · intro sent
    have hw' : (routeOf t p = .home ∧ p.off.isSome = true ∧ ∃ q, settle t p = .ok q) ∨ t.ir.hd.stay = true :=
      hw.imp_left fun ⟨h1, h2, h3⟩ => ⟨h1, h2, q, h3⟩
    refine ⟨fun i hd => ?_, fun hr => ?_⟩
    · have hop : (storePairForm t).op = .storePair t.st.x[i] t.st.x[i + 1] := by rw [storePairForm, pairOf_x hd]
      rw [exec_stp128_pair, h.way_pair (F := storePairForm) ⟨rfl, rfl, nofun, nofun, nofun, nofun⟩, wayOf_message rfl rfl hw' hk ha, hop]
      rfl
    · have go : ∀ {i f op}, MarkRow i f → f.op = op → f.Passes s t .store 16 a p → exec i s = sent op := by
        rintro i f _ hrow rfl hp
        obtain ⟨hi, hr, -⟩ := hrow.op
        rw [hrow.way h hp, wayOf_message hi hr hw' hk ha]
        rfl
      exact ⟨go .setf rfl ⟨rfl, rfl, nofun, fun _ => hr, nofun, nofun⟩, go .sete rfl ⟨rfl, rfl, nofun, fun _ => hr, nofun, nofun⟩⟩
  · intro sent
    have go : ∀ F : Word → MemForm, (F v).op.isSub = true → (F v).Passes s t .store 1 a p →
        memory s [s.ir.d] (formD F) noResult = sent (F v).op := fun F hi hp => by
      rw [h.way hp, wayOf_subbyte hi hn hk ha]
      rfl
    rw [← bits_8_8, ← bits_9_8]
    exact ⟨go (fun v => { kind := .store, size := 1, op := .sub 4 (bits v.toNat 8 8) v }) rfl ⟨rfl, rfl, nofun, nofun, nofun, nofun⟩,
      go (fun v => { kind := .store, size := 1, op := .sub 2 (bits v.toNat 9 8) v }) rfl ⟨rfl, rfl, nofun, nofun, nofun, nofun⟩⟩
  · intro asks
    have go : ∀ {i f put op acq}, LoadRow i f put → f.op = op ∧ f.acq = acq → f.Passes s t .load n a p → asks i op acq := by
      rintro i f put _ _ hrow ⟨rfl, rfl⟩ hp
      obtain ⟨hi, hr, hkind, -⟩ := hrow.op
      obtain ⟨hfull, hroom⟩ := wayOf_request (s := s) (a := a) (p := p) (put := put) hi hr hst hk
      rw [hkind] at hroom
      refine ⟨fun h8 => ?_, fun h8 => ?_⟩ <;> rw [hrow.way h hp]
      · rw [hfull h8]; rfl
      · rw [hroom h8]; rfl
    refine ⟨?_, ?_, ?_, ?_, ?_, ?_, ?_⟩
    · rintro w rfl
      exact go (.ld w) ⟨rfl, rfl⟩ ⟨rfl, rfl, nofun, nofun, nofun, nofun⟩
    · rintro w rfl
      exact go (.lds w) ⟨rfl, rfl⟩ ⟨rfl, rfl, nofun, nofun, nofun, nofun⟩
    · rintro rfl
      exact go .ldp128 ⟨rfl, rfl⟩ ⟨rfl, rfl, nofun, nofun, nofun, nofun⟩
    · rintro rfl hdec
      exact go .ldd ⟨rfl, rfl⟩ ⟨rfl, rfl, fun _ => hdec, nofun, nofun, nofun⟩
    · rintro w rfl hsc
      exact go (.ldAcq w) ⟨rfl, rfl⟩ ⟨rfl, rfl, nofun, nofun, fun _ => hsc, nofun⟩
    · rintro w rfl hr
      exact ⟨go (.ldfC w) ⟨rfl, rfl⟩ ⟨rfl, rfl, nofun, fun _ => hr, nofun, nofun⟩, go (.ldfK w) ⟨rfl, rfl⟩ ⟨rfl, rfl, nofun, fun _ => hr, nofun, nofun⟩⟩
    · rintro rfl hr
      exact go .tfe ⟨rfl, rfl⟩ ⟨rfl, rfl, nofun, fun _ => hr, nofun, nofun⟩
  · intro asks
    have go : ∀ {i op}, AtomRow i op n od → asks i (.atom op n v) := fun {i op} hrow => by
      obtain ⟨hfull, hroom⟩ := wayOf_request (s := s) (a := a) (p := p) (f := atomForm op n od v) (put := loadDst 3) rfl rfl hst hk
      refine ⟨fun h8 => ?_, fun h8 => ?_⟩ <;> rw [hrow.way h hsc hrel]
      · rw [hfull h8]; rfl
      · rw [hroom h8]; rfl
    refine ⟨?_, ?_⟩
    · rintro w rfl
      exact go (.amadd w od)
    · rintro rfl
      exact ⟨fun g => ⟨go (.amin g od), go (.amax g od)⟩, go (.aand od), go (.aor od), go (.axor od), go (.aswap od)⟩
  · have hop : (casForm w od t).op = .cas (wideBytes w) t.st.x[i] t.st.x[i + 1] := by rw [casForm, pairOf_x hd]
    rw [exec_acas_pair, h.way_pair (F := casForm w od) ⟨rfl, rfl, nofun, nofun, fun _ => hsc, hrel⟩, (wayOf_request rfl rfl hst hk).2 hn, hop]
    rfl

end Sys2Proof.Machine
end

section
/-! Accesses that migrate their strand (R98, R149, R158, R187, R189, R253). -/

namespace Sys2Proof.Machine

/-! What migration comes to -/

section
variable {s t : State} {home : Nat}

theorem migrate_handler (h : s.me.mode = .handler) : migrate s home = .error (.trap { cause := .hndMig }) := by
  simp only [migrate, h]
  rfl

/-- Outside a handler the guards are looked at (R98). -/
theorem migrate_guards (h : s.me.mode ≠ .handler) :
    migrate s home = failIf ((List.finRange 8).any fun i => s.st.guard i == .p) .guardMig >>= fun _ =>
      failIf (!s.memberMay home) .groupYard >>= fun _ =>
        if s.mayEnd s.focusU s.focusK && (s.here.forwards.length < forwardsRoom || s.here.forwards.any fun f => f.isOf s.st) then
          .ok (s.sendMigrant s.focusU s.focusK home) else .error (.block none) := by
  have hm : (s.me.mode == .handler) = false := by simpa using h
  unfold migrate
  rw [hm]
  rfl

theorem migrate_pending (h : s.me.mode ≠ .handler) (hg : ∃ g, s.st.guard g = .p) :
    migrate s home = .error (.trap { cause := .guardMig }) := by
  have hp : ((List.finRange 8).any fun i => s.st.guard i == .p) = true := by simpa using hg
  rw [migrate_guards h, hp]
  rfl

/-- With no guard pending, a member is held to its group's yard (R149). -/
theorem migrate_member (h : s.me.mode ≠ .handler) (hg : ∀ g, s.st.guard g ≠ .p) :
    migrate s home = failIf (!s.memberMay home) .groupYard >>= fun _ =>
      if s.mayEnd s.focusU s.focusK && (s.here.forwards.length < forwardsRoom || s.here.forwards.any fun f => f.isOf s.st) then
        .ok (s.sendMigrant s.focusU s.focusK home) else .error (.block none) := by
  have hp : ((List.finRange 8).any fun i => s.st.guard i == .p) = false := by simpa using hg
  rw [migrate_guards h, hp]
  rfl

/-- A core has a forwarding entry for the strand in focus: one is free, or one is the strand's own (R158). -/
def State.Forwards (s : State) : Prop := s.here.forwards.length < 64 ∨ ∃ f ∈ s.here.forwards, f.isOf s.st = true

theorem forwards_iff :
    (decide (s.here.forwards.length < forwardsRoom) || s.here.forwards.any fun f => f.isOf s.st) = true ↔ s.Forwards := by
  rw [Bool.or_eq_true, List.any_eq_true]
  exact or_congr decide_eq_true_iff Iff.rfl

/-- What an access whose home is reached neither through L nor in the barn does with its strand. -/
theorem migrates {i : Instr} (hx : exec i s = settleRun s (migrate s home)) :
    (s.me.mode = .handler → exec i s = .next (s.trapHere { cause := .hndMig })) ∧
    (s.me.mode ≠ .handler →
      ((∃ g, s.st.guard g = .p) → exec i s = .next (s.trapHere { cause := .guardMig })) ∧
      ((∀ g, s.st.guard g ≠ .p) →
        (s.memberMay home = false → exec i s = .next (s.trapHere { cause := .groupYard })) ∧
        (s.memberMay home = true →
          (s.mayEnd s.focusU s.focusK = true → s.Forwards → exec i s = .next (s.sendMigrant s.focusU s.focusK home)) ∧
          (s.mayEnd s.focusU s.focusK = false ∨ ¬ s.Forwards → exec i s = .next (s.blockSlot s.focusU s.focusK))))) := by
  refine ⟨fun h => ?_, fun h => ⟨fun hg => ?_, fun hg => ⟨fun hy => ?_, fun hy => ⟨fun he hf => ?_, fun hw => ?_⟩⟩⟩⟩
  · rw [hx, migrate_handler h]; rfl
  · rw [hx, migrate_pending h hg]; rfl
  · rw [hx, migrate_member h hg, hy]; rfl
  · rw [hx, migrate_member h hg, hy, he, forwards_iff.2 hf]; rfl
  · have hb : (s.mayEnd s.focusU s.focusK &&
        (decide (s.here.forwards.length < forwardsRoom) || s.here.forwards.any fun f => f.isOf s.st)) = false := by
      rw [Bool.and_eq_false_iff]
      exact hw.imp_right fun h => Bool.eq_false_iff.2 fun hf => h (forwards_iff.1 hf)
    rw [hx, migrate_member h hg, hy, hb]; rfl

theorem wayOf_away {f : MemForm} {p : Place} {a : Nat} {put : Bool → Nat → State → Run} (hi : f.op.isSub = false)
    (hr : routeOf t p = .away) : wayOf f p a put s t = migrate s p.home := by
  unfold wayOf
  rw [hi, hr]
  rfl

end

/-- Settles O21: loads, stores from D, stores from a pair and the marks, and atomics. -/
theorem migration : Obligations.Migration := by
  unfold Obligations.Migration
  intro s home goes
  refine ⟨?_, ?_, ?_, ?_, ?_⟩
  · rintro t a n p h hroute rfl
    have go : ∀ {i f put}, LoadRow i f put → f.Passes s t .load n a p → goes i := fun hrow hp => by
      obtain ⟨hi, -⟩ := hrow.op
      exact migrates (by rw [hrow.way h hp, wayOf_away hi hroute])
    refine ⟨?_, ?_, ?_, ?_, ?_, ?_, ?_⟩
    · rintro w rfl
      exact go (.ld w) ⟨rfl, rfl, nofun, nofun, nofun, nofun⟩
    · rintro w rfl
      exact go (.lds w) ⟨rfl, rfl, nofun, nofun, nofun, nofun⟩
    · rintro rfl
      exact go .ldp128 ⟨rfl, rfl, nofun, nofun, nofun, nofun⟩
    · rintro rfl hdec
      exact go .ldd ⟨rfl, rfl, fun _ => hdec, nofun, nofun, nofun⟩
    · rintro w rfl hsc
      exact go (.ldAcq w) ⟨rfl, rfl, nofun, nofun, fun _ => hsc, nofun⟩
    · rintro w rfl hr
      exact ⟨go (.ldfC w) ⟨rfl, rfl, nofun, fun _ => hr, nofun, nofun⟩, go (.ldfK w) ⟨rfl, rfl, nofun, fun _ => hr, nofun, nofun⟩⟩
    · rintro rfl hr
      exact go .tfe ⟨rfl, rfl, nofun, fun _ => hr, nofun, nofun⟩
  · rintro t a n p v h hroute rfl
    have go : ∀ {i F}, StoreRow i F → (F v).Passes s t .store n a p → goes i := fun hrow hp => by
      obtain ⟨hi, -⟩ := hrow.op v
      exact migrates (by rw [hrow.way h hp, wayOf_away hi hroute])
    refine ⟨?_, ?_, ?_⟩
    · rintro w rfl
      exact go (.st w) ⟨rfl, rfl, nofun, nofun, nofun, nofun⟩
    · rintro w rfl hsc hrel
      exact go (.stRel w) ⟨rfl, rfl, nofun, nofun, fun _ => hsc, fun _ => hrel⟩
    · rintro w rfl hr
      exact go (.stf w) ⟨rfl, rfl, nofun, fun _ => hr, nofun, nofun⟩
  · rintro t a p h hroute rfl
    have go : ∀ {i f}, MarkRow i f → f.Passes s t .store 16 a p → goes i := fun hrow hp => by
      obtain ⟨hi, -⟩ := hrow.op
      exact migrates (by rw [hrow.way h hp, wayOf_away hi hroute])
    refine ⟨migrates ?_, fun hr => ⟨go .setf ⟨rfl, rfl, nofun, fun _ => hr, nofun, nofun⟩,
      go .sete ⟨rfl, rfl, nofun, fun _ => hr, nofun, nofun⟩⟩⟩
    rw [exec_stp128_pair, h.way_pair (F := storePairForm) ⟨rfl, rfl, nofun, nofun, nofun, nofun⟩, wayOf_away rfl hroute]
  · rintro t a n p v od h hroute rfl hsc hrel
    have go : ∀ {i op}, AtomRow i op n od → goes i := fun {i op} hrow =>
      migrates (by rw [hrow.way h hsc hrel, wayOf_away rfl hroute])
    refine ⟨?_, ?_⟩
    · rintro w rfl
      exact go (.amadd w od)
    · rintro rfl
      exact ⟨fun g => ⟨go (.amin g od), go (.amax g od)⟩, go (.aand od), go (.aor od), go (.axor od), go (.aswap od)⟩
  · rintro t a p w od h hroute rfl hsc hrel
    exact migrates (by rw [exec_acas_pair, h.way_pair (F := casForm w od) ⟨rfl, rfl, nofun, nofun, fun _ => hsc, hrel⟩,
      wayOf_away rfl hroute])

end Sys2Proof.Machine
end

section
/-! Full/empty loads, stores and bit forms (R192, R193, R230, R231). -/

namespace Sys2Proof.Machine

/-! Accesses made at issue and accesses sent -/

section
variable {s t u : State} {a n q x : Nat} {p : Place} {f : MemForm} {put : Bool → Nat → State → Run}

/-- A full/empty load waits for its home in every region; it is sent (R230). -/
theorem wayOf_take (hi : f.op.isSub = false) (hr : f.op.replies = true) (ht : f.op.takes = true) (hp : f.op.plain = false)
    (hd : t.Direct p f.op.writes) (hroom : t.Room) : wayOf f p a put s t = .ok (s.sentLong t p a f.op).passed := by
  obtain ⟨hroute, hearly⟩ := hd
  have hlong : accessLong f p a s t = .ok (s.sentLong t p a f.op) := by
    simp only [State.Room] at hroom
    unfold accessLong
    rw [hearly, hr, hroom]
    unfold State.sentLong
    rw [hr]
    rfl
  have hs : sends f p = false := by simp only [sends, hr]; rfl
  unfold wayOf
  rcases hroute with h | h
  · rw [hi, h, ht, hlong]
    rfl
  · rw [hi, h, hs, hp, hlong]
    rfl

/-- What an access through L comes to at issue (R187). -/
theorem wayOf_near (hi : f.op.isSub = false) (ht : f.op.takes = false) (hroute : routeOf t p = .near)
    (hn : accessNow f p a put t = .ok u) : wayOf f p a put s t = .ok u.passed := by
  unfold wayOf
  rw [hi, hroute, ht, hn]
  rfl

/-- A read at a home in reach is made at issue, and a budget trap takes it back (R145, R187). -/
theorem wayOf_read (hi : f.op.isSub = false) (hr : f.op.replies = true) (hp : f.op.plain = true) (hroute : routeOf t p = .home)
    (hn : accessNow f p a put t = .ok u) : wayOf f p a put s t = .ok (takeBack s u).passed := by
  have hs : sends f p = false := by simp only [sends, hr]; rfl
  unfold wayOf
  rw [hi, hroute, hs, hp, hn]
  rfl

/-! What a home does with a full/empty form -/

theorem performFor_storeFull {ctx : BitVec 12} {d : Clock} {v : Word} (h : reach t ctx p n = .ok q) :
    performFor t ctx d p (.storeFull n v) =
      .ok (0, (((t.storeNum true q n v.toNat).fill ctx p.home q).learn (dieOf p.home) d).serve p.home) := by
  simp [performFor, performAt, h, bind, Except.bind, pure, Except.pure, MemOp.writes, MemOp.fills]

theorem performFor_setFull {ctx : BitVec 12} {d : Clock} (h : settle t p = .ok q) :
    performFor t ctx d p .setFull = .ok (0, ((t.setFull q true).learn (dieOf p.home) d).serve p.home) := by
  simp [performFor, performAt, h, bind, Except.bind, pure, Except.pure, MemOp.writes, MemOp.fills]

theorem performFor_setEmpty {ctx : BitVec 12} {d : Clock} (h : settle t p = .ok q) :
    performFor t ctx d p .setEmpty = .ok (0, (t.setFull q false).learn (dieOf p.home) d) := by
  simp [performFor, performAt, h, bind, Except.bind, pure, Except.pure, MemOp.writes, MemOp.fills]

theorem performFor_testFull {ctx : BitVec 12} {d : Clock} (h : settle t p = .ok q) :
    performFor t ctx d p .testFull = .ok ((t.isFull q).toNat, t) := by
  simp [performFor, performAt, h, bind, Except.bind, pure, Except.pure, MemOp.writes, MemOp.fills]

theorem performFor_take {ctx : BitVec 12} {d : Clock} {take : Bool} (h : reach t ctx p n = .ok q) :
    performFor t ctx d p (.take n take) =
      .ok (t.num q n, if take then (t.setFull q false).learn (dieOf p.home) d else t) := by
  cases take <;> simp [performFor, performAt, h, bind, Except.bind, pure, Except.pure, MemOp.writes, MemOp.fills]

theorem mustWait_take {take : Bool} (h : settle t p = .ok q) : mustWait t p (.take n take) = !t.isFull q := by
  simp only [mustWait, h]

end

/-! Waits at a home -/

section
variable {s : State} {u k : Nat} {w : LongWait} {x : LongAccess} {op : MemOp} {regs : List RegName}

/-- A load that must wait at its home registers there (R193). -/
theorem longCome_registers (h : s.Waited u k w x) (ho : x.op = .mem op regs) (ht : regs.all (s.core u).takes = true)
    (hm : mustWait s x.place op = true) : longCome u k w x s = s.register u k { s.sender u k with pc := w.pc } op x := by
  obtain ⟨-, -, ha, hq, hr⟩ := h
  have hg : ((s.slot u k).asked || decide ((s.core u).cyc < (s.slot u k).readyAt) || !regs.all (s.core u).takes) = false := by
    rw [hq, ht, decide_eq_false (Nat.not_lt.2 hr)]; rfl
  simp only [longCome, ho, ha, hg, hm, Bool.false_eq_true, if_false, if_true]

/-- A strand whose request its home keeps waits on. -/
theorem longCome_asked (ho : x.op = .mem op regs) (ha : (s.slot u k).answer = none) (hq : (s.slot u k).asked = true) :
    longCome u k w x s = s := by
  simp only [longCome, ho, ha, hq, Bool.true_or, if_true]

/-- What a home gave a waiting load completes it, or is its trap (R193). -/
theorem longCome_value {v : Word} (ho : x.op = .mem op regs) (ha : (s.slot u k).answer = some (.value v)) :
    longCome u k w x s = s.longDone u k regs v.toNat := by
  simp only [longCome, ho, ha]

theorem longCome_fault {c : Cause} {a : Word} {d : BitVec 32} (ha : (s.slot u k).answer = some (.fault c a d)) :
    longCome u k w x s = s.longFault u k w x.place.home c a := by
  simp only [longCome, ha]

end

/-- A change of the slot in focus, where a strand stands, is what the slot reads as. -/
theorem modMe_me {s : State} (h : s.me.live = true) (f : Slot → Slot) : (s.modMe f).me = f s.me := slot_modSlot_self h f

/-- A strand that has just sent a request has used the core's issue turn with it (R28, R160). -/
theorem sendAndWait_eq {s v : State} (h : s.me.asked = false) (hl : v.me.live = true) :
    let t := v.modMe fun sl => { sl with taken := sl.taken ++ s.here.qs.diff v.here.qs }
    let b := t.blockSlot s.focusU s.focusK
    (v.me.asked = true → s.sendAndWait v = b.modCore s.focusU fun c => { c with turns := c.turns + 1 }) ∧
    (v.me.asked = false → s.sendAndWait v = b) := by
  intro t b
  have hme : t.me = { v.me with taken := v.me.taken ++ s.here.qs.diff v.here.qs } := modMe_me hl _
  have hs : s.sendAndWait v = if t.me.asked && !s.me.asked then b.modCore s.focusU fun c => { c with turns := c.turns + 1 } else b :=
    rfl
  rw [hs, hme, h]
  exact ⟨fun ha => by rw [ha]; rfl, fun ha => by rw [ha]; rfl⟩

/-- A full/empty load that its home performs, or keeps (R193, R230). -/
theorem longCome_take {s : State} {u k n q : Nat} {w : LongWait} {x : LongAccess} {take : Bool} {regs : List RegName}
    (h : s.Waited u k w x) (ho : x.op = .mem (.take n take) regs) (ht : regs.all (s.core u).takes = true)
    (hq : settle s x.place = .ok q) :
    let st := (s.slot u k).st
    let home := x.place.home
    let left := if take then (s.setFull q false).learn (dieOf home) st.dep else s
    (s.isFull q = true → reach s st.ctx x.place n = .ok q →
      longCome u k w x s = (left.longHear u k).longDone u k regs (s.num q n)) ∧
    (s.isFull q = false → (s.core home).waiters.length < 16 →
      let y : Waiter := ⟨⟨.take n take, x.addr, x.place.place, false⟩, { s.sender u k with pc := w.pc }, s.nextId, st.dep, true⟩
      longCome u k w x s = { (s.modCore home fun c => { c with waiters := c.waiters ++ [y] }).modSlot u k fun sl =>
        { sl with asked := true } with nextId := s.nextId + 1 }) ∧
    (s.isFull q = false → 16 ≤ (s.core home).waiters.length → longCome u k w x s = s) := by
  have hmw : mustWait s x.place (.take n take) = !s.isFull q := mustWait_take hq
  refine ⟨fun hf hreach => ?_, fun hf hl => ?_, fun hf hl => ?_⟩ <;> rw [hf] at hmw
  · obtain ⟨-, -, ha, hn, hr⟩ := h
    exact (longCome_due ho ha hn hr ht hmw).1 _ _ (performFor_take hreach)
  · exact (longCome_registers h ho ht hmw).trans (if_neg (Nat.not_le.2 hl))
  · exact (longCome_registers h ho ht hmw).trans (if_pos hl)

/-- Settles O22: loads sent, performed and kept, the answers of a home, waits, and the forms that store and test bits. -/
theorem fullEmpty : Obligations.FullEmpty := by
  unfold Obligations.FullEmpty
  refine ⟨fun s t a p w take h hr hd hroom => ?_, fun s u k n q w x take regs h ho ht hq => longCome_take h ho ht hq,
    fun s u k w x op regs ho => ⟨fun v ha => longCome_value ho ha, fun c a d ha => longCome_fault ha,
      fun ha hq => longCome_asked ho ha hq⟩, fun s v h hl _ _ => sendAndWait_eq h hl,
    fun s t a q p v w h hr hd hn hq => ?_, fun s t a q p h hr hd hn hq => ?_, fun s t a q p h hr hd hq hroom => ?_⟩
  · have go : ∀ {i f}, LoadRow i f (loadDst 3) → f.op = .take (wideBytes w) take → f.Passes s t .load (wideBytes w) a p →
        exec i s = .next (s.sentLong t p a (.take (wideBytes w) take)).passed := fun {i f} hrow ho hp => by
      obtain ⟨hi, hrep, -⟩ := hrow.op
      rw [hrow.way h hp, wayOf_take hi hrep (by rw [ho]; rfl) (by rw [ho]; rfl) (by rw [ho]; exact hd) hroom, ho]
      rfl
    cases take with
    | true => exact go (.ldfC w) rfl ⟨rfl, rfl, nofun, fun _ => hr, nofun, nofun⟩
    | false => exact go (.ldfK w) rfl ⟨rfl, rfl, nofun, fun _ => hr, nofun, nofun⟩
  · intro u
    obtain ⟨hroute, hearly⟩ := hd
    have hway := routeOf_direct hroute
    rw [hn, if_pos rfl] at hway
    rw [(StoreRow.stf w).way h ⟨rfl, rfl, nofun, fun _ => hr, nofun, nofun⟩,
      wayOf_near rfl rfl hway (accessNow_ok hearly (performFor_storeFull hq))]
    rfl
  · obtain ⟨hroute, hearly⟩ := hd
    have hway := routeOf_direct hroute
    rw [hn, if_pos rfl] at hway
    have go : ∀ {i f v}, MarkRow i f → f.op.takes = false → f.op.writes = true → f.Passes s t .store 16 a p →
        performFor t t.st.ctx t.st.dep p f.op = .ok (0, v) → exec i s = .next v.passed := fun {i f v} hrow ht hw hp hf => by
      obtain ⟨hi, hrep, -⟩ := hrow.op
      rw [hrow.way h hp, wayOf_near hi ht hway (accessNow_ok (by rw [hw]; exact hearly) hf), hrep]
      rfl
    exact ⟨go .setf rfl rfl ⟨rfl, rfl, nofun, fun _ => hr, nofun, nofun⟩ (performFor_setFull hq),
      go .sete rfl rfl ⟨rfl, rfl, nofun, fun _ => hr, nofun, nofun⟩ (performFor_setEmpty hq)⟩
  · obtain ⟨hroute, hearly⟩ := hd
    have hv : word (t.isFull q).toNat = if t.isFull q then 1 else 0 := by cases t.isFull q <;> rfl
    have hnow : accessNow { kind := .load, size := 16, op := .testFull, fe := true } p a (loadDst 3) t =
        .ok (t.hear.give p 3 (if t.isFull q then 1 else 0)) := by
      rw [accessNow_ok hearly (performFor_testFull hq), ← hv]
      exact loadDst_give hroom
    have hway := routeOf_direct hroute
    rw [LoadRow.tfe.way h ⟨rfl, rfl, nofun, fun _ => hr, nofun, nofun⟩]
    cases hn : p.near <;> rw [hn] at hway
    · rw [wayOf_read rfl rfl rfl hway hnow, State.give, State.giveLoad, hn]
      rfl
    · rw [wayOf_near rfl rfl hway hnow, State.give, State.giveLoad, hn]
      rfl

end Sys2Proof.Machine
end

section
/-! Declared buffers and their events (R194 to R197, R232 to R234). -/

namespace Sys2Proof.Machine

/-! Descriptors of a core -/

/-- The ranges from `a` and `b` that share no byte (R194). -/
theorem overlaps_false {a n b m : Nat} : overlaps a n b m = false ↔ a + n ≤ b ∨ b + m ≤ a := by
  simp only [overlaps, Bool.and_eq_false_iff, decide_eq_false_iff_not, Nat.not_lt]
  exact or_comm

theorem declBad_false (c : Core) (off n : Nat) : declBad c off n = false ↔ off % 16 = 0 ∧ n % 16 = 0 ∧ 16 ≤ n ∧
    n ≤ 0x2D800 ∧ off + 2 * n ≤ schedBase ∧ ∀ d ∈ c.bufs.toList, Buf.decl d = true →
      off + 2 * n ≤ Buf.base d ∨ Buf.base d + 2 * Buf.size d ≤ off := by
  have hmeets : (c.bufs.toList.any fun d => Buf.decl d && overlaps off (2 * n) (Buf.base d) (2 * Buf.size d)) = false ↔
      ∀ d ∈ c.bufs.toList, Buf.decl d = true → off + 2 * n ≤ Buf.base d ∨ Buf.base d + 2 * Buf.size d ≤ off := by
    simp only [List.any_eq_false, Bool.and_eq_true, not_and, Bool.not_eq_true, overlaps_false]
  simp only [declBad, Bool.or_eq_false_iff, hmeets, bne_eq_false_iff_eq, decide_eq_false_iff_not, Nat.not_lt, and_assoc]
  exact Iff.rfl

/-- The descriptor found is free and every lower one declared (R233). -/
theorem freeBuf_some (c : Core) (i : Fin 16) :
    c.freeBuf = some i ↔ Buf.decl c.bufs[i] = false ∧ ∀ j < i, Buf.decl c.bufs[j] = true := by
  have hlow : (∀ j < i, Buf.decl c.bufs[j] = true) ↔
      ∀ j : Nat, ∀ hj : j < i.val, Buf.decl c.bufs[(⟨j, hj.trans i.isLt⟩ : Fin 16)] = true :=
    ⟨fun h j hj => h ⟨j, _⟩ hj, fun h j hj => h j.val hj⟩
  rw [hlow]
  simp only [Core.freeBuf, List.find?_eq_some_iff_getElem, List.length_finRange, List.getElem_finRange, Bool.not_eq_true',
    Bool.not_eq_false', Fin.cast_mk]
  refine and_congr_right fun _ => ⟨?_, fun h => ⟨i.val, i.isLt, rfl, h⟩⟩
  rintro ⟨j, hj, rfl, h⟩
  exact h

theorem declare_none {c : Core} {off n : Nat} (h : declBad c off n = true ∨ c.freeBuf = none) : c.declare off n = none := by
  unfold Core.declare
  split
  · rfl
  · rw [h.resolve_left ‹_›, Option.map_none]

theorem declare_some {c : Core} {off n : Nat} {i : Fin 16} (h : declBad c off n = false) (hi : c.freeBuf = some i) :
    c.declare off n = some (i, c.setBuf i (Buf.make 0 false true 0 n off)) := by
  unfold Core.declare
  rw [h, hi]
  rfl

/-! The first declaration of an image (R233) -/

theorem declareAll_none {s : State} {u base n : Nat} (bufs : List (Nat × Nat)) (h : (s.core u).declare base n = none) :
    declareAll s u ((base, n) :: bufs) = declareAll s u bufs := by
  simp only [declareAll, List.foldl_cons, h]

theorem declareAll_some {s : State} {u base n : Nat} (bufs : List (Nat × Nat)) {i : Fin 16} {c : Core}
    (h : (s.core u).declare base n = some (i, c)) :
    declareAll s u ((base, n) :: bufs) = declareAll (s.setCore u c) u bufs := by
  simp only [declareAll, List.foldl_cons, h]

/-! What the buffer forms come to at their home -/

/-- A record names the address of a buffer form by its low 56 bits. -/
theorem row_failThere_low {s t : State} {i : Instr} {body : State → Run} {u : Nat} {c : Cause} {a : Word} (h : s.Ready)
    (hi : exec i s = performSeq s body) (hb : body s = failThere t u c (a.toNat % 2 ^ 56)) :
    exec i s = .next (s.trapHere { cause := c, addr := low 56 a, unit := t.foundAt u }) :=
  row_failThere h hi hb

section
variable {s t : State} {a b : Word} {u off : Nat} (h : s.Standing)
  (hp : bufferPlace t (a.toNat % 2 ^ 56) = .ok (u, off))
include h hp

section Bdecl
variable (hs : s.ReadsAB a b t) (he : t.early u false = false)
include hs he

/-- The ingress of another die has what the strand depends on before `bdecl` runs there (R413). -/
theorem bdecl_blocks (hc : t.crossing t.focusU t.focusK u = true) :
    exec .bdecl s = .next (s.blockSlot s.focusU s.focusK) := by
  obtain ⟨hr, hacq, -⟩ := h
  have hread : srcAB s = .ok (a, b, t) := hs
  refine row_block hr (exec_bdecl s) ?_
  simp only [hread, hacq, hp, he, hc, ok_bind, error_bind, List.isEmpty_nil, if_true, Bool.false_eq_true, if_false]

theorem bdecl_refused (hc : t.crossing t.focusU t.focusK u = false) (hd : (t.core u).declare off b.toNat = none) :
    exec .bdecl s = .next (s.trapHere { cause := .bufDecl, addr := low 56 a, unit := t.foundAt u }) := by
  obtain ⟨hr, hacq, -⟩ := h
  have hread : srcAB s = .ok (a, b, t) := hs
  refine row_failThere_low hr (exec_bdecl s) ?_
  simp only [hread, hacq, hp, he, hc, hd, ok_bind, List.isEmpty_nil, if_true, Bool.false_eq_true, if_false]

theorem bdecl_declares {i : Fin 16} {c : Core} (hc : t.crossing t.focusU t.focusK u = false)
    (hd : (t.core u).declare off b.toNat = some (i, c)) (hroom : (t.setCore u c).Room) :
    exec .bdecl s = .next ((t.setCore u c).putLong (BitVec.ofNat 64 i)).passed := by
  obtain ⟨hr, hacq, -⟩ := h
  have hread : srcAB s = .ok (a, b, t) := hs
  refine row_next hr (exec_bdecl s) ?_
  simp only [hread, hacq, hp, he, hc, hd, ok_bind, List.isEmpty_nil, if_true, Bool.false_eq_true, if_false]
  exact dstLong_room hroom _

end Bdecl

section Form
variable {i : Instr} {w : Bool} {act : Nat → Nat → Nat → State → Run} (hs : s.ReadsA a t) (hx : exec i s = bufferForm s w act)
  (he : t.early u w = false)
include hs hx he

/-- The ingress of another die has what the strand depends on before a buffer form runs there (R413). -/
theorem bufferForm_blocks (hc : t.crossing t.focusU t.focusK u = true) : exec i s = .next (s.blockSlot s.focusU s.focusK) := by
  obtain ⟨hr, hacq, -⟩ := h
  have hread : src s.ir.a s = .ok (a, t) := hs
  refine row_block hr hx ?_
  simp only [hread, hacq, hp, he, hc, ok_bind, error_bind, List.isEmpty_nil, if_true, Bool.false_eq_true, if_false]

variable (hc : t.crossing t.focusU t.focusK u = false)
include hc

/-- A buffer form that reaches its home is the row of what it does there. -/
theorem bufferForm_reaches : ∃ body, exec i s = performSeq s body ∧ body s = act (a.toNat % 2 ^ 56) u off t := by
  obtain ⟨-, hacq, -⟩ := h
  have hread : src s.ir.a s = .ok (a, t) := hs
  refine ⟨_, hx, ?_⟩
  simp only [hread, hacq, hp, he, hc, ok_bind, List.isEmpty_nil, if_true, Bool.false_eq_true, if_false]

theorem bufferForm_next {v : State} (hv : act (a.toNat % 2 ^ 56) u off t = .ok v) : exec i s = .next v.passed := by
  obtain ⟨body, hx, hb⟩ := bufferForm_reaches h hp hs hx he hc
  exact row_next h.1 hx (hb.trans hv)

theorem bufferForm_waits (hv : act (a.toNat % 2 ^ 56) u off t = .error (.block none)) :
    exec i s = .next (s.blockSlot s.focusU s.focusK) := by
  obtain ⟨body, hx, hb⟩ := bufferForm_reaches h hp hs hx he hc
  exact row_block h.1 hx (hb.trans hv)

theorem bufferForm_refused {c : Cause} (hv : act (a.toNat % 2 ^ 56) u off t = failThere t u c (a.toNat % 2 ^ 56)) :
    exec i s = .next (s.trapHere { cause := c, addr := low 56 a, unit := t.foundAt u }) := by
  obtain ⟨body, hx, hb⟩ := bufferForm_reaches h hp hs hx he hc
  exact row_failThere_low h.1 hx (hb.trans hv)

end Form

section Event
variable {i : Instr} {w : Bool} {wait : Nat → Fin 16 → State → Bool} {f : Word → Option Word} (hs : s.ReadsA a t)
  (hx : exec i s = bufferEvent s w wait f) (he : t.early u w = false)
include hs hx he

theorem bufferEvent_blocks (hc : t.crossing t.focusU t.focusK u = true) :
    exec i s = .next (s.blockSlot s.focusU s.focusK) := bufferForm_blocks h hp hs hx he hc

variable (hc : t.crossing t.focusU t.focusK u = false)
include hc

theorem bufferEvent_undeclared (hn : (t.core u).bufAt off = none) :
    exec i s = .next (s.trapHere { cause := .bufState, addr := low 56 a, unit := t.foundAt u }) :=
  bufferForm_refused h hp hs hx he hc (by simp only [hn])

variable {j : Fin 16} (hj : (t.core u).bufAt off = some j)
include hj

/-- An event outside the table of R196. -/
theorem bufferEvent_outside (hf : f (t.core u).bufs[j] = none) :
    exec i s = .next (s.trapHere { cause := .bufState, addr := low 56 a, unit := t.foundAt u }) :=
  bufferForm_refused h hp hs hx he hc (by simp only [hj, hf])

variable {d : Word} (hf : f (t.core u).bufs[j] = some d)
include hf

theorem bufferEvent_waits (hw : wait u j t = true) : exec i s = .next (s.blockSlot s.focusU s.focusK) :=
  bufferForm_waits h hp hs hx he hc (by simp only [hj, hf, hw, if_true])

theorem bufferEvent_becomes (hw : wait u j t = false) :
    exec i s = .next (((if w then (t.setCore u ((t.core u).setBuf j d)).stepWrite t.focusU t.focusK u
      else t.setCore u ((t.core u).setBuf j d)).serve u).rest.passed) :=
  bufferForm_next h hp hs hx he hc (by simp only [hj, hf, hw, Bool.false_eq_true, if_false]; rfl)

end Event

section Table
variable {i : Instr} {f : Word → Option Word} (hs : s.ReadsA a t) (hx : exec i s = bufferEvent s false noWait f)
  (he : t.early u false = false) (hc : t.crossing t.focusU t.focusK u = false) {j : Fin 16}
  (hj : (t.core u).bufAt off = some j)
include hs hx he hc hj

/-- An event that waits for nothing follows its column of the table of R196. -/
theorem bufferEvent_table : exec i s = (f (t.core u).bufs[j]).elim
    (.next (s.trapHere { cause := .bufState, addr := low 56 a, unit := t.foundAt u }))
    fun d => .next ((t.setCore u ((t.core u).setBuf j d)).serve u).rest.passed := by
  cases hf : f (t.core u).bufs[j] with
  | none => exact bufferEvent_outside h hp hs hx he hc hj hf
  | some d => exact bufferEvent_becomes h hp hs hx he hc hj hf rfl

end Table

/-- What `bstat` hears and reads at the home (R207, R234). -/
theorem bstat_reads (hs : s.ReadsA a t) (he : t.early u false = false) (hc : t.crossing t.focusU t.focusK u = false)
    (hroom : (t.stepRead t.focusU t.focusK u).Room) : exec .bstat s = .next ((t.stepRead t.focusU t.focusK u).putLong
      (match (t.core u).bufAt off with | some i => (t.core u).bufs[i] | none => 0)).passed := by
  refine bufferForm_next h hp hs (exec_bstat s) he hc ?_
  have hput := dstLong_room hroom (match (t.core u).bufAt off with | some i => (t.core u).bufs[i] | none => 0)
  rw [stepRead_ir] at hput
  exact hput

end

theorem filling_iff (d : Word) : Buf.filling d = true ↔ Buf.state d = 1 ∨ Buf.state d = 3 := by
  simp only [Buf.filling, Bool.or_eq_true, beq_iff_eq]

/-- Settles O24: the descriptors and their declaration, then each form at its home. -/
theorem buffers : Obligations.Buffers := by
  unfold Obligations.Buffers
  refine ⟨declBad_false, freeBuf_some, ?_, ?_, ?_, ?_⟩
  · exact fun s u base n bufs => ⟨fun hd => declareAll_none bufs (declare_none hd),
      fun i hb hi => declareAll_some bufs (declare_some hb hi)⟩
  · exact fun s t a b u off h hs hp he => ⟨bdecl_blocks h hp hs he, fun hc hd => bdecl_refused h hp hs he hc (declare_none hd),
      fun i hc hb hi hroom => bdecl_declares h hp hs he hc (declare_some hb hi) hroom⟩
  · intro s t a u off h hs hp hc
    refine ⟨fun he => ?_, fun he => bufferEvent_blocks h hp hs (exec_bpub s) he hc⟩
    simp only [List.forall_mem_cons, List.not_mem_nil, IsEmpty.forall_iff, implies_true, and_true]
    exact ⟨bufferForm_blocks h hp hs (exec_bstat s) he hc, bufferEvent_blocks h hp hs (exec_bfill s) he hc,
      bufferEvent_blocks h hp hs (exec_bdrain s) he hc, bufferEvent_blocks h hp hs (exec_bfree s) he hc⟩
  · intro s t a u off h hs hp hc c heard
    refine ⟨fun he => bstat_reads h hp hs he hc, fun hn he i hi => ?_, fun j hj => ⟨fun he => ⟨?_, ?_, ?_⟩, fun he => ?_⟩⟩
    · have hr := early_read he
      obtain rfl | rfl | rfl | rfl := hi
      · exact bufferEvent_undeclared h hp hs (exec_bfill s) hr hc hn
      · exact bufferEvent_undeclared h hp hs (exec_bpub s) he hc hn
      · exact bufferEvent_undeclared h hp hs (exec_bdrain s) hr hc hn
      · exact bufferEvent_undeclared h hp hs (exec_bfree s) hr hc hn
    · rw [bufferEvent_table h hp hs (exec_bfill s) he hc hj]
      split_ifs <;> rfl
    · rw [bufferEvent_table h hp hs (exec_bdrain s) he hc hj]
      split_ifs <;> rfl
    · rw [bufferEvent_table h hp hs (exec_bfree s) he hc hj]
      simp only [Bool.or_eq_true, decide_eq_true_eq]
      split_ifs <;> rfl
    · split_ifs with hst hcopy
      · exact bufferEvent_waits h hp hs (exec_bpub s) he hc hj (if_pos ((filling_iff _).2 hst)) hcopy
      · exact bufferEvent_becomes h hp hs (exec_bpub s) he hc hj (if_pos ((filling_iff _).2 hst)) (Bool.eq_false_iff.2 hcopy)
      · exact bufferEvent_outside h hp hs (exec_bpub s) he hc hj (if_neg (mt (filling_iff _).1 hst))

end Sys2Proof.Machine
end

section
/-! Arrivals of requests, stores, replies, acknowledgements, migrants and pushes (R189, R190, R193, R198, R206, R213, R237). -/

namespace Sys2Proof.Machine

/-! Requests and stores at their home (R190, R193, R198) -/

/-- Translation does not look at the fabric. -/
theorem locate_unpost (s : State) (i u : Nat) (ctx : BitVec 12) (a : Nat) (k : Access) :
    locate (s.unpost i) u ctx a k = locate s u ctx a k := by
  have hw : pageEntry (s.unpost i) ctx a = pageEntry s ctx a := walk_congr (s := s) (t := s.unpost i) (.refl s) rfl a 4 _
  have ht : translateAt (s.unpost i) u ctx a k = translateAt s u ctx a k := by
    simp only [translateAt, translate, hw]
    rfl
  simp only [locate, ht]
  rfl

theorem requestPlace_unpost (s : State) (i : Nat) (m : Msg) (r : Request) :
    requestPlace (s.unpost i) m r = requestPlace s m r := by
  simp only [requestPlace, locate_unpost]

/-- What a home answers to a request or store that it refuses (R190, R198, R206). -/
def State.refuses (t : State) (m : Msg) (r : Request) (c : Cause) : State :=
  let u := t.learnFrom m.src m.dst m.dep
  let back := u.heard (dieOf m.dst) m.dep
  if r.reply then u.post m.dst m.src m.sender back none (.reply m.id (.failure c r.addr m.sender.pc m.dst))
  else (report u m.dst m.sender { cause := c, addr := r.addr }).post m.dst m.src m.sender back none
    (.ack m.id r.addr m.sender.pc m.dst (some c))

section Place

variable {s : State} {m : Msg} {r : Request} {p : Place}

theorem requestPlace_unlocated {c : Cause} (h : locate s m.src m.sender.ctx r.addr.toNat r.op.access = .error c) :
    requestPlace s m r = .error c := by
  rw [requestPlace, h]

section Located

variable (h : locate s m.src m.sender.ctx r.addr.toNat r.op.access = .ok p)
include h

theorem requestPlace_moved (hp : p.place ≠ r.place) : requestPlace s m r = .error .pfNone := by
  simp only [requestPlace, h, if_pos hp]

theorem requestPlace_misaligned (hp : p.place = r.place) (ha : r.op = .decode ∧ r.addr.toNat % (formatOf p.tag).size ≠ 0) :
    requestPlace s m r = .error .align := by
  simp only [requestPlace, h, if_neg (not_not.2 hp), if_pos ha]

theorem requestPlace_ok (hp : p.place = r.place) (ha : ¬ (r.op = .decode ∧ r.addr.toNat % (formatOf p.tag).size ≠ 0)) :
    requestPlace s m r = .ok p := by
  simp only [requestPlace, h, if_neg (not_not.2 hp), if_neg ha]

end Located

theorem arrive_unplaced {c : Cause} (h : requestPlace s m r = .error c) : arrive s m r = s.refuses m r c := by
  simp only [arrive, h]
  rfl

theorem arrive_fails {c : Cause} (h : requestPlace s m r = .ok p) (hf : performFor s m.sender.ctx m.dep p r.op = .error c) :
    arrive s m r = s.refuses m r c := by
  simp only [arrive, h, hf]
  rfl

theorem arrive_performs {v : Nat} {u : State} (h : requestPlace s m r = .ok p)
    (hf : performFor s m.sender.ctx m.dep p r.op = .ok (v, u)) :
    arrive s m r = (u.learnFrom m.src m.dst m.dep).post m.dst m.src m.sender
      ((u.learnFrom m.src m.dst m.dep).heard (dieOf m.dst) m.dep) none
      (if r.reply then .reply m.id (.word (BitVec.ofNat 64 v)) else .ack m.id r.addr m.sender.pc m.dst none) := by
  simp only [arrive, h, hf]
  split <;> rfl

end Place

section Request

variable {s : State} {i : Nat} {m : Msg} {r : Request}

/-- Both rows of a request or store at its home are one. -/
theorem requestRow_next {row : Instr} (hm : s.arriving i = some m)
    (h : (row = .stayRequestAtHome ∧ m.body = .request r ∧ s.ev = some (.stayRequestAtHome i)) ∨
      (row = .subbyteStoreAtHome ∧ m.body = .subbyte r ∧ s.ev = some (.subbyteStoreAtHome i))) :
    exec row s = .next (handleRequest s i m r) := by
  obtain ⟨rfl, hb, he⟩ | ⟨rfl, hb, he⟩ := h
  · simp only [exec_stayRequestAtHome, execStayRequestAtHome, he, hm, hb]
  · simp only [exec_subbyteStoreAtHome, execSubbyteStoreAtHome, he, hm, hb]

/-- A read of a killed launch is dropped (R364; log 48). -/
theorem handleRequest_dropped (hk : s.launchKilled m.sender.launch = true) (hw : r.op.writes = false) :
    handleRequest s i m r = if r.reply then (s.unpost i).answered m.src else s.unpost i := by
  simp only [handleRequest, hk, hw, Bool.not_false, Bool.or_true, Bool.and_self, if_true]

variable (hk : s.launchKilled m.sender.launch = false)
include hk

theorem handleRequest_unplaced {c : Cause} (hp : requestPlace s m r = .error c) :
    handleRequest s i m r = (s.unpost i).refuses m r c := by
  rw [← arrive_unplaced ((requestPlace_unpost s i m r).trans hp)]
  simp only [handleRequest, hk, hp, Bool.false_and, Bool.false_eq_true, if_false]

section Placed

variable {p : Place} (hp : requestPlace s m r = .ok p)
include hp

theorem handleRequest_arrives (hw : mustWait s p r.op = false) : handleRequest s i m r = arrive (s.unpost i) m r := by
  simp only [handleRequest, hk, hp, hw, Bool.false_and, Bool.false_eq_true, if_false]

/-- A full/empty load that finds its granule empty is kept among the waiters while they have room (R193). -/
theorem handleRequest_waits (hw : mustWait s p r.op = true) :
    ((s.core m.dst).waiters.length < 16 → handleRequest s i m r = (s.unpost i).modCore m.dst fun c =>
      { c with waiters := c.waiters ++ [⟨r, m.sender, m.id, m.dep, false⟩] }) ∧
    (16 ≤ (s.core m.dst).waiters.length → handleRequest s i m r = s) := by
  have hwait : handleRequest s i m r = if (s.core m.dst).waiters.length < 16 then (s.unpost i).modCore m.dst fun c =>
      { c with waiters := c.waiters ++ [⟨r, m.sender, m.id, m.dep, false⟩] } else s := by
    simp only [handleRequest, hk, hp, hw, Bool.false_and, Bool.false_eq_true, if_false, if_true]
    rfl
  exact ⟨fun hr => hwait.trans (if_pos hr), fun hr => hwait.trans (if_neg (Nat.not_lt.2 hr))⟩

theorem handleRequest_performs (hw : mustWait s p r.op = false) :
    (∀ c, performFor (s.unpost i) m.sender.ctx m.dep p r.op = .error c →
      handleRequest s i m r = (s.unpost i).refuses m r c) ∧
    (∀ v u, performFor (s.unpost i) m.sender.ctx m.dep p r.op = .ok (v, u) → handleRequest s i m r =
      (u.learnFrom m.src m.dst m.dep).post m.dst m.src m.sender
        ((u.learnFrom m.src m.dst m.dep).heard (dieOf m.dst) m.dep) none
        (if r.reply then .reply m.id (.word (BitVec.ofNat 64 v)) else .ack m.id r.addr m.sender.pc m.dst none)) := by
  have hp' := (requestPlace_unpost s i m r).trans hp
  rw [handleRequest_arrives hk hp hw]
  exact ⟨fun c hf => arrive_fails hp' hf, fun v u hf => arrive_performs hp' hf⟩

end Placed

end Request

/-! Replies that find no strand (R157, R158) -/

section Orphan

variable (s : State) (i : Nat) (m : Msg)

/-- Taking a reply from the fabric changes at most how many requests its core has outstanding. -/
theorem replied_parked : ((s.replied i m).core m.dst).overflow = (s.core m.dst).overflow ∧
    ((s.replied i m).core m.dst).orphansLost = (s.core m.dst).orphansLost := by
  unfold State.replied
  split
  · rw [State.answered, core_modCore, if_pos rfl]
    exact ⟨rfl, rfl⟩
  · exact ⟨rfl, rfl⟩

theorem replied_launchLive (l : BitVec 32) : (s.replied i m).launchLive l = s.launchLive l := by
  unfold State.replied
  split <;> rfl

/-- An orphan of a LIVE launch is parked and reported, or counted when the store is full (R157, R357, R403). -/
theorem orphan_replied (id : Nat) (v : QVal) (hl : s.launchLive m.sender.launch = true) :
    ((s.core m.dst).overflow.length < 64 →
      orphan (s.replied i m) m.dst m.sender id v = report (((s.replied i m).modCore m.dst fun c =>
        { c with overflow := c.overflow ++ [.reply m.sender (BitVec.ofNat 64 id) v], orphansLost := 0 }).count m.dst
          m.sender.ctx 0x0D 1) m.dst m.sender
        { cause := .orphan, pc := some 0, msgId := some (BitVec.ofNat 64 id), detail := (s.core m.dst).orphansLost }) ∧
    (64 ≤ (s.core m.dst).overflow.length → orphan (s.replied i m) m.dst m.sender id v =
      ((s.replied i m).modCore m.dst fun c => { c with orphansLost := c.orphansLost + 1 }).count m.dst m.sender.ctx 0x0D 1) := by
  obtain ⟨ho, hlost⟩ := replied_parked s i m
  have hl' := (replied_launchLive s i m _).trans hl
  refine ⟨fun hr => ?_, fun hr => ?_⟩
  · have hr' : (s.core m.dst).overflow.length < overflowRoom := hr
    simp only [orphan, hl', ho, hlost, hr', Bool.not_true, Bool.false_eq_true, if_false, if_true]
    rfl
  · have hr' : ¬ (s.core m.dst).overflow.length < overflowRoom := Nat.not_lt.2 hr
    simp only [orphan, hl', ho, hr', Bool.not_true, Bool.false_eq_true, if_false]

end Orphan

/-! The inbound strand queue (R137, R138) -/

theorem takesInbound_iff (c : Core) : c.takesInbound = true ↔ c.inbound.length < 8 ∧ c.hasRoom = true := by
  rw [Core.takesInbound, Bool.and_eq_true, decide_eq_true_iff]
  rfl

/-- What arrives for the inbound queue of a core enters it, or stays where it is, as the queue has room. -/
theorem inbound_enters {s t : State} {c : Core} {row : Instr}
    (hx : exec row s = if c.takesInbound then .next t else .next s) :
    (c.inbound.length < 8 → c.hasRoom = true → exec row s = .next t) ∧
    (8 ≤ c.inbound.length ∨ c.hasRoom = false → exec row s = .next s) := by
  refine ⟨fun hn hr => hx.trans (if_pos ((takesInbound_iff _).2 ⟨hn, hr⟩)), fun hno => hx.trans (if_neg fun ht => ?_)⟩
  obtain ⟨hn, hr⟩ := (takesInbound_iff _).1 ht
  exact hno.elim (Nat.not_le.2 hn) fun hf => Bool.false_ne_true (hf.symm.trans hr)

section Arrival

variable {s : State} {i : Nat} {m : Msg} (hm : s.arriving i = some m)
include hm

/-! Acknowledgements (R206, R213) -/

/-- The strand whose write `id` is acknowledged, with the refusal it then remembers. -/
def Strand.acked (st : Strand) (id home : Nat) (a pc : Word) (no : Option Cause) : Strand :=
  { st with
    writes := st.writes.filter (·.id != id),
    refused := match no with | some c => st.refused ++ [⟨id, home, a, pc, c⟩] | none => st.refused,
    hfRefused := match no with
      | some _ => if (∃ w ∈ st.writes, w.id = id ∧ w.loft = true) ∧ st.hfRefused ≠ BitVec.allOnes 32 then
          st.hfRefused + 1 else st.hfRefused
      | none => st.hfRefused }

theorem writeAcknowledgement_next {id home : Nat} {a pc : Word} {no : Option Cause} (he : s.ev = some (.writeAcknowledgement i))
    (hb : m.body = .ack id a pc home no) (hn : m.sender.names (s.slot m.sender.unit m.sender.slot).st = true) :
    exec .writeAcknowledgement s = .next ((s.unpost i).modSlot m.sender.unit m.sender.slot fun sl =>
      { sl with st := sl.st.acked id home a pc no }) := by
  have hn' : m.sender.names ((s.unpost i).slot m.sender.unit m.sender.slot).st = true := hn
  simp only [exec_writeAcknowledgement, execWriteAcknowledgement, he, hm, hb, State.modSlot, hn', if_true]
  cases no with
  | none => simp only [Strand.acked, Option.isSome_none, Bool.and_false, Bool.false_and, Bool.false_eq_true, if_false]
  | some c =>
    simp only [Strand.acked, Option.isSome_some, Bool.and_true, Bool.and_eq_true, List.any_eq_true, beq_iff_eq, bne_iff_ne]

/-! Replies (R190) -/

section Reply

variable {id : Nat} {v : QVal} (he : s.ev = some (.replyArrival i)) (hb : m.body = .reply id v)
include he hb

/-- A reply to a strand of its core enters q7 when it answers the oldest request and finds room (R190). -/
theorem replyArrival_here {k : Nat} {x : Asked} {xs : List Asked} (hs : (s.core m.dst).slotOf m.sender = some k)
    (hx : ((s.core m.dst).slot k).st.asked = x :: xs) :
    (x.id = id → (s.core m.dst).qlen 7 < 8 → exec .replyArrival s = .next
      ((s.replied i m).modCore m.dst fun c => c.putReply k id v m.dep)) ∧
    (x.id ≠ id ∨ 8 ≤ (s.core m.dst).qlen 7 → exec .replyArrival s = .next s) := by
  have hrow : exec .replyArrival s = if x.id = id ∧ (s.core m.dst).qlen 7 < 8 then
      .next ((s.replied i m).modCore m.dst fun c => c.putReply k id v m.dep) else .next s := by
    simp only [exec_replyArrival, execReplyArrival, he, hm, hb, hs, hx, List.head?_cons, Option.any_some, Bool.and_eq_true,
      beq_iff_eq, decide_eq_true_eq]
    rfl
  refine ⟨fun hid hr => hrow.trans (if_pos ⟨hid, hr⟩), fun hno => hrow.trans (if_neg ?_)⟩
  rintro ⟨hid, hr⟩
  exact hno.elim (absurd hid) (Nat.not_le.2 hr)

/-- A reply whose strand is gone from its core and has no forwarding entry there is an orphan (R157, R158). -/
theorem replyArrival_orphan (hs : (s.core m.dst).slotOf m.sender = none)
    (hf : ∀ f ∈ (s.core m.dst).forwards, f.isFor m.sender = false) :
    exec .replyArrival s = .next (orphan (s.replied i m) m.dst m.sender id v) := by
  have hfind : ((s.core m.dst).forwards.find? fun f => f.isFor m.sender) = none := by
    simpa only [List.find?_eq_none, Bool.not_eq_true] using hf
  simp only [exec_replyArrival, execReplyArrival, he, hm, hb, hs, hfind]

end Reply

/-! Migrants and members that waited (R149, R189) -/

section Inbound

variable (he : s.ev = some (.migrantArrival i))
include he

theorem migrantArrival_live {st : Strand} {q7 : List QVal} (hb : m.body = .migrant st q7)
    (hl : s.launchLive st.launch = true) : exec .migrantArrival s = if (s.core m.dst).takesInbound then
      .next (((s.unpost i).learnFrom m.src m.dst m.dep).modCore m.dst fun c =>
        { c with inbound := c.inbound ++ [.migrant st q7] }) else .next s := by
  simp only [exec_migrantArrival, execMigrantArrival, he, hm, hb, hl, Bool.not_true, Bool.false_eq_true, if_false]

/-- A migrant of a launch that is no longer LIVE ends (R364). -/
theorem migrantArrival_dropped {st : Strand} {q7 : List QVal} (hb : m.body = .migrant st q7)
    (hl : s.launchLive st.launch = false) : exec .migrantArrival s = .next ((s.unpost i).dropMigrant m.dst st) := by
  simp only [exec_migrantArrival, execMigrantArrival, he, hm, hb, hl, Bool.not_false, if_true]

theorem memberArrival_live {x : Inbound} (hb : m.body = .member x) (hl : s.launchLive m.sender.launch = true) :
    exec .migrantArrival s = if (s.core m.dst).takesInbound then
      .next (((s.unpost i).learnFrom m.src m.dst m.dep).modCore m.dst fun c => { c with inbound := c.inbound ++ [x] })
    else .next s := by
  simp only [exec_migrantArrival, execMigrantArrival, he, hm, hb, hl, Bool.not_true, Bool.false_eq_true, if_false]

theorem memberArrival_dropped {x : Inbound} (hb : m.body = .member x) (hl : s.launchLive m.sender.launch = false) :
    exec .migrantArrival s = .next (s.unpost i) := by
  simp only [exec_migrantArrival, execMigrantArrival, he, hm, hb, hl, Bool.not_false, if_true]

end Inbound

/-! Granules of pushes (R237) -/

theorem pushGranuleWrite_next {a : Word} {bs : List Byte} {stamp : Option (BitVec 8)} {first : Bool}
    (he : s.ev = some (.pushGranuleWrite i)) (hb : m.body = .push a bs stamp first) :
    exec .pushGranuleWrite s = .next (writeGranule s i m a bs stamp first) := by
  simp only [exec_pushGranuleWrite, execPushGranuleWrite, he, hm, hb]

end Arrival

section Granule

variable {s : State} {i : Nat} {m : Msg} {a : Word} {bs : List Byte} {stamp : Option (BitVec 8)} {first : Bool} {v off : Nat}
  (hp : localOf m.src a.toNat = some (v, off))
include hp

/-- A granule written is acknowledged when it is the push's last; else the push goes on with the next. -/
theorem writeGranule_ok {t : State} (hg : pushGranule s m.sender.ctx m.dep (ownPlace s v off) (bs.take 16)
    (if first || off % 4096 == 0 then stamp else none) = .ok t) : writeGranule s i m a bs stamp first =
      if bs.length ≤ 16 then (t.unpost i).post m.dst m.src m.sender (t.heard (dieOf m.dst) m.dep) none
        (.ack m.id a m.sender.pc m.dst none)
      else { t with fabric := t.fabric.modify i fun m => { m with body := .push (a + 16) (bs.drop 16) stamp false } } := by
  simp only [writeGranule, hp, hg]

/-- A granule refused ends its push, and is reported. -/
theorem writeGranule_refused {c : Cause} (hg : pushGranule s m.sender.ctx m.dep (ownPlace s v off) (bs.take 16)
    (if first || off % 4096 == 0 then stamp else none) = .error c) : writeGranule s i m a bs stamp first =
      ((report s m.dst m.sender { cause := c, addr := a }).unpost i).post m.dst m.src m.sender
        ((report s m.dst m.sender { cause := c, addr := a }).heard (dieOf m.dst) m.dep) none
        (.ack m.id a m.sender.pc m.dst (some c)) := by
  simp only [writeGranule, hp, hg]

end Granule

/-- Settles O47: requests and stores, reads of killed launches, acknowledgements, replies, migrants and pushes in turn. -/
theorem arrivalsAtHome : Obligations.ArrivalsAtHome := by
  unfold Obligations.ArrivalsAtHome
  refine ⟨?_, ?_, ?_, ?_, ?_, ?_⟩
  · intro s i m r row h hm hk t hear send ack refused found
    have hrow := requestRow_next hm h
    refine ⟨fun c hc => ?_, fun p hp hne => ?_, fun p hp hpl hal => ?_, fun p hp hpl hal => ⟨fun hw => ?_, fun hw => ?_⟩⟩
    · exact hrow.trans (congrArg _ (handleRequest_unplaced hk (requestPlace_unlocated hc)))
    · exact hrow.trans (congrArg _ (handleRequest_unplaced hk (requestPlace_moved hp hne)))
    · exact hrow.trans (congrArg _ (handleRequest_unplaced hk (requestPlace_misaligned hp hpl hal)))
    · obtain ⟨hfails, hdone⟩ := handleRequest_performs (i := i) hk (requestPlace_ok hp hpl hal) hw
      exact ⟨fun c hc => hrow.trans (congrArg _ (hfails c hc)), fun v u hu => hrow.trans (congrArg _ (hdone v u hu))⟩
    · obtain ⟨hkept, hfull⟩ := handleRequest_waits (i := i) hk (requestPlace_ok hp hpl hal) hw
      exact ⟨fun hr => hrow.trans (congrArg _ (hkept hr)), fun hr => hrow.trans (congrArg _ (hfull hr))⟩
  · intro s i m r he hm hb hk hw
    exact (requestRow_next hm (.inl ⟨rfl, hb, he⟩)).trans (congrArg _ (handleRequest_dropped hk hw))
  · intro s i m id a pc home no he hm hb hn
    exact writeAcknowledgement_next hm he hb hn
  · intro s i m id v he hm hb gone
    refine ⟨fun k x xs hs hx => replyArrival_here hm he hb hs hx, fun hs hf hl => ?_⟩
    have hrow := replyArrival_orphan hm he hb hs hf
    obtain ⟨hparked, hlost⟩ := orphan_replied s i m id v hl
    exact ⟨fun hr => hrow.trans (congrArg _ (hparked hr)), fun hr => hrow.trans (congrArg _ (hlost hr))⟩
  · intro s i m he hm c enters
    exact ⟨fun st q7 hb => ⟨fun hl => inbound_enters (migrantArrival_live hm he hb hl), migrantArrival_dropped hm he hb⟩,
      fun x hb => ⟨fun hl => inbound_enters (memberArrival_live hm he hb hl), memberArrival_dropped hm he hb⟩⟩
  · intro s i m a bs stamp first v off he hm hb hp new granule
    have hrow := pushGranuleWrite_next hm he hb
    refine ⟨fun t ht => ⟨fun hn => ?_, fun hn => ?_⟩, fun c hc => hrow.trans (congrArg _ (writeGranule_refused hp hc))⟩
    · exact hrow.trans (congrArg _ ((writeGranule_ok hp ht).trans (if_pos hn)))
    · exact hrow.trans (congrArg _ ((writeGranule_ok hp ht).trans (if_neg (Nat.not_le.2 hn))))

end Sys2Proof.Machine
end

section
/-! Fences: what their scope still holds, and the writes refused in it (R208 to R213, R229). -/

namespace Sys2Proof.Machine

/-! The earliest of refused writes (R213) -/

theorem mem_of_earliest {l : List Refused} {q : Refused} (h : earliest l = some q) : q ∈ l := by
  induction l with
  | nil => exact absurd h nofun
  | cons x xs ih =>
    rw [earliest] at h
    split at h
    next p hp =>
      split at h
      · exact List.mem_cons_of_mem x (ih (hp.trans h))
      · exact Option.some.inj h ▸ List.mem_cons_self
    next => exact Option.some.inj h ▸ List.mem_cons_self

/-- A write of a list that stands before every other of it in program order is its earliest. -/
theorem earliest_of_least {l : List Refused} {r : Refused} (hr : r ∈ l) (hl : ∀ x ∈ l, x ≠ r → r.id < x.id) :
    earliest l = some r := by
  induction l with
  | nil => exact absurd hr List.not_mem_nil
  | cons x xs ih =>
    have hxs : ∀ y ∈ xs, y ≠ r → r.id < y.id := fun y hy => hl y (List.mem_cons_of_mem x hy)
    by_cases hx : x = r
    · subst hx
      rw [earliest]
      split
      next q hq =>
        split
        next hlt =>
          have hne : q ≠ x := by rintro rfl; exact absurd hlt (Nat.lt_irrefl _)
          exact absurd hlt (Nat.not_lt_of_lt (hxs q (mem_of_earliest hq) hne))
        next => rfl
      next => rfl
    · have hr : r ∈ xs := (List.mem_cons.1 hr).resolve_left (Ne.symm hx)
      simp only [earliest, ih hr hxs, hl x List.mem_cons_self hx, if_true]

/-! The wait of a fence (R211 to R213) -/

section Wait

variable {s : State} {sc : Scope} {all : Bool}

/-- STORE.REFUSED is raised for the earliest of the refused writes picked, and none of them stays to be reported. -/
theorem refusedNow_least {mine : Refused → Bool} {r : Refused} (hr : r ∈ s.st.refused) (hm : mine r = true)
    (hl : ∀ x ∈ s.st.refused, mine x = true → x ≠ r → r.id < x.id) :
    refusedNow s mine = .error (.trap (refusedTrap r)
      (some (s.modSt fun st => { st with refused := st.refused.filter fun x => !mine x }))) := by
  have he : earliest (s.st.refused.filter mine) = some r :=
    earliest_of_least (List.mem_filter.2 ⟨hr, hm⟩) fun x hx => hl x (List.mem_filter.1 hx).1 (List.mem_filter.1 hx).2
  simp only [refusedNow, he]

theorem fenceWaits_unsettled (h : s.settledIn sc all = false) : fenceWaits s sc all = .error (.block none) := by
  rw [fenceWaits, h]
  rfl

theorem fenceWaits_settled (h : s.settledIn sc all = true) :
    fenceWaits s sc all = refusedNow s fun r => inScope s.focusU r.home sc := if_pos h

end Wait

/-! Rows that begin with the wait of a fence (R229) -/

section Row

/-- A row that waits as a fence and goes on with `rest`. -/
def FenceRow (i : Instr) (all : Bool) (rest : State → Run) : Prop :=
  ∀ s, exec i s = performSeq s fun s => fenceWaits s (fenceScope s) all >>= fun _ => rest s

/-- What `fence.total` does once it has waited: it takes its place in the sequence, if its sequencer can be reached (R212,
R397). -/
def takePlace (s : State) : Run := if sequencerUp s then .ok s.rest else .error (.block none)

theorem fenceRel_row : FenceRow .fenceRel false .ok := fun _ => rfl
theorem fence_row : FenceRow .fence false .ok := fun _ => rfl
theorem fenceTotal_row : FenceRow .fenceTotal true takePlace := fun _ => rfl

variable {s : State} {i : Instr} {all : Bool} {rest : State → Run} (h : s.Ready) (hi : FenceRow i all rest)
include h hi

/-- A fence that finds nothing left to wait for goes on. -/
theorem fenceRow_fenced (hf : s.Fenced (fenceScope s) all) : exec i s = performSeq s fun _ => rest s := by
  rw [hi s]
  simp only [performSeq, perform_ready h, fenceWaits_ok hf, ok_bind]

theorem fenceRow_blocks (hw : s.settledIn (fenceScope s) all = false) :
    exec i s = .next (s.blockSlot s.focusU s.focusK) :=
  row_block h (hi s) (by rw [fenceWaits_unsettled hw, error_bind])

/-- A fence whose scope is settled raises STORE.REFUSED for the earliest write refused in it, and reports each of them no
more. -/
theorem fenceRow_refused {r : Refused} (hr : r ∈ s.st.refused) (hw : s.settledIn (fenceScope s) all = true)
    (hsc : inScope s.focusU r.home (fenceScope s) = true)
    (hl : ∀ x ∈ s.st.refused, inScope s.focusU x.home (fenceScope s) = true → x ≠ r → r.id < x.id) :
    exec i s = .next ((s.modSt fun st =>
      { st with refused := st.refused.filter fun x => !inScope s.focusU x.home (fenceScope s) }).trapHere
        (refusedTrap r)) := by
  rw [hi s, performSeq_error h (by rw [fenceWaits_settled hw, refusedNow_least hr hsc hl, error_bind])]
  rfl

end Row

/-- The A immediate of a fence names the scope of its code (R41, R229). -/
theorem fenceScope_imm {s : State} {n : Fin 5} (h : s.ir.a = .imm (BitVec.ofNat 21 n)) :
    some (fenceScope s) = Scope.ofCode n := by
  simp only [fenceScope, h]
  fin_cases n <;> rfl

/-- Settles O23: the scope named, `fence.acq`, the fences with nothing left to wait for, then each one's wait and trap. -/
theorem fences : Obligations.Fences := by
  unfold Obligations.Fences
  intro s h sc waits
  have hwaits : ∀ {i all rest}, FenceRow i all rest → waits i all := fun hi =>
    ⟨fenceRow_blocks h hi, fun _ hr hw hsc hl => fenceRow_refused h hi hr hw hsc hl⟩
  refine ⟨fun n => fenceScope_imm, row_next h (exec_fenceAcq s) rfl, fun hf => ⟨?_, ?_⟩, fun hf => ⟨fun hup => ?_, fun hup => ?_⟩,
    hwaits fenceRel_row, hwaits fence_row, hwaits fenceTotal_row⟩
  · exact row_next h (fenceRow_fenced h fenceRel_row hf) rfl
  · exact row_next h (fenceRow_fenced h fence_row hf) rfl
  · exact row_next h (fenceRow_fenced h fenceTotal_row hf) (if_pos hup)
  · exact row_block h (fenceRow_fenced h fenceTotal_row hf) (if_neg (by rw [hup]; exact Bool.false_ne_true))

end Sys2Proof.Machine
end

section
/-! Loads through L and at their home, and the elements that format-aware loads give (R187, R199, R221, R222, R225, R226). -/

namespace Sys2Proof.Machine

/-! Reads at a home -/

section
variable {t : State} {ctx : BitVec 12} {d : Clock} {p : Place} {n q x : Nat}

/-- A home shows a read the bytes of its place under the context's key (R199). -/
theorem readAt_reach (h : reach t ctx p n = .ok q) : readAt t ctx p n = .ok (t.numUnder (p.key t ctx) q n) := by
  simp only [readAt, h]
  rfl

theorem performFor_pair (h : reach t ctx p 16 = .ok q) :
    performFor t ctx d p .pair = .ok (t.numUnder (p.key t ctx) q 16, t) := by
  simp [performFor, performAt, readAt_reach h, bind, Except.bind, pure, Except.pure, MemOp.writes, MemOp.fills]

theorem performFor_decode (h : decodeAt t ctx p = .ok x) : performFor t ctx d p .decode = .ok (x, t) := by
  simp [performFor, performAt, h, bind, Except.bind, pure, Except.pure, MemOp.writes, MemOp.fills]

/-! Elements under the format of their place (R225) -/

theorem decodeAt_fp32 (hf : formatOf p.tag = .fp32) (h : reach t ctx p 4 = .ok q) :
    decodeAt t ctx p = .ok (t.numUnder (p.key t ctx) q 4) := by
  simp only [decodeAt, hf, readAt_reach h]

theorem decodeAt_fp16 (hf : formatOf p.tag = .fp16) (h : reach t ctx p 2 = .ok q) :
    decodeAt t ctx p = .ok (widen16 fp16 (t.numUnder (p.key t ctx) q 2)) := by
  simp only [decodeAt, hf, readAt_reach h]

theorem decodeAt_bf16 (hf : formatOf p.tag = .bf16) (h : reach t ctx p 2 = .ok q) :
    decodeAt t ctx p = .ok (widen16 bf16 (t.numUnder (p.key t ctx) q 2)) := by
  simp only [decodeAt, hf, readAt_reach h]

/-- A binary8 element is its code's value times the scale of its block, which lies in the same frame, rounded once. -/
theorem decodeAt_b8 {f i c r : Nat} (hf : formatOf p.tag = .b8 f) (hs : slotOf p.tag p.inFrame = some (i, c))
    (h : reach t ctx p 1 = .ok q) (hc : reach t ctx (p.shift ((c : Int) - (p.inFrame : Nat))) 1 = .ok r) :
    decodeAt t ctx p =
      .ok (round32 (scaledValue f (t.numUnder (p.key t ctx) q 1) (t.numUnder (p.key t ctx) r 1)) false) := by
  have hk : (p.shift ((c : Int) - (p.inFrame : Nat))).key t ctx = p.key t ctx := rfl
  simp only [decodeAt, elementAt, hf, hs, readAt_reach h, readAt_reach hc, hk]

end

/-! The tests of a format-aware load (R225) -/

section
variable {t : State} {p : Place} {a f i c : Nat} {g : MemForm} {e : Stop}

theorem locateForm_undecoded (h : g.Takes a) (hl : locate t t.focusU t.st.ctx a g.kind = .ok p) (ho : g.op = .decode)
    (hd : decodeTests p a = .error e) : locateForm t a g = .error e := by
  have hb : (g.op == .decode) = true := by rw [ho]; rfl
  rw [locateForm_takes h, hl]
  simp only [hb, if_true, hd]
  rfl

theorem decodeTests_raw (h : formatOf p.tag = .raw) : decodeTests p a = .error (.trap (trapAt .fmtRaw a)) := by
  simp only [decodeTests, h]
  rfl

theorem decodeTests_noSlot (h : formatOf p.tag = .b8 f) (hs : slotOf p.tag p.inFrame = none) :
    decodeTests p a = .error (.trap (trapAt .fmtSlot a)) := by
  simp only [decodeTests, h, hs]
  rfl

theorem decodeTests_slot (h : formatOf p.tag = .b8 f) (hs : slotOf p.tag p.inFrame = some (i, c)) :
    decodeTests p a = .ok () := by
  simp only [decodeTests, h, hs]
  rfl

/-- An element of a scalar format stands at a multiple of its size. -/
theorem decodeTests_aligned {x : Format} (h : formatOf p.tag = x) (hx : x = .fp32 ∨ x = .fp16 ∨ x = .bf16)
    (ha : a % x.size = 0) : decodeTests p a = .ok () := by
  rcases hx with rfl | rfl | rfl <;> simp only [decodeTests, h, ha, if_true]

end

/-! Reads performed at issue -/

/-- A read alone takes nothing, writes nothing and answers its strand. -/
theorem MemOp.plain_op {op : MemOp} (h : op.plain = true) : op.takes = false ∧ op.writes = false ∧ op.replies = true := by
  cases op with
  | load | pair | decode | testFull => exact ⟨rfl, rfl, rfl⟩
  | _ => cases h

section
variable {i : Instr} {f : MemForm} {put : Bool → Nat → State → Run} {s t v : State} {k : Access} {n a x : Nat} {p : Place}

/-- A read alone is performed at issue; a budget trap takes back one that its strand waits for (R145, R187). -/
theorem LoadRow.performs (hrow : LoadRow i f put) (h : s.Finds k n a p t) (hp : f.Passes s t k n a p) (hd : t.Direct p false)
    (hplain : f.op.plain = true) (hf : performFor t t.st.ctx t.st.dep p f.op = .ok (x, t))
    (hput : put (!p.near) x t.hear = .ok v) : exec i s = .next (if p.near then v else takeBack s v).passed := by
  obtain ⟨hroute, hearly⟩ := hd
  obtain ⟨htakes, hwrites, hreplies⟩ := MemOp.plain_op hplain
  obtain ⟨hsub, -⟩ := hrow.op
  have hnow : accessNow f p a put t = .ok v := by
    rw [accessNow_ok (by rw [hwrites]; exact hearly) hf, hreplies]
    exact hput
  have hway := routeOf_direct hroute
  rw [hrow.way h hp]
  cases hn : p.near <;> rw [hn] at hway
  · rw [wayOf_read hsub hreplies hplain hway hnow]
    rfl
  · rw [wayOf_near hsub htakes hway hnow]
    rfl

/-- The result of such a read comes at its latency through L, else as a long load's (R187, R220). -/
theorem LoadRow.gives {lat : Nat} (hrow : LoadRow i f (loadDst lat)) (h : s.Finds k n a p t) (hp : f.Passes s t k n a p)
    (hd : t.Direct p false) (hplain : f.op.plain = true) (hf : performFor t t.st.ctx t.st.dep p f.op = .ok (x, t))
    (hroom : t.hear.Room) : exec i s = .next (s.giveLoad t.hear p lat (BitVec.ofNat 64 x)).passed := by
  rw [hrow.performs h hp hd hplain hf (loadDst_give hroom), State.giveLoad, State.give]
  cases p.near <;> rfl

end

/-- The number in the bytes that a sign-extending load reads, as a word (R221). -/
theorem word_sgn_narrow (w : Narrow) (x : Nat) :
    word (wrap 64 (sgn (8 * narrowBytes w) x)) = (BitVec.ofNat (narrowBits w) x).signExtend 64 := by
  have hb : 8 * narrowBytes w = narrowBits w := by cases w <;> rfl
  have hpos : 0 < narrowBits w := by cases w <;> decide
  rw [hb, word_wrap64, sgn_eq_toInt hpos]
  rfl

/-- Both registers of a pair land together (R222). -/
theorem loadPair_next {t : State} {i : Fin 16} (h : t.ir.d = .x i) (long : Bool) (x : Nat) :
    loadPair long x t = .ok (if long then landLong [(.x i, BitVec.ofNat 64 x), (.x (i + 1), BitVec.ofNat 64 (x / 2 ^ 64))] t
      else (t.fly 3 (.x i) (BitVec.ofNat 64 x)).fly 3 (.x (i + 1)) (BitVec.ofNat 64 (x / 2 ^ 64))) := by
  have hlo : word (x % 2 ^ 64) = BitVec.ofNat 64 x := BitVec.eq_of_toNat_eq (by simp only [word, BitVec.toNat_ofNat, Nat.mod_mod])
  simp only [loadPair, h, hlo]
  rfl

/-- Settles O16: loads, acquires and pairs, then the elements of `ldd` under each format of their place. -/
theorem loads : Obligations.Loads := by
  unfold Obligations.Loads
  refine ⟨⟨fun s t a q p w h hd hq hroom => ?_, fun s t a q p w h hd hq hroom => ?_, fun s t a q p w h hd hq hsc hroom => ?_,
    fun s t a q p i h hd hq hdst => ?_⟩, fun s t a q p h => ?_⟩
  · exact (LoadRow.ld w).gives h ⟨rfl, rfl, nofun, nofun, nofun, nofun⟩ hd rfl (performFor_load hq) hroom
  · rw [← word_sgn_narrow]
    exact (LoadRow.lds w).gives h ⟨rfl, rfl, nofun, nofun, nofun, nofun⟩ hd rfl (performFor_load hq) hroom
  · exact (LoadRow.ldAcq w).gives h ⟨rfl, rfl, nofun, nofun, fun _ => hsc, nofun⟩ hd rfl (performFor_load hq) hroom
  · intro lo hi
    rw [LoadRow.ldp128.performs h ⟨rfl, rfl, nofun, nofun, nofun, nofun⟩ hd rfl (performFor_pair hq)
      (loadPair_next (t := t.hear) hdst _ _)]
    cases p.near <;> rfl
  · intro num
    have traps : ∀ {c}, decodeTests p a = .error (.trap (trapAt c a)) → exec .ldd s = .next (s.trapHere (trapAt c a)) :=
      fun hdec => by
        obtain ⟨hs, ⟨b, hA, rfl⟩, ha, hl⟩ := h
        exact (LoadRow.ldd.exec_eq s).trans
          ((State.Forms.of_form hs hA).traps (locateForm_undecoded (.plain ha rfl) hl rfl hdec))
    refine ⟨fun hf => traps (decodeTests_raw hf), fun f hf hs => traps (decodeTests_noSlot hf hs), fun hd hroom => ?_⟩
    have gives : ∀ {x}, decodeTests p a = .ok () → decodeAt t t.st.ctx p = .ok x →
        exec .ldd s = .next (s.giveLoad t.hear p 6 (BitVec.ofNat 64 x)).passed := fun htest hx =>
      LoadRow.ldd.gives h ⟨rfl, rfl, fun _ => htest, nofun, nofun, nofun⟩ hd rfl (performFor_decode hx) hroom
    exact ⟨fun hf ha hq => gives (decodeTests_aligned hf (.inl rfl) ha) (decodeAt_fp32 hf hq),
      fun hf ha hq => gives (decodeTests_aligned hf (.inr (.inl rfl)) ha) (decodeAt_fp16 hf hq),
      fun hf ha hq => gives (decodeTests_aligned hf (.inr (.inr rfl)) ha) (decodeAt_bf16 hf hq),
      fun f i c r hf hs hq hr => gives (decodeTests_slot hf hs) (decodeAt_b8 hf hs hq hr)⟩

end Sys2Proof.Machine
end

section
/-! Numbers in memory: what a number stored reads as, and what its store leaves of the state (R2, R199, R223, R321, R403). -/

namespace Sys2Proof.Machine

/-! Numbers and their bytes (R2) -/

theorem leNat_leBytes_mod (n v : Nat) : leNat (leBytes n v) = v % 256 ^ n := by
  induction n generalizing v with
  | zero => rw [pow_zero, Nat.mod_one]; rfl
  | succ n ih => rw [leBytes, leNat, ih, BitVec.toNat_ofNat, pow_succ' 256 n]; exact Nat.mod_mul.symm

theorem leBytes_getElem (n v : Nat) {i : Nat} (h : i < (leBytes n v).length) :
    (leBytes n v)[i] = BitVec.ofNat 8 (v / 256 ^ i) := by
  induction n generalizing v i with
  | zero => exact absurd h (Nat.not_lt_zero i)
  | succ n ih =>
    cases i with
    | zero => rw [pow_zero, Nat.div_one]; rfl
    | succ i => rw [pow_succ', ← Nat.div_div_eq_div_mul]; exact ih (v / 256) _

theorem leNat_lt (l : List Byte) : leNat l < 256 ^ l.length := by
  induction l with
  | nil => exact Nat.one_pos
  | cons b l ih => rw [leNat, List.length_cons, pow_succ']; have := b.isLt; omega

theorem bytes_length (s : State) (p n : Nat) : (s.bytes p n).length = n := by
  induction n generalizing p with
  | zero => rfl
  | succ n ih => exact congrArg Nat.succ (ih (p + 1))

/-- The bytes of a place read as they were last written. -/
theorem bytes_setBytes {s : State} (h : Memory.wf s.mem = true) (p : Nat) (bs : List Byte) :
    (s.setBytes p bs).bytes p bs.length = bs := by
  induction bs generalizing s p with
  | nil => rfl
  | cons b bs ih =>
    have hb : ((s.setByte p b).setBytes (p + 1) bs).byte p = b := by
      rw [byte_setBytes_of_outside (setByte_wf h p b) bs (.inl (Nat.lt_succ_self p)), byte_setByte_self h]
    exact congrArg₂ List.cons hb (ih (setByte_wf h p b) (p + 1))

theorem bytes_congr {s t : State} {p n : Nat} (h : ∀ r, p ≤ r → r < p + n → t.byte r = s.byte r) :
    t.bytes p n = s.bytes p n := by
  induction n generalizing p with
  | zero => rfl
  | succ n ih => exact congrArg₂ List.cons (h p (le_refl p) (by omega)) (ih fun r hl hr => h r (by omega) (by omega))

section
variable {s : State} (h : s.Canonical) (takes : Bool) (q n v : Nat)
include h

/-- A number stored is read as its low bytes. -/
theorem num_storeNum : (s.storeNum takes q n v).num q n = v % 256 ^ n := by
  have hb := bytes_setBytes h.1 q (leBytes n v)
  rw [leBytes_length] at hb
  rw [State.num, (storeNum_maps s takes q n v).bytes, hb, leNat_leBytes_mod]

/-- Its bytes stand in memory from the least significant on. -/
theorem byte_storeNum {i : Nat} (hi : i < n) : (s.storeNum takes q n v).byte (q + i) = BitVec.ofNat 8 (v / 256 ^ i) := by
  have hi' : i < (leBytes n v).length := by rw [leBytes_length]; exact hi
  rw [(storeNum_maps s takes q n v).byte, byte_setBytes h.1 q _ hi', leBytes_getElem]

end

theorem setBytes_apart (s : State) (p : Nat) (bs : List Byte) :
    (s.setBytes p bs).seals = s.seals ∧ (s.setBytes p bs).hostMem = s.hostMem := by
  induction bs generalizing s p with
  | nil => exact ⟨rfl, rfl⟩
  | cons b bs ih => exact ih (s.setByte p b) (p + 1)

/-- A number stored leaves the keys that HBM was written under and the host's memory. -/
theorem storeNum_apart (s : State) (takes : Bool) (q n v : Nat) :
    (s.storeNum takes q n v).seals = s.seals ∧ (s.storeNum takes q n v).hostMem = s.hostMem := by
  obtain ⟨-, hh, -, -, -, hs⟩ := storeNum_maps s takes q n v
  obtain ⟨hs', hh'⟩ := setBytes_apart s q (leBytes n v)
  exact ⟨hs.trans hs', hh.trans hh'⟩

/-- A byte stored is known by its low 8 bits. -/
theorem storeNum_ofNat (s : State) (takes : Bool) (q v : Nat) :
    s.storeNum takes q 1 (BitVec.ofNat 8 v).toNat = s.storeNum takes q 1 v := by
  have hb : leBytes 1 (BitVec.ofNat 8 v).toNat = leBytes 1 v := by simp only [leBytes, BitVec.ofNat_toNat, BitVec.setWidth_eq]
  rw [State.storeNum, hb]
  rfl

/-! The filters that see a store (R321) -/

/-- A reading of the state that looks neither at memory, the counters nor the contexts is as before a store. -/
structure ApartFromStores {α : Type} (f : State → α) : Prop extends ApartFromRecords f where
  setContext : ∀ s ctx x, f (s.setContext ctx x) = f s

namespace ApartFromStores

variable {α : Type} {f : State → α} (h : ApartFromStores f)
include h

theorem countLf (s : State) (ctx : BitVec 12) (u code : Nat) : f (s.countLf ctx u code) = f s :=
  (h.countHub _ _ _ _).trans (h.count s _ _ _ _)

theorem takeElements (ctx : BitVec 12) (k u n i p : Nat) (s : State) : f (takeElements ctx k u n i p s) = f s := by
  induction n generalizing i p s with
  | zero => rfl
  | succ n ih =>
    unfold Machine.takeElements
    split
    · rfl
    · refine (ih _ _ _).trans ?_
      split
      · exact h.countLf s _ _ _
      · exact h.setContext s _ _

theorem takeWrite (p : Nat) (ctx : BitVec 12) (k : Nat) (g : Filter) (at0 : Int) (lo hi : Nat) (s : State) :
    f (takeWrite p ctx k g at0 lo hi s) = f s := by
  unfold Machine.takeWrite
  dsimp only
  split
  · exact (h.countLf _ _ _ _).trans (h.takeElements _ _ _ _ _ _ s)
  · exact h.takeElements _ _ _ _ _ _ s

theorem filtersWrite (takes : Bool) (p n : Nat) (s : State) : f (filtersWrite takes p n s) = f s := by
  unfold Machine.filtersWrite
  split
  · refine foldl_keeps (fun s c => foldl_keeps (fun s g => foldl_keeps (fun s i => ?_) _ s) _ s) _ s
    unfold filterTouch
    dsimp only
    split
    · rfl
    · exact h.takeWrite _ _ _ _ _ _ _ s
  · exact h.untaken p n s

theorem storeNum (s : State) (takes : Bool) (q n v : Nat) : f (s.storeNum takes q n v) = f s := by
  unfold State.storeNum State.store
  dsimp only
  split
  · exact (h.filtersWrite _ _ _ _).trans (h.setBytes s q _)
  · exact h.setBytes s q _

end ApartFromStores

/-! Cores and messages -/

/-- A core without its event counters. -/
def Core.uncounted (c : Core) : Core := { c with counters := [] }

/-- Cores that differ in nothing but their event counters. -/
theorem Core.uncounted_eq {c d : Core} (h : c.uncounted = d.uncounted) : ∃ l, c = { d with counters := l } :=
  ⟨c.counters, congrArg (fun x : Core => { x with counters := c.counters }) h⟩

/-- An event counted changes no core beside its counters. -/
theorem count_uncounted (s : State) (u v : Nat) (ctx : BitVec 12) (code n : Nat) :
    ((s.count u ctx code n).core v).uncounted = (s.core v).uncounted := by
  have hc : (s.count u ctx code n).core v =
      (s.modCore u fun c => { c with counters := c.counters.map (bumpOne code n) }).core v := by
    unfold State.count
    dsimp only
    repeat' split
    all_goals rfl
  rw [hc, core_modCore]
  split
  · rename_i hu; rw [hu]; rfl
  · rfl

theorem count_apart (s : State) (u : Nat) (ctx : BitVec 12) (code n : Nat) :
    (s.count u ctx code n).fabric = s.fabric ∧ (s.count u ctx code n).ir = s.ir := by
  unfold State.count
  dsimp only
  repeat' split
  all_goals exact ⟨rfl, rfl⟩

theorem apart_uncounted (v : Nat) : ApartFromStores fun s => (s.core v).uncounted where
  mem _ _ := rfl
  seals _ _ := rfl
  count s u ctx code n := count_uncounted s u v ctx code n
  countHub s ctx code n := by obtain ⟨x, hx⟩ := countHub_eq s ctx code n; rw [hx]; rfl
  setContext _ _ _ := rfl

theorem apart_fabric : ApartFromStores State.fabric where
  mem _ _ := rfl
  seals _ _ := rfl
  count s u ctx code n := (count_apart s u ctx code n).1
  countHub s ctx code n := by obtain ⟨x, hx⟩ := countHub_eq s ctx code n; rw [hx]
  setContext _ _ _ := rfl

theorem apart_ir : ApartFromStores State.ir where
  mem _ _ := rfl
  seals _ _ := rfl
  count s u ctx code n := (count_apart s u ctx code n).2
  countHub s ctx code n := by obtain ⟨x, hx⟩ := countHub_eq s ctx code n; rw [hx]
  setContext _ _ _ := rfl

/-- What KNOW of a die takes changes no core, no message and not the instruction in hand. -/
theorem learn_apart (s : State) (d : Nat) (c : Clock) :
    (s.learn d c).cores = s.cores ∧ (s.learn d c).fabric = s.fabric ∧ (s.learn d c).ir = s.ir := by
  cases c <;> exact ⟨rfl, rfl, rfl⟩

/-- A store leaves of each core all but its event counters. -/
theorem storeNum_learn_core (s : State) (takes : Bool) (q n v d : Nat) (c : Clock) (u : Nat) :
    ∃ l, ((s.storeNum takes q n v).learn d c).core u = { s.core u with counters := l } := by
  obtain ⟨hcores, -⟩ := learn_apart (s.storeNum takes q n v) d c
  have hl : ((s.storeNum takes q n v).learn d c).core u = (s.storeNum takes q n v).core u := by
    simp only [State.core, hcores]
  rw [hl]
  exact Core.uncounted_eq ((apart_uncounted u).storeNum s takes q n v)

/-! Keys (R199) -/

/-- A unit found under a key stands under that key from then on. -/
theorem underUnit_seal_self {s : State} (h : s.Canonical) (key : Option (BitVec 256)) (i : Nat) :
    (s.underUnit key i).seal i = some key := by
  obtain ⟨-, -, -, -, -, hw⟩ := h
  unfold State.underUnit
  split
  · exact sget_sset_self hw i _
  · rename_i k hk
    split
    · rename_i hkey; rw [hk, hkey]
    · exact sget_sset_self hw i _

theorem underUnits_seal {key : Option (BitVec 256)} (n : Nat) : ∀ (i : Nat) {s : State}, s.Canonical → ∀ {j : Nat},
    (i ≤ j ∧ j < i + n) ∨ s.seal j = some key → (underUnits key i n s).seal j = some key := by
  induction n with
  | zero => exact fun i s _ j hj => hj.resolve_left (by omega)
  | succ n ih =>
    intro i s h j hj
    refine ih (i + 1) (canonical_underUnit h key i) ?_
    by_cases hi : j = i
    · exact .inr (hi ▸ underUnit_seal_self h key i)
    · exact hj.imp (by omega) fun hs => (underUnit_seal h key hi).trans hs

/-- Every unit of HBM that an access touches stands under its key. -/
theorem under_seal {s : State} (h : s.Canonical) (key : Option (BitVec 256)) {q n r : Nat} (hq : q < hbmEnd) (hl : q ≤ r)
    (hr : r < q + n) : (s.under key q n).seal (r / 64) = some key := by
  rw [State.under, if_pos hq]
  exact underUnits_seal _ _ h (.inl (by omega))

/-- Under the key it was written under, a number reads as its low bytes. -/
theorem numUnder_storeNum {s : State} (h : s.Canonical) (takes : Bool) (key : Option (BitVec 256)) (q n v : Nat) :
    ((s.under key q n).storeNum takes q n v).numUnder key q n = v % 256 ^ n := by
  have hu := canonical_under h key q n
  rw [← num_storeNum hu takes q n v]
  refine congrArg leNat (bytes_congr fun r hl hr => under_byte (canonical_storeNum hu takes q n v) key ?_)
  by_cases hq : q < hbmEnd
  · obtain ⟨hs, -⟩ := storeNum_apart (s.under key q n) takes q n v
    refine .inr (.inr (.inr (.inr ?_)))
    rw [State.seal, hs]
    exact under_seal h key hq hl hr
  · exact .inl (Nat.not_lt.1 hq)

end Sys2Proof.Machine
end

section
/-! Releases: what they wait for, and the writes refused before them (R206, R210, R213). -/

namespace Sys2Proof.Machine

section
variable {s : State} {sc : Scope}

theorem releaseWait_unsettled (h : s.settledIn sc true = false) : releaseWait s sc = .error (.block none) := by
  rw [releaseWait, h]
  rfl

/-- A release raises STORE.REFUSED for the earliest write refused, whatever its scope, and none stays to be reported. -/
theorem releaseWait_refused {r : Refused} (hw : s.settledIn sc true = true) (hr : r ∈ s.st.refused)
    (hl : ∀ x ∈ s.st.refused, x ≠ r → r.id < x.id) :
    releaseWait s sc = .error (.trap (refusedTrap r) (some (s.modSt fun st => { st with refused := [] }))) := by
  have hnone : ∀ l : List Refused, (l.filter fun _ => !true) = [] := fun l => List.filter_eq_nil_iff.2 fun _ _ => nofun
  rw [releaseWait, if_pos hw, refusedNow_least hr rfl fun x hx _ => hl x hx]
  simp only [hnone]

end

/-- What a release whose tests pass does before it has an effect. -/
def Releases (s : State) (sc : Scope) (out : Host.Outcome State Fault Refusal) : Prop :=
  (s.settledIn sc true = false → out = .next (s.blockSlot s.focusU s.focusK)) ∧
  (∀ r ∈ s.st.refused, s.settledIn sc true = true → (∀ x ∈ s.st.refused, x ≠ r → r.id < x.id) →
    out = .next ((s.modSt fun st => { st with refused := [] }).trapHere (refusedTrap r)))

section
variable {s t : State} {more : List Opd} {build : State → Except Stop (MemForm × State)} {a : Nat} {f : MemForm} {p : Place}
  {put : Bool → Nat → State → Run}

theorem State.Forms.releases (h : s.Forms more build a f t) (hl : locateForm t a f = .ok p) (hr : f.rel = true) :
    Releases s t.ir.sc (memory s more build put) := by
  rw [memory_forms h, hl, hr]
  refine ⟨fun hw => ?_, fun r hm hw hlt => ?_⟩
  · rw [if_pos rfl, releaseWait_unsettled hw]; rfl
  · rw [if_pos rfl, releaseWait_refused hw hm hlt]; rfl

end

section
variable {s t : State} {k : Access} {n a : Nat} {p : Place} {v : Word} {put : Bool → Nat → State → Run}

/-- A release that stores from D. -/
theorem State.FindsD.releases {F : Word → MemForm} (h : s.FindsD k n a p v t) (hk : (F v).kind = k) (hn : (F v).size = n)
    (hd : (F v).op ≠ .decode) (hf : (F v).fe = false) (hsc : inScope t.focusU p.home t.ir.sc = true) (hr : (F v).rel = true) :
    Releases s t.ir.sc (memory s [s.ir.d] (formD F) put) := by
  obtain ⟨hs, ⟨b, u, hA, rfl, hD⟩, ha, hl⟩ := h
  exact (State.Forms.of_formD hs hA hD).releases
    (locateForm_found (.plain (by rw [hn]; exact ha) hf) (by rw [hk]; exact hl) (fun e => absurd e hd) fun _ => hsc) hr

/-- A release that compares with and stores from a pair. -/
theorem State.Finds.releases_pair {F : State → MemForm} (h : s.Finds k n a p t) (hk : (F t).kind = k) (hn : (F t).size = n)
    (hd : (F t).op ≠ .decode) (hf : (F t).fe = false) (hsc : inScope t.focusU p.home t.ir.sc = true) (hr : (F t).rel = true) :
    Releases s t.ir.sc (memory s [] (formPair F) put) := by
  obtain ⟨hs, ⟨b, hA, rfl⟩, ha, hl⟩ := h
  exact (State.Forms.of_pair hs hA).releases
    (locateForm_found (.plain (by rw [hn]; exact ha) hf) (by rw [hk]; exact hl) (fun e => absurd e hd) fun _ => hsc) hr

end

end Sys2Proof.Machine
end

section
/-! Stores through L, stores sent to HBM, and parts of a byte (R187, R222 to R224, R226). -/

namespace Sys2Proof.Machine

/-! A part of a byte (R224) -/

/-- The bits of a number of which a field is replaced. -/
theorem testBit_replaceField (b i old v j : Nat) : (replaceField b i old v).testBit j =
    if b * i ≤ j ∧ j < b * i + b then v.testBit (j - b * i) else old.testBit j := by
  have hsplit : replaceField b i old v =
      2 ^ (b * i) * (2 ^ b * (old / 2 ^ (b * i) / 2 ^ b) + v % 2 ^ b) + old % 2 ^ (b * i) := by
    have hold : old = 2 ^ (b * i) * (2 ^ b * (old / 2 ^ (b * i) / 2 ^ b)) + old / 2 ^ (b * i) % 2 ^ b * 2 ^ (b * i) +
        old % 2 ^ (b * i) := by
      conv_lhs => rw [← Nat.div_add_mod old (2 ^ (b * i)), ← Nat.div_add_mod (old / 2 ^ (b * i)) (2 ^ b)]
      ring
    rw [replaceField, Nat.mul_add, Nat.mul_comm _ (v % 2 ^ b)]
    omega
  rw [hsplit, Nat.testBit_two_pow_mul_add _ (Nat.mod_lt _ (Nat.two_pow_pos _)),
    Nat.testBit_two_pow_mul_add _ (Nat.mod_lt _ (Nat.two_pow_pos _)), Nat.testBit_mod_two_pow, Nat.testBit_mod_two_pow,
    Nat.testBit_div_two_pow, Nat.testBit_div_two_pow]
  by_cases hlow : j < b * i
  · rw [if_pos hlow, if_neg (by omega), decide_eq_true hlow, Bool.true_and]
  · rw [if_neg hlow]
    by_cases hin : j < b * i + b
    · rw [if_pos (by omega), if_pos (by omega), decide_eq_true (by omega), Bool.true_and]
    · rw [if_neg (by omega), if_neg (by omega)]
      congr 1
      omega

/-- Replacing a field of a byte is masking it out and putting the low bits of the number there. -/
theorem ofNat_replaceField {b i : Nat} (h : b * i + b ≤ 8) (old : Byte) (v : Word) :
    BitVec.ofNat 8 (replaceField b i old.toNat v.toNat) =
      old &&& ~~~(BitVec.ofNat 8 (2 ^ b - 1) <<< (b * i)) ||| (v.setWidth 8 &&& BitVec.ofNat 8 (2 ^ b - 1)) <<< (b * i) := by
  refine BitVec.eq_of_getLsbD_eq fun j hj => ?_
  simp only [BitVec.getLsbD_ofNat, testBit_replaceField, BitVec.getLsbD_or, BitVec.getLsbD_and, BitVec.getLsbD_not,
    BitVec.getLsbD_shiftLeft, BitVec.getLsbD_setWidth, Nat.testBit_two_pow_sub_one, decide_eq_true hj, Bool.true_and]
  by_cases hin : b * i ≤ j ∧ j < b * i + b
  · obtain ⟨hlow, hhigh⟩ := hin
    have hfield : j - b * i < b := by omega
    have hbyte : j - b * i < 8 := by omega
    rw [if_pos ⟨hlow, hhigh⟩]
    simp [Nat.not_lt.2 hlow, hfield, hbyte, BitVec.getLsbD]
  · rw [if_neg hin]
    by_cases hlow : j < b * i
    · simp [hlow, BitVec.getLsbD]
    · have hfield : ¬ j - b * i < b := by omega
      simp [hfield, BitVec.getLsbD]

/-- The bits of the half that a number names start at bit 0 or 4. -/
theorem half_index (v : Word) : 4 * bits v.toNat 8 8 = if v.getLsbD 8 then 4 else 0 := by
  rw [bits_8_8]
  split <;> rfl

theorem bits_le (v : Nat) : bits v 8 8 ≤ 1 ∧ bits v 9 8 ≤ 3 := by
  unfold bits
  omega

section
variable {s t : State} {ctx : BitVec 12} {d : Clock} {p : Place} {n q : Nat}

/-- A store of a part of a byte replaces that part of what the context's key shows (R199, R224). -/
theorem performFor_sub {b i : Nat} {v : Word} (h : reach t ctx p 1 = .ok q) (hb : b * i + b ≤ 8) :
    performFor t ctx d p (.sub b i v) = .ok (0, ((t.under (p.key t ctx) q 1).storeNum true q 1
      ((t.under (p.key t ctx) q 1).byte q &&& ~~~(BitVec.ofNat 8 (2 ^ b - 1) <<< (b * i)) |||
        (v.setWidth 8 &&& BitVec.ofNat 8 (2 ^ b - 1)) <<< (b * i)).toNat).learn (dieOf p.home) d) := by
  have hnum : (t.under (p.key t ctx) q 1).num q 1 = ((t.under (p.key t ctx) q 1).byte q).toNat := rfl
  rw [← ofNat_replaceField hb, storeNum_ofNat, ← hnum]
  simp [performFor, performAt, h, bind, Except.bind, pure, Except.pure, MemOp.writes, MemOp.fills]

/-- A pair is stored as one number, whose low half is the first register (R222). -/
theorem performFor_storePair {lo hi : Word} (h : reach t ctx p 16 = .ok q) :
    performFor t ctx d p (.storePair lo hi) =
      .ok (0, ((t.under (p.key t ctx) q 16).storeNum true q 16 (hi ++ lo).toNat).learn (dieOf p.home) d) := by
  have hpair : (hi ++ lo).toNat = lo.toNat + 2 ^ 64 * hi.toNat := by
    rw [BitVec.toNat_append, ← Nat.shiftLeft_add_eq_or_of_lt lo.isLt, Nat.shiftLeft_eq]
    omega
  rw [hpair]
  simp [performFor, performAt, h, bind, Except.bind, pure, Except.pure, MemOp.writes, MemOp.fills]

/-- A home that does not reach the bytes of a store refuses it. -/
theorem performFor_store_unreached {v : Word} {c : Cause} (h : reach t ctx p n = .error c) :
    performFor t ctx d p (.store n v) = .error c := by
  simp [performFor, performAt, h, bind, Except.bind]

end

/-! Ways of accesses with an effect (R145, R187) -/

section
variable {s t v : State} {a : Nat} {f : MemForm} {p : Place} {put : Bool → Nat → State → Run}

/-- Nothing is sent to HBM that leaves its strand free (R223). -/
theorem sends_hbm (h : p.off = none) : sends f p = false := by
  rw [sends, h, Option.isSome_none, Bool.and_false]

/-- An access with an effect at a home in reach is sent, and its home performs it when the wait is over. -/
theorem wayOf_long (hi : f.op.isSub = false) (hs : sends f p = false) (hp : f.op.plain = false) (hd : t.Direct p f.op.writes)
    (hn : p.near = false) (hroom : f.op.replies = false ∨ t.Room) : wayOf f p a put s t = .ok (s.sentLong t p a f.op).passed := by
  obtain ⟨hroute, hearly⟩ := hd
  have hway := routeOf_direct hroute
  rw [hn] at hway
  have hheld : (f.op.replies && !t.destRoom t.ir.d) = false := by
    rcases hroom with hr | hr
    · rw [hr]; rfl
    · rw [show t.destRoom t.ir.d = true from hr, Bool.not_true, Bool.and_false]
  have hlong : accessLong f p a s t = .ok (s.sentLong t p a f.op) := by
    rw [accessLong, hearly, hheld]
    rfl
  unfold wayOf
  rw [hi, hway, if_neg Bool.false_ne_true, hs, hp, hlong]
  rfl

/-- A store through L is made at issue, whole or of a part of a byte. -/
theorem wayOf_store_near {x : Nat} (hr : f.op.replies = false) (hw : f.op.writes = true) (hd : t.Direct p true)
    (hn : p.near = true) (hf : performFor t t.st.ctx t.st.dep p f.op = .ok (x, v)) :
    wayOf f p a noResult s t = .ok v.passed := by
  obtain ⟨hroute, hearly⟩ := hd
  have hway := routeOf_direct hroute
  rw [hn, if_pos rfl] at hway
  have htakes : f.op.takes = false := by
    cases hop : f.op with
    | take n x => rw [hop] at hr; cases hr
    | _ => rfl
  have hnow : accessNow f p a noResult t = .ok v := by
    rw [accessNow_ok (by rw [hw]; exact hearly) hf, hr]
    rfl
  cases hi : f.op.isSub with
  | false => exact wayOf_near hi htakes hway hnow
  | true =>
    unfold wayOf
    rw [hi, hn, hnow]
    rfl

end

/-! Stores at their home when the wait is over (R145, R187, R223) -/

section
variable {s : State} {u k : Nat} {w : LongWait} {x : LongAccess} {op : MemOp} {regs : List RegName}

/-- The home performs a long access in the step that ends its strand's wait. -/
theorem longCome_performs {v : Nat} {t : State} (h : s.Waited u k w x) (ho : x.op = .mem op regs)
    (ht : regs.all (s.core u).takes = true) (hm : mustWait s x.place op = false)
    (hf : performFor s (s.slot u k).st.ctx (s.slot u k).st.dep x.place op = .ok (v, t)) :
    longCome u k w x s = (if op.replies then t.longHear u k else t).longDone u k regs v := by
  obtain ⟨-, -, ha, hq, hr⟩ := h
  exact (longCome_due ho ha hq hr ht hm).1 v t hf

/-- A store that its home finds poisoned is reported, and its strand goes on (R191, R223). -/
theorem longCome_poisoned (h : s.Waited u k w x) (ho : x.op = .mem op []) (hp : op.replies = false)
    (hm : mustWait s x.place op = false)
    (hf : performFor s (s.slot u k).st.ctx (s.slot u k).st.dep x.place op = .error .memPoison) :
    longCome u k w x s = ({ s with nextId := s.nextId + 1 }.refuse s.nextId x.place.home { s.sender u k with pc := w.pc }
      x.place.home x.addr .memPoison).longDone u k [] 0 := by
  obtain ⟨-, -, ha, hq, hr⟩ := h
  have hg : ((s.slot u k).asked || decide ((s.core u).cyc < (s.slot u k).readyAt) || !([] : List RegName).all (s.core u).takes) =
      false := by
    rw [hq, decide_eq_false (Nat.not_lt.2 hr)]; rfl
  simp only [longCome, ho, ha, hg, hm, hf, hp, Bool.false_eq_true, if_false]
  rfl

end

/-! The row -/

/-- What a store leaves of memory and of the cores (R2, R223). -/
theorem store_leaves {s : State} (h : s.Canonical) (takes : Bool) (q n v d : Nat) (c : Clock) :
    let t := (s.storeNum takes q n v).learn d c
    (∀ r, Outside q n r → t.byte r = s.byte r) ∧
    (∀ i < n, t.byte (q + i) = BitVec.ofNat 8 (v / 256 ^ i)) ∧ t.num q n = v % 256 ^ n ∧
    (∀ r, t.isFull r = s.isFull r) ∧ (∀ r, t.tag r = s.tag r) ∧ t.poison = s.poison ∧ t.seals = s.seals ∧
    t.hostMem = s.hostMem ∧
    (∀ u, t.core u = s.core u ∨ ∃ l, t.core u = { s.core u with counters := l }) ∧ t.fabric = s.fabric := by
  intro t
  have hlearn : SameMaps (s.storeNum takes q n v) t := sameMaps_learn _ d c
  obtain ⟨-, hhost, -, -, -, hseals⟩ := id hlearn
  obtain ⟨hs, hh⟩ := storeNum_apart s takes q n v
  obtain ⟨hout, hmarks⟩ := storeNum_frame h takes q n v
  obtain ⟨hfull, htag, hpoison⟩ := (hmarks.trans hlearn.marks).read
  obtain ⟨-, hfabric, -⟩ := learn_apart (s.storeNum takes q n v) d c
  exact ⟨fun r hr => (hlearn.byte r).trans (hout r hr), fun i hi => (hlearn.byte _).trans (byte_storeNum h takes q n v hi),
    (congrArg leNat (hlearn.bytes q n)).trans (num_storeNum h takes q n v), hfull, htag, hpoison, hseals.trans hs, hhost.trans hh,
    fun u => .inr (storeNum_learn_core s takes q n v d c u), hfabric.trans (apart_fabric.storeNum s takes q n v)⟩

/-- Settles O17: stores of D, releases, parts of a byte and pairs; stores at their home; and what a store leaves. -/
theorem stores : Obligations.Stores := by
  unfold Obligations.Stores
  refine ⟨⟨fun s t a q p v w h hd => ?_, fun s t a p v w h hsc => ?_, fun s t a q p v h hd hn hq => ?_,
    fun s t a q p i h hd hdst => ?_⟩, fun s u k w x h => ?_, fun s takes q n v d c h => store_leaves h takes q n v d c,
    fun s takes key q n v h => numUnder_storeNum h takes key q n v⟩
  · have hway := (StoreRow.st w).way h ⟨rfl, rfl, nofun, nofun, nofun, nofun⟩
    refine ⟨fun hn hq => ?_, fun hn hoff => ?_⟩
    · rw [hway, wayOf_store_near rfl rfl hd hn (performFor_store hq)]
      rfl
    · rw [hway, wayOf_long rfl (sends_hbm hoff) rfl hd hn (.inl rfl)]
      rfl
  · have hway := fun hrel => (StoreRow.stRel w).way h ⟨rfl, rfl, nofun, nofun, fun _ => hsc, fun _ => hrel⟩
    refine ⟨fun q hd hn hrel hq => ?_, fun hd hn hoff hrel => ?_, ?_⟩
    · rw [hway hrel, wayOf_store_near rfl rfl hd hn (performFor_store hq)]
      rfl
    · rw [hway hrel, wayOf_long rfl (sends_hbm hoff) rfl hd hn (.inl rfl)]
      rfl
    · rw [(StoreRow.stRel w).exec_eq]
      exact h.releases rfl rfl nofun rfl hsc rfl
  · intro u old half quarter
    obtain ⟨hhalf, hquarter⟩ := bits_le v.toNat
    have go : ∀ (b i : Nat), b * i + b ≤ 8 → ∀ F : Word → MemForm, (F v).Passes s t .store 1 a p → (F v).op = .sub b i v →
        memory s [s.ir.d] (formD F) noResult = .next ((u.storeNum true q 1
          (old &&& ~~~(BitVec.ofNat 8 (2 ^ b - 1) <<< (b * i)) |||
            (v.setWidth 8 &&& BitVec.ofNat 8 (2 ^ b - 1)) <<< (b * i)).toNat).learn (dieOf p.home) t.st.dep).passed := by
      intro b i hb F hp hop
      rw [h.way hp, wayOf_store_near (by rw [hop]; rfl) (by rw [hop]; rfl) hd hn (by rw [hop]; exact performFor_sub hq hb)]
      rfl
    refine ⟨?_, ?_⟩
    · rw [show half = 4 * bits v.toNat 8 8 from (half_index v).symm]
      exact go 4 _ (by omega) (fun v => { kind := .store, size := 1, op := .sub 4 (bits v.toNat 8 8) v })
        ⟨rfl, rfl, nofun, nofun, nofun, nofun⟩ rfl
    · rw [show quarter = 2 * bits v.toNat 9 8 from congrArg (2 * ·) (bits_9_8 v).symm]
      exact go 2 _ (by omega) (fun v => { kind := .store, size := 1, op := .sub 2 (bits v.toNat 9 8) v })
        ⟨rfl, rfl, nofun, nofun, nofun, nofun⟩ rfl
  · have hop : (storePairForm t).op = .storePair t.st.x[i] t.st.x[i + 1] := by rw [storePairForm, pairOf_x hdst]
    have hway := h.way_pair (F := storePairForm) (put := noResult) ⟨rfl, rfl, nofun, nofun, nofun, nofun⟩
    refine ⟨fun hn hq => ?_, fun hn hoff => ?_⟩
    · rw [exec_stp128_pair, hway, wayOf_store_near rfl rfl hd hn (by rw [hop]; exact performFor_storePair hq)]
      rfl
    · rw [exec_stp128_pair, hway, wayOf_long rfl (sends_hbm hoff) rfl hd hn (.inl rfl), hop]
      rfl
  · intro st
    refine ⟨fun n v q ho hq => ?_, fun n v ho hq => ?_⟩
    · exact longCome_performs h ho rfl rfl (performFor_store hq)
    · exact longCome_poisoned h ho rfl rfl (performFor_store_unreached hq)

end Sys2Proof.Machine
end

section
/-! Atomics through L and at their home, and compare and swap (R145, R187, R227, R228). -/

namespace Sys2Proof.Machine

/-! Operations on words (R227) -/

/-- What an atomic of 8 bytes leaves where it finds `m`. -/
def AtomOp.onWords (op : AtomOp) (m v : Word) : Word :=
  match op with
  | .add => m + v
  | .min .i => if v.toInt < m.toInt then v else m
  | .min .n => if v < m then v else m
  | .max .i => if m.toInt < v.toInt then v else m
  | .max .n => if m < v then v else m
  | .and => m &&& v
  | .or => m ||| v
  | .xor => m ^^^ v
  | .swap => v

theorem val_lt_signed (a b : Word) : val true 64 a.toNat < val true 64 b.toNat ↔ a.toInt < b.toInt := by
  simp only [val, if_true, sgn_eq_toInt (show 0 < 64 by decide), BitVec.ofNat_toNat, BitVec.setWidth_eq]

theorem val_lt_unsigned (a b : Word) : val false 64 a.toNat < val false 64 b.toNat ↔ a < b := by
  rw [val, val, if_neg Bool.false_ne_true, if_neg Bool.false_ne_true, Nat.mod_eq_of_lt a.isLt, Nat.mod_eq_of_lt b.isLt,
    Nat.cast_lt, BitVec.lt_def]

theorem lesser_words (signed : Bool) (m v : Word) :
    lesser signed 64 m.toNat v.toNat = (if val signed 64 v.toNat < val signed 64 m.toNat then v else m).toNat := by
  rw [lesser, Nat.mod_eq_of_lt m.isLt, Nat.mod_eq_of_lt v.isLt, apply_ite BitVec.toNat]

theorem greater_words (signed : Bool) (m v : Word) :
    greater signed 64 m.toNat v.toNat = (if val signed 64 m.toNat < val signed 64 v.toNat then v else m).toNat := by
  rw [greater, Nat.mod_eq_of_lt m.isLt, Nat.mod_eq_of_lt v.isLt, apply_ite BitVec.toNat]

theorem AtomOp.apply_words (op : AtomOp) (m v : Word) : op.apply 64 m.toNat v.toNat = (op.onWords m v).toNat := by
  cases op with
  | add => exact (BitVec.toNat_add m v).symm
  | and => exact (BitVec.toNat_and m v).symm
  | or => exact (BitVec.toNat_or m v).symm
  | xor => exact (BitVec.toNat_xor m v).symm
  | swap => rfl
  | min g =>
    cases g with
    | i => exact (lesser_words true m v).trans (by simp only [val_lt_signed, onWords])
    | n => exact (lesser_words false m v).trans (by simp only [val_lt_unsigned, onWords])
  | max g =>
    cases g with
    | i => exact (greater_words true m v).trans (by simp only [val_lt_signed, onWords])
    | n => exact (greater_words false m v).trans (by simp only [val_lt_unsigned, onWords])

/-- A sum of 4 bytes is that of the low halves. -/
theorem AtomOp.apply_add32 (m v : Word) :
    AtomOp.add.apply 32 m.toNat (v.toNat % 2 ^ 32) = (((m + v).setWidth 32).setWidth 64).toNat := by
  simp only [AtomOp.apply, BitVec.toNat_setWidth, BitVec.toNat_add]
  omega

/-! What a home finds and leaves -/

section
variable {t : State} {ctx : BitVec 12} {d : Clock} {p : Place} {q : Nat}

theorem numUnder_lt (t : State) (key : Option (BitVec 256)) (q n : Nat) : t.numUnder key q n < 2 ^ (8 * n) := by
  have h := leNat_lt (t.bytesUnder key q n)
  rw [State.bytesUnder, bytes_length] at h
  rw [pow_mul]
  exact h

/-- The number an access of at most 8 bytes finds, as a word. -/
theorem toNat_numUnder {n : Nat} (key : Option (BitVec 256)) (h : n ≤ 8) :
    (BitVec.ofNat 64 (t.numUnder key q n)).toNat = t.numUnder key q n :=
  Nat.mod_eq_of_lt ((numUnder_lt t key q n).trans_le (Nat.pow_le_pow_right (by decide) (by omega)))

theorem wideBits_eq (w : Wide) : wideBits w = 8 * wideBytes w := by cases w <;> rfl

/-- The number that a compare and swap finds, at its width (R228). -/
theorem toNat_wideUnder (w : Wide) (key : Option (BitVec 256)) :
    (BitVec.ofNat (wideBits w) (t.numUnder key q (wideBytes w))).toNat = t.numUnder key q (wideBytes w) :=
  Nat.mod_eq_of_lt (by rw [wideBits_eq]; exact numUnder_lt t key q (wideBytes w))

/-- A compare and swap gives what it finds, and leaves the new value where that is the old one (R228). -/
theorem performFor_cas (w : Wide) (old new : Word) (h : reach t ctx p (wideBytes w) = .ok q) :
    let found := BitVec.ofNat (wideBits w) (t.numUnder (p.key t ctx) q (wideBytes w))
    performFor t ctx d p (.cas (wideBytes w) old new) = .ok (found.toNat,
      (if found = old.setWidth (wideBits w) then
        (t.under (p.key t ctx) q (wideBytes w)).storeNum false q (wideBytes w) new.toNat else t).learn (dieOf p.home) d) := by
  intro found
  have hfound : found.toNat = (t.under (p.key t ctx) q (wideBytes w)).num q (wideBytes w) := toNat_wideUnder w _
  have heq : found = old.setWidth (wideBits w) ↔
      (t.under (p.key t ctx) q (wideBytes w)).num q (wideBytes w) = old.toNat % 2 ^ (8 * wideBytes w) := by
    rw [← hfound, ← BitVec.toNat_inj, BitVec.toNat_setWidth, ← wideBits_eq]
  rw [hfound]
  simp [performFor, performAt, h, heq, bind, Except.bind, pure, Except.pure, MemOp.writes, MemOp.fills]

end

/-! Atomics at issue (R187) -/

section
variable {s t v : State} {a x : Nat} {f : MemForm} {p : Place}

/-- An atomic through L is made at issue, and D takes the old value. -/
theorem wayOf_atomic (hi : f.op.isSub = false) (htakes : f.op.takes = false) (hrep : f.op.replies = true)
    (hw : f.op.writes = true) (hd : t.Direct p true) (hn : p.near = true)
    (hf : performFor t t.st.ctx t.st.dep p f.op = .ok (x, v)) (hroom : v.hear.Room) :
    wayOf f p a (loadDst 3) s t = .ok (v.hear.put 3 (BitVec.ofNat 64 x)).passed := by
  obtain ⟨hroute, hearly⟩ := hd
  have hway := routeOf_direct hroute
  rw [hn, if_pos rfl] at hway
  refine wayOf_near hi htakes hway ?_
  rw [accessNow_ok (by rw [hw]; exact hearly) hf, hrep]
  exact (loadDst_give hroom).trans (congrArg Except.ok (by rw [State.give, hn]; rfl))

end

section
variable {i : Instr} {op : AtomOp} {n a q : Nat} {od : Ord} {s t : State} {p : Place} {v : Word}

/-- What an atomic leaves where its operation gives `y`, with what its strand has heard (R207, R227). -/
def State.swapped (t : State) (p : Place) (q n y : Nat) : State :=
  (((t.under (p.key t t.st.ctx) q n).storeNum false q n y).learn (dieOf p.home) t.st.dep).hear

theorem AtomRow.performs {y : Nat} (hrow : AtomRow i op n od) (h : s.FindsD .atomic n a p v t)
    (hsc : inScope t.focusU p.home t.ir.sc = true) (hrel : ordReleases od = true → s.Released t.ir.sc) (hd : t.Direct p true)
    (hn : p.near = true) (hq : reach t t.st.ctx p n = .ok q)
    (hy : op.apply (8 * n) (t.numUnder (p.key t t.st.ctx) q n) (v.toNat % 2 ^ (8 * n)) = y) (hroom : (t.swapped p q n y).Room) :
    exec i s = .next ((t.swapped p q n y).put 3 (BitVec.ofNat 64 (t.numUnder (p.key t t.st.ctx) q n))).passed := by
  subst hy
  rw [hrow.way h hsc hrel, wayOf_atomic rfl rfl rfl rfl hd hn (performFor_atom hq) hroom]
  rfl

/-- An atomic elsewhere is sent to its home. -/
theorem AtomRow.sent (hrow : AtomRow i op n od) (h : s.FindsD .atomic n a p v t)
    (hsc : inScope t.focusU p.home t.ir.sc = true) (hrel : ordReleases od = true → s.Released t.ir.sc) (hd : t.Direct p true)
    (hn : p.near = false) (hroom : t.Room) : exec i s = .next (s.sentLong t p a (.atom op n v)).passed := by
  rw [hrow.way h hsc hrel, wayOf_long rfl rfl rfl hd hn (.inr hroom)]
  rfl

theorem AtomRow.releases (hrow : AtomRow i op n od) (h : s.FindsD .atomic n a p v t)
    (hsc : inScope t.focusU p.home t.ir.sc = true) (hrel : ordReleases od = true) : Releases s t.ir.sc (exec i s) := by
  rw [hrow.exec_eq]
  exact h.releases (F := atomForm op n od) rfl rfl nofun rfl hsc hrel

end

/-! The strand goes on with the old value (R145) -/

theorem longDone_x {s : State} {u k v : Nat} {i : Fin 16} (hk : k < (s.core u).slots.length) :
    (s.longDone u k [.x i] v).slot u k =
      { ((s.slot u k).landOne ⟨(s.core u).cyc, .x i, word v⟩).awake (s.core u).cyc with answer := none, asked := false } := by
  obtain ⟨hslot, hlen⟩ := landOne_slot hk ⟨(s.core u).cyc, .x i, word v⟩
  have hcore : (s.modCore u fun c => c.landOne k ⟨c.cyc, .x i, word v⟩).core u =
      (s.core u).landOne k ⟨(s.core u).cyc, .x i, word v⟩ := by rw [core_modCore, if_pos rfl]
  have hk' : k < ((s.modCore u fun c => c.landOne k ⟨c.cyc, .x i, word v⟩).core u).slots.length := by rw [hcore, hlen]; exact hk
  rw [State.longDone]
  simp only [List.foldl_cons, List.foldl_nil]
  rw [slot_modSlot hk', State.slot, hcore, hslot]
  rfl

/-- A register always takes a result (R44). -/
theorem room_x {t : State} {i : Fin 16} (h : t.ir.d = .x i) : t.Room := by
  rw [State.Room, h]
  rfl

/-- Whether a compare and swap stores or not, its operands are those it read. -/
theorem ir_swapped_if (t : State) (c : Prop) [Decidable c] (key : Option (BitVec 256)) (q n v d : Nat) (dep : Clock) :
    ((if c then (t.under key q n).storeNum false q n v else t).learn d dep).hear.ir = t.ir := by
  obtain ⟨-, -, hlearn⟩ := learn_apart (if c then (t.under key q n).storeNum false q n v else t) d dep
  refine (show _ = _ from hlearn).trans ?_
  split
  · exact (apart_ir.storeNum _ _ _ _ _).trans (apart_ir.under t _ _ _)
  · rfl

/-- A release among the atomics, whatever its operand (R210, R213). -/
theorem atomic_releases {s t : State} {a n : Nat} {p : Place} {v : Word} {od : Ord} {i : Instr} (h : s.FindsD .atomic n a p v t)
    (hsc : inScope t.focusU p.home t.ir.sc = true) (hrel : ordReleases od = true)
    (hi : (n = 8 ∧ ((∃ g, i = .amin g od ∨ i = .amax g od) ∨ i = .aand od ∨ i = .aor od ∨ i = .axor od ∨ i = .aswap od)) ∨
      (∃ w, n = wideBytes w ∧ (i = .amadd w od ∨ i = .acas w od ∧ s.Finds .atomic n a p t))) :
    Releases s t.ir.sc (exec i s) := by
  have go : ∀ {op}, AtomRow i op n od → Releases s t.ir.sc (exec i s) := fun hrow => hrow.releases h hsc hrel
  rcases hi with ⟨rfl, ⟨g, rfl | rfl⟩ | rfl | rfl | rfl | rfl⟩ | ⟨w, rfl, rfl | ⟨rfl, hpair⟩⟩
  · exact go (.amin g od)
  · exact go (.amax g od)
  · exact go (.aand od)
  · exact go (.aor od)
  · exact go (.axor od)
  · exact go (.aswap od)
  · exact go (.amadd w od)
  · rw [exec_acas_pair]
    exact hpair.releases_pair (F := casForm w od) rfl rfl nofun rfl hsc hrel

/-- Settles O18: atomics through L, sent, and at their home, with the end of the wait; then compare and swap; then releases. -/
theorem atomics : Obligations.Atomics := by
  unfold Obligations.Atomics
  refine ⟨?_, ?_, ?_, ?_, ?_, ?_, ?_, fun s t a n p v od i h hsc hrel hi => atomic_releases h hsc hrel hi⟩
  · intro s t a q n p v od h hd hsc hrel hn hq old left done m hroom
    have go : ∀ {i op} (x : Word), AtomRow i op n od → op.apply (8 * n) old (v.toNat % 2 ^ (8 * n)) = x.toNat →
        exec i s = done x := fun x hrow hx => hrow.performs h hsc hrel hd hn hq hx (hroom x)
    refine ⟨?_, ?_⟩
    · rintro rfl
      have hm : m.toNat = old := toNat_numUnder _ (le_refl 8)
      clear_value m done
      have words : ∀ {i op}, AtomRow i op 8 od → exec i s = done (op.onWords m v) := fun {i op} hrow =>
        go _ hrow (by rw [← hm]; exact (congrArg (op.apply 64 m.toNat) (Nat.mod_eq_of_lt v.isLt)).trans (op.apply_words m v))
      exact ⟨words (.amadd .w64 od), words (.amin .i od), words (.amin .n od), words (.amax .i od), words (.amax .n od),
        words (.aand od), words (.aor od), words (.axor od), words (.aswap od)⟩
    · rintro rfl
      have hm : m.toNat = old := toNat_numUnder _ (by decide)
      clear_value m done
      exact go _ (.amadd .w32 od) (by rw [← hm]; exact AtomOp.apply_add32 m v)
  · intro s t a n p v od h hd hsc hrel hn hroom sent
    have go : ∀ {i op}, AtomRow i op n od → exec i s = sent op := fun hrow => hrow.sent h hsc hrel hd hn hroom
    refine ⟨?_, ?_⟩
    · rintro w rfl
      exact go (.amadd w od)
    · rintro rfl
      exact ⟨fun g => ⟨go (.amin g od), go (.amax g od)⟩, go (.aand od), go (.aor od), go (.axor od), go (.aswap od)⟩
  · intro s u k n q w x op v regs h ho ht st hq old
    exact longCome_performs h ho ht rfl (performFor_atom hq)
  · intro s u k v i hk t
    rw [show t.slot u k = _ from longDone_x hk]
    refine ⟨rfl, rfl, ?_⟩
    exact if_congr beq_iff_eq rfl rfl
  · intro s t a q p i w od h hd hsc hrel hn hq hdst old u
    have hop : (casForm w od t).op = .cas (wideBytes w) t.st.x[i] t.st.x[i + 1] := by rw [casForm, pairOf_x hdst]
    have hroom : u.Room := room_x ((congrArg Operands.d (ir_swapped_if ..)).trans hdst)
    rw [exec_acas_pair, h.way_pair (F := casForm w od) ⟨rfl, rfl, nofun, nofun, fun _ => hsc, hrel⟩,
      wayOf_atomic rfl rfl rfl rfl hd hn (by rw [hop]; exact performFor_cas w _ _ hq) hroom, BitVec.ofNat_toNat]
    rfl
  · intro s t a p i w od h hd hsc hrel hn hdst
    have hop : (casForm w od t).op = .cas (wideBytes w) t.st.x[i] t.st.x[i + 1] := by rw [casForm, pairOf_x hdst]
    rw [exec_acas_pair, h.way_pair (F := casForm w od) ⟨rfl, rfl, nofun, nofun, fun _ => hsc, hrel⟩,
      wayOf_long rfl rfl rfl hd hn (.inr (room_x hdst)), hop]
    rfl
  · intro s u k q wt x w old new regs h ho ht st hq now
    exact longCome_performs h ho ht rfl (performFor_cas w old new hq)

end Sys2Proof.Machine
end

section
/-! A copy from HBM by `hrd` reads its unit and leaves the key that the unit stands under (R199, R236). -/

namespace Sys2Proof.Machine

/-- A copy of the first 64 bytes of HBM to offset 0x1000 of the first loft core's memory. -/
def firstCopy : LongAccess := ⟨.copyIn 0x1000, 0, ⟨0x100000, 0, none, 0, false, false, false⟩⟩

/-- The wait for that copy. -/
def firstCopyWait : LongWait := ⟨0, 0, false, [], some firstCopy⟩

/-- A strand of the first loft core whose wait for that copy is over; nothing has been written to HBM. -/
def copyingHart : State := (bootstrap State.reset 0x100000).modMe fun sl => { sl with long := some firstCopyWait }

/-- The places of the four granules that the copy writes. -/
def firstCopyPlaces : List Nat := (List.range 4).map fun i => localPlace 0x100000 (0x1000 + 16 * i)

theorem copyingHart_waited : copyingHart.Waited 0x100000 0 firstCopyWait firstCopy := by
  unfold State.Waited
  decide +kernel

theorem copyingHart_reaches :
    reach copyingHart (copyingHart.slot 0x100000 0).st.ctx firstCopy.place 64 = .ok 0 ∧
    settleAll copyingHart (ownPlace copyingHart 0x100000 0x1000) 4 0 = .ok firstCopyPlaces ∧
    ∀ y ∈ firstCopyPlaces, copyingHart.anyPoison y 16 = false := by
  refine ⟨rfl, rfl, ?_⟩
  decide +kernel

/-- Refutes O25: in the model the copy that ends the wait of `hrd` leaves the keys of HBM as they were, as every read does,
while the statement's next state is made from memory as the access finds it, in which the unit read counts as written under
the access's key: here a unit of HBM that nothing has written. -/
theorem not_loftTransfers : ¬ Obligations.LoftTransfers := by
  unfold Obligations.LoftTransfers
  rintro ⟨-, -, hcopy, -⟩
  obtain ⟨hreach, hplaces, hclean⟩ := copyingHart_reaches
  have hseals := congrArg State.seals
    (hcopy copyingHart 0x100000 0 0x1000 0 firstCopyWait firstCopy firstCopyPlaces copyingHart_waited rfl hreach hplaces hclean)
  exact absurd hseals (by decide +kernel)

end Sys2Proof.Machine
end

section
/-! Pushes: their lengths and addresses, the tests of their rows in turn, and what they send (R235, R237 to R241). -/

namespace Sys2Proof.Machine

/-! Lengths and rectangles (R237, R238) -/

theorem pushLenBad_eq_false (n : Nat) : pushLenBad n = false ↔ 16 ≤ n ∧ n ≤ 4096 ∧ n % 16 = 0 := by
  simp only [pushLenBad, Bool.or_eq_false_iff, beq_eq_false_iff_ne, bne_eq_false_iff_eq, decide_eq_false_iff_not]
  omega

/-- 16 bits of a word, by their lowest. -/
theorem bits_quarter (v : Word) (lo : Nat) : bits v.toNat (lo + 15) lo = (v.extractLsb' lo 16).toNat := by
  rw [BitVec.extractLsb'_toNat, Nat.shiftRight_eq_div_pow, bits, show lo + 15 + 1 - lo = 16 by omega]

theorem rectangleBad_iff (v len : Nat) : rectangleBad v len = true ↔
    bits v 63 48 % 16 ≠ 0 ∨ bits v 47 32 % 16 ≠ 0 ∨ bits v 31 16 = 0 ∨ 256 < bits v 31 16 ∨ pushLenBad len = true := by
  simp only [rectangleBad, Bool.or_eq_true, bne_iff_ne, beq_iff_eq, decide_eq_true_eq, or_assoc]

/-- The rows of a rectangle, each a pitch after the one before. -/
theorem rectangle_eq (a d sp dp n i : Nat) : rectangle a d sp dp n i =
    (List.range' i n).map fun j => ((a + j * sp) % 2 ^ 56, (d + j * dp) % 2 ^ 56) := by
  induction n generalizing i with
  | zero => rfl
  | succ n ih => rw [rectangle, ih, List.range'_succ, List.map_cons]

/-! The tests of rows, each row's after those before it (R237, R238) -/

section
variable {t : State} {n a d v : Nat} {rows : List (Nat × Nat)} {e : Stop} {p : Except Cause Place} {bs : List Byte}

theorem pushRows_noSource (hs : pushSource t a n = .error e) : pushRows n none ((a, d) :: rows) t = .error e := by
  simp only [pushRows, hs, Except.map, error_bind]

theorem pushRows_noDest (hs : pushSource t a n = .ok p) (hd : pushDest t d n = .error e) :
    pushRows n none ((a, d) :: rows) t = .error e := by
  simp only [pushRows, hs, hd, Except.map, ok_bind, error_bind]

theorem pushRows_unread (hs : pushSource t a n = .ok p) (hd : pushDest t d n = .ok v) (hr : pushRead t a n p = .error e) :
    pushRows n none ((a, d) :: rows) t = .error e := by
  simp only [pushRows, hs, hd, hr, Except.map, ok_bind, error_bind]

theorem pushRows_elsewhere (hs : pushSource t a n = .ok p) (hd : pushDest t d n = .ok v) (hr : pushRead t a n p = .ok bs)
    (hv : v ≠ t.focusU) : pushRows n none ((a, d) :: rows) t = (pushRows n none rows t).map fun rs => ⟨v, d, bs⟩ :: rs := by
  simp only [pushRows, hs, hd, hr, if_neg hv, Except.map, ok_bind]
  cases pushRows n none rows t <;> rfl

theorem pushRows_one (hs : pushSource t a n = .ok p) (hd : pushDest t d n = .ok v) (hr : pushRead t a n p = .ok bs) :
    pushRows n none [(a, d)] t = .ok [⟨v, d, bs⟩] := by
  simp only [pushRows, hs, hd, hr, Except.map, ok_bind]
  rfl

/-- A pattern has no source to test or read (R239). -/
theorem pushRows_pattern (hd : pushDest t d n = .ok v) : pushRows n (some bs) [(a, d)] t = .ok [⟨v, d, bs⟩] := by
  simp only [pushRows, hd]
  rfl

end

/-! Rows sent (R206, R235, R237) -/

theorem sendRows_eq_foldl (ps : List PushRow) (s : State) : sendRows s ps = ps.foldl (fun u r =>
    u.sendWrite r.home (BitVec.ofNat 64 r.addr) true (.push (BitVec.ofNat 64 r.addr) r.bytes u.stamp true)) s := by
  induction ps generalizing s with
  | nil => rfl
  | cons r ps ih => exact ih _

section
variable {t : State} {n : Nat} {rows : List (Nat × Nat)} {ps : List PushRow}

/-- Rows that pass their tests leave together, and after a source in HBM the strand's next issue waits for it. -/
theorem pushAll_rows (he : t.early t.focusU false = false) (hp : pushRows n none rows t = .ok ps)
    (ha : (t.st.asked.any fun x => x.writes && ps.any fun r => r.home != x.home) = false) :
    pushAll t rows n none = .ok (if ∃ r ∈ rows, regionOf r.1 = .h then (sendRows t.hear ps).linger else sendRows t.hear ps) := by
  have hany : (rows.any fun r => regionOf r.1 == .h) = true ↔ ∃ r ∈ rows, regionOf r.1 = .h := by
    simp only [List.any_eq_true, beq_iff_eq]
  simp only [pushAll, he, hp, bind, Except.bind, ha, Bool.false_eq_true, if_false, Option.isNone_none, Bool.true_and, if_true,
    if_congr hany rfl rfl]
  rfl

/-- Rows of a pattern are read nowhere. -/
theorem pushAll_pattern {bs : List Byte} (he : t.early t.focusU false = false) (hp : pushRows n (some bs) rows t = .ok ps)
    (ha : (t.st.asked.any fun x => x.writes && ps.any fun r => r.home != x.home) = false) :
    pushAll t rows n (some bs) = .ok (sendRows t ps) := by
  simp only [pushAll, he, hp, bind, Except.bind, ha, Bool.false_eq_true, if_false, Option.isNone_some, Bool.false_and]
  rfl

end

/-- What a strand has heard changes no frame tag that it stamps. -/
theorem stamp_hear {t : State} (h : t.me.live = true) : t.hear.stamp = t.stamp := by
  have hme : t.hear.me = { t.me with st := { t.st with dep := t.heard (dieOf t.focusU) t.st.dep } } := me_modSt h _
  simp only [State.stamp, hme]

/-- One row is held back only by a write under STAY to another home (R413). -/
theorem asked_one (l : List Asked) (r : PushRow) : (l.any fun x => x.writes && [r].any fun y => y.home != x.home) =
    l.any fun x => x.writes && x.home != r.home := by
  simp only [List.any_cons, List.any_nil, Bool.or_false, bne_comm]

/-- A single row leaves as one write (R206, R237). -/
theorem pushAll_one {t : State} {n a d v : Nat} {p : Except Cause Place} {bs : List Byte} (hlive : t.me.live = true)
    (he : t.early t.focusU false = false) (hs : pushSource t a n = .ok p) (hd : pushDest t d n = .ok v)
    (hr : pushRead t a n p = .ok bs) (ha : (t.st.asked.any fun x => x.writes && x.home != v) = false) :
    let u := t.hear.sendWrite v (BitVec.ofNat 64 d) true (.push (BitVec.ofNat 64 d) bs t.stamp true)
    pushAll t [(a, d)] n none = .ok (if regionOf a = .h then u.linger else u) := by
  intro u
  have hone : (∃ r ∈ [(a, d)], regionOf r.1 = .h) ↔ regionOf a = .h := by
    simp only [List.mem_singleton, exists_eq_left]
  have hu : sendRows t.hear [⟨v, d, bs⟩] = u := by
    simp only [sendRows, stamp_hear hlive]
    rfl
  rw [← asked_one _ ⟨v, d, bs⟩] at ha
  rw [pushAll_rows he (pushRows_one hs hd hr) ha, if_congr hone rfl rfl, hu]

/-! The tests before the rows (R237, R238) -/

/-- The addresses of a push are aligned to granules, tested in their order. -/
def pushAligned (send : Run) : List Nat → Run
  | [] => send
  | a :: as => if a % 16 = 0 then pushAligned send as else failAt .align a

/-- A push whose lengths are good or bad, with its addresses and what it sends. -/
def pushTests (bad : Bool) (as : List Nat) (send : Run) : Run := if bad then fail .pushLen else pushAligned send as

theorem failIf_bind (b : Bool) (c : Cause) (f : Unit → Run) : (failIf b c >>= f) = if b then fail c else f () := by
  cases b <;> rfl

/-- An instruction is known by what its effect comes to where it stands. -/
theorem performSeq_congr {s : State} {f g : State → Run} (h : f s = g s) : performSeq s f = performSeq s g := by
  simp only [performSeq, perform, h]

section
variable {s t : State} {a b d : Word} (hs : s.Standing) (hr : s.ReadsDAB a b d t)
include hs hr

/-- A push behind no acquire of its strand has its operands, of which D is read first (R209, R237). -/
theorem push_operands : s.me.acquires.isEmpty = true ∧ srcDAB s = .ok (a, b, d, t) := by
  obtain ⟨-, hacq, -⟩ := hs
  exact ⟨by rw [hacq]; rfl, hr⟩

theorem exec_push_tests : exec .push s = performSeq s fun _ => pushTests (pushLenBad b.toNat)
    [a.toNat % 2 ^ 56, d.toNat % 2 ^ 56] (pushAll t [(a.toNat % 2 ^ 56, d.toNat % 2 ^ 56)] b.toNat none) := by
  obtain ⟨hacq, hread⟩ := push_operands hs hr
  rw [exec_push, execPush]
  refine performSeq_congr ?_
  simp only [hacq, hread, if_true, ok_bind, failIf_bind, failAt_bind, pushTests, pushAligned]

theorem exec_pushFill_tests : exec .pushFill s = performSeq s fun _ => pushTests (pushLenBad b.toNat) [d.toNat % 2 ^ 56]
    (pushAll t [(0, d.toNat % 2 ^ 56)] b.toNat (some (patternBytes a.toNat b.toNat))) := by
  obtain ⟨hacq, hread⟩ := push_operands hs hr
  rw [exec_pushFill, execPushFill]
  refine performSeq_congr ?_
  simp only [hacq, hread, if_true, ok_bind, failIf_bind, failAt_bind, pushTests, pushAligned]

theorem exec_push2d_tests : exec .push2d s = performSeq s fun _ => pushTests (rectangleBad b.toNat (bits b.toNat 15 0))
    [a.toNat % 2 ^ 56, d.toNat % 2 ^ 56] (pushAll t (rectangle (a.toNat % 2 ^ 56) (d.toNat % 2 ^ 56) (bits b.toNat 47 32)
      (bits b.toNat 63 48) (bits b.toNat 31 16) 0) (bits b.toNat 15 0) none) := by
  obtain ⟨hacq, hread⟩ := push_operands hs hr
  rw [exec_push2d, execPush2d]
  refine performSeq_congr ?_
  simp only [hacq, hread, if_true, ok_bind, failIf_bind, failAt_bind, pushTests, pushAligned]

end

theorem pushAligned_first {send : Run} {l : List Nat} (hl : ∀ x ∈ l, x % 16 = 0) {a : Nat} (ha : a % 16 ≠ 0) (m : List Nat) :
    pushAligned send (l ++ a :: m) = failAt .align a := by
  induction l with
  | nil => exact if_neg ha
  | cons x l ih => exact (if_pos (hl x List.mem_cons_self)).trans (ih fun y hy => hl y (List.mem_cons_of_mem x hy))

theorem pushAligned_all {send : Run} {l : List Nat} (hl : ∀ x ∈ l, x % 16 = 0) : pushAligned send l = send := by
  induction l with
  | nil => rfl
  | cons x l ih => exact (if_pos (hl x List.mem_cons_self)).trans (ih fun y hy => hl y (List.mem_cons_of_mem x hy))

section
variable {s : State} {i : Instr} {bad : Bool} {as : List Nat} {send : Run} (h : s.Ready)
  (hi : exec i s = performSeq s fun _ => pushTests bad as send)
include h hi

/-- PUSH.LEN comes first. -/
theorem pushRow_badLength (hb : bad = true) : exec i s = .next (s.trapHere { cause := .pushLen }) := row_fail h hi (if_pos hb)

/-- ALIGN names the first address that is not aligned. -/
theorem pushRow_misaligned (hb : bad = false) {l m : List Nat} {a : Nat} (has : as = l ++ a :: m) (hl : ∀ x ∈ l, x % 16 = 0)
    (ha : a % 16 ≠ 0) : exec i s = .next (s.trapHere { cause := .align, addr := BitVec.ofNat 64 a }) := by
  subst has
  exact row_failAt h hi ((if_neg (Bool.eq_false_iff.1 hb)).trans (pushAligned_first hl ha m))

theorem pushRow_sends {v : State} (hb : bad = false) (hl : ∀ x ∈ as, x % 16 = 0) (hv : send = .ok v) :
    exec i s = .next v.passed :=
  row_next h hi ((if_neg (Bool.eq_false_iff.1 hb)).trans ((pushAligned_all hl).trans hv))

end

theorem exec_keysel_read {s t : State} {a : Word} (hr : s.ReadsA a t) : exec .keysel s = performSeq s fun _ =>
    failIf ((a.setWidth 9).getLsbD 8 && tagBad ((a.setWidth 9).setWidth 8)) .fmtBad >>= fun _ =>
      dst s.ir.d 1 (t.me.pfmt.setWidth 64) (t.modMe fun sl => { sl with pfmt := a.setWidth 9 }) := by
  rw [exec_keysel, execKeysel]
  refine performSeq_congr ?_
  simp only [show src s.ir.a s = .ok (a, t) from hr, ok_bind, src_ir hr]

/-- Settles O26: lengths, then `push` and `push.fill`, `push2d`, the tests of rows, and `hpf` and `keysel`. -/
theorem pushes : Obligations.Pushes := by
  unfold Obligations.Pushes
  refine ⟨pushLenBad_eq_false, fun s t a b d hs hr => ?_, fun s t a b d hs hr => ?_, fun n a d rows t => ?_,
    fun s t a hs hr => ?_⟩
  · obtain ⟨hready, -⟩ := id hs
    have hlive : t.me.live = true := srcDAB_me hr ▸ hready.1
    have hpush := exec_push_tests hs hr
    have hfill := exec_pushFill_tests hs hr
    intro from_ to_ n traps
    refine ⟨fun hb => ⟨pushRow_badLength hready hpush hb, pushRow_badLength hready hfill hb⟩, fun hb => ⟨fun hf => ?_,
      fun hf ht => ?_, fun ht => ?_, fun hf ht he v hd ha => ⟨fun p bs hsrc hread => ?_, ?_⟩⟩⟩
    · exact pushRow_misaligned hready hpush hb (l := []) rfl nofun hf
    · exact pushRow_misaligned hready hpush hb (l := [from_]) rfl (by simpa using hf) ht
    · exact pushRow_misaligned hready hfill hb (l := []) rfl nofun ht
    · exact pushRow_sends hready hpush hb (List.forall_mem_cons.2 ⟨hf, List.forall_mem_singleton.2 ht⟩)
        (pushAll_one hlive he hsrc hd hread ha)
    · rw [← asked_one _ ⟨v, to_, patternBytes a.toNat n⟩] at ha
      exact pushRow_sends hready hfill hb (List.forall_mem_singleton.2 ht) (pushAll_pattern he (pushRows_pattern hd) ha)
  · obtain ⟨hready, -⟩ := id hs
    have hpush := exec_push2d_tests hs hr
    rw [bits_quarter b 0, bits_quarter b 16, bits_quarter b 32, bits_quarter b 48] at hpush
    intro from_ to_ len rows sp dp at_
    have hbad : rectangleBad b.toNat len = true ↔ dp % 16 ≠ 0 ∨ sp % 16 ≠ 0 ∨ rows = 0 ∨ 256 < rows ∨ pushLenBad len = true := by
      rw [rectangleBad_iff, bits_quarter b 16, bits_quarter b 32, bits_quarter b 48]
    refine ⟨fun hb => pushRow_badLength hready hpush (hbad.2 hb), fun hdp hsp hlo hhi hlen hf ht he ps hp ha => ?_⟩
    have hgood : rectangleBad b.toNat len = false := by
      rw [Bool.eq_false_iff, Ne, hbad, hlen]
      simp only [Bool.false_eq_true, or_false]
      omega
    have hat : rectangle from_ to_ sp dp rows 0 = at_ := by rw [rectangle_eq, ← List.range_eq_range']
    intro u
    rw [hat] at hpush
    rw [pushRow_sends hready hpush hgood (List.forall_mem_cons.2 ⟨hf, List.forall_mem_singleton.2 ht⟩) (pushAll_rows he hp ha),
      sendRows_eq_foldl]
  · exact ⟨fun e => pushRows_noSource, fun p hsrc => ⟨fun e => pushRows_noDest hsrc, fun v hd =>
      ⟨fun e => pushRows_unread hsrc hd, fun bs hread hv => pushRows_elsewhere hsrc hd hread hv⟩⟩⟩
  · have hhint : exec .hpf s = performSeq s fun s => src s.ir.a s >>= fun x => .ok x.2 := exec_hpf s
    refine ⟨row_next hs hhint (by rw [show src s.ir.a s = .ok (a, t) from hr, ok_bind]), ?_⟩
    intro v
    have hsel := exec_keysel_read hr
    refine ⟨fun hen hbad => row_fail hs hsel ?_, fun hok => ?_⟩
    · rw [failIf_true (Bool.and_eq_true_iff.2 ⟨hen, hbad⟩), fail_bind]
    · intro u hroom
      refine row_next hs hsel ?_
      rw [failIf_false (Bool.and_eq_false_iff.2 hok), ok_bind, ← src_ir hr]
      exact dst_room hroom 1 _

end Sys2Proof.Machine
end

section
/-! The two events of an accepted command, and the mask queries (R248, R250, R252, R268, R271, R272, R286). -/

namespace Sys2Proof.Machine

/-- The executing command of an engine goes on by its own effect, and stays as it is while that is a wait. -/
theorem engineCommandComplete_next {s : State} {u : Nat} {e : Engine} {x : Cmd} (hev : s.ev = some (.engineCommandComplete u e))
    (hx : (s.core u).executing e = some x) : exec .engineCommandComplete s = .next ((engineEffect e s x).getD s) := by
  rw [exec_engineCommandComplete, execEngineCommandComplete, hev]
  dsimp only
  rw [hx]

theorem engineCommandComplete_goes {s t : State} {u : Nat} {e : Engine} {x : Cmd}
    (hev : s.ev = some (.engineCommandComplete u e)) (hx : (s.core u).executing e = some x) (ht : engineEffect e s x = some t) :
    exec .engineCommandComplete s = .next t := by rw [engineCommandComplete_next hev hx, ht]; rfl

theorem engineCommandComplete_waits {s : State} {u : Nat} {e : Engine} {x : Cmd}
    (hev : s.ev = some (.engineCommandComplete u e)) (hx : (s.core u).executing e = some x) (ht : engineEffect e s x = none) :
    exec .engineCommandComplete s = .next s := by rw [engineCommandComplete_next hev hx, ht]; rfl

/-! What lets a command start -/

theorem mayStart_of_starts {s : State} {x : Cmd} (h : starts s x = true) : mayStart s x = true := by
  rw [starts, Bool.and_eq_true] at h
  exact h.1

/-- A register that two lists share is a tile or another register. -/
theorem notMem_of_meet {l m : List Opd} (ht : meet true l m = false) (hf : meet false l m = false) : ∀ r ∈ l, r ∉ m := by
  intro r hr hm
  have htiles := List.any_eq_false.1 ht r hr
  have hothers := List.any_eq_false.1 hf r hr
  rw [List.contains_iff_mem.2 hm, Bool.and_true] at htiles hothers
  cases r <;> simp at htiles hothers

/-- An earlier command of another queue that does not hinder shares no register (R252). -/
theorem disjoint_of_not_hinders {o x : Cmd} (hq : queueOf o.engine ≠ queueOf x.engine) (h : hinders o x = false) :
    ∀ r ∈ o.reads ++ o.writes, r ∉ x.reads ++ x.writes := by
  rw [hinders, if_pos (bne_iff_ne.2 hq), Bool.or_eq_false_iff] at h
  exact notMem_of_meet h.2 h.1

theorem mayStart_cases {s : State} {x : Cmd} (h : mayStart s x = true) :
    ((s.core x.unit).queued (queueOf x.engine)).head?.map (·.order) = some x.order ∧ x.bound = none ∧
    (∀ y ∈ (s.core x.unit).cmds, y.engine = x.engine → y.phase ≠ .executing) ∧
    ∀ y ∈ (s.core x.unit).cmds, y.order < x.order → hinders y x = false := by
  simp only [mayStart, Bool.and_eq_true, Bool.not_eq_true', List.any_eq_false, Bool.and_eq_true, beq_iff_eq, decide_eq_true_eq,
    not_and, Bool.not_eq_true, Option.isNone_iff_eq_none, Option.any_eq_true] at h
  obtain ⟨⟨⟨⟨⟨⟨-, y, hy, ho⟩, hb⟩, he⟩, hh⟩, -⟩, -⟩ := h
  exact ⟨by rw [hy, Option.map_some, ho], hb, he, hh⟩

/-! Mask queries (R268) -/

theorem maskQuery_waits {s : State} (h : s.Standing) (hb : s.here.vectorBusy s.here.accepted = true) (f : BitVec 512 → Nat) :
    maskQuery s f = .next (s.sendAndWait (s.modMe fun sl => { sl with asked := true, mark := s.here.accepted })) := by
  obtain ⟨hready, -, -, hasked⟩ := h
  refine performSeq_error (e := .block (some _)) hready ?_
  simp only [hasked, Bool.false_eq_true, if_false, hb, if_true]

theorem maskQuery_reads {s : State} (h : s.Standing) {j : Fin 8} (ha : s.ir.a = .m j)
    (hb : s.here.vectorBusy s.here.accepted = false) (hr : s.Room) (f : BitVec 512 → Nat) :
    maskQuery s f = .next (s.putLong (word (f s.here.m[j]))).passed := by
  obtain ⟨hready, -, -, hasked⟩ := h
  have hroom : s.destRoom s.ir.d = true := hr
  refine performSeq_ok hready ?_
  simp only [hasked, Bool.false_eq_true, if_false, hb, dstLong, hroom, if_true, ha, mreg]
  rfl

/-- What `m.any` reads. -/
theorem anySet_eq (m : BitVec 512) : word (m != 0).toNat = if m = 0 then 0 else 1 := by
  by_cases h : m = 0
  · rw [if_pos h, h, bne_self_eq_false]; rfl
  · rw [if_neg h, (bne_iff_ne (a := m)).2 h]; rfl

/-- What `m.first` reads: the place of the lowest set bit, and 512 for a mask without one. -/
def firstSet (m : BitVec 512) : Nat := if m == 0 then 512 else trailZeros 512 m.toNat

theorem firstSet_zero {m : BitVec 512} (h : m = 0) : firstSet m = 512 := if_pos (beq_iff_eq.2 h)

theorem firstSet_eq_ctz {m : BitVec 512} (h : m ≠ 0) : firstSet m = m.ctz.toNat := by
  rw [firstSet, if_neg (mt beq_iff_eq.1 h), trailZeros_eq_ctz (by decide), ofNat_toNat_self]

theorem firstSet_spec {m : BitVec 512} (h : m ≠ 0) :
    firstSet m < 512 ∧ m.getLsbD (firstSet m) = true ∧ ∀ i < firstSet m, m.getLsbD i = false := by
  have hset : m.getLsbD (firstSet m) = true := firstSet_eq_ctz h ▸ BitVec.getLsbD_true_ctz_of_ne_zero h
  exact ⟨BitVec.lt_of_getLsbD hset, hset, fun i hi => BitVec.getLsbD_false_of_lt_ctz (firstSet_eq_ctz h ▸ hi)⟩

/-- Settles O36: the head of an engine's queue, what lets it start, its completion, and the mask queries. -/
theorem engineOrder : Obligations.EngineOrder := by
  unfold Obligations.EngineOrder
  refine ⟨fun s u e x hev hx => ?_, fun s x h => ?_, fun s u e x hev hx => ?_, fun s h => ⟨fun hb => ?_, fun j ha hb hr => ?_⟩⟩
  · have hhead : exec .engineCommandStart s = execEngineCommandStart s := rfl
    rw [hhead, execEngineCommandStart, hev]
    dsimp only
    rw [hx]
    dsimp only
    refine ⟨fun hs => ?_, fun hs => by rw [if_neg (Bool.eq_false_iff.1 hs)]⟩
    rw [if_pos hs]
    cases e <;> rfl
  · obtain ⟨hhead, hbound, hfree, hclear⟩ := mayStart_cases (mayStart_of_starts h)
    exact ⟨hbound, hhead, hfree, fun y hy ho hq => disjoint_of_not_hinders hq (hclear y hy ho)⟩
  · exact ⟨fun t => engineCommandComplete_goes hev hx, engineCommandComplete_waits hev hx⟩
  · intro u
    simp only [List.forall_mem_cons]
    refine ⟨?_, ?_, ?_, List.forall_mem_nil _⟩
    · rw [exec_mAny, execMAny, maskQuery_waits h hb]
    · rw [exec_mPopc, execMPopc, maskQuery_waits h hb]
    · rw [exec_mFirst, execMFirst, maskQuery_waits h hb]
  · intro m
    have hreads := maskQuery_reads h ha hb hr
    refine ⟨?_, ?_, firstSet m, (exec_mFirst s).trans (hreads firstSet), firstSet_zero, firstSet_spec⟩
    · rw [exec_mAny, execMAny, hreads, anySet_eq]
    · rw [exec_mPopc, execMPopc, hreads, popCount_eq]
      rfl

end Sys2Proof.Machine
end

section
/-! Elements, bytes and rows of engine registers: what writing some leaves and what reading one gives (R2, R246, R247, R259,
R269). -/

namespace Sys2Proof.Machine

/-! Bytes of numbers -/

theorem pow_bytes (n : Nat) : 256 ^ n = 2 ^ (8 * n) := (Nat.pow_mul 2 8 n).symm

theorem testBit_leNat (l : List Byte) (b : Nat) : (leNat l).testBit b = (l.getD (b / 8) 0).getLsbD (b % 8) := by
  induction l generalizing b with
  | nil => rw [leNat, Nat.zero_testBit, List.getD_nil]; exact BitVec.getLsbD_zero.symm
  | cons x l ih =>
    rw [leNat, Nat.add_comm, Nat.testBit_two_pow_mul_add (i := 8) _ x.isLt]
    split
    · rename_i h
      rw [Nat.div_eq_of_lt h, Nat.mod_eq_of_lt h]
      rfl
    · rename_i h
      have hd : b / 8 = (b - 8) / 8 + 1 := by omega
      have hm : b % 8 = (b - 8) % 8 := by omega
      rw [ih, hd, hm, List.getD_cons_succ]

theorem leNat_append (l m : List Byte) : leNat (l ++ m) = leNat l + 256 ^ l.length * leNat m := by
  induction l with
  | nil => rw [List.nil_append, leNat, List.length_nil, pow_zero, Nat.one_mul, Nat.zero_add]
  | cons b l ih =>
    rw [List.cons_append, leNat, leNat, ih, List.length_cons, pow_succ', Nat.mul_add, Nat.mul_assoc, Nat.add_assoc]

/-- Numbers of `z` bytes put one after another, each found again. -/
theorem leNat_flatten (z : Nat) (l : List Nat) (j : Nat) :
    leNat (l.map (leBytes z)).flatten / 256 ^ (z * j) % 256 ^ z = l.getD j 0 % 256 ^ z := by
  induction l generalizing j with
  | nil => rw [List.getD_nil, List.map_nil, List.flatten_nil, leNat, Nat.zero_div]
  | cons a l ih =>
    rw [List.map_cons, List.flatten_cons, leNat_append, leBytes_length, leNat_leBytes_mod]
    cases j with
    | zero => rw [Nat.mul_zero, pow_zero, Nat.div_one, Nat.add_mul_mod_self_left, Nat.mod_mod, List.getD_cons_zero]
    | succ j =>
      have hz : 0 < 256 ^ z := by positivity
      rw [Nat.mul_succ, Nat.add_comm (z * j), pow_add, ← Nat.div_div_eq_div_mul, Nat.add_mul_div_left _ _ hz,
        Nat.div_eq_of_lt (Nat.mod_lt _ hz), Nat.zero_add, ih, List.getD_cons_succ]

theorem ofNat_div_bytes {w : Nat} (x : BitVec w) (i : Nat) : BitVec.ofNat 8 (x.toNat / 256 ^ i) = x.extractLsb' (8 * i) 8 := by
  apply BitVec.eq_of_toNat_eq
  rw [BitVec.toNat_ofNat, BitVec.extractLsb'_toNat, Nat.shiftRight_eq_div_pow, pow_bytes]

/-- The bytes of a register, from the least significant on. -/
theorem leBytes_toNat_getElem? {w n i : Nat} (x : BitVec w) (h : i < n) :
    (leBytes n x.toNat)[i]? = some (x.extractLsb' (8 * i) 8) := by
  have hi : i < (leBytes n x.toNat).length := by rw [leBytes_length]; exact h
  rw [List.getElem?_eq_getElem hi, leBytes_getElem, ofNat_div_bytes]

/-- A byte of a register filled from bytes. -/
theorem extract_ofNat_leNat {w j : Nat} (l : List Byte) (h : 8 * j + 8 ≤ w) :
    (BitVec.ofNat w (leNat l)).extractLsb' (8 * j) 8 = l.getD j 0 := by
  refine BitVec.eq_of_getLsbD_eq fun b hb => ?_
  have hd : (8 * j + b) / 8 = j := by omega
  have hm : (8 * j + b) % 8 = b := by omega
  rw [BitVec.getLsbD_extractLsb', BitVec.getLsbD_ofNat, testBit_leNat, decide_eq_true hb,
    decide_eq_true (by omega : 8 * j + b < w), hd, hm, Bool.true_and, Bool.true_and]

/-! Elements of a vector register (R247) -/

theorem elem_lt (v : BitVec 4096) (z i : Nat) : elem v z i < 2 ^ (8 * z) := Nat.mod_lt _ (Nat.two_pow_pos _)

theorem testBit_elem (v : BitVec 4096) (z i b : Nat) :
    (elem v z i).testBit b = (decide (b < 8 * z) && v.getLsbD (8 * z * i + b)) := by
  rw [elem, Nat.testBit_mod_two_pow, Nat.testBit_div_two_pow, Nat.add_comm b]
  rfl

/-- Elements are alike where the bits of the registers are. -/
theorem elem_congr {v w : BitVec 4096} {z i : Nat} (h : ∀ b, 8 * (z * i) ≤ b → b < 8 * (z * i + z) → v.getLsbD b = w.getLsbD b) :
    elem v z i = elem w z i := by
  refine Nat.eq_of_testBit_eq fun b => ?_
  rw [testBit_elem, testBit_elem]
  by_cases hb : b < 8 * z
  · rw [h (8 * z * i + b) (by rw [Nat.mul_assoc]; omega) (by rw [Nat.mul_assoc]; omega)]
  · rw [decide_eq_false hb, Bool.false_and, Bool.false_and]

theorem getLsbD_setElem (v : BitVec 4096) (z i x : Nat) {b : Nat} (h : b < 4096) : (setElem v z i x).getLsbD b =
    if 8 * (z * i) ≤ b ∧ b < 8 * (z * i + z) then x.testBit (b - 8 * (z * i)) else v.getLsbD b := by
  have hb : b - 8 * (z * i) < 4096 := by omega
  simp only [setElem, BitVec.getLsbD_or, BitVec.getLsbD_and, BitVec.getLsbD_not, BitVec.getLsbD_shiftLeft,
    BitVec.getLsbD_ofNat, Nat.testBit_two_pow_sub_one, Nat.testBit_mod_two_pow, Nat.mul_assoc 8 z i, decide_eq_true h,
    decide_eq_true hb, Bool.true_and]
  by_cases hlo : b < 8 * (z * i)
  · rw [if_neg (by omega), decide_eq_true hlo]; simp
  · by_cases hhi : b - 8 * (z * i) < 8 * z
    · rw [if_pos (by omega), decide_eq_false hlo, decide_eq_true hhi]; simp
    · rw [if_neg (by omega), decide_eq_false hhi]; simp

/-- Every bit outside the elements written is as it was. -/
theorem getLsbD_setElems {l : List (Nat × Nat)} {v : BitVec 4096} {z b : Nat}
    (h : ∀ p ∈ l, ¬ (8 * (z * p.1) ≤ b ∧ b < 8 * (z * p.1 + z))) : (setElems v z l).getLsbD b = v.getLsbD b := by
  by_cases hb : b < 4096
  · induction l generalizing v with
    | nil => rfl
    | cons p l ih =>
      rw [setElems, List.foldl_cons]
      refine (ih fun q hq => h q (List.mem_cons_of_mem _ hq)).trans ?_
      rw [getLsbD_setElem _ _ _ _ hb, if_neg (h p List.mem_cons_self)]
  · rw [BitVec.getLsbD_of_ge _ _ (Nat.not_lt.1 hb), BitVec.getLsbD_of_ge _ _ (Nat.not_lt.1 hb)]

/-- An element that is not among those written keeps its value. -/
theorem elem_setElems_of_ne {l : List (Nat × Nat)} {v : BitVec 4096} {z j : Nat} (h : ∀ p ∈ l, p.1 ≠ j) :
    elem (setElems v z l) z j = elem v z j := by
  refine elem_congr fun b hlo hhi => getLsbD_setElems fun p hp hc => ?_
  rcases Nat.lt_or_gt_of_ne (h p hp) with hj | hj
  · have := Nat.mul_le_mul_left z hj
    rw [Nat.mul_succ] at this
    omega
  · have := Nat.mul_le_mul_left z hj
    rw [Nat.mul_succ] at this
    omega

/-- What lies above all the elements written, in elements of any size, keeps its value. -/
theorem elem_setElems_above {l : List (Nat × Nat)} {v : BitVec 4096} {z y m j : Nat} (h : ∀ p ∈ l, z * p.1 + z ≤ m)
    (hj : m ≤ y * j) : elem (setElems v z l) y j = elem v y j :=
  elem_congr fun b hlo _ => getLsbD_setElems fun p hp hc => by have := h p hp; omega

theorem elem_setElem_self {v : BitVec 4096} {z i : Nat} (h : z * i + z ≤ 512) (x : Nat) :
    elem (setElem v z i x) z i = x % 2 ^ (8 * z) := by
  refine Nat.eq_of_testBit_eq fun b => ?_
  rw [testBit_elem, Nat.testBit_mod_two_pow]
  by_cases hb : b < 8 * z
  · rw [Nat.mul_assoc, getLsbD_setElem _ _ _ _ (by omega), if_pos (by omega), Nat.add_sub_cancel_left]
  · rw [decide_eq_false hb, Bool.false_and, Bool.false_and]

theorem elem_setElem {v : BitVec 4096} {z i : Nat} (h : z * i + z ≤ 512) (x j : Nat) :
    elem (setElem v z i x) z j = if j = i then x % 2 ^ (8 * z) else elem v z j := by
  split
  · rename_i hj; rw [hj, elem_setElem_self h]
  · rename_i hj
    exact elem_setElems_of_ne (l := [(i, x)]) fun p hp => by rw [List.mem_singleton.1 hp]; exact fun h => hj h.symm

/-- Elements written each at its own place read as written. -/
theorem elem_setElems_at {g f : Nat → Nat} {v : BitVec 4096} {z n : Nat} (hg : ∀ i < n, ∀ j < n, g i = g j → i = j) {i : Nat}
    (hi : i < n) (h : z * g i + z ≤ 512) :
    elem (setElems v z ((List.range n).map fun i => (g i, f i))) z (g i) = f i % 2 ^ (8 * z) := by
  induction n with
  | zero => exact absurd hi (Nat.not_lt_zero i)
  | succ n ih =>
    rw [List.range_succ, List.map_append, setElems, List.foldl_append]
    change elem (setElem (setElems v z _) z (g n) (f n)) z (g i) = _
    rcases Nat.lt_succ_iff_lt_or_eq.1 hi with hn | rfl
    · have hne : g n ≠ g i := fun e => absurd (hg n (Nat.lt_succ_self n) i hi e) (by omega)
      have := ih (fun i hi j hj => hg i (by omega) j (by omega)) hn
      rw [← this]
      exact elem_setElems_of_ne (l := [(g n, f n)]) fun p hp => by rw [List.mem_singleton.1 hp]; exact hne
    · exact elem_setElem_self h (f i)

/-- The first `n` elements written, and the others as they were (R247). -/
theorem elem_setElems_range {f : Nat → Nat} {v : BitVec 4096} {z n : Nat} (h : z * n ≤ 512) (j : Nat) :
    elem (setElems v z ((List.range n).map fun i => (i, f i))) z j = if j < n then f j % 2 ^ (8 * z) else elem v z j := by
  split
  · rename_i hj
    have := Nat.mul_le_mul_left z hj
    rw [Nat.mul_succ] at this
    exact elem_setElems_at (g := fun i => i) (fun _ _ _ _ e => e) hj (this.trans h)
  · rename_i hj
    refine elem_setElems_of_ne fun p hp => ?_
    obtain ⟨i, hi, rfl⟩ := List.mem_map.1 hp
    have := List.mem_range.1 hi
    exact fun e => hj (e ▸ this)

/-! Bytes of a vector register -/

/-- The byte at an offset of a register, as the bits of element `i` of 8. -/
theorem getLsbD_eq_testBit_elem (v : BitVec 4096) (b : Nat) : v.getLsbD b = (elem v 1 (b / 8)).testBit (b % 8) := by
  rw [testBit_elem, decide_eq_true (by omega : b % 8 < 8 * 1), Bool.true_and, Nat.mul_one, Nat.div_add_mod]

theorem elem_setRegBytes_byte {v : BitVec 4096} {off i : Nat} {bs : List Byte} (h : off + bs.length ≤ 512) (hi : i < bs.length) :
    elem (setRegBytes v off bs) 1 (off + i) = (bs.getD i 0).toNat :=
  (elem_setElems_at (g := fun i => off + i) (fun _ _ _ _ e => Nat.add_left_cancel e) hi (by omega)).trans
    (Nat.mod_eq_of_lt (bs.getD i 0).isLt)

theorem mem_setRegBytes {off : Nat} {bs : List Byte} {p : Nat × Nat}
    (hp : p ∈ (List.range bs.length).map fun i => (off + i, (bs.getD i 0).toNat)) : off ≤ p.1 ∧ p.1 < off + bs.length := by
  obtain ⟨i, hi, rfl⟩ := List.mem_map.1 hp
  have := List.mem_range.1 hi
  exact ⟨Nat.le_add_right _ _, Nat.add_lt_add_left this _⟩

/-- Elements apart from the bytes replaced keep their values. -/
theorem elem_setRegBytes_outside {v : BitVec 4096} {off z k : Nat} {bs : List Byte}
    (h : z * k + z ≤ off ∨ off + bs.length ≤ z * k) : elem (setRegBytes v off bs) z k = elem v z k :=
  elem_congr fun b hlo hhi => getLsbD_setElems fun p hp hc => by have := mem_setRegBytes hp; omega

/-- An element within the bytes replaced is the number that its bytes hold. -/
theorem elem_setRegBytes_inside {v : BitVec 4096} {off z k : Nat} {bs : List Byte} (h : off + bs.length ≤ 512)
    (hlo : off ≤ z * k) (hhi : z * k + z ≤ off + bs.length) :
    elem (setRegBytes v off bs) z k = leNat bs / 256 ^ (z * k - off) % 256 ^ z := by
  refine Nat.eq_of_testBit_eq fun b => ?_
  rw [testBit_elem, pow_bytes, pow_bytes, Nat.testBit_mod_two_pow, Nat.testBit_div_two_pow]
  by_cases hb : b < 8 * z
  · have hd : (8 * (z * k) + b) / 8 = off + (z * k - off + b / 8) := by omega
    have hd' : (b + 8 * (z * k - off)) / 8 = z * k - off + b / 8 := by omega
    have hm : (8 * (z * k) + b) % 8 = (b + 8 * (z * k - off)) % 8 := by omega
    rw [Nat.mul_assoc, getLsbD_eq_testBit_elem, hd, elem_setRegBytes_byte h (by omega), testBit_leNat, hd', hm]
    rfl
  · rw [decide_eq_false hb, Bool.false_and, Bool.false_and]

/-! Masks (R259) -/

theorem maskFold_spec (n : Nat) (f : Nat → Bool) :
    let v := (List.range n).foldl (fun v i => if f i then v + 2 ^ i else v) 0
    v < 2 ^ n ∧ ∀ b, v.testBit b = (decide (b < n) && f b) := by
  induction n with
  | zero => exact ⟨Nat.one_pos, fun b => Nat.zero_testBit b⟩
  | succ n ih =>
    rw [List.range_succ, List.foldl_append]
    obtain ⟨hlt, hbit⟩ := ih
    generalize (List.range n).foldl (fun v i => if f i then v + 2 ^ i else v) 0 = v at hlt hbit
    dsimp only [List.foldl_cons, List.foldl_nil]
    have hp : 2 ^ (n + 1) = 2 ^ n + 2 ^ n := by omega
    cases hf : f n with
    | false =>
      rw [if_neg Bool.false_ne_true]
      refine ⟨by omega, fun b => ?_⟩
      rw [hbit]
      rcases Nat.lt_trichotomy b n with h | rfl | h
      · rw [decide_eq_true h, decide_eq_true (by omega)]
      · rw [hf, Bool.and_false, Bool.and_false]
      · rw [decide_eq_false (by omega), decide_eq_false (by omega)]
    | true =>
      rw [if_pos rfl]
      refine ⟨by omega, fun b => ?_⟩
      rw [Nat.add_comm, ← Nat.mul_one (2 ^ n), Nat.testBit_two_pow_mul_add _ hlt]
      rcases Nat.lt_trichotomy b n with h | rfl | h
      · rw [if_pos h, hbit, decide_eq_true h, decide_eq_true (by omega)]
      · rw [if_neg (by omega), Nat.sub_self, decide_eq_true (by omega), hf]
        rfl
      · rw [if_neg (by omega), Bool.eq_false_iff.2 (mt Nat.testBit_one_eq_true_iff_self_eq_zero.1 (by omega)), decide_eq_false (by omega), Bool.false_and]

/-- A mask has the bits of its elements, and zeros beyond them. -/
theorem getLsbD_maskOf (n : Nat) (f : Nat → Bool) {i : Nat} (h : i < 512) :
    (maskOf n f).getLsbD i = (decide (i < n) && f i) := by
  rw [maskOf, BitVec.getLsbD_ofNat, decide_eq_true h, Bool.true_and, (maskFold_spec n f).2]

/-! Rows of a tile (R269) -/

theorem getLsbD_tileRow (t : BitVec 8192) (i b : Nat) : (tileRow t i).getLsbD b = (decide (b < 512) && t.getLsbD (512 * i + b)) := by
  rw [tileRow, BitVec.getLsbD_ofNat, Nat.testBit_div_two_pow, Nat.add_comm b]
  rfl

theorem getLsbD_setTileRow (t : BitVec 8192) (i : Nat) (r : BitVec 512) {b : Nat} (h : b < 8192) :
    (setTileRow t i r).getLsbD b = if 512 * i ≤ b ∧ b < 512 * i + 512 then r.getLsbD (b - 512 * i) else t.getLsbD b := by
  have hb : b - 512 * i < 8192 := by omega
  simp only [setTileRow, BitVec.getLsbD_or, BitVec.getLsbD_and, BitVec.getLsbD_not, BitVec.getLsbD_shiftLeft,
    BitVec.getLsbD_ofNat, BitVec.getLsbD_setWidth, Nat.testBit_two_pow_sub_one, decide_eq_true h, decide_eq_true hb,
    Bool.true_and]
  by_cases hlo : b < 512 * i
  · rw [if_neg (by omega), decide_eq_true hlo]; simp
  · by_cases hhi : b - 512 * i < 512
    · rw [if_pos (by omega), decide_eq_false hlo, decide_eq_true hhi]; simp
    · rw [if_neg (by omega), decide_eq_false hhi, BitVec.getLsbD_of_ge r _ (Nat.not_lt.1 hhi)]; simp

/-- A row written reads as written, and the others as they were. -/
theorem tileRow_setTileRow (t : BitVec 8192) (r : BitVec 512) {i j : Nat} (hj : j < 16) :
    tileRow (setTileRow t i r) j = if j = i then r else tileRow t j := by
  refine BitVec.eq_of_getLsbD_eq fun b hb => ?_
  rw [getLsbD_tileRow, decide_eq_true hb, Bool.true_and, getLsbD_setTileRow _ _ _ (by omega)]
  split <;> rename_i hc
  · have hji : j = i := by omega
    rw [if_pos hji, hji, Nat.add_sub_cancel_left]
  · have hji : ¬ j = i := by omega
    rw [if_neg hji, getLsbD_tileRow, decide_eq_true hb, Bool.true_and]

/-- The code of an element in the number that a row's codes make. -/
theorem digit_foldr {l : List Nat} (h : ∀ y ∈ l, y < 2 ^ 32) (j : Nat) :
    l.foldr (fun a n => a + 2 ^ 32 * n) 0 / 2 ^ (32 * j) % 2 ^ 32 = l.getD j 0 := by
  induction l generalizing j with
  | nil => rw [List.getD_nil, List.foldr_nil, Nat.zero_div, Nat.zero_mod]
  | cons a l ih =>
    obtain ⟨ha, hl⟩ := List.forall_mem_cons.1 h
    rw [List.foldr_cons]
    cases j with
    | zero => rw [Nat.mul_zero, pow_zero, Nat.div_one, Nat.add_mul_mod_self_left, Nat.mod_eq_of_lt ha, List.getD_cons_zero]
    | succ j =>
      rw [Nat.mul_succ, Nat.add_comm (32 * j), pow_add, ← Nat.div_div_eq_div_mul, Nat.add_mul_div_left _ _ (by decide),
        Nat.div_eq_of_lt ha, Nat.zero_add, ih hl, List.getD_cons_succ]

theorem testBit_rowElem (r : BitVec 512) (j b : Nat) :
    (rowElem r j).testBit b = (decide (b < 32) && r.getLsbD (32 * j + b)) := by
  rw [rowElem, Nat.testBit_mod_two_pow, Nat.testBit_div_two_pow, Nat.add_comm b]
  rfl

/-- A row packed from its codes gives each of them back. -/
theorem rowElem_packRow {l : List Nat} {j : Nat} (hj : j < 16) (h : ∀ y ∈ l, y < 2 ^ 32) : rowElem (packRow l) j = l.getD j 0 := by
  rw [← digit_foldr h j]
  refine Nat.eq_of_testBit_eq fun b => ?_
  rw [testBit_rowElem, packRow, BitVec.getLsbD_ofNat, Nat.testBit_mod_two_pow, Nat.testBit_div_two_pow, Nat.add_comm b]
  by_cases hb : b < 32
  · rw [decide_eq_true (by omega : 32 * j + b < 512), Bool.true_and]
  · rw [decide_eq_false hb, Bool.false_and, Bool.false_and]

end Sys2Proof.Machine
end

section
/-! Vector commands that touch memory: a granule read and its scales, a granule written, and the bytes that come of it
(R186, R191, R201, R254, R262, R263, R267). -/

namespace Sys2Proof.Machine

/-! Reading (R201) -/

theorem nextRead_none {x : Cmd} {l : List Grain} (h : x.nextRead l = none) :
    ∀ g ∈ l, kget x.got (granuleOf g.home g.off) ≠ none := by
  intro g hg hk
  exact List.find?_eq_none.1 h g hg (by rw [Cmd.lacks, hk]; rfl)

theorem nextRead_some {x : Cmd} {l : List Grain} {g : Grain} (h : x.nextRead l = some g) :
    g ∈ l ∧ kget x.got (granuleOf g.home g.off) = none :=
  ⟨List.mem_of_find?_eq_some h, Option.isNone_iff_eq_none.1 (List.find?_some (p := x.lacks) h)⟩

theorem reading_next {s : State} {x : Cmd} {l : List Grain} {g : Grain} (h : x.nextRead l = some g) (k : State → Cmd → State) :
    (∀ e, readGranule s x g = .error e → reading s x l k = failCmd s x e) ∧
    (∀ y, readGranule s x g = .ok y → reading s x l k = if y.nextRead l = none then k s y else s.setCmd y) := by
  unfold reading
  generalize readGranule s x = read
  -- The kernel would evaluate `readGranule` to reduce the match on it: the lemma speaks of any function in its place.
  as_aux_lemma =>
    refine ⟨fun e he => ?_, fun y hy => ?_⟩
    · simp only [h, he]
    · simp only [h, hy, Option.isNone_iff_eq_none]

/-- The scales of the elements in a granule: the address of each and its offset (R186, R263). -/
def Cmd.scalesBeside (x : Cmd) (g : Grain) : List (Nat × Nat) :=
  ((x.memA ++ x.memB).filter g.beside).filterMap fun h => h.scale.map fun o => (h.addr - h.off + o, o)

theorem mem_scalesBeside {x : Cmd} {g : Grain} {y : Nat × Nat} : y ∈ x.scalesBeside g ↔
    ∃ h o, (h ∈ x.memA ++ x.memB ∧ g.beside h = true ∧ h.scale = some o) ∧ y = (h.addr - h.off + o, o) := by
  simp only [Cmd.scalesBeside, List.mem_filterMap, List.mem_filter, Option.map_eq_some_iff]
  constructor
  · rintro ⟨h, ⟨hm, hb⟩, o, ho, rfl⟩
    exact ⟨h, o, ⟨hm, hb, ho⟩, rfl⟩
  · rintro ⟨h, o, ⟨hm, hb, ho⟩, rfl⟩
    exact ⟨h, ⟨hm, hb⟩, o, ho, rfl⟩

/-- A granule is read with its scales unless one of them, or the granule, is poisoned (R186, R191). -/
theorem readGranule_eq (s : State) (x : Cmd) (g : Grain) : readGranule s x g =
    let n := granuleOf g.home g.off
    let p := x.source s g.home (g.off - g.off % 16)
    if s.anyPoison p 16 then .error (.memPoison, g.addr)
    else match (x.scalesBeside g).find? fun y => s.anyPoison (x.source s g.home (y.2 - y.2 % 16)) 16 with
      | some y => .error (.memPoison, y.1)
      | none => .ok { x with
          got := kput x.got n (s.bytes p 16)
          scales := kput x.scales n ((x.scalesBeside g).map fun y => (y.2, s.byte (x.source s g.home y.2))) } := rfl

theorem readGranule_error {s : State} {x : Cmd} {g : Grain} {e : Cause × Nat} (h : readGranule s x g = .error e) :
    e.1 = .memPoison ∧ ((s.anyPoison (x.source s g.home (g.off - g.off % 16)) 16 = true ∧ e.2 = g.addr) ∨
      ∃ h o, (h ∈ x.memA ++ x.memB ∧ g.beside h = true ∧ h.scale = some o) ∧
        s.anyPoison (x.source s g.home (o - o % 16)) 16 = true ∧ e.2 = h.addr - h.off + o) := by
  rw [readGranule_eq] at h
  dsimp only at h
  split at h
  · rename_i hp
    cases h
    exact ⟨rfl, .inl ⟨hp, rfl⟩⟩
  · split at h
    · rename_i y hy
      cases h
      obtain ⟨k, o, hk, rfl⟩ := mem_scalesBeside.1 (List.mem_of_find?_eq_some hy)
      have hpoison := List.find?_some hy
      exact ⟨rfl, .inr ⟨k, o, hk, hpoison, rfl⟩⟩
    · cases h

theorem kget_map_key {α : Type} (f : Nat → α) {l : List (Nat × Nat)} {y : Nat × Nat} (h : y ∈ l) :
    kget (l.map fun y => (y.2, f y.2)) y.2 = some (f y.2) := by
  induction l with
  | nil => cases h
  | cons z l ih =>
    rw [List.map_cons, kget]
    split
    · rename_i hz; rw [hz]
    · rename_i hz
      exact ih ((List.mem_cons.1 h).resolve_left fun e => hz (by rw [e]))

theorem readGranule_ok {s : State} {x y : Cmd} {g : Grain} (h : readGranule s x g = .ok y) :
    y = { x with got := y.got, scales := y.scales } ∧
    s.anyPoison (x.source s g.home (g.off - g.off % 16)) 16 = false ∧
    kget y.got (granuleOf g.home g.off) = some (s.bytes (x.source s g.home (g.off - g.off % 16)) 16) ∧
    (∀ m, m ≠ granuleOf g.home g.off → kget y.got m = kget x.got m ∧ kget y.scales m = kget x.scales m) ∧
    ∀ h o, (h ∈ x.memA ++ x.memB ∧ g.beside h = true ∧ h.scale = some o) →
      s.anyPoison (x.source s g.home (o - o % 16)) 16 = false ∧
        y.scaleOf (granuleOf g.home g.off) o = (s.byte (x.source s g.home o)).toNat := by
  rw [readGranule_eq] at h
  dsimp only at h
  split at h
  · cases h
  · rename_i hp
    split at h
    · cases h
    · rename_i hclean
      cases h
      refine ⟨rfl, Bool.eq_false_iff.2 hp, kget_kput_self _ _ _,
        fun m hm => ⟨kget_kput_of_ne _ _ hm, kget_kput_of_ne _ _ hm⟩, fun k o hk => ?_⟩
      have hmem := mem_scalesBeside.2 ⟨k, o, hk, rfl⟩
      have hpoison := List.find?_eq_none.1 hclean _ hmem
      refine ⟨Bool.eq_false_iff.2 hpoison, ?_⟩
      rw [Cmd.scaleOf, kget_kput_self, Option.getD_some,
        kget_map_key (fun o => s.byte (x.source s g.home o)) hmem, Option.getD_some]

theorem grains_getElem? {x : Cmd} {l : List Grain} {i : Nat} {g : Grain} {bs : List Byte} (hi : l[i]? = some g)
    (hk : kget x.got (granuleOf g.home g.off) = some bs) :
    (x.grains l)[i]? = some ((bs.drop (g.off % 16)).take g.n,
      match g.scale with | some o => x.scaleOf (granuleOf g.home g.off) o | none => 0) := by
  rw [Cmd.grains, List.getElem?_map, hi]
  refine congrArg some (Prod.ext ?_ rfl)
  simp only [hk, Option.getD_some]

/-! Writing (R201) -/

theorem writing_done {s : State} {x : Cmd} (h : x.todo = []) (k : State → Cmd → State) : writing s x k = k s x := by
  rw [writing, h]

theorem writing_next {s : State} {x : Cmd} {g : Grain} {gs : List Grain} (h : x.todo = g :: gs) (k : State → Cmd → State) :
    let run := g :: gs.takeWhile g.beside
    let n := (run.map (·.n)).sum
    let y := x.begin_ (gs.dropWhile g.beside) (x.out.drop n)
    let t := (putGrains run (x.out.take n) s).learn (dieOf g.home) x.dep
    let refused := s.anyPoison (writePlace s g.home (g.off - g.off % 16)) 16
    (refused = true → writing s x k = failCmd s x (.memPoison, g.addr - g.off % 16)) ∧
    (refused = false → writing s x k = if y.todo = [] then k t y else t.setCmd y) := by
  intro run n y t refused
  have hn : run.foldl (fun n h => n + h.n) 0 = n := by rw [← List.foldl_map, ← List.sum_eq_foldl]
  unfold writing
  rw [h]
  dsimp only
  refine ⟨fun hr => if_pos hr, fun hr => ?_⟩
  rw [if_neg (Bool.eq_false_iff.1 hr), hn]
  change (if y.todo.isEmpty then k t y else t.setCmd y) = _
  cases y.todo <;> rfl

/-- A grain with nothing to write leaves the state. -/
theorem putGrain_blank {g : Grain} {bs : List (Option Byte)} (h : (bs.take g.n).all Option.isNone = true) (s : State) :
    putGrain g bs s = s := by
  have hb : ∀ i ∈ List.range g.n, bs.getD i none = none := fun i hi => by
    rw [List.getD_eq_getElem?_getD]
    cases hx : bs[i]? with
    | none => rfl
    | some b =>
      have := List.all_eq_true.1 h b (List.mem_of_getElem? ((List.getElem?_take_of_lt (List.mem_range.1 hi)).trans hx))
      exact Option.isNone_iff_eq_none.1 this
  rw [putGrain]
  generalize List.range g.n = l at hb
  induction l with
  | nil => rfl
  | cons i l ih =>
    rw [List.foldl_cons, hb i List.mem_cons_self]
    exact ih fun j hj => hb j (List.mem_cons_of_mem _ hj)

theorem putGrains_skipBlank (gs : List Grain) (bs : List (Option Byte)) (s : State) :
    putGrains (skipBlank gs bs).1 (skipBlank gs bs).2 s = putGrains gs bs s := by
  induction gs generalizing bs with
  | nil => rfl
  | cons g gs ih =>
    rw [skipBlank]
    split
    · rename_i h; rw [ih, putGrains, putGrain_blank h]
    · rfl

theorem skipBlank_nil (gs : List Grain) : (skipBlank gs []).1 = [] := by
  induction gs with
  | nil => rfl
  | cons g gs ih => rw [skipBlank, List.take_nil, if_pos (List.all_nil ..), List.drop_nil]; exact ih

theorem skipBlank_of_any {g : Grain} {gs : List Grain} {bs : List (Option Byte)}
    (h : (bs.take g.n).any Option.isSome = true) : skipBlank (g :: gs) bs = (g :: gs, bs) := by
  rw [skipBlank, if_neg]
  intro hall
  obtain ⟨b, hb, hs⟩ := List.any_eq_true.1 h
  have := List.all_eq_true.1 hall b hb
  cases b
  · cases hs
  · cases this

/-! The bytes of a grain written -/

theorem store_byte (s : State) (p : Nat) (b : Byte) : s.store false p [b] = s.storeNum false p 1 b.toNat := by
  have hb : leBytes 1 b.toNat = [b] := by simp only [leBytes, BitVec.ofNat_toNat, BitVec.setWidth_eq]
  rw [State.storeNum, hb]

/-- A byte stored leaves every core's buffer descriptors. -/
theorem storeNum_bufs (s : State) (takes : Bool) (q n v u : Nat) : ((s.storeNum takes q n v).core u).bufs = (s.core u).bufs := by
  obtain ⟨l, hl⟩ := Core.uncounted_eq ((apart_uncounted u).storeNum s takes q n v)
  rw [hl]

theorem writePlace_congr {s t : State} (h : ∀ u, (t.core u).bufs = (s.core u).bufs) (u o : Nat) :
    writePlace t u o = writePlace s u o := by rw [writePlace, writePlace, h]

/-- One byte of a grain written, if there is one to write. -/
def putByte (g : Grain) (bs : List (Option Byte)) (s : State) (i : Nat) : State :=
  match bs.getD i none with
  | some b => s.store false (writePlace s g.home g.off + i) [b]
  | none => s

theorem putGrain_eq (g : Grain) (bs : List (Option Byte)) (s : State) : putGrain g bs s = (List.range g.n).foldl (putByte g bs) s :=
  rfl

/-- What a byte of a grain leaves: the form of memory, the buffers, and every byte but its own. -/
theorem putByte_spec {s : State} (h : s.Canonical) (g : Grain) (bs : List (Option Byte)) (i : Nat) :
    let t := putByte g bs s i
    let p := writePlace s g.home g.off + i
    t.Canonical ∧ (∀ u, (t.core u).bufs = (s.core u).bufs) ∧ t.byte p = (bs.getD i none).getD (s.byte p) ∧
      ∀ r, r ≠ p → t.byte r = s.byte r := by
  intro t p
  cases hb : bs.getD i none with
  | none =>
    have ht : t = s := by simp only [t, putByte, hb]
    rw [ht]
    exact ⟨h, fun _ => rfl, rfl, fun _ _ => rfl⟩
  | some b =>
    have ht : t = s.storeNum false p 1 b.toNat := by simp only [t, putByte, hb, store_byte]; rfl
    obtain ⟨hframe, -⟩ := storeNum_frame h false p 1 b.toNat
    have hbyte : (s.storeNum false p 1 b.toNat).byte p = b :=
      (byte_storeNum h false p 1 b.toNat Nat.one_pos).trans (by rw [pow_zero, Nat.div_one, ofNat_toNat_self])
    rw [ht]
    exact ⟨canonical_storeNum h _ _ _ _, storeNum_bufs s _ _ _ _, hbyte, fun r hr => hframe r (by unfold Outside; omega)⟩

/-- The first `n` bytes of a grain written. -/
theorem putBytes_spec {s : State} (h : s.Canonical) (g : Grain) (bs : List (Option Byte)) (n : Nat) :
    let t := (List.range n).foldl (putByte g bs) s
    let first := writePlace s g.home g.off
    t.Canonical ∧ (∀ u, (t.core u).bufs = (s.core u).bufs) ∧
      (∀ i < n, t.byte (first + i) = (bs.getD i none).getD (s.byte (first + i))) ∧
      ∀ r, Outside first n r → t.byte r = s.byte r := by
  intro t first
  induction n with
  | zero => exact ⟨h, fun _ => rfl, fun i hi => absurd hi (Nat.not_lt_zero i), fun _ _ => rfl⟩
  | succ n ih =>
    obtain ⟨hc, hbufs, hin, hout⟩ := ih
    generalize hu : (List.range n).foldl (putByte g bs) s = u at hc hbufs hin hout
    have ht : t = putByte g bs u n := by simp only [t, List.range_succ, List.foldl_append, hu, List.foldl_cons, List.foldl_nil]
    obtain ⟨hc', hbufs', hself, hrest⟩ := putByte_spec hc g bs n
    rw [writePlace_congr hbufs] at hself hrest
    rw [ht]
    refine ⟨hc', fun v => (hbufs' v).trans (hbufs v), fun i hi => ?_, fun r hr => ?_⟩
    · rcases Nat.lt_succ_iff_lt_or_eq.1 hi with hn | rfl
      · rw [hrest _ (by omega), hin i hn]
      · rw [hself, hout _ (by unfold Outside; omega)]
    · unfold Outside at hr
      rw [hrest r (by omega), hout r (by unfold Outside; omega)]

end Sys2Proof.Machine
end

section
/-! What vector commands leave in the engine registers (R246, R247, R256 to R267). -/

namespace Sys2Proof.Machine

/-! Shapes (R246, R247) -/

theorem kindOf_width : ∀ n, (kindOf n).width = 8 * (typeSize n).getD 1
  | 0 | 1 | 2 | 3 | 4 | 5 | 6 | 7 | 8 | 9 | 10 => rfl
  | _ + 11 => rfl

/-- An element of a shape is as wide as its kind. -/
theorem vkind_width (v : Word) : (vkind v).width = 8 * esize v := kindOf_width _

theorem kindOf_width_pos : ∀ n, 0 < (kindOf n).width
  | 0 | 1 | 2 | 3 | 4 | 5 | 6 | 7 | 8 | 9 | 10 => by decide
  | _ + 11 => (by decide : 0 < 8)

/-- A shape that is captured has rows and columns, and fits a register (R247). -/
theorem shape_bounds {v : Word} (h : vshapeBad v.toNat = false) :
    0 < rowsOf v ∧ 0 < colsOf v ∧ esize v * (rowsOf v * colsOf v) ≤ 512 := by
  simp only [vshapeBad, Bool.or_eq_false_iff] at h
  obtain ⟨-, h⟩ := h
  rw [esize, typeOf]
  cases ht : typeSize (bits v.toNat 27 24) with
  | none => rw [ht] at h; cases h
  | some n =>
    rw [ht] at h
    simp only [Bool.or_eq_false_iff, beq_eq_false_iff_ne, decide_eq_false_iff_not, not_lt] at h
    obtain ⟨⟨⟨⟨hr, -⟩, hc⟩, -⟩, hn⟩ := h
    exact ⟨Nat.pos_of_ne_zero hr, Nat.pos_of_ne_zero hc, by rw [Option.getD_some, Nat.mul_comm]; exact hn⟩

/-- An element of a captured shape lies in its register. -/
theorem element_fits {v : Word} (h : vshapeBad v.toNat = false) {i : Nat} (hi : i < rowsOf v * colsOf v) :
    esize v * i + esize v ≤ 512 :=
  (Nat.mul_le_mul_left (esize v) hi).trans (shape_bounds h).2.2

/-- The place of an element in its row and column. -/
theorem element_lt {v : Word} {r q : Nat} (hr : r < rowsOf v) (hq : q < colsOf v) : r * colsOf v + q < rowsOf v * colsOf v := by
  have := Nat.mul_le_mul_right (colsOf v) hr
  rw [Nat.succ_mul] at this
  omega

/-! Rows of the register forms -/

/-- Only the forms that touch memory or a queue do more than write registers. -/
theorem vectorEffect_register {s : State} {x : Cmd} (h : x.row ∉ [Instr.vld, .vst, .vldd, .mld, .mst, .vpush, .vpop]) :
    vectorEffect s x = some (retireCmd (s.setCore x.unit (registerEffect (s.core x.unit) x)) x) := by
  unfold vectorEffect
  split
  case h_8 => rfl
  all_goals rename_i hr; exact absurd (by rw [hr]; decide) h

section Element
variable {c : Core} {x : Cmd} {d : Fin 16} (hd : x.ops.d = .v d)
include hd

theorem setV_v (w : BitVec 4096) : c.setV x.ops.d w = { c with v := c.v.set d w } := by rw [hd]; rfl

theorem setV_self (w : BitVec 4096) : (c.setV x.ops.d w).v[d] = w := by rw [setV_v hd]; exact Vector.getElem_set_self _

theorem fromA_v (l : List (Nat × Nat)) : (fromA c x l).v[d] = setElems c.v[d] (esize x.vshape) l := by
  rw [fromA, setV_self hd, hd]
  rfl

variable (hv : vshapeBad x.vshape.toNat = false)
include hv

/-- A command that writes every element of its tile. -/
theorem elem_of_range {f : Nat → Nat}
    (h : registerEffect c x = fromA c x ((List.range (count x.vshape)).map fun i => (i, f i))) {i : Nat}
    (hi : i < rowsOf x.vshape * colsOf x.vshape) :
    elem (registerEffect c x).v[d] (esize x.vshape) i = f i % 2 ^ (8 * esize x.vshape) := by
  rw [h, fromA_v hd, elem_setElems_range (n := count x.vshape) (shape_bounds hv).2.2]
  exact if_pos hi

/-- A command that writes one element for each `i` below `n`, each in its own place. -/
theorem elem_of_places {g f : Nat → Nat} {n : Nat} (h : registerEffect c x = fromA c x ((List.range n).map fun i => (g i, f i)))
    (hg : ∀ i < n, ∀ j < n, g i = g j → i = j) (hb : ∀ i < n, g i < rowsOf x.vshape * colsOf x.vshape) {i : Nat} (hi : i < n) :
    elem (registerEffect c x).v[d] (esize x.vshape) (g i) = f i % 2 ^ (8 * esize x.vshape) := by
  rw [h, fromA_v hd]
  exact elem_setElems_at hg hi (element_fits hv (hb i hi))

omit hv in
/-- A command that writes elements of its tile alone leaves what lies beyond the tile, and every other register (R247). -/
theorem frame_of_fromA {l : List (Nat × Nat)} (h : registerEffect c x = fromA c x l)
    (hl : ∀ p ∈ l, p.1 < rowsOf x.vshape * colsOf x.vshape) :
    (∀ i, rowsOf x.vshape * colsOf x.vshape * esize x.vshape ≤ i → i < 512 →
      elem (registerEffect c x).v[d] 1 i = elem c.v[d] 1 i) ∧
    (∀ e : Fin 16, e ≠ d → (registerEffect c x).v[e] = c.v[e]) ∧ (registerEffect c x).m = c.m ∧ (registerEffect c x).t = c.t := by
  rw [h]
  refine ⟨fun i hi _ => ?_, fun e he => ?_, ?_, ?_⟩
  · rw [fromA_v hd]
    refine elem_setElems_above (m := rowsOf x.vshape * colsOf x.vshape * esize x.vshape) (fun p hp => ?_) (by omega)
    rw [Nat.mul_comm _ (esize _)]
    exact Nat.mul_le_mul_left (esize x.vshape) (hl p hp)
  · rw [fromA, setV_v hd]
    exact Vector.getElem_set_ne d.isLt e.isLt fun hde => he (Fin.ext hde.symm)
  · rw [fromA, setV_v hd]
  · rw [fromA, setV_v hd]

end Element

/-! What each row computes -/

section Row
variable {c : Core} {x : Cmd}

/-- The rows of R257, each with its operation. -/
theorem registerEffect_op : ∀ p ∈ [(Instr.vadd, VOp.add), (.vsub, .sub), (.vmul, .mul), (.vdiv, .div), (.vfma, .fma),
    (.vmin, .min), (.vmax, .max), (.vabs, .abs), (.vneg, .neg), (.vrcp, .rcp), (.vrsq, .rsq), (.vexp2, .exp2)],
    x.row = p.1 → registerEffect c x = elementwise c x fun d a b => p.2.apply (vkind x.vshape) d a b := by
  simp only [List.forall_mem_cons]
  refine ⟨?_, ?_, ?_, ?_, ?_, ?_, ?_, ?_, ?_, ?_, ?_, ?_, List.forall_mem_nil _⟩
  all_goals intro h; rw [registerEffect, h]

/-- The rows of R259, each with its condition. -/
theorem registerEffect_cmp : ∀ p ∈ [(Instr.vceq, VCmp.eq), (.vcne, .ne), (.vclt, .lt), (.vcle, .le)],
    x.row = p.1 → registerEffect c x = compareAll c x p.2 := by
  simp only [List.forall_mem_cons]
  refine ⟨?_, ?_, ?_, ?_, List.forall_mem_nil _⟩
  all_goals intro h; rw [registerEffect, h]

end Row

/-- Every element of D whose row writes it from the elements of A and B and of D (R257, R258, R260). -/
theorem elementwise_results (c : Core) (x : Cmd) (d : Fin 16) (hd : x.ops.d = .v d) (hv : vshapeBad x.vshape.toNat = false) :
    let n := rowsOf x.vshape * colsOf x.vshape
    let z := esize x.vshape
    let k := vkind x.vshape
    let a := source c x.ops.a x.sa z
    let b := source c x.ops.b x.sb z
    let old := elem c.v[d] z
    let new := (registerEffect c x).v[d]
    let all := fun f : Nat → Nat => ∀ i < n, elem new z i = f i % 2 ^ (8 * z)
    (∀ p ∈ [(Instr.vadd, VOp.add), (.vsub, .sub), (.vmul, .mul), (.vdiv, .div), (.vfma, .fma), (.vmin, .min), (.vmax, .max),
      (.vabs, .abs), (.vneg, .neg), (.vrcp, .rcp), (.vrsq, .rsq), (.vexp2, .exp2)],
      x.row = p.1 → all fun i => p.2.apply k (old i) (a i) (b i)) ∧
    (x.row = .vand → all fun i => a i &&& b i) ∧ (x.row = .vor → all fun i => a i ||| b i) ∧
    (x.row = .vxor → all fun i => a i ^^^ b i) ∧ (x.row = .vnot → all fun i => 2 ^ (8 * z) - 1 - a i) ∧
    (x.row = .vsel → all fun i => if (c.m[mselOf x.vshape]).getLsbD i then a i else b i) ∧
    (x.row = .vshl → all fun i => (BitVec.ofNat k.width (a i) <<< b i).toNat) ∧
    (x.row = .vshr → all fun i => (BitVec.ofNat k.width (a i) >>> b i).toNat) ∧
    (x.row = .vsar → all fun i => ((BitVec.ofNat k.width (a i)).sshiftRight (b i)).toNat) ∧
    (x.row = .vbcast → all fun _ => x.sa.toNat) := by
  intro n z k a b old new all
  have hw : k.width = 8 * z := vkind_width _
  have hpos : 0 < k.width := kindOf_width_pos _
  have helem : ∀ f : Nat → Nat → Nat → Nat, registerEffect c x = elementwise c x f → all fun i => f (old i) (a i) (b i) :=
    fun f h i hi => elem_of_range hd hv (f := fun i => f (old i) (a i) (b i)) (by rw [h, elementwise, fromA, hd]; rfl) hi
  refine ⟨fun p hp h => helem _ (registerEffect_op p hp h), ?_, ?_, ?_, ?_, ?_, ?_, ?_, ?_, ?_⟩
  · exact fun h => helem (fun _ a b => a &&& b) (by rw [registerEffect, h])
  · exact fun h => helem (fun _ a b => a ||| b) (by rw [registerEffect, h])
  · exact fun h => helem (fun _ a b => a ^^^ b) (by rw [registerEffect, h])
  · exact fun h => helem (fun _ a _ => 2 ^ (8 * z) - 1 - a) (by rw [registerEffect, h, ← hw])
  · exact fun h i hi => elem_of_range hd hv (c := c) (f := fun i => if (c.m[mselOf x.vshape]).getLsbD i then a i else b i)
      (by rw [registerEffect, h]) hi
  · intro h
    simp only [← shiftLeft_eq]
    exact helem (fun _ a b => shiftLeft k.width a b) (by rw [registerEffect, h])
  · intro h
    simp only [← shiftRight_eq]
    exact helem (fun _ a b => shiftRight k.width a b) (by rw [registerEffect, h])
  · intro h
    simp only [← shiftArith_eq hpos]
    exact helem (fun _ a b => shiftArith k.width a b) (by rw [registerEffect, h])
  · exact fun h i hi => elem_of_range hd hv (f := fun _ => x.sa.toNat) (by rw [registerEffect, h]) hi

/-- The place that `vtrn` moves an element to (R266). -/
def transposed (v : Word) (i : Nat) : Nat := i % colsOf v * rowsOf v + i / colsOf v

theorem transposed_row_col {v : Word} {r q : Nat} (hq : q < colsOf v) : transposed v (r * colsOf v + q) = q * rowsOf v + r := by
  rw [transposed, Nat.mul_add_mod_of_lt hq, Nat.add_comm (r * colsOf v), Nat.add_mul_div_right _ _ (by omega),
    Nat.div_eq_of_lt hq, Nat.zero_add]

theorem transposed_lt {v : Word} {i : Nat} (hi : i < rowsOf v * colsOf v) : transposed v i < rowsOf v * colsOf v := by
  have hc : 0 < colsOf v := Nat.pos_of_ne_zero fun h => by rw [h, Nat.mul_zero] at hi; exact absurd hi (Nat.not_lt_zero i)
  have hr : i / colsOf v < rowsOf v := Nat.div_lt_of_lt_mul (by rw [Nat.mul_comm]; exact hi)
  have := Nat.mul_le_mul_right (rowsOf v) (Nat.mod_lt i hc)
  rw [Nat.succ_mul, Nat.mul_comm (colsOf v)] at this
  rw [transposed]
  omega

/-- No two elements are moved to one place. -/
theorem transposed_inj {v : Word} {i j : Nat} (hi : i < rowsOf v * colsOf v) (hj : j < rowsOf v * colsOf v)
    (h : transposed v i = transposed v j) : i = j := by
  have hri : i / colsOf v < rowsOf v := Nat.div_lt_of_lt_mul (by rw [Nat.mul_comm]; exact hi)
  have hrj : j / colsOf v < rowsOf v := Nat.div_lt_of_lt_mul (by rw [Nat.mul_comm]; exact hj)
  have hpos : 0 < rowsOf v := Nat.zero_lt_of_lt hri
  have hmod := congrArg (· % rowsOf v) h
  have hdiv := congrArg (· / rowsOf v) h
  simp only [transposed, Nat.mul_add_mod_self_right, Nat.mod_eq_of_lt hri, Nat.mod_eq_of_lt hrj] at hmod
  simp only [transposed, Nat.add_comm (_ * rowsOf v), Nat.add_mul_div_right _ _ hpos, Nat.div_eq_of_lt hri,
    Nat.div_eq_of_lt hrj, Nat.zero_add] at hdiv
  rw [← Nat.div_add_mod i (colsOf v), ← Nat.div_add_mod j (colsOf v), hmod, hdiv]

/-- The first place of a row. -/
theorem rowStart_inj {v : Word} (hc : 0 < colsOf v) {r q : Nat} (h : r * colsOf v = q * colsOf v) : r = q :=
  Nat.eq_of_mul_eq_mul_right hc h

theorem rowElems_eq {c : Core} {x : Cmd} {j : Fin 16} (ha : x.ops.a = .v j) (r : Nat) : rowElems c x r =
    (List.range (colsOf x.vshape)).map fun q => elem c.v[j] (esize x.vshape) (r * colsOf x.vshape + q) := by
  rw [rowElems, ha]
  rfl

/-- The rows whose elements come from places of A (R260, R261, R265, R266). -/
theorem fromA_results (c : Core) (x : Cmd) (d : Fin 16) (hd : x.ops.d = .v d) (hv : vshapeBad x.vshape.toNat = false)
    (j : Fin 16) (ha : x.ops.a = .v j) :
    let n := rowsOf x.vshape * colsOf x.vshape
    let z := esize x.vshape
    let k := vkind x.vshape
    let old := elem c.v[d] z
    let new := (registerEffect c x).v[d]
    let all := fun f : Nat → Nat => ∀ i < n, elem new z i = f i % 2 ^ (8 * z)
    let from_ := elem c.v[j]
    let row := fun r => (List.range (colsOf x.vshape)).map fun q => from_ z (r * colsOf x.vshape + q)
    (x.row = .vmov → new = c.v[j]) ∧
    (x.row = .vcvt → ∀ m, typeSize x.sb.toNat = some m → all fun i => convertT (kindOf x.sb.toNat) k (from_ m i)) ∧
    (x.row = .vrsum → ∀ r < rowsOf x.vshape, elem new z (r * colsOf x.vshape) = rowSum k (row r) % 2 ^ (8 * z)) ∧
    (x.row = .vrmax → ∀ r < rowsOf x.vshape, elem new z (r * colsOf x.vshape) = rowMax k (row r) % 2 ^ (8 * z)) ∧
    (x.row = .vrsum ∨ x.row = .vrmax → ∀ i < n, i % colsOf x.vshape ≠ 0 → elem new z i = old i) ∧
    (x.row = .vtrn → ∀ r < rowsOf x.vshape, ∀ q < colsOf x.vshape,
      elem new z (q * rowsOf x.vshape + r) = from_ z (r * colsOf x.vshape + q)) ∧
    (∀ l : Fin 16, x.row = .vshf → x.ops.b = .v l →
      all fun i => if elem c.v[l] 2 i < n then from_ z (elem c.v[l] 2 i) else 0) := by
  intro n z k old new all from_ row
  obtain ⟨-, hcols, -⟩ := shape_bounds hv
  have hrow : ∀ f : Nat → Nat, registerEffect c x = fromA c x ((List.range (rowsOf x.vshape)).map fun r => (r * colsOf x.vshape, f r)) →
      ∀ r < rowsOf x.vshape, elem new z (r * colsOf x.vshape) = f r % 2 ^ (8 * z) := fun f h r hr =>
    elem_of_places hd hv (g := fun r => r * colsOf x.vshape) h (fun _ _ _ _ => rowStart_inj hcols)
      (fun r hr => element_lt (q := 0) hr hcols) hr
  refine ⟨fun h => ?_, fun h m hm => ?_, fun h => hrow (fun r => rowSum k (row r)) ?_, fun h => hrow (fun r => rowMax k (row r)) ?_,
    fun h i hi hne => ?_, fun h r hr q hq => ?_, fun l h hb => ?_⟩
  · have he : registerEffect c x = c.setV x.ops.d (vreg c x.ops.a) := by rw [registerEffect, h]
    change (registerEffect c x).v[d] = _
    rw [he, setV_self hd, ha]
    rfl
  · exact fun i hi => elem_of_range hd hv (f := fun i => convertT (kindOf x.sb.toNat) k (from_ m i))
      (by rw [registerEffect, h, ha]; dsimp only; rw [hm]; rfl) hi
  · simp only [registerEffect, h, rowElems_eq ha]
    rfl
  · simp only [registerEffect, h, rowElems_eq ha]
    rfl
  · have he : ∃ f : Nat → Nat, registerEffect c x = fromA c x ((List.range (rowsOf x.vshape)).map fun r => (r * colsOf x.vshape, f r)) := by
      rcases h with h | h
      · exact ⟨_, by rw [registerEffect, h]⟩
      · exact ⟨_, by rw [registerEffect, h]⟩
    obtain ⟨f, he⟩ := he
    change elem (registerEffect c x).v[d] z i = _
    rw [he, fromA_v hd]
    refine elem_setElems_of_ne fun p hp hpi => hne ?_
    obtain ⟨r, -, rfl⟩ := List.mem_map.1 hp
    rw [← hpi, Nat.mul_mod_left]
  · have hi : r * colsOf x.vshape + q < n := element_lt hr hq
    have := elem_of_places hd hv (c := c) (g := transposed x.vshape) (f := from_ z) (n := n)
      (by rw [registerEffect, h, ha]; rfl) (fun i hi j hj => transposed_inj hi hj) (fun i hi => transposed_lt hi) hi
    rw [transposed_row_col hq, Nat.mod_eq_of_lt (elem_lt _ _ _)] at this
    exact this
  · exact fun i hi => elem_of_range hd hv (f := fun i => if elem c.v[l] 2 i < n then from_ z (elem c.v[l] 2 i) else 0)
      (by rw [registerEffect, h, ha, hb]; rfl) hi

/-- A row that writes the elements of its tile, or some of them. -/
def WritesTile (c : Core) (x : Cmd) : Prop :=
  ∃ l, registerEffect c x = fromA c x l ∧ ∀ p ∈ l, p.1 < rowsOf x.vshape * colsOf x.vshape

theorem WritesTile.range {c : Core} {x : Cmd} (f : Nat → Nat)
    (h : registerEffect c x = fromA c x ((List.range (count x.vshape)).map fun i => (i, f i))) : WritesTile c x :=
  ⟨_, h, fun p hp => by obtain ⟨i, hi, rfl⟩ := List.mem_map.1 hp; exact List.mem_range.1 hi⟩

theorem WritesTile.rows {c : Core} {x : Cmd} (hc : 0 < colsOf x.vshape) (f : Nat → Nat)
    (h : registerEffect c x = fromA c x ((List.range (rowsOf x.vshape)).map fun r => (r * colsOf x.vshape, f r))) : WritesTile c x :=
  ⟨_, h, fun p hp => by
    obtain ⟨r, hr, rfl⟩ := List.mem_map.1 hp
    exact element_lt (q := 0) (List.mem_range.1 hr) hc⟩

theorem writesTile {c : Core} {x : Cmd} (hc : 0 < colsOf x.vshape) : ∀ i ∈ [Instr.vadd, .vsub, .vmul, .vdiv, .vfma, .vmin,
    .vmax, .vabs, .vneg, .vrcp, .vrsq, .vexp2, .vand, .vor, .vxor, .vnot, .vsel, .vbcast, .vshl, .vshr, .vsar, .vcvt, .vrsum,
    .vrmax, .vtrn, .vshf], x.row = i → WritesTile c x := by
  simp only [List.forall_mem_cons]
  refine ⟨?_, ?_, ?_, ?_, ?_, ?_, ?_, ?_, ?_, ?_, ?_, ?_, ?_, ?_, ?_, ?_, ?_, ?_, ?_, ?_, ?_, ?_, ?_, ?_, ?_, ?_,
    List.forall_mem_nil _⟩
  case refine_23 | refine_24 => intro h; exact .rows hc _ (by rw [registerEffect, h])
  case refine_25 =>
    intro h
    refine ⟨_, by rw [registerEffect, h], fun p hp => ?_⟩
    obtain ⟨i, hi, rfl⟩ := List.mem_map.1 hp
    exact transposed_lt (List.mem_range.1 hi)
  case refine_17 | refine_18 | refine_22 | refine_26 => intro h; exact .range _ (by rw [registerEffect, h])
  all_goals intro h; exact .range _ ((by rw [registerEffect, h] : registerEffect c x = elementwise c x _).trans rfl)

/-! Sums, maxima and elements of integer types (R257, R259, R265) -/

theorem greater_spec {g : Bool} {w a b : Nat} (ha : a < 2 ^ w) (hb : b < 2 ^ w) : (greater g w a b = a ∨ greater g w a b = b) ∧
    val g w a ≤ val g w (greater g w a b) ∧ val g w b ≤ val g w (greater g w a b) := by
  rw [greater, Nat.mod_eq_of_lt ha, Nat.mod_eq_of_lt hb]
  split
  · rename_i h; exact ⟨.inr rfl, le_of_lt h, le_refl _⟩
  · rename_i h; exact ⟨.inl rfl, le_refl _, not_lt.1 h⟩

/-- The largest of a row of integers is one of them, and none is above it. -/
theorem foldl_greater_spec {g : Bool} {w : Nat} (l : List Nat) : ∀ a, (∀ y ∈ a :: l, y < 2 ^ w) →
    l.foldl (greater g w) a ∈ a :: l ∧ ∀ y ∈ a :: l, val g w y ≤ val g w (l.foldl (greater g w) a) := by
  induction l with
  | nil => exact fun a _ => ⟨List.mem_cons_self, fun y hy => by rw [List.mem_singleton.1 hy]; exact le_refl _⟩
  | cons b l ih =>
    intro a h
    simp only [List.forall_mem_cons] at h
    obtain ⟨ha, hb, hl⟩ := h
    obtain ⟨hor, hale, hble⟩ := greater_spec (g := g) ha hb
    have hm : greater g w a b < 2 ^ w := by rcases hor with e | e <;> rw [e] <;> assumption
    obtain ⟨hmem, hmax⟩ := ih (greater g w a b) (List.forall_mem_cons.2 ⟨hm, hl⟩)
    obtain ⟨htop, hrest⟩ := List.forall_mem_cons.1 hmax
    rw [List.foldl_cons]
    refine ⟨?_, List.forall_mem_cons.2 ⟨hale.trans htop, List.forall_mem_cons.2 ⟨hble.trans htop, hrest⟩⟩⟩
    rcases List.mem_cons.1 hmem with e | hin
    · rw [e]
      rcases hor with e | e <;> rw [e] <;> simp
    · exact List.mem_cons_of_mem _ (List.mem_cons_of_mem _ hin)

theorem rowSum_int (g : Bool) (w : Nat) (l : List Nat) : rowSum (.int g w) l = l.sum % 2 ^ w := by
  rw [rowSum, ← List.sum_eq_foldl]

section Integers
variable {w : Nat} (hw : 0 < w)
include hw

/-- An element read under its type, as the number that its bits are. -/
theorem val_bitVec (g : Bool) (a : BitVec w) : val g w a.toNat = if g then a.toInt else (a.toNat : Int) := by
  cases g
  · rw [val, if_neg Bool.false_ne_true, if_neg Bool.false_ne_true, Nat.mod_eq_of_lt a.isLt]
  · rw [val, if_pos rfl, if_pos rfl, sgn_eq_toInt hw, ofNat_toNat_self]

theorem val_lt_bitVec (g : Bool) (a b : BitVec w) :
    val g w a.toNat < val g w b.toNat ↔ if g then a.toInt < b.toInt else a < b := by
  rw [val_bitVec hw, val_bitVec hw]
  cases g
  · exact Int.ofNat_lt
  · exact Iff.rfl

theorem val_eq_bitVec (g : Bool) (a b : BitVec w) : val g w a.toNat = val g w b.toNat ↔ a = b := by
  rw [val_bitVec hw, val_bitVec hw]
  cases g
  · exact Int.ofNat_inj.trans BitVec.toNat_inj
  · exact BitVec.toInt_inj

theorem lesser_bitVec (g : Bool) (a b : BitVec w) :
    lesser g w a.toNat b.toNat = (if (if g then b.toInt < a.toInt else b < a) then b else a).toNat := by
  simp only [lesser, val_lt_bitVec hw, Nat.mod_eq_of_lt a.isLt, Nat.mod_eq_of_lt b.isLt, apply_ite BitVec.toNat]

theorem greater_bitVec (g : Bool) (a b : BitVec w) :
    greater g w a.toNat b.toNat = (if (if g then a.toInt < b.toInt else a < b) then b else a).toNat := by
  simp only [greater, val_lt_bitVec hw, Nat.mod_eq_of_lt a.isLt, Nat.mod_eq_of_lt b.isLt, apply_ite BitVec.toNat]

theorem quotient_bitVec (g : Bool) (a b : BitVec w) : quotient g w a.toNat b.toNat =
    (if b = 0 then BitVec.allOnes w else if g then a.sdiv b else a / b).toNat := by
  have hz : b.toNat = 0 ↔ b = 0 := by rw [← BitVec.toNat_inj]; rfl
  rw [quotient, Nat.mod_eq_of_lt b.isLt]
  by_cases hb : b = 0
  · rw [if_pos hb, if_pos (hz.2 hb), BitVec.toNat_allOnes]
  · rw [if_neg hb, if_neg (mt hz.1 hb), val_bitVec hw, val_bitVec hw, wrap_eq]
    cases g
    · simp only [Bool.false_eq_true, if_false]
      rw [← Int.ofNat_tdiv, BitVec.ofInt_natCast, ← BitVec.toNat_udiv, ofNat_toNat_self]
    · simp only [if_true]
      exact congrArg BitVec.toNat (BitVec.eq_of_toInt_eq (by rw [BitVec.toInt_ofInt, BitVec.toInt_sdiv]))

theorem abs_bitVec (g : Bool) (a : BitVec w) : (if g then wrap w (sgn w a.toNat).natAbs else a.toNat % 2 ^ w) =
    (if g ∧ a.toInt < 0 then -a else a).toNat := by
  cases g
  · simp [Nat.mod_eq_of_lt a.isLt]
  · rw [if_pos rfl, sgn_eq_toInt hw, ofNat_toNat_self, wrap_eq]
    by_cases h : a.toInt < 0
    · rw [if_pos ⟨rfl, h⟩, Int.ofNat_natAbs_of_nonpos h.le, BitVec.ofInt_neg, BitVec.ofInt_toInt]
    · rw [if_neg fun c => h c.2, Int.natAbs_of_nonneg (not_lt.1 h), BitVec.ofInt_toInt]

end Integers

end Sys2Proof.Machine
end

section
/-! Vector commands as they complete: forms that touch memory or a queue, and what loads leave and stores write (R186, R247, R255,
R262 to R264, R267). -/

namespace Sys2Proof.Machine

/-! Queues (R255, R264) -/

section Queue
variable {s : State} {x : Cmd} {i : Fin 8} {j : Fin 16}

theorem vectorEffect_vpush (hr : x.row = .vpush) (hd : x.ops.d = .q i) (ha : x.ops.a = .v j) :
    let w := BitVec.ofNat 64 (elem (s.core x.unit).v[j] (esize x.vshape) x.sb.toNat)
    (x.present s = false → vectorEffect s x = some (retireCmd s x)) ∧
    (x.present s = true → (s.core x.unit).roomFor i = false → vectorEffect s x = none) ∧
    (x.present s = true → (s.core x.unit).roomFor i = true →
      vectorEffect s x = some (retireCmd (s.modCore x.unit fun c => c.enqueue i x.slot (.word w)) x)) := by
  intro w
  simp only [vectorEffect, hr, hd, ha, vreg]
  refine ⟨fun hp => by simp [hp], fun hp hroom => by simp [hp, hroom], fun hp hroom => ?_⟩
  simp only [hp, hroom, Bool.not_true, Bool.false_eq_true, if_false, if_true, appendEntry]
  rfl

theorem vectorEffect_vpop (hr : x.row = .vpop) (ha : x.ops.a = .q i) (hd : x.ops.d = .v j) :
    let c := s.core x.unit
    (x.present s = false → vectorEffect s x = some (retireCmd s x)) ∧
    (x.present s = true →
      (takeEntry i x.slot c.qs = none → vectorEffect s x = none) ∧
      (∀ e a r b l, takeEntry i x.slot c.qs = some (.failure e a r b, l) →
        vectorEffect s x = some (failCmd (s.setCore x.unit { c with qs := l }) x (e, a.toNat))) ∧
      (∀ w l, takeEntry i x.slot c.qs = some (.word w, l) → vectorEffect s x = some (retireCmd (s.setCore x.unit
        { c with qs := l, v := c.v.set j (setElem c.v[j] (esize x.vshape) x.sb.toNat w.toNat) }) x))) := by
  intro c
  simp only [vectorEffect, hr, ha, hd, vreg]
  refine ⟨fun hp => by simp [hp], fun hp => ?_⟩
  simp only [hp, Bool.not_true, Bool.false_eq_true, if_false]
  refine ⟨fun h => ?_, fun e a r b l h => ?_, fun w l h => ?_⟩
  · rw [h]
  · rw [h]
  · rw [h]; rfl

end Queue

/-! Registers loaded and stored (R262, R263, R267) -/

section Loaded
variable (c : Core) {x : Cmd} {d : Fin 16} (hd : x.ops.d = .v d) (hv : vshapeBad x.vshape.toNat = false)
include hd

theorem loadedInto_vld (hr : x.row = .vld) : loadedInto c x = c.setV x.ops.d (setElems c.v[d] 1
    ((List.range (bytesOf (x.grains x.memA)).length).map fun i => (i, ((bytesOf (x.grains x.memA)).getD i 0).toNat))) := by
  rw [loadedInto, hr, hd]
  rfl

theorem loadedInto_vldd (hr : x.row = .vldd) : loadedInto c x = c.setV x.ops.d (setElems c.v[d] (esize x.vshape)
    ((List.range (x.grains x.memA).length).map fun i => (i, decodeTo ((x.rows.getD (i / colsOf x.vshape) 0).setWidth 8)
      (vkind x.vshape) ((x.grains x.memA).getD i ([], 0))))) := by
  rw [loadedInto, hr, hd]
  rfl

/-- Both loads write D alone. -/
theorem loadedInto_frame (hr : x.row = .vld ∨ x.row = .vldd) :
    loadedInto c x = { c with v := c.v.set d (loadedInto c x).v[d] } := by
  obtain ⟨w, hw⟩ : ∃ w, loadedInto c x = c.setV x.ops.d w := by
    rcases hr with hr | hr
    · exact ⟨_, loadedInto_vld c hd hr⟩
    · exact ⟨_, loadedInto_vldd c hd hr⟩
  rw [hw, setV_self hd, setV_v hd]

theorem elem_loadedInto_vld (hr : x.row = .vld) (hb : (bytesOf (x.grains x.memA)).length ≤ 512) (i : Nat) :
    elem (loadedInto c x).v[d] 1 i = if i < (bytesOf (x.grains x.memA)).length then
      ((bytesOf (x.grains x.memA)).getD i 0).toNat else elem c.v[d] 1 i := by
  rw [loadedInto_vld c hd hr, setV_self hd, elem_setElems_range (by omega)]
  split
  · exact Nat.mod_eq_of_lt (BitVec.isLt _)
  · rfl

include hv in
theorem elem_loadedInto_vldd (hr : x.row = .vldd) (hl : (x.grains x.memA).length ≤ rowsOf x.vshape * colsOf x.vshape) (i : Nat) :
    elem (loadedInto c x).v[d] (esize x.vshape) i = if i < (x.grains x.memA).length then
      decodeTo ((x.rows.getD (i / colsOf x.vshape) 0).setWidth 8) (vkind x.vshape) ((x.grains x.memA).getD i ([], 0)) %
        2 ^ (8 * esize x.vshape)
      else elem c.v[d] (esize x.vshape) i := by
  rw [loadedInto_vldd c hd hr, setV_self hd, elem_setElems_range ((Nat.mul_le_mul_left _ hl).trans (shape_bounds hv).2.2)]

include hv in
/-- The bytes that `vst` writes: with MEN, those of the elements whose MSEL bit is set (R262). -/
theorem storedBytes_spec : (storedBytes c x).length = rowsOf x.vshape * colsOf x.vshape * esize x.vshape ∧
    ∀ i < rowsOf x.vshape * colsOf x.vshape * esize x.vshape, (storedBytes c x)[i]? = some
      (if x.vshape.getLsbD 31 = true ∧ (c.m[mselOf x.vshape]).getLsbD (i / esize x.vshape) = false then none
        else some (c.v[d].extractLsb' (8 * i) 8)) := by
  refine ⟨by rw [storedBytes, List.length_map, List.length_range]; rfl, fun i hi => ?_⟩
  have hfit : i < 512 := hi.trans_le (by rw [Nat.mul_comm]; exact (shape_bounds hv).2.2)
  have hbyte : (leBytes 512 (vreg c x.ops.d).toNat).getD i 0 = c.v[d].extractLsb' (8 * i) 8 := by
    rw [hd, List.getD_eq_getElem?_getD]
    exact congrArg (Option.getD · 0) (leBytes_toNat_getElem? c.v[d] hfit)
  have hbit : bit x.vshape.toNat 31 = x.vshape.getLsbD 31 := bit_eq_testBit _ _
  rw [storedBytes, List.getElem?_map, List.getElem?_range (n := count x.vshape * esize x.vshape) hi, Option.map_some, hbyte, hbit]
  simp only [Bool.and_eq_true, Bool.not_eq_true']

end Loaded

section Mask
variable (c : Core) {x : Cmd} {d : Fin 8} (hd : x.ops.d = .m d)
include hd

theorem setM_m (w : BitVec 512) : c.setM x.ops.d w = { c with m := c.m.set d w } := by rw [hd]; rfl

theorem setM_self (w : BitVec 512) : (c.setM x.ops.d w).m[d] = w := by rw [setM_m c hd]; exact Vector.getElem_set_self _

omit hd in
theorem loadedInto_mld (hr : x.row = .mld) :
    loadedInto c x = c.setM x.ops.d (BitVec.ofNat 512 (leNat (bytesOf (x.grains x.memA)))) := by rw [loadedInto, hr]

theorem mld_spec (hr : x.row = .mld) : loadedInto c x = { c with m := c.m.set d (loadedInto c x).m[d] } ∧
    ∀ i < 64, ((loadedInto c x).m[d]).extractLsb' (8 * i) 8 = (bytesOf (x.grains x.memA)).getD i 0 := by
  rw [loadedInto_mld c hr, setM_self c hd, setM_m c hd]
  exact ⟨rfl, fun i hi => extract_ofNat_leNat _ (by omega)⟩

theorem compare_bits {p : Instr × VCmp} (hp : p ∈ [(Instr.vceq, VCmp.eq), (.vcne, .ne), (.vclt, .lt), (.vcle, .le)])
    (hr : x.row = p.1) {i : Nat} (hi : i < 512) : ((registerEffect c x).m[d]).getLsbD i =
      (decide (i < rowsOf x.vshape * colsOf x.vshape) && p.2.holds (vkind x.vshape)
        (source c x.ops.a x.sa (esize x.vshape) i) (source c x.ops.b x.sb (esize x.vshape) i)) := by
  rw [registerEffect_cmp p hp hr, compareAll, setM_self c hd, getLsbD_maskOf _ _ hi]
  rfl

theorem masks_results {i j : Fin 8} (ha : x.ops.a = .m i) (hb : x.ops.b = .m j) :
    let new := (registerEffect c x).m[d]
    (x.row = .mand → new = c.m[i] &&& c.m[j]) ∧ (x.row = .mor → new = c.m[i] ||| c.m[j]) ∧
    (x.row = .mxor → new = c.m[i] ^^^ c.m[j]) ∧ (x.row = .mnot → new = ~~~c.m[i]) := by
  intro new
  have hmasks : ∀ f : BitVec 512 → BitVec 512 → BitVec 512,
      registerEffect c x = c.setM x.ops.d (f (mreg c x.ops.a) (mreg c x.ops.b)) → new = f c.m[i] c.m[j] := fun f h => by
    change (registerEffect c x).m[d] = _
    rw [h, setM_self c hd, ha, hb]
    rfl
  refine ⟨fun h => ?_, fun h => ?_, fun h => ?_, fun h => ?_⟩
  · exact hmasks (· &&& ·) (by rw [registerEffect, h])
  · exact hmasks (· ||| ·) (by rw [registerEffect, h])
  · exact hmasks (· ^^^ ·) (by rw [registerEffect, h])
  · exact hmasks (fun a _ => ~~~a) (by rw [registerEffect, h])

/-- The mask of a count, and the clear mask (R267). -/
theorem maskCounts_results : (x.row = .mset → ∀ i < 512, ((registerEffect c x).m[d]).getLsbD i = decide (i < x.sa.toNat)) ∧
    (x.row = .mclr → (registerEffect c x).m[d] = 0) := by
  refine ⟨fun h i hi => ?_, fun h => ?_⟩
  · have hnew : (registerEffect c x).m[d] = maskOf (min x.sa.toNat 512) fun _ => true := by
      rw [registerEffect, h]; exact setM_self c hd _
    rw [hnew, getLsbD_maskOf _ _ hi, Bool.and_true]
    exact decide_eq_decide.2 (by omega)
  · rw [registerEffect, h]
    exact setM_self c hd 0

end Mask

/-- An element decoded under a format byte (R74, R263). -/
theorem decodeTo_format (t : BitVec 8) (g : Grid) (w f : Nat) (b : List Byte × Nat) :
    let c := leNat b.1
    (formatOf t = .b8 f → decodeTo t (.float g w) b = roundT g w (scaledValue f c b.2) false) ∧
    (formatOf t = .fp32 → decodeTo t (.float g w) b = convertT (.float fp32 32) (.float g w) c) ∧
    (formatOf t = .fp16 → decodeTo t (.float g w) b = convertT (.float fp16 16) (.float g w) c) ∧
    (formatOf t = .bf16 → decodeTo t (.float g w) b = convertT (.float bf16 16) (.float g w) c) := by
  intro c
  unfold decodeTo
  refine ⟨fun h => ?_, fun h => ?_, fun h => ?_, fun h => ?_⟩
  all_goals rw [h]

/-- R257 and R259 on integers: the modular, signed and unsigned rules on the bit vectors of the elements. -/
theorem integer_rules {w : Nat} (hw : 0 < w) (g : Bool) (a b d : BitVec w) :
    let do_ := fun op : VOp => op.apply (.int g w) d.toNat a.toNat b.toNat
    do_ .add = (a + b).toNat ∧ do_ .sub = (a - b).toNat ∧ do_ .mul = (a * b).toNat ∧ do_ .fma = (d + a * b).toNat ∧
    do_ .neg = (-a).toNat ∧ do_ .abs = (if g ∧ a.toInt < 0 then -a else a).toNat ∧
    do_ .min = (if (if g then b.toInt < a.toInt else b < a) then b else a).toNat ∧
    do_ .max = (if (if g then a.toInt < b.toInt else a < b) then b else a).toNat ∧
    do_ .div = (if b = 0 then BitVec.allOnes w else if g then a.sdiv b else a / b).toNat ∧
    (VCmp.eq.holds (.int g w) a.toNat b.toNat ↔ a = b) ∧
    (VCmp.lt.holds (.int g w) a.toNat b.toNat ↔ if g then a.toInt < b.toInt else a < b) := by
  intro do_
  refine ⟨(BitVec.toNat_add a b).symm, ?_, (BitVec.toNat_mul a b).symm, ?_, ?_, abs_bitVec hw g a, lesser_bitVec hw g a b,
    greater_bitVec hw g a b, quotient_bitVec hw g a b, beq_iff_eq.trans (val_eq_bitVec hw g a b),
    decide_eq_true_iff.trans (val_lt_bitVec hw g a b)⟩
  · rw [sub_eq_ofInt, ← wrap_eq]
    rfl
  · rw [BitVec.toNat_add, BitVec.toNat_mul, Nat.add_mod_mod]
    rfl
  · rw [neg_eq_ofInt, ← wrap_eq]
    rfl

/-- Settles O37: completions, granules read and written, registers loaded and stored, then what each register row computes. -/
theorem vectorResults : Obligations.VectorResults := by
  unfold Obligations.VectorResults
  refine ⟨fun s u x hev hx hu hrow => ?_, fun s u x hev hx hu => ?_,
    fun s x l k => ⟨fun h => ⟨nextRead_none h, by rw [reading, h]⟩, fun g h => ?_⟩,
    fun s x g => ⟨fun e => readGranule_error, fun y => readGranule_ok⟩, fun x l i g bs => grains_getElem?,
    fun s x k => ⟨fun h => writing_done h k, fun g gs h => writing_next h k⟩,
    fun s gs bs x => ⟨putGrains_skipBlank gs bs s, fun h => ?_, fun g hs h hany => ?_⟩, fun s g gs bs hs => ?_,
    fun c x d hd hv => ⟨fun hr hb i _ => elem_loadedInto_vld c hd hr hb i, fun hr hl i _ => elem_loadedInto_vldd c hd hv hr hl i,
      loadedInto_frame c hd, fun _ => storedBytes_spec c hd hv⟩,
    fun c x d hd => ⟨mld_spec c hd, fun i hi => ?_⟩, decodeTo_format,
    fun c x d hd hv => ⟨elementwise_results c x d hd hv, fromA_results c x d hd hv, fun hr => ?_⟩,
    fun c x d hd p hp hr i hi => compare_bits c hd hp hr hi, fun c x d i j hd ha hb => masks_results c hd ha hb,
    fun c x d hd => maskCounts_results c hd, fun g w a l h _ => ⟨rowSum_int g w _, foldl_greater_spec l a h⟩,
    fun w g a b d hw => integer_rules (by omega) g a b d⟩
  · subst hu
    exact engineCommandComplete_goes hev hx (vectorEffect_register hrow)
  · subst hu
    refine ⟨fun hr => ?_, fun hr => ?_, fun i j hr hd ha => ?_, fun i j hr ha hd => ?_⟩
    · refine engineCommandComplete_goes hev hx ?_
      simp only [List.mem_cons, List.not_mem_nil, or_false] at hr
      change vectorEffect s x = _
      rcases hr with hr | hr | hr <;> (rw [vectorEffect, hr]; rfl)
    · refine engineCommandComplete_goes hev hx ?_
      change vectorEffect s x = _
      rcases hr with hr | hr <;> (rw [vectorEffect, hr]; rfl)
    · obtain ⟨hgone, hfull, hroom⟩ := vectorEffect_vpush (s := s) hr hd ha
      exact ⟨fun hp => engineCommandComplete_goes hev hx (hgone hp), fun hp h => engineCommandComplete_waits hev hx (hfull hp h),
        fun hp h => engineCommandComplete_goes hev hx (hroom hp h)⟩
    · obtain ⟨hgone, hpresent⟩ := vectorEffect_vpop (s := s) hr ha hd
      refine ⟨fun hp => engineCommandComplete_goes hev hx (hgone hp), fun hp => ?_⟩
      obtain ⟨hempty, hfailure, hword⟩ := hpresent hp
      exact ⟨fun h => engineCommandComplete_waits hev hx (hempty h),
        fun e a r b l h => engineCommandComplete_goes hev hx (hfailure e a r b l h),
        fun w l h => ⟨_, engineCommandComplete_goes hev hx (hword w l h), fun hv hi => elem_setElem (element_fits hv hi) _⟩⟩
  · obtain ⟨hmem, hk⟩ := nextRead_some h
    exact ⟨hmem, hk, reading_next h k⟩
  · subst h
    exact skipBlank_nil gs
  · subst h
    have hskip := skipBlank_of_any (gs := hs) hany
    exact ⟨congrArg Prod.fst hskip, congrArg Prod.snd hskip⟩
  · obtain ⟨hc, -, hin, hout⟩ := putBytes_spec hs g bs g.n
    exact ⟨rfl, hc, hin, hout⟩
  · rw [hd]
    exact leBytes_toNat_getElem? c.m[d] hi
  · obtain ⟨l, hl, hin⟩ := writesTile (c := c) (shape_bounds hv).2.1 x.row hr rfl
    exact frame_of_fromA hd hl hin

end Sys2Proof.Machine
end

section
/-! Commands with operands in barn memory and tile commands, as they are accepted (R249, R262, R263, R267, R271, R274 to R281). -/

namespace Sys2Proof.Machine

/-! What issue makes of a command that its tests accept or refuse -/

section Accepting
variable {s : State} {q : Nat} (h : s.Accepting q) {i : Instr} {f : Option (Fin 8 × Bool) → State → Run}
  (he : exec i s = performCmd s f)
include h he

theorem command_taken {x : Cmd} (hx : queueOf x.engine = q) (hf : f s.boundTo s = accept x s) :
    exec i s = .next (s.took x).passed := he.trans (performCmd_took h (hf.trans (accept_took h hx)))

theorem command_trapped {t : Trap} (hf : f s.boundTo s = .error (.trap t)) : exec i s = .next (s.trapHere t) := by
  obtain ⟨hl, hc, ho, -⟩ := h
  exact he.trans (performCmd_error hl hc ho hf)

theorem command_failed {c : Cause} (hf : f s.boundTo s = fail c) : exec i s = .next (s.trapHere { cause := c }) :=
  command_trapped h he hf

end Accepting

/-! Vector commands (R262, R263, R267) -/

section Operands
variable {s : State} {a b : Word} (ha : scalar s.ir.a s = .ok a) (hb : scalar s.ir.b s = .ok b)
include ha hb

/-- A command whose operand in memory passes its tests. -/
theorem vectorMem_ok {grains : Nat → Int → State → Except Stop (List Grain)} {gs : List Grain} (row : Instr)
    (bound : Option (Fin 8 × Bool)) (hg : grains (a.toNat % 2 ^ 56) b.toInt s = .ok gs) (ht : bufTests s gs = .ok ()) :
    vectorMem row grains bound s = accept { newCmd s row .vector bound with sa := a, sb := b, memA := gs } s := by
  rw [vectorMem, ha, hb, ok_bind, ok_bind, hg, ok_bind, ht, ok_bind]

/-- A mask's address is a multiple of 16 (R267). -/
theorem vectorMem_misaligned (row : Instr) (bound : Option (Fin 8 × Bool)) (hm : a.toNat % 16 ≠ 0) :
    vectorMem row maskGrains bound s = failAt .align (a.toNat % 2 ^ 56) := by
  rw [vectorMem, ha, hb, ok_bind, ok_bind, maskGrains, if_neg (by omega)]
  rfl

omit ha hb in
theorem maskGrains_aligned (hm : a.toNat % 16 = 0) (p : Int) : maskGrains (a.toNat % 2 ^ 56) p s = grainsOf s (a.toNat % 2 ^ 56) 64 := by
  rw [maskGrains, if_pos (by omega), ok_bind]

theorem cmdVldd_int (bound : Option (Fin 8 × Bool)) (hk : (vkind s.me.vshape).isFloat = false) :
    cmdVldd bound s = fail .vtypeBad := by
  rw [cmdVldd, ha, hb, ok_bind, ok_bind, failIf_true (by rw [hk]; rfl), fail_bind]

theorem cmdVldd_ok (bound : Option (Fin 8 × Bool)) (hk : (vkind s.me.vshape).isFloat = true)
    {rs : List (BitVec 8 × List Grain)} (hr : decodedRows s (a.toNat % 2 ^ 56) b.toInt = .ok rs)
    (ht : bufTests s (rs.map (·.2)).flatten = .ok ()) :
    cmdVldd bound s = accept { newCmd s .vldd .vector bound with
      sa := a, sb := b, memA := (rs.map (·.2)).flatten, rows := rs.map fun r => r.1.setWidth 512 } s := by
  rw [cmdVldd, ha, hb, ok_bind, ok_bind, failIf_false (by rw [hk]; rfl), ok_bind, hr, ok_bind]
  dsimp only
  rw [ht, ok_bind]

/-- A command that reads or writes all the rows of a tile in memory (R279). -/
theorem tileCmd_ok {gs : List Grain} (row : Instr) (e : Engine) (bound : Option (Fin 8 × Bool))
    (hg : tileRows s (a.toNat % 2 ^ 56) b.toInt = .ok gs) (ht : bufTests s gs = .ok ()) :
    tileCmd row e bound s = accept { newCmd s row e bound with sa := a, sb := b, memA := gs } s := by
  rw [tileCmd, ha, hb, ok_bind, ok_bind, hg, ok_bind, ht, ok_bind]

end Operands

section Immediate
variable {s : State} {b : Word} (hb : scalar s.ir.b s = .ok b) (bound : Option (Fin 8 × Bool))
include hb

theorem cmdAcmv_bad (h : 3 < b.toNat) : cmdAcmv bound s = fail .mmaArg := by
  rw [cmdAcmv, hb, ok_bind, failIf_true (decide_eq_true h), fail_bind]

/-- `acmv` into a tile goes to the array path (R280). -/
theorem cmdAcmv_intoTile (h : b.toNat ≤ 3) {i : Fin 4} (hd : s.ir.d = .t i) :
    cmdAcmv bound s = accept { newCmd s .acmv .array bound with sb := b } s := by
  rw [cmdAcmv, hb, ok_bind, failIf_false (decide_eq_false (Nat.not_lt.2 h)), ok_bind]
  simp only [hd]

/-- `acmv` out of a tile goes to the row path (R280). -/
theorem cmdAcmv_outOfTile (h : b.toNat ≤ 3) {i : Fin 16} (hd : s.ir.d = .v i) :
    cmdAcmv bound s = accept { newCmd s .acmv .row bound with sb := b } s := by
  rw [cmdAcmv, hb, ok_bind, failIf_false (decide_eq_false (Nat.not_lt.2 h)), ok_bind]
  simp only [hd]

omit hb in
/-- The operand B that `rstat` refuses (R281). -/
theorem rstatBad_iff : (b.toNat / 2 ^ 9 != 0 || bits b.toNat 7 5 != 0 || 16 < b.toNat % 32) = true ↔
    2 ^ 9 ≤ b.toNat ∨ b.extractLsb' 5 3 ≠ 0 ∨ 16 < b.toNat % 32 := by
  have hfield : b.extractLsb' 5 3 = 0 ↔ bits b.toNat 7 5 = 0 := by
    rw [← BitVec.toNat_inj, BitVec.extractLsb'_toNat, Nat.shiftRight_eq_div_pow]
    rfl
  have hhigh : b.toNat / 2 ^ 9 ≠ 0 ↔ 2 ^ 9 ≤ b.toNat := by omega
  simp only [Bool.or_eq_true, bne_iff_ne, decide_eq_true_eq, hhigh, ne_eq, hfield, or_assoc]

theorem cmdRstat_bad (h : 2 ^ 9 ≤ b.toNat ∨ b.extractLsb' 5 3 ≠ 0 ∨ 16 < b.toNat % 32) : cmdRstat bound s = fail .mmaArg := by
  rw [cmdRstat, hb, ok_bind]
  dsimp only
  rw [failIf_true (rstatBad_iff.2 h), fail_bind]

theorem cmdRstat_ok (h : ¬ (2 ^ 9 ≤ b.toNat ∨ b.extractLsb' 5 3 ≠ 0 ∨ 16 < b.toNat % 32)) :
    cmdRstat bound s = accept { newCmd s .rstat .row bound with sb := b } s := by
  rw [cmdRstat, hb, ok_bind]
  dsimp only
  rw [failIf_false (Bool.eq_false_iff.2 (mt rstatBad_iff.1 h)), ok_bind]

end Immediate

/-! `mma`: its operands in registers or in memory (R274 to R277) -/

section Mma
variable {s : State} {f : MmaFmt} (r : Instr) (bound : Option (Fin 8 × Bool))

theorem mma_registers {i j : Fin 16} (ha : s.ir.a = .v i) (hb : s.ir.b = .v j) : mma r f bound s =
    accept { newCmd s r .array bound with sa := 0, sa2 := 0, sb := 0, sb2 := 0, memA := [], memB := [], rows := [0, 0] } s := by
  rw [mma, ha, hb]
  rfl

/-- A malformed descriptor of either operand comes before every other test (R274, R276). -/
theorem mma_badDescriptor (h : ((inMemory s.ir.a && descBad (pairAt s s.ir.a)) ||
    (inMemory s.ir.b && descBad (pairAt s s.ir.b))) = true) : mma r f bound s = fail .mmaDesc := by
  rw [mma]
  dsimp only
  rw [failIf_true h, fail_bind]

/-- What an operand of an `mma` comes to once its tests have passed: its grains and format bytes, none for a register. -/
def State.MmaOperand (s : State) (f : MmaFmt) (o : Opd) (g : List Grain × List (BitVec 8)) : Prop :=
  if inMemory o then
    descBad (pairAt s o) = false ∧ rowTests s f (pairAt s o) = .ok () ∧ operandRows s f (pairAt s o) = .ok g
  else g = ([], [])

theorem mmaOperand_register {j : Fin 16} : s.MmaOperand f (.v j) ([], []) := rfl

theorem mmaOperand_memory {i : Fin 16} {g : List Grain × List (BitVec 8)} (hd : descBad (s.st.x[i], s.st.x[i + 1]) = false)
    (ht : rowTests s f (s.st.x[i], s.st.x[i + 1]) = .ok ()) (hg : operandRows s f (s.st.x[i], s.st.x[i + 1]) = .ok g) :
    s.MmaOperand f (.x i) g := ⟨hd, ht, hg⟩

/-- An `mma` whose operands pass their tests is accepted with what they came to. -/
theorem mma_ok {ga gb : List Grain × List (BitVec 8)} (ha : s.MmaOperand f s.ir.a ga) (hb : s.MmaOperand f s.ir.b gb)
    (ht : bufTests s (ga.1 ++ gb.1) = .ok ()) : mma r f bound s = accept { newCmd s r .array bound with
      sa := (pairAt s s.ir.a).1, sa2 := (pairAt s s.ir.a).2, sb := (pairAt s s.ir.b).1, sb2 := (pairAt s s.ir.b).2,
      memA := ga.1, memB := gb.1, rows := [packTags ga.2, packTags gb.2] } s := by
  unfold State.MmaOperand at ha hb
  rw [mma]
  cases ma : inMemory s.ir.a <;> cases mb : inMemory s.ir.b
  all_goals
    simp only [ma, mb, if_true, if_false, Bool.false_eq_true] at ha hb
    simp only [ha, hb, failIf, Bool.false_and, Bool.true_and, Bool.or_self, Bool.false_eq_true, if_true, if_false, ok_bind,
      List.nil_append, List.append_nil] at ht ⊢
    rw [ht, ok_bind]

variable {r}
variable (h : s.Accepting 1) (he : exec r s = performCmd s (mma r f))
include h he

/-- One operand of an `mma` in memory and the other in a register. -/
theorem mma_mixed (i j : Fin 16) :
    let p := (s.st.x[i], s.st.x[i + 1])
    let x := newCmd s r .array s.boundTo
    ((s.ir.a = .x i ∧ s.ir.b = .v j) ∨ (s.ir.a = .v j ∧ s.ir.b = .x i) → descBad p = true →
      exec r s = .next (s.trapHere { cause := .mmaDesc })) ∧
    (∀ g, descBad p = false → rowTests s f p = .ok () → operandRows s f p = .ok g → bufTests s g.1 = .ok () →
      (s.ir.a = .x i → s.ir.b = .v j → exec r s = .next (s.took { x with
        sa := p.1, sa2 := p.2, sb := 0, sb2 := 0, memA := g.1, memB := [], rows := [packTags g.2, 0] }).passed) ∧
      (s.ir.a = .v j → s.ir.b = .x i → exec r s = .next (s.took { x with
        sa := 0, sa2 := 0, sb := p.1, sb2 := p.2, memA := [], memB := g.1, rows := [0, packTags g.2] }).passed)) := by
  intro p x
  refine ⟨fun ho hd => command_failed h he (mma_badDescriptor r _ ?_), fun g hd ht hg hbuf => ⟨fun ha hb => ?_, fun ha hb => ?_⟩⟩
  · rcases ho with ⟨ha, hb⟩ | ⟨ha, hb⟩
    · rw [ha, hb]
      exact Bool.or_eq_true_iff.2 (.inl hd)
    · rw [ha, hb]
      exact Bool.or_eq_true_iff.2 (.inr hd)
  · refine command_taken h he (x := { x with
      sa := p.1, sa2 := p.2, sb := 0, sb2 := 0, memA := g.1, memB := [], rows := [packTags g.2, 0] }) rfl ?_
    rw [mma_ok r s.boundTo (ga := g) (gb := ([], [])) (ha ▸ mmaOperand_memory hd ht hg) (hb ▸ mmaOperand_register)
      (by rw [List.append_nil]; exact hbuf), ha, hb]
    rfl
  · refine command_taken h he (x := { x with
      sa := 0, sa2 := 0, sb := p.1, sb2 := p.2, memA := [], memB := g.1, rows := [0, packTags g.2] }) rfl ?_
    rw [mma_ok r s.boundTo (ga := ([], [])) (gb := g) (ha ▸ mmaOperand_register) (hb ▸ mmaOperand_memory hd ht hg) hbuf, ha, hb]
    rfl

/-- Both operands of an `mma` in memory. -/
theorem mma_inMemory {i j : Fin 16} (ha : s.ir.a = .x i) (hb : s.ir.b = .x j) :
    let pa := (s.st.x[i], s.st.x[i + 1])
    let pb := (s.st.x[j], s.st.x[j + 1])
    (descBad pa ∨ descBad pb → exec r s = .next (s.trapHere { cause := .mmaDesc })) ∧
    (∀ ga gb, descBad pa = false → descBad pb = false → rowTests s f pa = .ok () → rowTests s f pb = .ok () →
      operandRows s f pa = .ok ga → operandRows s f pb = .ok gb → bufTests s (ga.1 ++ gb.1) = .ok () →
      exec r s = .next (s.took { newCmd s r .array s.boundTo with
        sa := pa.1, sa2 := pa.2, sb := pb.1, sb2 := pb.2, memA := ga.1, memB := gb.1,
        rows := [packTags ga.2, packTags gb.2] }).passed) := by
  intro pa pb
  refine ⟨fun hd => command_failed h he (mma_badDescriptor r _ ?_), fun ga gb hda hdb hta htb hga hgb hbuf => ?_⟩
  · rw [ha, hb]
    exact Bool.or_eq_true_iff.2 hd
  · refine command_taken h he (x := { newCmd s r .array s.boundTo with
      sa := pa.1, sa2 := pa.2, sb := pb.1, sb2 := pb.2, memA := ga.1, memB := gb.1,
      rows := [packTags ga.2, packTags gb.2] }) rfl ?_
    rw [mma_ok r s.boundTo (ha ▸ mmaOperand_memory hda hta hga) (hb ▸ mmaOperand_memory hdb htb hgb) hbuf, ha, hb]
    rfl

end Mma

end Sys2Proof.Machine
end

section
/-! The array path and the row path of the matrix engine: what their commands do in turn, and the rows and elements that they leave
(R269, R271 to R273, R277 to R281). -/

namespace Sys2Proof.Machine

/-! Small facts -/

theorem getD_map_range {α : Type} {n i : Nat} (f : Nat → α) (d : α) (h : i < n) : ((List.range n).map f).getD i d = f i := by
  rw [List.getD_eq_getElem?_getD, List.getElem?_map, List.getElem?_range h]
  rfl

/-- A field of a register read as a number. -/
theorem bits_eq_extract {w : Nat} (v : BitVec w) (hi lo : Nat) : bits v.toNat hi lo = (v.extractLsb' lo (hi + 1 - lo)).toNat := by
  rw [BitVec.extractLsb'_toNat, Nat.shiftRight_eq_div_pow]
  rfl

theorem bit_eq_getLsbD {w : Nat} (v : BitVec w) (i : Nat) : bit v.toNat i = v.getLsbD i := bit_eq_testBit _ _

theorem ofNat_div_extract {w : Nat} (v : BitVec w) (i n : Nat) : BitVec.ofNat n (v.toNat / 2 ^ i) = v.extractLsb' i n := by
  apply BitVec.eq_of_toNat_eq
  rw [BitVec.toNat_ofNat, BitVec.extractLsb'_toNat, Nat.shiftRight_eq_div_pow]

theorem getD_take_drop {α : Type} (l : List α) (d : α) {k n j : Nat} (h : j < n) : ((l.drop k).take n).getD j d = l.getD (k + j) d := by
  rw [List.getD_eq_getElem?_getD, List.getElem?_take_of_lt h, List.getElem?_drop, List.getD_eq_getElem?_getD]

/-! The array path (R272, R273) -/

section ArrayPath
variable {s : State} {x : Cmd}

/-- A command that has read every operand: the rows that it is to write. -/
def Cmd.full (x : Cmd) (c : Core) : Cmd := { x with loaded := true, rows := arrayRows c x }

theorem arrayStep_loaded (h : x.loaded = true) : arrayStep s x = arrayWrite s x := by
  rw [arrayStep]
  exact if_pos h

theorem arrayStep_read (h : x.loaded = false) (hn : x.nextRead (x.memA ++ x.memB) = none) :
    arrayStep s x = arrayWrite s (x.full (s.core x.unit)) := by
  unfold arrayStep
  simp only [h, hn, Bool.false_eq_true, if_false, Cmd.full]

theorem arrayStep_granule (h : x.loaded = false) {g : Grain} (hn : x.nextRead (x.memA ++ x.memB) = some g) :
    (∀ y, readGranule s x g = .ok y → arrayStep s x =
      some (s.setCmd (if y.nextRead (x.memA ++ x.memB) = none then y.full (s.core x.unit) else y))) ∧
    (∀ e, readGranule s x g = .error e → arrayStep s x =
      some (((deferFault s x e.1 e.2).setCmd { x with loaded := true, failed := true, step := 16 }).modCore x.unit
        fun c => { c with final := c.final.set (tileOf x.ops.d) 16 })) := by
  unfold arrayStep
  -- As in `reading_next`: the kernel need not evaluate `readGranule`.
  generalize readGranule s x = read
  as_aux_lemma =>
    refine ⟨fun y hy => ?_, fun e he => ?_⟩
    · simp only [h, hn, hy, Bool.false_eq_true, if_false, Option.isNone_iff_eq_none, Cmd.full]
    · simp only [h, hn, he, Bool.false_eq_true, if_false]

/-- The state after the next row of the command's tile is written, with FINAL behind it (R272). -/
def rowWritten (s : State) (x : Cmd) (i : Fin 4) : State :=
  (s.modCore x.unit fun c =>
    { c with t := c.t.set i (setTileRow c.t[i] x.step (x.rows.getD x.step 0)),
             final := c.final.set i (BitVec.ofNat 5 (x.step + 1)) }).setCmd { x with step := x.step + 1 }

theorem arrayWrite_eq (s : State) (x : Cmd) : arrayWrite s x =
    let v := if x.step < 16 then rowWritten s x (tileOf x.ops.d) else s
    if x.step < 15 then some v
    else if bit x.mxcfg.toNat 32 && x.present v then
      if (v.core x.unit).tilesBefore x && (v.core x.unit).roomFor 4 then some (retireCmd (appendEntry v x 4 (watermarkEntry x)) x)
      else if x.step < 16 then some v else none
    else some (retireCmd v x) := rfl

variable {i : Fin 4} (hd : x.ops.d = .t i)
include hd

theorem arrayWrite_row (h : x.step < 15) : arrayWrite s x = some (rowWritten s x i) := by
  rw [arrayWrite_eq, hd]
  dsimp only
  rw [if_pos h, if_pos (by omega)]
  rfl

/-- With the last row written, or with all of them written before, what is left is the watermark entry (R272). -/
theorem arrayWrite_last (h : 15 ≤ x.step) :
    let v := if x.step = 15 then rowWritten s x i else s
    arrayWrite s x = if bit x.mxcfg.toNat 32 && x.present v then
        if (v.core x.unit).tilesBefore x && (v.core x.unit).roomFor 4 then some (retireCmd (appendEntry v x 4 (watermarkEntry x)) x)
        else if x.step = 15 then some v else none
      else some (retireCmd v x) := by
  have hlast : x.step < 16 ↔ x.step = 15 := by omega
  rw [arrayWrite_eq, hd]
  simp only [hlast, if_neg (Nat.not_lt.2 h)]
  rfl

theorem arrayWrite_completes (h : 15 ≤ x.step) :
    let v := if x.step = 15 then rowWritten s x i else s
    (x.mxcfg.getLsbD 32 = false ∨ x.present v = false → arrayWrite s x = some (retireCmd v x)) ∧
    (x.mxcfg.getLsbD 32 = true → x.present v = true →
      ((v.core x.unit).tilesBefore x = true → (v.core x.unit).roomFor 4 = true →
        arrayWrite s x = some (retireCmd (appendEntry v x 4 (watermarkEntry x)) x)) ∧
      ((v.core x.unit).tilesBefore x = false ∨ (v.core x.unit).roomFor 4 = false →
        arrayWrite s x = if x.step = 15 then some v else none)) := by
  intro v
  have hlast := arrayWrite_last (s := s) hd h
  dsimp only at hlast
  rw [bit_eq_getLsbD] at hlast
  refine ⟨fun hn => ?_, fun hw hp => ⟨fun ht hr => ?_, fun hn => ?_⟩⟩
  · rw [hlast, if_neg (Bool.eq_false_iff.1 (Bool.and_eq_false_iff.2 hn))]
  · rw [hlast, if_pos (Bool.and_eq_true_iff.2 ⟨hw, hp⟩), if_pos (Bool.and_eq_true_iff.2 ⟨ht, hr⟩)]
  · rw [hlast, if_pos (Bool.and_eq_true_iff.2 ⟨hw, hp⟩), if_neg (Bool.eq_false_iff.1 (Bool.and_eq_false_iff.2 hn))]

/-- The fields of a watermark entry (R272). -/
theorem watermarkEntry_fields :
    let e := watermarkEntry x
    e.extractLsb' 0 32 = x.dseq ∧ (e.extractLsb' 32 2).toNat = i.val ∧ e.extractLsb' 34 28 = 0 ∧ e.getLsbD 62 = x.failed ∧
      e.getLsbD 63 = true := by
  intro e
  have hs := x.dseq.isLt
  have hi := i.isLt
  have hf : x.failed.toNat ≤ 1 := Bool.toNat_le _
  have he : e = word (x.dseq.toNat + i.val * 2 ^ 32 + x.failed.toNat * 2 ^ 62 + 2 ^ 63) := by
    simp only [e, watermarkEntry, hd]
    rfl
  have hbit : ∀ k, e.getLsbD k = (decide (k < 64) && (x.dseq.toNat + i.val * 2 ^ 32 + x.failed.toNat * 2 ^ 62 + 2 ^ 63).testBit k) :=
    fun k => by rw [he, word, BitVec.getLsbD_ofNat]
  refine ⟨?_, ?_, ?_, ?_, ?_⟩
  · rw [he, extractLsb'_word (by decide)]
    apply BitVec.eq_of_toNat_eq
    rw [BitVec.toNat_ofNat]
    omega
  · rw [he, extractLsb'_word (by decide), BitVec.toNat_ofNat]
    omega
  · rw [he, extractLsb'_word (by decide)]
    apply BitVec.eq_of_toNat_eq
    rw [BitVec.toNat_ofNat]
    change _ = 0
    omega
  · rw [hbit, Nat.testBit_eq_decide_div_mod_eq]
    cases hb : x.failed
    · rw [hb] at hf; simp; omega
    · simp; omega
  · rw [hbit, Nat.testBit_eq_decide_div_mod_eq]
    simp
    omega

end ArrayPath

theorem tilesBefore_iff (c : Core) (x : Cmd) : c.tilesBefore x = true ↔ ∀ y ∈ c.cmds, queueOf y.engine = 1 → y.order < x.order →
    y.row = .acst ∨ 16 ≤ y.step := by
  simp only [Core.tilesBefore, List.all_eq_true, Bool.or_eq_true, Bool.not_eq_true', Bool.and_eq_false_iff, beq_eq_false_iff_ne,
    decide_eq_false_iff_not, Cmd.written, beq_iff_eq, decide_eq_true_eq]
  exact forall₂_congr fun y _ => by tauto

/-! Rows of the array path (R277 to R280) -/

section Rows
variable {c : Core} {x : Cmd} {t : Fin 4} {i : Nat}

/-- The rows of an `mma`: each element of the tile with the products of a row of A and a row of B added (R75, R277). -/
theorem mma_row {p : Instr × MmaFmt} (hp : p ∈ [(Instr.mmaB8, MmaFmt.b8), (.mmaF16, .f16), (.mmaBf16, .bf16)])
    (hd : x.ops.d = .t t) (hr : x.row = p.1) (hi : i < 16) :
    (arrayRows c x).getD i 0 = packRow ((List.range 16).map fun j => groupAdd (rowElem (tileRow c.t[t] i) j)
      (((operand p.2 c x.ops.a (x.mxcfg.extractLsb' 0 5).toNat (x.mxcfg.extractLsb' 16 8).toNat (x.rows.getD 0 0)
          (x.grains x.memA)).getD i []).zip
        ((operand p.2 c x.ops.b (x.mxcfg.extractLsb' 8 5).toNat (x.mxcfg.extractLsb' 24 8).toNat (x.rows.getD 1 0)
          (x.grains x.memB)).getD j []))) := by
  have hrows : arrayRows c x = mmaRows p.2 c x (x.grains x.memA) (x.grains x.memB) := by
    revert p
    simp only [List.forall_mem_cons]
    refine ⟨?_, ?_, ?_, List.forall_mem_nil _⟩
    all_goals intro h; rw [arrayRows, h]
  have ht : tileOf x.ops.d = t := by rw [hd]; rfl
  rw [hrows, mmaRows, getD_map_range _ _ hi]
  simp only [bits_eq_extract, ht]

theorem mzero_row (hr : x.row = .mzero) (hi : i < 16) : (arrayRows c x).getD i 0 = 0 := by
  rw [arrayRows, hr]
  dsimp only
  rw [List.getD_eq_getElem?_getD, List.getElem?_replicate_of_lt hi]
  rfl

theorem acld_row (hr : x.row = .acld) (hi : i < 16) {j : Nat} (hj : j < 64) :
    ((arrayRows c x).getD i 0).extractLsb' (8 * j) 8 = (bytesOf (x.grains x.memA)).getD (64 * i + j) 0 := by
  rw [arrayRows, hr]
  dsimp only
  rw [getD_map_range _ _ hi, extract_ofNat_leNat _ (by omega), getD_take_drop _ _ hj]

/-- `acmv` into a tile by its mode: a half of the tile from FP32 elements, or the whole from FP16 or BF16 ones (R280). -/
theorem acmv_row (hd : x.ops.d = .t t) {k : Fin 16} (hr : x.row = .acmv) (ha : x.ops.a = .v k) (hi : i < 16) :
    (x.sb.toNat < 2 → i / 8 ≠ x.sb.toNat → (arrayRows c x).getD i 0 = tileRow c.t[t] i) ∧
    (x.sb.toNat < 2 → i / 8 = x.sb.toNat → ∀ j < 16, rowElem ((arrayRows c x).getD i 0) j = elem c.v[k] 4 (16 * (i % 8) + j)) ∧
    (x.sb = 2 → (arrayRows c x).getD i 0 = packRow ((List.range 16).map fun j => widen16 fp16 (elem c.v[k] 2 (16 * i + j)))) ∧
    (x.sb = 3 → (arrayRows c x).getD i 0 = packRow ((List.range 16).map fun j => widen16 bf16 (elem c.v[k] 2 (16 * i + j)))) := by
  have hrow : (arrayRows c x).getD i 0 =
      if x.sb.toNat < 2 then
        if i / 8 = x.sb.toNat then packRow ((List.range 16).map fun j => elem c.v[k] 4 (16 * (i % 8) + j)) else tileRow c.t[t] i
      else packRow ((List.range 16).map fun j => widen16 (if x.sb.toNat = 2 then fp16 else bf16) (elem c.v[k] 2 (16 * i + j))) := by
    rw [arrayRows, hr]
    dsimp only
    have ht : tileOf x.ops.d = t := by rw [hd]; rfl
    rw [moveRows, ha, getD_map_range _ _ hi]
    simp only [ht]
    rfl
  rw [hrow]
  refine ⟨fun h hne => by rw [if_pos h, if_neg hne], fun h he j hj => ?_, fun h => by rw [h]; rfl, fun h => by rw [h]; rfl⟩
  rw [if_pos h, if_pos he, rowElem_packRow hj, getD_map_range _ _ hj]
  intro y hy
  obtain ⟨q, -, rfl⟩ := List.mem_map.1 hy
  exact elem_lt _ _ _

end Rows

/-- The rows of an operand, from a register or from what was read of it (R277). -/
theorem operand_row (f : MmaFmt) (c : Core) (o : Opd) (fmt scale : Nat) (tags : BitVec 512) (l : List (List Byte × Nat)) {i : Nat}
    (hi : i < 16) :
    let row := (operand f c o fmt scale tags l).getD i []
    let code := fun k => leNat (((bytesOf l).drop (32 * i + 2 * k)).take 2)
    (∀ j : Fin 16, o = .v j →
      (f = .b8 → row = (List.range 32).map fun k => scaledValue fmt (elem c.v[j] 1 (32 * i + k)) scale) ∧
      (f = .f16 → row = (List.range 16).map fun k => valueT fp16 16 (elem c.v[j] 2 (16 * i + k))) ∧
      (f = .bf16 → row = (List.range 16).map fun k => valueT bf16 16 (elem c.v[j] 2 (16 * i + k)))) ∧
    (∀ j : Fin 16, o = .x j →
      (∀ e, f = .b8 → formatOf (tags.extractLsb' (8 * i) 8) = .b8 e → row = (List.range 32).map fun k =>
        scaledValue e (leNat (l.getD (32 * i + k) ([], 0)).1) (l.getD (32 * i + k) ([], 0)).2) ∧
      (f = .f16 → row = (List.range 16).map fun k => valueT fp16 16 (code k)) ∧
      (f = .bf16 → row = (List.range 16).map fun k => valueT bf16 16 (code k))) := by
  intro row code
  refine ⟨fun j ho => ?_, fun j ho => ?_⟩
  · have hrow : row = regRow f c.v[j] fmt scale i := by
      simp only [row, operand, ho]
      exact getD_map_range _ _ hi
    rw [hrow]
    exact ⟨fun h => by rw [h]; rfl, fun h => by rw [h]; rfl, fun h => by rw [h]; rfl⟩
  · have hrow : row = memRow f (tags.extractLsb' (8 * i) 8) l i := by
      simp only [row, operand, ho, ← ofNat_div_extract]
      exact getD_map_range _ _ hi
    rw [hrow]
    exact ⟨fun e h he => by rw [h, memRow, he], fun h => by rw [h]; rfl, fun h => by rw [h]; rfl⟩

/-! The row path (R271, R279 to R281) -/

theorem tileRead_eq (x : Cmd) : x.tileRead = if x.row = .acst then tileOf x.ops.d else tileOf x.ops.a := by
  unfold Cmd.tileRead
  split
  · rename_i h; rw [if_pos h]
  · rename_i h; rw [if_neg h]

section RowPath
variable {s : State} {x : Cmd}

theorem rowStep_waits (h : x.step < 16) (hf : (s.core x.unit).final[x.tileRead].toNat ≤ x.step) (ht : x.todo = []) :
    rowStep s x = none := by
  rw [rowStep, ht]
  rw [if_pos h, if_neg]
  simp only [List.isEmpty_nil, Bool.not_true, Bool.or_false, decide_eq_true_eq, not_lt]
  exact hf

theorem rowStep_next (h : x.step < 16) (hf : x.step < (s.core x.unit).final[x.tileRead].toNat ∨ x.todo ≠ []) :
    rowStep s x = some (rowNext s x) := by
  rw [rowStep]
  rw [if_pos h, if_pos]
  simp only [Bool.or_eq_true, decide_eq_true_eq, Bool.not_eq_true', List.isEmpty_eq_false_iff]
  exact hf

theorem rowStep_ends (h : 16 ≤ x.step) :
    (x.row ≠ .rstat ∨ x.sb.getLsbD 8 = false ∨ x.present s = false → rowStep s x = some (retireCmd s x)) ∧
    (x.row = .rstat → x.sb.getLsbD 8 = true → x.present s = true →
      ((s.core x.unit).firstMatrix x = true → (s.core x.unit).roomFor 4 = true →
        rowStep s x = some (retireCmd (appendEntry s x 4 (x.dseq.setWidth 64)) x)) ∧
      ((s.core x.unit).firstMatrix x = false ∨ (s.core x.unit).roomFor 4 = false → rowStep s x = none)) := by
  rw [rowStep]
  rw [if_neg (Nat.not_lt.2 h), bit_eq_getLsbD]
  refine ⟨fun hn => if_neg ?_, fun hr hb hp => ?_⟩
  · simp only [Bool.and_eq_true, beq_iff_eq]
    rintro ⟨⟨hr, hb⟩, hp⟩
    rcases hn with hn | hn | hn
    · exact hn hr
    · rw [hb] at hn; cases hn
    · rw [hp] at hn; cases hn
  · rw [if_pos (by rw [hr, hb, hp]; rfl)]
    exact ⟨fun hf hroom => if_pos (Bool.and_eq_true_iff.2 ⟨hf, hroom⟩),
      fun hn => if_neg (Bool.eq_false_iff.1 (Bool.and_eq_false_iff.2 hn))⟩

theorem rowNext_acst (h : x.row = .acst) : rowNext s x =
    writing s (if x.todo = [] then x.begin_ ((x.memA.drop (4 * x.step)).take 4)
      ((leBytes 64 (tileRow (s.core x.unit).t[x.tileRead] x.step).toNat).map some) else x)
      fun s x => s.setCmd { x with step := x.step + 1 } := by
  rw [rowNext, h]
  dsimp only
  simp only [List.isEmpty_iff]

theorem rowNext_register (h : x.row ≠ .acst) : rowNext s x =
    (s.setCore x.unit (rowEffect (s.core x.unit) x x.step)).setCmd { x with step := x.step + 1 } := by
  unfold rowNext
  split
  · rename_i hr; exact absurd hr h
  · rfl

end RowPath

/-! What the row path leaves in a vector register -/

theorem flatten_leBytes_length (z : Nat) (l : List Nat) : (l.map (leBytes z)).flatten.length = z * l.length := by
  induction l with
  | nil => rfl
  | cons a l ih => rw [List.map_cons, List.flatten_cons, List.length_append, leBytes_length, ih, List.length_cons, Nat.mul_succ, Nat.add_comm]

/-- Numbers of `z` bytes put into a register from element `o` on: each stands in its element, and the others are as they were. -/
theorem elem_setRegBytes_packed {v : BitVec 4096} {o z : Nat} {l : List Nat} (h : z * (o + l.length) ≤ 512) :
    (∀ j < l.length, elem (setRegBytes v (z * o) (l.map (leBytes z)).flatten) z (o + j) = l.getD j 0 % 2 ^ (8 * z)) ∧
    ∀ j, j < o ∨ o + l.length ≤ j → elem (setRegBytes v (z * o) (l.map (leBytes z)).flatten) z j = elem v z j := by
  have hlen := flatten_leBytes_length z l
  rw [Nat.mul_add] at h
  refine ⟨fun j hj => ?_, fun j hj => elem_setRegBytes_outside ?_⟩
  · have hz := Nat.mul_le_mul_left z hj
    rw [Nat.mul_succ] at hz
    rw [elem_setRegBytes_inside (by omega) (by rw [Nat.mul_add]; omega) (by rw [Nat.mul_add]; omega), Nat.mul_add,
      Nat.add_sub_cancel_left, leNat_flatten, pow_bytes]
  · rcases hj with hj | hj
    · have hz := Nat.mul_le_mul_left z hj
      rw [Nat.mul_succ] at hz
      exact .inl hz
    · have hz := Nat.mul_le_mul_left z hj
      rw [Nat.mul_add] at hz
      exact .inr (by omega)

theorem leNat_leBytes_toNat {w n : Nat} (x : BitVec w) (h : w ≤ 8 * n) : leNat (leBytes n x.toNat) = x.toNat := by
  rw [leNat_leBytes_mod, pow_bytes]
  exact Nat.mod_eq_of_lt (x.isLt.trans_le (Nat.pow_le_pow_right (by decide) h))

/-- A row of a tile put into a register as it is, from FP32 element `o` on. -/
theorem elem_setRegBytes_row {v : BitVec 4096} {o : Nat} (r : BitVec 512) (h : o + 16 ≤ 128) :
    (∀ j < 16, elem (setRegBytes v (4 * o) (leBytes 64 r.toNat)) 4 (o + j) = rowElem r j) ∧
    ∀ j, j < o ∨ o + 16 ≤ j → elem (setRegBytes v (4 * o) (leBytes 64 r.toNat)) 4 j = elem v 4 j := by
  have hlen := leBytes_length 64 r.toNat
  refine ⟨fun j hj => ?_, fun j hj => elem_setRegBytes_outside (by omega)⟩
  have hbits : 8 * (4 * j) = 32 * j := by omega
  rw [elem_setRegBytes_inside (by omega) (by omega) (by omega), Nat.mul_add, Nat.add_sub_cancel_left,
    leNat_leBytes_toNat r (by decide), pow_bytes, pow_bytes, hbits]
  rfl

/-- The statistics of the first `n` columns of a row: the largest, the sum and the sum of the squares (R281). -/
def rowStatistics (at_ : Nat → Nat) (n : Nat) : List Nat :=
  let sum := fun f : Nat → Machine.Real => round32 ((List.range n).foldl (fun y j => y.add (f (at_ j))) (.fin Machine.Dyadic.zero)) false
  [(List.range n).tail.foldl (fun m j => pick32 true m (at_ j)) (at_ 0), sum value32, sum fun a => (value32 a).mul (value32 a)]

theorem rowStatistics_length (at_ : Nat → Nat) (n : Nat) : (rowStatistics at_ n).length = 3 := rfl

theorem rowStats_packed (r : BitVec 512) {n : Nat} (hn : n ≠ 0) :
    rowStats r n = ((rowStatistics (rowElem r) n).map (leBytes 4)).flatten := by
  obtain ⟨n, rfl⟩ := Nat.exists_eq_succ_of_ne_zero hn
  simp only [rowStats, rowStatistics, List.range_succ_eq_map, List.map_cons, List.map_nil, List.map_map, List.tail_cons,
    List.foldl_cons, List.foldl_map, Function.comp_apply, List.flatten_cons, List.flatten_nil, List.append_nil, List.append_assoc]

section RowEffect
variable {c : Core} {x : Cmd} {d : Fin 16} {t : Fin 4} {i : Nat} (hd : x.ops.d = .v d) (ha : x.ops.a = .t t) (hi : i < 16)
include hd ha

theorem rowEffect_rstat (hr : x.row = .rstat) : (rowEffect c x i).v[d] = setRegBytes c.v[d] (32 * i)
    (rowStats (tileRow c.t[t] i) (if x.sb.toNat % 32 = 0 then 16 else x.sb.toNat % 32)) := by
  have ht : x.tileRead = t := by rw [tileRead_eq, hr, ha]; rfl
  rw [rowEffect, hr]
  dsimp only
  rw [setV_self hd, hd]
  simp only [ht]
  rfl

theorem rowEffect_acmv (hr : x.row = .acmv) : (∀ off bs, movedRow x.sb.toNat i (tileRow c.t[t] i) = some (off, bs) →
      (rowEffect c x i).v[d] = setRegBytes c.v[d] off bs) ∧
    (movedRow x.sb.toNat i (tileRow c.t[t] i) = none → rowEffect c x i = c) := by
  have ht : x.tileRead = t := by rw [tileRead_eq, hr, ha]; rfl
  rw [rowEffect, hr]
  refine ⟨fun off bs h => ?_, fun h => ?_⟩
  · have hm : movedRow x.sb.toNat i (tileRow c.t[x.tileRead] i) = some (off, bs) := by simp only [ht]; exact h
    dsimp only
    rw [hm, setV_self hd, hd]
    rfl
  · have hm : movedRow x.sb.toNat i (tileRow c.t[x.tileRead] i) = none := by simp only [ht]; exact h
    dsimp only
    rw [hm]

include hi

/-- The largest of a row's columns, their sum and the sum of their squares, in three elements of eight (R281). -/
theorem rstat_results (hr : x.row = .rstat) :
    let new := (rowEffect c x i).v[d]
    let at_ := rowElem (tileRow c.t[t] i)
    let others := fun (z lo n : Nat) => ∀ j, j < lo ∨ lo + n ≤ j → elem new z j = elem c.v[d] z j
    let ncol := (x.sb.extractLsb' 0 5).toNat
    let cols := List.range (if ncol = 0 then 16 else ncol)
    let sum := fun f : Nat → Machine.Real => round32 (cols.foldl (fun y j => y.add (f (at_ j))) (.fin Machine.Dyadic.zero)) false
    elem new 4 (8 * i) = (cols.tail.foldl (fun m j => pick32 true m (at_ j)) (at_ 0)) % 2 ^ 32 ∧
    elem new 4 (8 * i + 1) = sum value32 % 2 ^ 32 ∧
    elem new 4 (8 * i + 2) = sum (fun a => (value32 a).mul (value32 a)) % 2 ^ 32 ∧ others 4 (8 * i) 3 := by
  intro new at_ others ncol cols sum
  have hcol : x.sb.toNat % 32 = ncol := by simp only [ncol, BitVec.extractLsb'_toNat, Nat.shiftRight_zero]
  have hn : (if ncol = 0 then 16 else ncol) ≠ 0 := by split <;> omega
  have hnew : new = setRegBytes c.v[d] (4 * (8 * i))
      ((rowStatistics at_ (if ncol = 0 then 16 else ncol)).map (leBytes 4)).flatten := by
    rw [← Nat.mul_assoc, ← rowStats_packed _ hn, ← hcol]
    exact rowEffect_rstat hd ha hr
  obtain ⟨hin, hout⟩ := elem_setRegBytes_packed (v := c.v[d]) (o := 8 * i) (z := 4)
    (l := rowStatistics at_ (if ncol = 0 then 16 else ncol)) (by rw [rowStatistics_length]; omega)
  rw [rowStatistics_length, ← hnew] at hin hout
  exact ⟨hin 0 (by decide), hin 1 (by decide), hin 2 (by decide), hout⟩

/-- `acmv` out of a tile by its mode: a row of FP32 elements as they are, or narrowed to FP16 or BF16 (R280). -/
theorem acmv_results (hr : x.row = .acmv) :
    let new := (rowEffect c x i).v[d]
    let at_ := rowElem (tileRow c.t[t] i)
    let others := fun (z lo n : Nat) => ∀ j, j < lo ∨ lo + n ≤ j → elem new z j = elem c.v[d] z j
    (x.sb.toNat < 2 → i / 8 ≠ x.sb.toNat → rowEffect c x i = c) ∧
    (x.sb.toNat < 2 → i / 8 = x.sb.toNat →
      (∀ j < 16, elem new 4 (16 * (i % 8) + j) = at_ j) ∧ others 4 (16 * (i % 8)) 16) ∧
    (∀ g, (x.sb = 2 ∧ g = fp16) ∨ (x.sb = 3 ∧ g = bf16) →
      (∀ j < 16, elem new 2 (16 * i + j) = narrow16 g (at_ j) % 2 ^ 16) ∧ others 2 (16 * i) 16) := by
  intro new at_ others
  obtain ⟨hsome, hnone⟩ := rowEffect_acmv (c := c) (i := i) hd ha hr
  refine ⟨fun h hne => hnone ?_, fun h he => ?_, fun g hg => ?_⟩
  · rw [movedRow, if_pos h, if_neg hne]
  · have hnew : new = setRegBytes c.v[d] (4 * (16 * (i % 8))) (leBytes 64 (tileRow c.t[t] i).toNat) := by
      rw [← Nat.mul_assoc]
      exact hsome _ _ (by rw [movedRow, if_pos h, if_pos he])
    simp only [others, hnew]
    exact elem_setRegBytes_row _ (by omega)
  · have hnew : new = setRegBytes c.v[d] (2 * (16 * i)) (((List.range 16).map fun j => narrow16 g (at_ j)).map (leBytes 2)).flatten := by
      rw [← Nat.mul_assoc, List.map_map]
      refine hsome _ _ ?_
      rcases hg with ⟨hb, rfl⟩ | ⟨hb, rfl⟩ <;> (rw [movedRow, hb]; rfl)
    obtain ⟨hin, hout⟩ := elem_setRegBytes_packed (v := c.v[d]) (o := 16 * i) (z := 2)
      (l := (List.range 16).map fun j => narrow16 g (at_ j)) (by rw [List.length_map, List.length_range]; omega)
    rw [List.length_map, List.length_range, ← hnew] at hin hout
    exact ⟨fun j hj => by rw [hin j hj, getD_map_range _ _ hj], hout⟩

end RowEffect

end Sys2Proof.Machine
end

section
/-! Matrix and vector memory commands: accepted, and as the two paths of the matrix engine carry them out (R249, R262, R263, R267,
R271 to R281). -/

namespace Sys2Proof.Machine

theorem mmaB8_perform (s : State) : exec .mmaB8 s = performCmd s (mma .mmaB8 .b8) := rfl
theorem mmaF16_perform (s : State) : exec .mmaF16 s = performCmd s (mma .mmaF16 .f16) := rfl
theorem mmaBf16_perform (s : State) : exec .mmaBf16 s = performCmd s (mma .mmaBf16 .bf16) := rfl

/-! Both paths, through the event of their step -/

section Paths
variable {s : State} {x : Cmd}

/-- A step of the array path: rows once everything is read, else a granule, and a failed read a deferred fault (R272, R273). -/
theorem arrayPath_step (hev : s.ev = some (.engineCommandComplete x.unit .array))
    (hx : (s.core x.unit).executing .array = some x) :
    (x.loaded = true → exec .engineCommandComplete s = .next ((arrayWrite s x).getD s)) ∧
    (x.loaded = false → x.nextRead (x.memA ++ x.memB) = none →
      exec .engineCommandComplete s = .next ((arrayWrite s (x.full (s.core x.unit))).getD s)) ∧
    (x.loaded = false → ∀ g, x.nextRead (x.memA ++ x.memB) = some g →
      (∀ y, readGranule s x g = .ok y → exec .engineCommandComplete s =
        .next (s.setCmd (if y.nextRead (x.memA ++ x.memB) = none then y.full (s.core x.unit) else y))) ∧
      (∀ e, readGranule s x g = .error e → exec .engineCommandComplete s = .next
        (((deferFault s x e.1 e.2).setCmd { x with loaded := true, failed := true, step := 16 }).modCore x.unit
          fun c => { c with final := c.final.set (tileOf x.ops.d) 16 }))) := by
  have hnext : exec .engineCommandComplete s = .next ((arrayStep s x).getD s) := engineCommandComplete_next hev hx
  refine ⟨fun h => by rw [hnext, arrayStep_loaded h], fun h hn => by rw [hnext, arrayStep_read h hn], fun h g hn => ?_⟩
  obtain ⟨hok, herror⟩ := arrayStep_granule (s := s) h hn
  exact ⟨fun y hy => engineCommandComplete_goes hev hx (hok y hy), fun e he => engineCommandComplete_goes hev hx (herror e he)⟩

/-- A step of the row path: it waits for FINAL, does its next row, or ends (R271, R281). -/
theorem rowPath_step (hev : s.ev = some (.engineCommandComplete x.unit .row))
    (hx : (s.core x.unit).executing .row = some x) {tile : Fin 4} (ht : x.tileRead = tile) :
    let goes := fun t => exec .engineCommandComplete s = .next t
    let next := fun (t : State) (y : Cmd) => t.setCmd { y with step := y.step + 1 }
    let final := (s.core x.unit).final[tile].toNat
    (x.step < 16 → final ≤ x.step → x.todo = [] → goes s) ∧
    (x.step < 16 → x.step < final ∨ x.todo ≠ [] →
      (x.row = .acst → goes (writing s (if x.todo = [] then x.begin_ ((x.memA.drop (4 * x.step)).take 4)
        ((leBytes 64 (tileRow (s.core x.unit).t[tile] x.step).toNat).map some) else x) next)) ∧
      (x.row ≠ .acst → goes (next (s.setCore x.unit (rowEffect (s.core x.unit) x x.step)) x))) ∧
    (16 ≤ x.step → x.row ≠ .rstat ∨ x.sb.getLsbD 8 = false ∨ x.present s = false → goes (retireCmd s x)) ∧
    (16 ≤ x.step → x.row = .rstat → x.sb.getLsbD 8 = true → x.present s = true →
      ((s.core x.unit).firstMatrix x = true → (s.core x.unit).roomFor 4 = true →
        goes (retireCmd (appendEntry s x 4 (x.dseq.setWidth 64)) x)) ∧
      ((s.core x.unit).firstMatrix x = false ∨ (s.core x.unit).roomFor 4 = false → goes s)) := by
  subst ht
  have hgoes : ∀ {t}, rowStep s x = some t → exec .engineCommandComplete s = .next t := engineCommandComplete_goes hev hx
  have hwaits : rowStep s x = none → exec .engineCommandComplete s = .next s := engineCommandComplete_waits hev hx
  refine ⟨fun h hf hd => hwaits (rowStep_waits h hf hd), fun h hf => ⟨fun hr => ?_, fun hr => ?_⟩, fun h => ?_, fun h hr hb hp => ?_⟩
  · exact hgoes ((rowStep_next h hf).trans (congrArg some (rowNext_acst hr)))
  · exact hgoes ((rowStep_next h hf).trans (congrArg some (rowNext_register hr)))
  · obtain ⟨hend, -⟩ := rowStep_ends (s := s) h
    exact fun hn => hgoes (hend hn)
  · obtain ⟨hentry, hwait⟩ := (rowStep_ends (s := s) h).2 hr hb hp
    exact ⟨fun hf hroom => hgoes (hentry hf hroom), fun hn => hwaits (hwait hn)⟩

end Paths

/-- Settles O34: each command by the tests that its operands pass, each step of the two paths by what it finds read, written and
FINAL, and the rows and elements by the functions that make them. -/
theorem memoryAndTileCommands : Obligations.MemoryAndTileCommands := by
  unfold Obligations.MemoryAndTileCommands
  refine ⟨fun s a b h ha hb => ?_, fun s h => ?_, fun s u x hev hx hu => ?_, fun s x i hd => ?_, tilesBefore_iff,
    fun t r i j _ hj => tileRow_setTileRow t r hj, fun l j hj hl => rowElem_packRow hj hl, fun c x t hd => ?_,
    fun f c o fmt scale tags l i hi => operand_row f c o fmt scale tags l hi, fun s u x hev hx hu => ?_,
    fun c x d t i hd ha hi => ⟨rstat_results hd ha hi, acmv_results hd ha hi⟩⟩
  case refine_1 =>
    refine ⟨fun gs hg ht => ⟨?_, ?_⟩, fun hm gs hg ht => ⟨?_, ?_⟩, fun hm i hi => ?_, fun hk => ?_, fun rs hk hr ht => ?_⟩
    · exact command_taken h rfl rfl (vectorMem_ok ha hb .vld s.boundTo hg ht)
    · exact command_taken h rfl rfl (vectorMem_ok ha hb .vst s.boundTo hg ht)
    · exact command_taken h rfl rfl (vectorMem_ok ha hb .mld s.boundTo ((maskGrains_aligned hm _).trans hg) ht)
    · exact command_taken h rfl rfl (vectorMem_ok ha hb .mst s.boundTo ((maskGrains_aligned hm _).trans hg) ht)
    · simp only [List.mem_cons, List.not_mem_nil, or_false] at hi
      rcases hi with rfl | rfl
      · exact command_trapped h rfl (vectorMem_misaligned ha hb .mld s.boundTo hm)
      · exact command_trapped h rfl (vectorMem_misaligned ha hb .mst s.boundTo hm)
    · exact command_failed h rfl (cmdVldd_int ha hb s.boundTo hk)
    · exact command_taken h rfl rfl (cmdVldd_ok ha hb s.boundTo hk hr ht)
  case refine_2 =>
    refine ⟨command_taken h rfl rfl rfl, fun a b gs ha hb hg ht => ⟨?_, ?_⟩, fun b hb => ⟨fun hbad => ?_, fun i j hok hd _ => ?_,
      fun i j hok hd _ => ?_, ?_⟩, fun i j ha hb r hr => ?_, fun i j f => ?_, fun i j f ha hb => ?_⟩
    · exact command_taken h rfl rfl (tileCmd_ok ha hb .acld .array s.boundTo hg ht)
    · exact command_taken h rfl rfl (tileCmd_ok ha hb .acst .row s.boundTo hg ht)
    · exact command_failed h rfl (cmdAcmv_bad hb s.boundTo hbad)
    · exact command_taken h rfl rfl (cmdAcmv_intoTile hb s.boundTo hok hd)
    · exact command_taken h rfl rfl (cmdAcmv_outOfTile hb s.boundTo hok hd)
    · split
      next hbad => exact command_failed h rfl (cmdRstat_bad hb s.boundTo hbad)
      next hok => exact command_taken h rfl rfl (cmdRstat_ok hb s.boundTo hok)
    · revert r
      simp only [List.forall_mem_cons]
      refine ⟨?_, ?_, ?_, List.forall_mem_nil _⟩
      · exact command_taken h (mmaB8_perform s) rfl (mma_registers _ s.boundTo ha hb)
      · exact command_taken h (mmaF16_perform s) rfl (mma_registers _ s.boundTo ha hb)
      · exact command_taken h (mmaBf16_perform s) rfl (mma_registers _ s.boundTo ha hb)
    · cases f
      · exact mma_mixed h (mmaB8_perform s) i j
      · exact mma_mixed h (mmaF16_perform s) i j
      · exact mma_mixed h (mmaBf16_perform s) i j
    · cases f
      · exact mma_inMemory h (mmaB8_perform s) ha hb
      · exact mma_inMemory h (mmaF16_perform s) ha hb
      · exact mma_inMemory h (mmaBf16_perform s) ha hb
  case refine_3 =>
    subst hu
    exact arrayPath_step hev hx
  case refine_4 =>
    refine ⟨arrayWrite_row hd, fun h => (arrayWrite_completes hd h).1, fun h hw hp => ?_⟩
    obtain ⟨hroom, hwait⟩ := (arrayWrite_completes (s := s) hd h).2 hw hp
    exact ⟨hroom, hwait, watermarkEntry_fields hd⟩
  case refine_5 =>
    exact ⟨fun p hp hr i hi => mma_row hp hd hr hi, fun hr i hi => mzero_row hr hi, fun hr i hi j hj => acld_row hr hi hj,
      fun k hr ha i hi => acmv_row hd hr ha hi⟩
  case refine_6 =>
    subst hu
    exact rowPath_step hev hx (tileRead_eq x)

end Sys2Proof.Machine
end
